-- ==== Sys2Proof/Word.lean ====
section
/-! DEFINITION. Words, bytes and the two plain containers of the model: a 32-bit word (R11), a byte,
a sequence of bytes, and a table keyed by number. -/

namespace Sys2Proof

/-- A word is 32 bits (R11). -/
abbrev Word := BitVec 32

/-- A byte. -/
abbrev Byte := BitVec 8

/-- A sequence of bytes in ascending address order (R11). -/
abbrev Bytes := List (BitVec 8)

/-- A sparse table: pairs of a number and a value, numbers rising. What an unlisted number
stands for is said where the table is declared. -/
abbrev Tbl (α : Type) := List (Nat × α)

end Sys2Proof
end

