-- ==== Sys2Proof/Syntax.lean ====
section
/-! DEFINITION. The commands of the block: one constructor of `Instr` per row of
spec/opcode_table.json, in the table's order, and the operand types they carry. -/

namespace Sys2Proof

/-- The three channels of a triad and the memory lanes of the same letters (R18). -/
inductive Chan where
  | A | B | C
deriving DecidableEq, Repr

/-- The rails of R48 other than VAUX. -/
inductive Rail where
  | vcore | vsram | vsd | vsdh | vdram1 | vdram2 | vio | vio33
deriving DecidableEq, Repr

/-- A submit descriptor of 32 bytes, in eight words (R106). -/
structure Desc where
  w0 : Word := 0
  w1 : Word := 0
  w2 : Word := 0
  w3 : Word := 0
  w4 : Word := 0
  w5 : Word := 0
  w6 : Word := 0
  w7 : Word := 0
deriving DecidableEq, Repr

/-- A Heartwood command as consumed from a command ring: its ring, the generation and descriptor of
R106 and R145, and the bytes of its input or data block as Heartwood read them (R145). -/
structure Cmd where
  ring : Nat := 2049
  desc : Desc := {}
  block : Bytes := []
deriving DecidableEq, Repr

/-- A VLAN tag: its tag EtherType, 8100h or 88A8h, and its VID, PCP and DEI (R251). -/
structure Vlan where
  tpid : Nat := 0x8100
  vid : Nat := 0
  pcp : Nat := 0
  dei : Bool := false
deriving DecidableEq, Repr

/-- The HSR tag or the PRP trailer of a frame: LanId or PathId, LSDUsize, sequence number (R281, R282). -/
structure RedTag where
  lan : Nat := 0
  size : Nat := 0
  seq : Nat := 0
deriving DecidableEq, Repr

/-- The IEC 62351-6 extension of a frame (R438): whether it is well formed, its Key ID, its 96-bit
initialisation vector and its MAC. -/
structure AuthExt where
  wellFormed : Bool := true
  keyId : Nat := 0
  iv : Nat := 0
  mac : Nat := 0
deriving DecidableEq, Repr

/-- One ASDU of a sampled-value frame (R331, R332): samples are value and quality; `rest` counts the octets of seqData after
the last whole pair. -/
structure Asdu where
  svId : Bytes := []
  smpCnt : Nat := 0
  confRev : Nat := 0
  smpSynch : Nat := 2
  smpRate : Option Nat := none
  smpMod : Option Nat := none
  samples : List (Int × Word) := []
  rest : Nat := 0
deriving DecidableEq, Repr

/-- The sampled-value part of a frame (R331, R332). -/
structure SvApdu where
  wellFormed : Bool := true
  sBit : Bool := false
  asdus : List Asdu := []
deriving DecidableEq, Repr

/-- The GOOSE part of a frame (R348, R350, R355). -/
structure GoosePdu where
  wellFormed : Bool := true
  sBit : Bool := false
  gocbRef : Bytes := []
  tal : Nat := 0
  datSet : Bytes := []
  goId : Option Bytes := none
  t : Bytes := []
  stNum : Word := 1
  sqNum : Word := 0
  simulation : Bool := false
  confRev : Nat := 0
  ndsCom : Bool := false
  numEntries : Nat := 0
  allData : Bytes := []
deriving DecidableEq, Repr

/-- PTP messages (R277, R301, R304, R308, R310). -/
inductive PtpKind where
  | sync | delayReq | pdelayReq | pdelayResp | followUp | delayResp | announce | other
deriving DecidableEq, Repr

/-- The fields of a PTP message that the module uses (R301, R304, R307 to R310). `version` and `minor` are
versionPTP and minorVersionPTP; `corr` is the correctionField in 2⁻¹⁶ ns; `origin` is the origin, receive or precise-origin timestamp in ns;
`clock` and `portNum` name the sender; `reqClock` and `reqPort` the requester of a response. -/
structure PtpMsg where
  kind : PtpKind := .other
  messageType : Nat := 0
  version : Nat := 2
  minor : Nat := 1
  domain : Nat := 0
  seq : Nat := 0
  twoStep : Bool := false
  corr : Int := 0
  origin : Nat := 0
  clock : Nat := 0
  portNum : Nat := 0
  logInt : Int := 0
  reqClock : Nat := 0
  reqPort : Nat := 0
  prio1 : Nat := 128
  cls : Nat := 248
  accuracy : Nat := 254
  variance : Nat := 65535
  prio2 : Nat := 128
  gmId : Nat := 0
  steps : Nat := 0
  tsource : Nat := 160
  utc : Nat := 0
  gmTlv : Option (Nat × Nat) := none
deriving DecidableEq, Repr

/-- A Seedling request (R172): version and type, serial, exchange number, descriptor and block. -/
structure SeedReq where
  version : Nat := 1
  type : Nat := 1
  serial : Nat := 0
  xid : Nat := 0
  desc : Desc := {}
  block : Bytes := []
deriving DecidableEq, Repr

/-- The TLVs of a supervision frame (R284, IEC 62439-3): the type of its first TLV, the node that it names, the RedBox
that sends it for a proxied node, and its sequence number. -/
structure Sup where
  tlv : Nat := 20
  node : Nat := 0
  redBox : Option Nat := none
  seq : Nat := 0
deriving DecidableEq, Repr

/-- What a frame carries after its addresses and EtherType, as its standards read it. A UDP/IPv4 datagram has its
destination port and its UDP checksum. -/
inductive Body where
  | raw
  | sv (a : SvApdu)
  | goose (g : GoosePdu)
  | ptp (m : PtpMsg)
  | udp4 (port csum : Nat) (m : Option PtpMsg)
  | udp6 (port : Nat)
  | macControl (opcode quanta : Nat)
  | supervision (x : Sup)
deriving DecidableEq, Repr

/-- An Ethernet frame as the switch core sees it. `len` counts from the destination address through
the FCS; `etype` is the EtherType after the first tag and any HSR tag, `appid` the two bytes after it where it
is one of GOOSE or sampled values; `payload` holds the bytes that follow, up to any authentication extension, RCT or
FCS, and is empty in a frame that the module makes from its `body`; addresses are 48-bit numbers whose most significant byte is first on the wire. -/
structure Frame where
  da : Nat := 0
  sa : Nat := 0
  vlan : Option Vlan := none
  etype : Nat := 0
  appid : Nat := 0
  len : Nat := 64
  auth : Option AuthExt := none
  hsr : Option RedTag := none
  rct : Option RedTag := none
  body : Body := .raw
  payload : Bytes := []
deriving DecidableEq, Repr

/-- A frame at a port's receiver (R227, R228, R239): the frame, the FRC time of its SFD at the MII
boundary in 2⁻¹⁶ ns, the FRC time of its end, and what the wire did to it. -/
structure RxFrame where
  frame : Frame := {}
  sfd : Nat := 0
  codeError : Bool := false
  oddNibble : Bool := false
  fcsOk : Bool := true
  frags : Nat := 0
  assyErr : Bool := false
  smdErr : Bool := false
deriving DecidableEq, Repr

/-- A copy of a PTP message in the time-base engine (R311): ingress port, receive timestamp at the
land in 2⁻¹⁶ ns of the FRC (none when lost, R314), message, and the frame's destination transport. -/
structure PtpCopy where
  port : Nat := 0
  ts : Option Nat := none
  udp4 : Bool := false
  msg : PtpMsg := {}
deriving DecidableEq, Repr

/-- The payload that an emitting descriptor points to (R100, R185). -/
inductive Payload where
  | frame (f : Frame)
  | bytes (b : Bytes)
deriving DecidableEq, Repr

/-- An access of P0 to the mirror of the setup window (R12, R557): its width in bytes, and the word of a write. -/
structure MirrorAccess where
  width : Nat := 4
  write : Option Word := none
deriving DecidableEq, Repr

/-- The emissions the voter compares (R185, R557). A payload is the payload of one operation, a
parameter block that of one P0 command; a mirror access is its offset and what it does there. -/
inductive Emission where
  | doorbell (ring : Nat) (prod : Word)
  | descriptor (ring : Nat) (seq : Word) (d : Desc)
  | payload (ring : Nat) (seq : Word) (p : Payload)
  | signature (part : Nat) (crc : BitVec 64)
  | mirror (offset : Nat) (access : MirrorAccess)
deriving DecidableEq, Repr

/-- Accesses of FIRST_TOUCH (R201, R202). -/
inductive Access where
  | fetch | load | store | amo | engine
deriving DecidableEq, Repr

/-- Reasons a run ends (R195, R547). -/
inductive RunEnd where
  | slot | yield | budget | tail | preempt | dirty | move | refresh
deriving DecidableEq, Repr

/-- Register state saved at the end of a run (R562): the 75 values of 8 bytes in its order. -/
abbrev Ctx := List Nat

/-- What the read of one image source found (R92, R155, R166): whether the source answers, how long a flash erase
that a reset cut still kept it busy, and the header and body as they stand there. -/
structure ImageSeen where
  answers : Bool := true
  busyNs : Nat := 0
  header : Bytes := []
  body : Bytes := []
deriving DecidableEq, Repr

/-- The kinds of class B command (R153). -/
inductive BKind where
  | image | blob | pairing
deriving DecidableEq, Repr

/-- What a class B command meets outside the module (R154): the flash's answer and the image read. -/
structure BReply where
  flashOk : Bool := true
  image : ImageSeen := {}
deriving DecidableEq, Repr

/-- Causes of LINK_DOWN (R225, R247). -/
inductive DownCause where
  | pcs | localFault | admin | reset | sdclk
deriving DecidableEq, Repr

/-- What a PAIR frame carries (R483): serial, module ID, position, MODREV, ROM and image versions,
grove tag, and the VALID Branches as slot, owner, partition and identity. -/
structure PairInfo where
  serial : Nat := 0
  id : Nat := 0
  peer : Nat := 0
  pos : Nat := 0
  modrev : Word := 0
  rom : Word := 0
  version : Word := 0
  active : Bool := false
  idle : Bool := false
  onlyP0 : Bool := true
  grove : Option Nat := none
  branches : List (Nat × Nat × Nat × Nat) := []
deriving DecidableEq, Repr

/-- One output channel's values as the STATE frame carries them (R467). -/
structure ChanValues where
  p : Nat := 0
  h : Nat := 0
  stP : Nat := 0
  stH : Nat := 0
deriving DecidableEq, Repr

/-- One publication entry's values as the STATE frame carries them (R356, R467). -/
structure PubValues where
  stNum : Nat := 0
  sqNum : Nat := 0
  data : Bytes := []
  numEntries : Nat := 0
  changeAt : Nat := 0
  step : Nat := 0
  nextAt : Nat := 0
deriving DecidableEq, Repr

/-- The mark of one ring (R127): A, C, K and the generation. -/
structure RingMark where
  a : Word := 0
  c : Word := 0
  k : Word := 0
  gen : Nat := 1
deriving DecidableEq, Repr

/-- A mirrored journal entry (R126, R467): ring, generation, sequence, descriptor, whether it is
still RUNNING, its states WITHDRAWN and LOOSE, whether a save keeps it, and its status, flags and result word once
done. -/
structure JEntry where
  ring : Nat := 0
  gen : Nat := 1
  seq : Word := 0
  desc : Desc := {}
  running : Bool := true
  withdrawn : Bool := false
  loose : Bool := false
  saved : Bool := false
  status : Nat := 0
  cflags : Nat := 0
  result : Word := 0
deriving DecidableEq, Repr

/-- An item of a STATE frame (R467): a publication entry, an output channel, or the counter of a PRP or HSR
instance. -/
inductive StateItem where
  | pub (n : Nat) (v : PubValues)
  | chan (n : Nat) (v : ChanValues)
  | redun (n counter : Nat)
deriving DecidableEq, Repr

/-- The frames of the tick record (R467). -/
inductive MirrorFrame where
  | page (part iova : Nat) (lines : List (Nat × Bytes))
  | context (part : Nat) (ctx : Ctx) (crc : BitVec 64)
  | journal (entries : List JEntry)
  | ringMark (marks : List (Nat × RingMark))
  | state (items : List StateItem)
deriving DecidableEq, Repr

/-- The COMMIT of a tick (R467, R563): the tick start, the frame count, the CRC-64, the highest OSN
of the tick and the input digest of each mirrored partition (R475). -/
structure CommitInfo where
  mark : Nat := 0
  count : Nat := 0
  crc : BitVec 64 := 0
  osn : Nat := 0
  digests : List (Nat × BitVec 64) := []
deriving DecidableEq, Repr

/-- The LOG frame of an operation (R474). -/
structure LogInfo where
  part : Nat := 0
  ring : Nat := 0
  seq : Word := 0
  crc : Word := 0
  status : Nat := 0
  result : Word := 0
  changeAt : Nat := 0
deriving DecidableEq, Repr

/-- What an ACK says beside the next `LSEQ` of each lane (R462, R468, R478): the mark that it names, whether its
sender is SHADOWING and meets R5's conditions on triads, lanes and the spare, and the partitions CURRENT on it. -/
structure AckInfo where
  mark : Option Nat := none
  shadowing : Bool := false
  sound : Bool := false
  current : List Nat := []
deriving DecidableEq, Repr

/-- A forwarded command and the active's status of it (R470). -/
structure FwdCmd where
  cmd : Cmd
  status : Nat := 0
deriving DecidableEq, Repr

/-- How a frame reaches the module (R461, R462): its lane, its `LSEQ`, whether its CRC-32C holds, and its `MARK`. -/
structure GLink where
  lane : Nat := 0
  lseq : Word := 0
  crcOk : Bool := true
  mark : Nat := 0
deriving DecidableEq, Repr

/-- The content of a frame with the lane that brings it. -/
structure OnLink (α : Type) where
  link : GLink := {}
  body : α
deriving DecidableEq, Repr

/-- The content of a Graft frame that the module sends (R461, R464, R467, R468, R470, R474, R483). -/
inductive GBody where
  | hello (osn : Nat)
  | ack (lane0 lane1 : Nat) (info : AckInfo)
  | resign
  | taken
  | log (l : LogInfo)
  | cmd (c : FwdCmd)
  | cmdack (ring : Nat) (seq : Word) (status : Nat)
  | unpair
  | mirror (f : MirrorFrame)
  | commit (c : CommitInfo)
  | pair (p : PairInfo)
  | sync (part iova : Nat) (data : Bytes)
deriving DecidableEq, Repr

/-- The address of an access: the IOVA, and the guest virtual address that the access used (R180, R202); of a CPU
access also its mode and the context at it, which an exception changes. -/
structure Touch where
  iova : Nat := 0
  va : Nat := 0
  vu : Bool := false
  ctx : Ctx := []
deriving DecidableEq, Repr

/-- How a partition yields (R180, R182): a WFI or a write of `pctl.YIELD`, the mode of the instruction, and the
instruction itself. -/
structure YieldBy where
  wfi : Bool := false
  vu : Bool := false
  insn : Nat := 0
deriving DecidableEq, Repr

/-- A write of `pwake` (R182): its bits, the mode of the instruction, the instruction and the context at it. -/
structure PwWrite where
  bits : Word := 0
  vu : Bool := false
  insn : Nat := 0
  ctx : Ctx := []
deriving DecidableEq, Repr

/-- What the MAC meets as it sends: an express frame that became ready after so many bytes (R238), and whether
carrier was sensed when the MAC was ready (R234). -/
structure TxMoment where
  preemptAt : Option Nat := none
  carrier : Bool := false
deriving DecidableEq, Repr

/-- Every row of spec/opcode_table.json. -/
inductive Instr where
  /-- NOP: the NOP consumed on `ring` at sequence `seq`. -/
  | nop (ring : Nat) (seq : Word)
  | partCreate (c : Cmd)
  | partStart (c : Cmd)
  | partStop (c : Cmd)
  | partReset (c : Cmd)
  | partDestroy (c : Cmd)
  | partQuota (c : Cmd)
  | partFreeze (c : Cmd)
  | partSave (c : Cmd)
  | partRestore (c : Cmd)
  | partThaw (c : Cmd)
  | cnpSchedule (c : Cmd)
  | cnpBudget (c : Cmd)
  | cnpWake (c : Cmd)
  | cnpSpare (c : Cmd)
  | cnpTick (c : Cmd)
  | triadReset (c : Cmd)
  | triadRejoin (c : Cmd)
  | moduleReset (c : Cmd)
  | bootComplete (c : Cmd)
  | ringCreate (c : Cmd)
  | ringEnable (c : Cmd)
  | ringDisable (c : Cmd)
  | ringReset (c : Cmd)
  | ringDestroy (c : Cmd)
  | ringShare (c : Cmd)
  | ringQuery (c : Cmd)
  | svSubscribe (c : Cmd)
  | svEnable (c : Cmd)
  | svDisable (c : Cmd)
  | svRemove (c : Cmd)
  | svSource (c : Cmd)
  | gooseSubscribe (c : Cmd)
  | gooseUnsubscribe (c : Cmd)
  | goosePubSet (c : Cmd)
  | goosePubEnable (c : Cmd)
  | goosePubDisable (c : Cmd)
  | fltChannel (c : Cmd)
  | fltThreshold (c : Cmd)
  | fltCoeff (c : Cmd)
  | portConfig (c : Cmd)
  | portEnable (c : Cmd)
  | portDisable (c : Cmd)
  | portReset (c : Cmd)
  | portFilter (c : Cmd)
  | swExactAdd (c : Cmd)
  | swExactDel (c : Cmd)
  | swWildSet (c : Cmd)
  | swWildDel (c : Cmd)
  | swQueue (c : Cmd)
  | swRed (c : Cmd)
  | swRedun (c : Cmd)
  | swPaths (c : Cmd)
  | tbConfig (c : Cmd)
  | tbEnable (c : Cmd)
  | tbDisable (c : Cmd)
  | tbRearm (c : Cmd)
  | tbPps (c : Cmd)
  | keyLoad (c : Cmd)
  | keyInvalidate (c : Cmd)
  | keyQuery (c : Cmd)
  | keyRollover (c : Cmd)
  | acqConfig (c : Cmd)
  | acqArm (c : Cmd)
  | acqDisarm (c : Cmd)
  | acqTrigger (c : Cmd)
  | acqRelease (c : Cmd)
  | gftPair (c : Cmd)
  | gftUnpair (c : Cmd)
  | gftMirror (c : Cmd)
  | gftSwitch (c : Cmd)
  | gftStatus (c : Cmd)
  | logRead (c : Cmd)
  | logNote (c : Cmd)
  | eccBucket (c : Cmd)
  | eccQuery (c : Cmd)
  | imgErase (c : Cmd)
  | imgWrite (c : Cmd)
  | imgCheck (c : Cmd)
  | imgHostLoad (c : Cmd)
  | imgHostStart (c : Cmd)
  | imgFloor (c : Cmd)
  | seedlingExit (c : Cmd)
  | outConfig (c : Cmd)
  | outEnable (c : Cmd)
  | outDisable (c : Cmd)
  | outInhClear (c : Cmd)
  | binConfig (c : Cmd)
  | binEnable (c : Cmd)
  | binDisable (c : Cmd)
  | obsTrace (c : Cmd)
  | obsSnapshot (c : Cmd)
  | snsConfig (c : Cmd)
  | snsRead (c : Cmd)
  | obsIdent (c : Cmd)
  | classBFinish (kind : BKind) (reply : BReply)
  | send (ring : Nat) (seq : Word) (frame : Frame)
  | recv (ring : Nat) (seq : Word)
  | publish (ring : Nat) (seq : Word) (data : Bytes)
  | exportRec (ring : Nat) (seq : Word)
  | stage (ring : Nat) (seq : Word)
  | load (ring : Nat) (seq : Word) (block : Bytes)
  | pulse (ring : Nat) (seq : Word)
  /-- A store of `prod` to PROD; `ccons` is CCONS as the module reads it, and on a command ring
  `econs` and `een` are ECONS and EEN of its event line as the module reads them. -/
  | doorbell (ring : Nat) (prod ccons econs een : Word)
  | descriptorConsume (ring : Nat) (d : Desc) (block : Bytes)
  | completionWrite (ring : Nat)
  | tickBoundary
  /-- The tail starts: for each triad with a run, the retired-instruction counts of its channels and the
  saved context. -/
  | tailStart (saved : List (Nat × List Nat × Ctx))
  | dispatch (triad : Nat)
  /-- A run ends on `triad`: the reason, the retired-instruction counts at which the channels
  stopped, and the context saved at the alignment. -/
  | runEnd (triad : Nat) (why : RunEnd) (counts : List Nat) (ctx : Ctx)
  | wake
  | yield (triad : Nat) (by_ : YieldBy) (ctx : Ctx)
  | pwakeClear (part : Nat) (write : PwWrite)
  | firstTouch (part : Nat) (addr : Touch) (kind : Access)
  /-- A first store; `ctx` is the context saved where the dirty limit ends the run. -/
  | firstStore (part iova : Nat) (data : Bytes) (ctx : Ctx)
  | vote (triad : Nat) (ch : Chan) (e : Emission)
  | voteToleranceEnd (triad : Nat)
  | rejoinComplete (triad : Nat)
  | p0MirrorAccess (offset : Nat) (access : MirrorAccess)
  | registerWrite (offset width : Nat) (value : Word)
  | cfgLock (value : Word)
  | swHash (value : Word)
  | capture (value : Word)
  | obsStatClear (value : Word)
  | vauxRise
  | railGood (r : Rail)
  | porRelease
  | railFault (r : Rail)
  | refclkLoss
  | refclkReturn
  | sdclkLoss
  | perstN (high : Bool)
  | temperatureTrip
  | tjConversion (ssd cmp : BitVec 16)
  /-- PFAIL_N low for `ns`. -/
  | pfailN (ns : Nat)
  | resetN (high : Bool) (ns : Nat)
  | wrstN (high : Bool) (ns : Nat)
  | bootTimerExpiry
  | watchdogExpiry
  | resetRelease
  /-- The words of the fuse array as loaded, and the CRC-32 that follows them. -/
  | trimLoadEnd (words : List Word) (crc : Word)
  | strapMeasurementEnd (codes : List Nat)
  | pllLock
  | lanesTrained (noSpare : List Nat)
  | heartwoodStart
  | imageSourceDone (seen : ImageSeen)
  | hostWindowExpiry
  | seedlingFrameRx (frame : Frame) (q : SeedReq)
  | seedlingAnnounce
  | stoppingEnd (kind index : Nat)
  | signalDetect (port : Nat)
  | pcsUp (port : Nat)
  | upHoldExpiry (port : Nat)
  | linkDown (port : Nat) (cause : DownCause)
  /-- An auto-negotiation result: speed code 0 to 2 of R223, full duplex, well-formed word. -/
  | anegResult (port speed : Nat) (full ok : Bool)
  | frameRx (port : Nat) (f : RxFrame)
  | pauseTimerExpiry (port : Nat)
  /-- The MAC takes the frame handed to it; `sfd` is the FRC time of its SFD at the MII boundary, in
  2⁻¹⁶ ns. -/
  | frameTx (port : Nat) (sfd : Nat) (meets : TxMoment)
  | collision (port bits : Nat)
  | backoffExpiry (port : Nat)
  | verifyMpacketTimer (port : Nat)
  | respondMpacketRx (port : Nat)
  | switchIngress (source : Nat)
  | verificationVerdict (lane : Nat)
  | egress (port : Nat)
  | pathReturn (group member : Nat)
  | entryForget (node : Nat)
  | nodeForget (node : Nat)
  | supervisionTx (inst : Nat)
  | syncRx (c : PtpCopy)
  | announceRx (c : PtpCopy)
  | delayRespRx (c : PtpCopy)
  | sourceLoss (tb : Nat)
  | delayReqTx (tb : Nat)
  | gmAnnounceSyncTx (tb port : Nat)
  | delayReqRx (c : PtpCopy)
  | pdelayReqTx (port : Nat)
  | pdelayReqRx (c : PtpCopy)
  | pdelayRespRx (c : PtpCopy)
  | compareFire (id : Nat)
  /-- A rising edge of PPS_IN at FRC time `at_` in 2⁻¹⁶ ns. -/
  | ppsInEdge (at_ : Nat)
  | ppsOutFall
  | svFrameRx
  | svTickDeadline (stream tick : Nat)
  | svTickClose (stream : Nat)
  | streamLost (stream : Nat)
  | automaticSourceSwitch (stream : Nat)
  | rephase
  | gooseFrameRx
  | talExpiry (sub : Nat)
  | gooseRetransmission (entry : Nat)
  | filterSlot
  | triggerLevelChange
  | se1GooseRx
  | rowForm (rec : Nat)
  | recordStored (rec : Nat)
  | keySweep (slot : Nat)
  | overlapEnd (slot : Nat)
  | tag (lane : Nat)
  | graftLaneUp (lane : Nat)
  | graftLaneDown (lane : Nat)
  /-- A HELLO and the OSN that it reports; none where its CRC fails. -/
  | hello (lane : Nat) (lseq : Word) (osn : Option Nat)
  /-- An ACK: the next LSEQ the partner expects on each lane, and what else it says. -/
  | ack (lane0 lane1 : Word) (a : OnLink AckInfo)
  | partnerLost
  | resign
  | taken
  | takenTimeout
  | activeNHigh
  | claimConfirmation (low : Bool)
  | keepaliveLapse
  | cmd (c : OnLink FwdCmd)
  | cmdack (ring : Nat) (seq : Word) (status : OnLink Nat)
  | log (l : OnLink LogInfo)
  | mirrorFrame (link : GLink) (f : MirrorFrame)
  | commit (link : GLink) (c : CommitInfo)
  | pair (p : OnLink PairInfo)
  | sync (part iova : Nat) (data : Bytes) (link : GLink)
  | unpair
  | correctableError (mem : Nat) (loc : BitVec 64)
  | uncorrectableError (mem : Nat) (loc : BitVec 64)
  | scrubLapEnd (mem ms : Nat)
  | scrubLapLate (mem : Nat)
  | bucketLeak
  | operatingSecond
  | logbookRecord (source : Nat)
  | flushTimer
  | flushComplete
  /-- A transition at a binary-input land: the new level and its FRC time in 2⁻¹⁶ ns. -/
  | binTransition (input : Nat) (level : Bool) (at_ : Nat)
  | binFilterWindowEnd (input : Nat)
  | periodStart (ch : Nat)
  | phaseEnd (ch : Nat)
  | deadTimeEnd (ch : Nat)
  | pullInEnd (ch : Nat)
  | pulseEnd (ch : Nat)
  /-- OUTINH_N takes a level, held for `ns` so far. -/
  | outinhN (high : Bool) (ns : Nat)
  | sensorPoll (entry : Nat) (acked : Bool) (value : BitVec 16)
  | traceUnit (lane : Nat)
  | traceRecord
  | vauxFault
  | pcsDrop (port : Nat)
  | followUpRx (c : PtpCopy)
  | verifyMpacketRx (port : Nat)
  | frameScrubbed
deriving DecidableEq, Repr

end Sys2Proof
end

