-- ==== Sys2Proof/Config.lean ====
section
/-! DEFINITION. What the part fixes (sizes the spec states), what a device is fused with, and the
values the spec leaves open, which are opaque: nothing in Lean can see them. -/

namespace Sys2Proof.Config

/-- The device serial of the fuse array (R171, R291). -/
opaque serial : BitVec 64

/-- The fused address of port 0 (R172, R240, R296). -/
opaque mac0 : BitVec 48

/-- The ROM version (R171, R483). -/
opaque romVersion : Word

/-- The 32-bit IV prefix of the fuse array (R440). -/
opaque ivPrefix : BitVec 32

/-- The Root of the fuse array (R423), as bytes. -/
opaque root : Bytes

/-- The image-key hash of the fuse array: SHA-384 of the key that images must carry (R166). -/
opaque imageKeyHash : Bytes

/-- The span of a frame's bytes, without its extension, that the MAC of IEC 62351-6 covers (R438). -/
opaque coveredSpan : Bytes → Bytes

/-- The bytes of the authentication extension as IEC 62351-6 lays it out (R438). -/
opaque authBytes : AuthExt → Bytes

/-- The payload of a frame that the module makes, as the standard of its body encodes it (IEC 61850-8-1,
IEEE 1588, IEC 62439-3). -/
opaque bodyBytes : Body → Bytes

/-- PathId of the HSR tag as its standard gives it: mode, ring port A 0 or B 1, and `PRP_LAN` (R281). -/
opaque pathId : Nat → Nat → Bool → Nat

/-- How many RedBoxes the module has proxy-table space for (R280 names the shortage, not the number). -/
opaque proxyTables : Nat

/-- The payload of a Graft frame whose layout the spec does not give; of a frame whose length it gives, the model takes
that many bytes of it. -/
opaque graftPayload : GBody → Bytes

/-- Free values (log entry 2): the n-th value the spec leaves open. -/
opaque freeValue : Nat → Nat

/-- Labels of R423, R429, R432 and R483, in ASCII: each begins `OTK48 `. -/
def label (rest : Bytes) : Bytes := [0x4F, 0x54, 0x4B, 0x34, 0x38, 0x20] ++ rest
/-- `OTK48 transport`. -/
def labelTransport : Bytes := label [0x74, 0x72, 0x61, 0x6E, 0x73, 0x70, 0x6F, 0x72, 0x74]
/-- `OTK48 slot seal`. -/
def labelSlotSeal : Bytes := label [0x73, 0x6C, 0x6F, 0x74, 0x20, 0x73, 0x65, 0x61, 0x6C]
/-- `OTK48 wrap`. -/
def labelWrap : Bytes := label [0x77, 0x72, 0x61, 0x70]
/-- `OTK48 grove seal`. -/
def labelGroveSeal : Bytes := label [0x67, 0x72, 0x6F, 0x76, 0x65, 0x20, 0x73, 0x65, 0x61, 0x6C]
/-- `OTK48 grove tag`. -/
def labelGroveTag : Bytes := label [0x67, 0x72, 0x6F, 0x76, 0x65, 0x20, 0x74, 0x61, 0x67]
/-- `OTK48 branch id`. -/
def labelBranchId : Bytes := label [0x62, 0x72, 0x61, 0x6E, 0x63, 0x68, 0x20, 0x69, 0x64]

/-- Entries of the replay journal (R126). -/
def journalMax : Nat := 32768
/-- Frames of the free pool (R200). -/
def poolFrames : Nat := 0x3E0000
/-- Frames of the undo pool (R200). -/
def undoFrames : Nat := 65536
/-- Records of an event ring (R147). -/
def eventRingMax : Nat := 4096
/-- Cells of the packet buffer and of each internal reserve (R264). -/
def packetCells : Nat := 196608
def reserveCells : Nat := 2048
/-- Records of the volatile buffer and of the MRAM ring (R505, R509). -/
def logBufMax : Nat := 4096
def logRingMax : Nat := 130048
/-- The Heartwood command rings (R99). -/
def ringP0 : Nat := 2048
def ringHost : Nat := 2049
/-- The base in `mem` of the BAR2 region (after the address spaces of the 256 partitions). -/
def bar2Base : Nat := 256 * 2 ^ 48

end Sys2Proof.Config
end

