-- ==== Sys2Proof/Machine/State.lean ====
section
/-! DEFINITION. The state of the block: plain data, every piece the spec names, and the state right
after reset. A table (`Tbl`) lists only what differs from the COLD value its docstring names. -/

namespace Sys2Proof.Machine

open Sys2Proof

/-- Reasons the block stops. -/
inductive Fault where
  /-- Raised by a command that names an object R18 does not give the module (a port above 47, a
  triad above 15, a ring above 2,049). Safe: the module has no such object. -/
  | noSuchObject
  /-- Raised where a rail rises in a way that breaks the order of R50: "the result is not defined"
  (R51). Safe: nothing is claimed of the module from then on. -/
  | supplyOrder
deriving DecidableEq, Repr

/-- Reasons a command has no meaning. -/
inductive Refusal where
  /-- Raised by an arm of exec that has no meaning yet. Safe. -/
  | notModelled (mnemonic : String)
deriving DecidableEq, Repr

/-- OFF, STOPPING and ON (R149). -/
inductive Enable where
  | off | stopping | on
deriving DecidableEq, Repr

/-- The FRC and the always-on island's time (R292; log entry 3). `now` counts ns since VAUX rise. -/
structure Clock where
  now : Nat := 0
  frc : Nat := 0
  frcOn : Bool := false
deriving DecidableEq, Repr

/-- Rails, reference clocks, power-fail and temperature (R48, R52, R55, R60, R61, R69 to R72). `refAt` is
when REFCLK was last lost; `ssdNow` and `cmpNow` are the sensors' last readings, which the trip of R72
judges in every reset. `risen`: VAUX has been good since the supplies last were all down (R50 to R52). -/
structure Power where
  vaux : Bool := false
  risen : Bool := false
  rails : List Rail := []
  lastGood : Nat := 0
  refclk : Bool := true
  refAt : Nat := 0
  sdclk : Bool := true
  ssdNow : BitVec 16 := 0x8000
  cmpNow : BitVec 16 := 0x8000
  trip : Bool := false
  tjSsd : BitVec 16 := 0x8000
  tjCmp : BitVec 16 := 0x8000
  alm : Bool := false
  limit : BitVec 16 := 0x0960
deriving DecidableEq, Repr

/-- Reset sources of COLD and WARM reach (R74), in the order of the bits of `RST_CAUSE` (R96). -/
inductive Source where
  | porRail | porRefclk | porTemp | resetN | bootTimer | cmdCold | wrstN | wdog | cmdWarm
deriving DecidableEq, Repr

/-- COLD and WARM, the two broad reaches (R81). -/
inductive Reach where
  | cold | warm
deriving DecidableEq, Repr

/-- Steps of the release sequence (R91): held in reset; trim load; strap measurement; PLL lock;
memory training; held at WARM reach; Heartwood started. -/
inductive Phase where
  | held | trim | strap | pll | lanes | warmHold | started
deriving DecidableEq, Repr

/-- The reset and strap controller (R74 to R98). `sources` pairs each asserted source with the end
of its pulse, if it is a pulse; `needAll` says that the release sequence was stopped or its load aborted, so
that every source must be released first (R82, R84); `shadow` holds the shadow registers of the fuse array
(R83); `pcieAt` is the later of PLL lock and PERST_N high, none while the PCIe endpoint is in reset. -/
structure Rst where
  sources : List (Source × Option Nat) := [(.porRail, none)]
  reach : Option Reach := some .cold
  phase : Phase := .held
  phaseAt : Nat := 0
  resetN : Bool := true
  wrstN : Bool := true
  perstN : Bool := false
  needAll : Bool := false
  shadow : List Word := []
  pcieAt : Option Nat := none
  trimAborts : Nat := 0
  aborts : Nat := 0
  loadFail : Bool := false
  strapTries : Nat := 0
  strapInvalid : Bool := false
  strapOk : Bool := false
  strapCode : Nat := 0
  strapBin : Nat := 0
  cause : BitVec 10 := 0x201
  lastReach : Nat := 1
  cfgLock : Bool := false
deriving DecidableEq, Repr

/-- What the module has made of a flash slot (R92, R155, R166): erased, the pages of 256 bytes whose programming
a reset or a flash error cut, and the pages programmed since. -/
structure FlashSlot where
  erased : Bool := true
  partialWrite : List Nat := []
  pages : Tbl Bytes := []
deriving DecidableEq, Repr

/-- Start-up, image and Seedling state (R88, R92 to R98, R166 to R168, R172). `flashBusy`: a reset cut an erase
that the flash goes on with (R155). -/
structure Boot where
  startAt : Nat := 0
  timerOn : Bool := false
  sources : List Nat := []
  readAt : Nat := 0
  hostOpen : Bool := false
  hostPending : Bool := false
  lastStatus : Nat := 0
  lastTried : Nat := 7
  running : Bool := false
  done : Bool := false
  slot : Nat := 7
  seedling : Bool := false
  version : Word := 0
  staging : Tbl Bytes := []
  flash : Tbl FlashSlot := []
  flashBusy : Bool := false
  seedXid : Option Nat := none
  seedFrom : Nat := 0
  seedReply : Bytes := []
  seedAt : Nat := 0
  seedOut : List Bytes := []
  announces : Nat := 0
deriving DecidableEq, Repr

/-- The Ordering Arbiter: the last OSN issued and the priority pointer (R28, R35, R37). -/
structure Arb where
  osn : Nat := 0
  ptr : Nat := 0
deriving DecidableEq, Repr

/-- One event ring with the module's words of its event line (R147). -/
structure EvRing where
  eprod : Word := 0
  elost : Word := 0
  econs : Word := 0
  een : Word := 0
deriving DecidableEq, Repr

/-- A class B command that runs beside the executor (R153). -/
structure BCmd where
  kind : BKind
  cmd : Cmd
  since : Nat := 0
deriving DecidableEq, Repr

/-- One entry of the sensor poll list with what was last read (R171). -/
structure Poll where
  addr : Nat := 0
  reg : Nat := 0
  len : Nat := 0
  speed : Nat := 0
  period : Nat := 0
  value : BitVec 16 := 0
  acked : Bool := false
  readAt : Option Nat := none
deriving DecidableEq, Repr

/-- A command forwarded to the standby whose CMDACK has not come (R470). -/
structure Fwd where
  cmd : Cmd
  status : Nat
  result : Option Word
deriving DecidableEq, Repr

/-- A command whose configuration is in effect, kept for a pairing (R483 step 3): the object that it names, and a place
inside it, such as a channel of a stream. -/
structure ConfCmd where
  object : Nat
  place : Nat := 0
  cmd : Cmd
  status : Nat := 0
deriving DecidableEq, Repr

/-- Heartwood: the executor, class B and class T commands, the two event rings, the poll list
(R142, R147, R153, R171). `config` keeps the commands whose configuration is in effect (R483). `passed` says that the command in the executor passed its checks when it was
consumed, `since` when that was, and `rearm` the pending step of the time base it named then (R142, R153,
R560); `ptr` is the pointer of the fetcher's grant (R142). -/
structure Hw where
  exec : Option Cmd := none
  passed : Bool := false
  since : Nat := 0
  rearm : Int := 0
  ptr : Nat := 0
  classB : List BCmd := []
  tWait : Option (Cmd × Nat) := none
  evP0 : EvRing := {}
  evHost : EvRing := {}
  polls : Tbl Poll := []
  config : List ConfCmd := []
deriving DecidableEq, Repr

/-- A ring pair's context (R99 to R125). `inRound`: the ring was eligible when the service round began
(R124); `markOsn` is `LAST_OSN` at the mark. -/
structure Ring where
  binding : Nat := 0
  log2s : Nat := 8
  weight : Nat := 1
  weightNext : Nat := 1
  quota : Nat := 1
  submit : Nat := 0
  compl : Nat := 0
  doorbell : Nat := 0
  shadow : Nat := 0
  barg : Word := 0
  gen : Nat := 1
  st : Enable := .off
  held : Bool := false
  a : Word := 0
  c : Word := 0
  k : Word := 0
  q : Word := 0
  lastOsn : Nat := 0
  used : Nat := 0
  inRound : Bool := false
  mark : RingMark := {}
  markOsn : Nat := 0
deriving DecidableEq, Repr

/-- Progress of a consumed operation (R126): waiting to start, started in its engine, finished. -/
inductive JStage where
  | waiting | started | finished
deriving DecidableEq, Repr

/-- A replay-journal entry (R126 to R132). `done` says its completion is written (DONE);
`afterMark` that it was consumed after the last mark; `crc` is the check code that the LOG of an emitting
operation carries (R474), once it has started. -/
structure JRec where
  ring : Nat
  gen : Nat := 1
  seq : Word := 0
  desc : Desc := {}
  stage : JStage := .waiting
  done : Bool := false
  withdrawn : Bool := false
  loose : Bool := false
  saved : Bool := false
  afterMark : Bool := true
  rpl : Bool := false
  replayed : Bool := false
  status : Nat := 0
  cflags : Nat := 0
  result : Option Word := none
  osn : Nat := 0
  crc : Option Word := none
deriving DecidableEq, Repr

/-- Rings and the replay journal (R99 to R140). `ghosts` are operations of an older generation
still inside an engine (R120, R121); `orphans` are operations whose entry a different descriptor replaced and
which still run (R130); `ptrs` holds each fetcher's grant pointer (R124). -/
structure Rng where
  rings : Tbl Ring := []
  jrnl : List JRec := []
  ghosts : List (Nat × Nat × Word) := []
  orphans : List JRec := []
  ptrs : Tbl Nat := []
  peak : Nat := 0
  evt : BitVec 5 := 0
  lastRing : Nat := 0
  stall : Bool := false
deriving DecidableEq, Repr

/-- Lifecycle states of a partition that exists (R173); an absent partition is DESTROYED. -/
inductive PState where
  | created | ready | running | frozen | migrating
deriving DecidableEq, Repr

/-- A partition (R173 to R212, R465, R476). Addresses are IOVAs; `pages` maps a page number to its
size in 4 KiB pages; `pre` holds the pre-images of the tick; `lastTick` says that the tick in which a
STOPPING partition was stopped has ended; `inputs` holds the deliveries of the tick as kind, object, sequence and bytes (R475); `sig` is the
signature of the context last saved (R562); `trap` is the exception that its last run ended in, as cause and `vstval`
(R180, R202). Of a mirrored partition, `ran` says that it was dispatched in the tick, `written` lists the lines written in
it and `wrote` the pages written in the tick before (R466, R467, R476), `staged` holds pages as they stood at the mark
before an engine wrote them (R466), and `locals` the module-local bytes in its memory, as IOVA and length (R475). -/
structure Part where
  st : PState := .created
  en : Enable := .off
  held : Bool := false
  resume : Enable := .off
  stranded : Bool := false
  home : Nat := 1
  triad : Nat := 1
  prio : Nat := 0
  quota : Nat := 0
  dirty : Nat := 1
  entry : Nat := 0
  loadLen : Nat := 0
  loadDst : Nat := 0
  load : Bytes := []
  largeBase : Nat := 0
  largeSize : Nat := 0
  budget : Nat := 0
  left : Nat := 0
  binds : List (Word × Word) := []
  resets : Nat := 0
  pages : Tbl Nat := []
  stored : List Nat := []
  pre : Tbl (List Host.Cell) := []
  lines : List Nat := []
  dirtyStop : Bool := false
  lastTick : Bool := false
  wakeHeld : List (Nat × Nat) := []
  pwake : Nat := 0
  pwEntry : Nat := 0
  pfault : Nat := 0
  ctx : Ctx := []
  markCtx : Ctx := []
  instret : Nat := 0
  heldWrites : List (Nat × Bytes) := []
  resetUntil : Nat := 0
  mirror : List (Nat × Nat) := []
  current : Bool := false
  stale : Bool := false
  loadSrc : Nat := 0
  inputs : List (Nat × Nat × Nat × Bytes) := []
  sig : BitVec 64 := 0
  trap : Option (Nat × Nat) := none
  ran : Bool := false
  written : List Nat := []
  wrote : List Nat := []
  staged : Tbl (List Host.Cell) := []
  locals : Tbl Nat := []
deriving DecidableEq, Repr

/-- Kinds of a run (R182): slot, wake, catch-up, refresh. -/
inductive RunKind where
  | slot | wake | catchup | refresh
deriving DecidableEq, Repr

/-- The run in progress on a triad (R195). -/
structure Run where
  part : Nat
  kind : RunKind
  grant : Nat
  since : Nat
  base : RunKind
deriving DecidableEq, Repr

/-- A triad (R184 to R191). `chans` are the channels in service, `isos` the isolations since COLD; `joining` are those
that the copy of R189 brings back. After a move `rest` lists the slots that still run in the tick, by their place in
the schedule, the next of them not before the offset `slotFrom` (R190). -/
structure Triad where
  chans : List Chan := [.A, .B, .C]
  failed : Bool := false
  isos : List Chan := []
  joining : List Chan := []
  run : Option Run := none
  yielded : List Nat := []
  catchup : List Nat := []
  refresh : Option Run := none
  rest : Option (List Nat) := none
  slotFrom : Nat := 0
  ptr : Nat := 0
deriving DecidableEq, Repr

/-- A slot of the schedule (R193). -/
structure Slot where
  part : Nat
  start : Nat
  len : Nat
deriving DecidableEq, Repr

/-- An open vote (R186): the copies that reached the voter, when the first did, and the passed one. -/
structure Vote where
  triad : Nat
  copies : List (Chan × Emission)
  since : Nat
  passed : Option Emission := none
deriving DecidableEq, Repr

/-- Canopy, partitions and the voter (R173 to R216). `triads` lists triads that differ from the
COLD triad. `tickStart` and `tickEnd` are linear ns of the tick's start and next boundary, `tickFrc`
the FRC ns of its start, `off` what Canopy adds to the FRC after its time base was disabled (R192); `bells` holds the last
producer value that each channel's copy of a ring's doorbell brought (R185). -/
structure Cnp where
  parts : Tbl Part := []
  triads : Tbl Triad := []
  spare : Nat := 15
  tb : Nat := 0
  rate : Bool := false
  nextBind : Option (Nat × Bool) := none
  sched : List Slot := []
  tickNo : Nat := 0
  tickStart : Nat := 0
  tickFrc : Nat := 0
  tickEnd : Nat := 250000
  off : Int := 0
  inTail : Bool := false
  wakes : List (Nat × Nat × Nat) := []
  evt : BitVec 6 := 0
  lastTriad : Nat := 0
  lastPart : Nat := 0
  skew : Nat := 0
  votes : List Vote := []
  passed : List Emission := []
  bells : List (Nat × Chan × Word) := []
  lanes : List Chan := [.A, .B, .C]
  lastMirror : Word := 0
deriving DecidableEq, Repr

/-- Page Keeper's pools (R200 to R207, R217 to R219, R504). -/
structure Pgk where
  free : Nat := 0
  scrub : Nat := Config.poolFrames
  undo : Nat := 0
  ptr : Nat := 0
  hard : List Nat := []
deriving DecidableEq, Repr

/-- Link states (R225). -/
inductive Link where
  | down | training | hold | up
deriving DecidableEq, Repr

/-- What is known of a frame inside the module beside its bytes (R258 to R262, R275, R313): ingress
source (0 to 49 as R250; 50 the time-base engine; 51 the switch core itself), receive index and
timestamp, verdict, entry and epoch of its snapshot, FLOW (the time base, for source 50), PRP LAN, the
operation or publication entry that sent it, the port and queue of a direct SEND, the instance and
sequence number with which it entered, and the bytes that redundancy ingress removed. `uid` names the frame among the
copies that leave through instances, and `seqs` the sequence number each instance gave it (R281). -/
structure FMeta where
  src : Nat := 0
  rxIdx : Option Nat := none
  ts : Option Nat := none
  tsLost : Bool := false
  direct : Option (Nat × Nat) := none
  verdict : Nat := 0
  entry : Nat := 16640
  epoch : Nat := 0
  flow : Word := 0
  lanB : Bool := false
  op : Option (Nat × Nat × Word) := none
  pub : Option Nat := none
  drop : Bool := false
  ringSeq : Option (Nat × Nat) := none
  cut : Nat := 0
  uid : Nat := 0
  seqs : List (Nat × Nat) := []
deriving DecidableEq, Repr

/-- A frame held inside the switch core or at a MAC. -/
structure Held where
  frame : Frame := {}
  info : FMeta := {}
deriving DecidableEq, Repr

/-- The frame a MAC is sending (R232 to R238), as redundancy egress left it: its queue and its cells there, the
SFD of a preempted frame's first fragment and what the frame still has to send, the attempts made, the end of a
back-off, whether it has deferred (R235). -/
structure TxFrame where
  held : Held := {}
  queue : Nat := 0
  begun : Option Nat := none
  remain : Nat := 0
  frags : Nat := 0
  tries : Nat := 0
  cells : Nat := 0
  deferred : Bool := false
  backoff : Option Nat := none
deriving DecidableEq, Repr

/-- A port (R220 to R248, R310, R313). `cfg` holds the words of `PORT_CONFIG`; `align` the alignment
the PCS measured at its lock (R293); `pauseEnd` is in 10 ps; `rest` is a preempted remainder; `wire`
the last frame as it left the port; `responds` counts the respond mPackets sent; `leftUp` is when the
link last left UP; `stopAt` when the port was last disabled; `filterOld` lists the sets that `PORT_FILTER` replaced while
the link lasts, each with the time of its end, latest first (R230); `freed`: a WARM reset does not hold the port (R90); `pauseMet` says that the pause has stopped a waiting frame (R241). -/
structure Port where
  cfg : Option (List Word) := none
  en : Enable := .off
  held : Bool := false
  link : Link := .down
  since : Nat := 0
  downCause : Nat := 0
  anegRef : Bool := false
  speedNow : Nat := 0
  halfNow : Bool := false
  anegDone : Bool := false
  verify : Nat := 0
  verifyTries : Nat := 0
  verifyAt : Nat := 0
  paused : Bool := false
  pauseEnd : Nat := 0
  pauseWait : Option Nat := none
  filter : List (Nat × Bool) := []
  filterOld : List (Nat × List (Nat × Bool)) := []
  stopAt : Nat := 0
  pauseMet : Bool := false
  align : Nat := 0
  rxIndex : Nat := 0
  tsq : List Nat := []
  tx : Option TxFrame := none
  rest : Option TxFrame := none
  wire : Option Frame := none
  responds : Nat := 0
  leftUp : Option Nat := none
  resetUntil : Nat := 0
  freed : Bool := false
  delays : List Int := []
  pdelay : Option (Nat × Option Nat) := none
  pdelaySeq : Nat := 0
  pdelayAt : Nat := 0
  tsLostAt : Option Nat := none
  wrongLanAt : Option Nat := none
deriving DecidableEq, Repr

/-- Ports (R220 to R248): the table lists ports that differ from the COLD port. -/
structure Prt where
  ports : Tbl Port := []
  cnt : Tbl Nat := []
  linkEvt : BitVec 48 := 0
deriving DecidableEq, Repr

/-- A lookup key (R251). -/
structure LKey where
  da : Nat := 0
  vid : Nat := 0
  etype : Nat := 0
  appid : Nat := 0
deriving DecidableEq, Repr

/-- An action (R258). -/
structure Action where
  dest : Nat := 0
  toSe0 : Bool := false
  toSe1 : Bool := false
  toRing : Bool := false
  queue : Nat := 0
  colour : Nat := 0
  paths : Nat := 0
  keySlot : Nat := 0
  auth : Nat := 0
  authDrop : Bool := false
  ring : Nat := 0
  flow : Word := 0
deriving DecidableEq, Repr

/-- An exact-match entry with its place: bank, bucket, position (R252 to R255). -/
structure Exact where
  key : LKey
  act : Action
  bank : Nat := 0
  bucket : Nat := 0
  pos : Nat := 0
  deadUntil : Nat := 0
deriving DecidableEq, Repr

/-- A wildcard entry (R256). -/
structure Wild where
  key : LKey
  mask : LKey
  inports : Nat := 0
  act : Action
  deadUntil : Nat := 0
deriving DecidableEq, Repr

/-- A port queue (R264 to R266): COLD 64, 8,192, set 0, RED off. -/
structure Queue where
  min : Nat := 64
  max : Nat := 8192
  profile : Nat := 0
  redEn : Bool := false
  frames : List Held := []
deriving DecidableEq, Repr

/-- A colour profile (R267). -/
structure RedProf where
  minTh : Nat := 196608
  maxTh : Nat := 196608
  pMax : Nat := 0
deriving DecidableEq, Repr

/-- A path group (R270, R271): members, RETURN, the member of each bucket, and since when each
member is UP. -/
structure PathGrp where
  members : List Nat := []
  ret : Nat := 0
  buckets : List Nat := []
  upAt : List (Option Nat) := []
deriving DecidableEq, Repr

/-- A PRP or HSR instance (R280, R281). `supSeq` numbers its supervision frames (R284). -/
structure Redun where
  mode : Nat
  portA : Nat
  portB : Nat
  interlink : Nat := 63
  prpLan : Bool := false
  node : Nat := 0
  lifeMs : Nat := 2000
  supLast : Nat := 0
  supVid : Nat := 0
  supPcp : Nat := 0
  fwdQ : Nat := 0
  counter : Nat := 0
  supAt : Nat := 0
  supSeq : Nat := 0
  proxy : List Nat := []
deriving DecidableEq, Repr

/-- A duplicate window (R282): the highest sequence seen, none while it is clear, and the sequences
marked. -/
structure Win where
  highest : Option Nat := none
  seen : List Nat := []
deriving DecidableEq, Repr

/-- A node-table entry (R279, R282, R283): instance, source, the window of local duplicate discard,
the windows of forwarding per direction, and the last update. -/
structure Node where
  inst : Nat
  sa : Nat
  win : Win := {}
  fwdA : Win := {}
  fwdB : Win := {}
  updated : Nat := 0
deriving DecidableEq, Repr

/-- A SEND whose destinations are not all done (R273). -/
structure SendOp where
  ring : Nat
  gen : Nat
  seq : Word
  left : Nat
  sent : Bool := false
  resDrop : Bool := false
  tsWanted : Bool := false
  tsPort : Nat := 64
  ts : Nat := 0
deriving DecidableEq, Repr

/-- The switch core (R249 to R291). `uids` counts the frames named for redundancy egress (R281);
`fifo` lists the last changes of each receive FIFO, latest first, as their time and the bytes before them (R231). -/
structure Sw where
  exact : Tbl Exact := []
  epochs : Tbl Nat := []
  wild : Tbl Wild := []
  queues : Tbl Queue := []
  red : Tbl RedProf := []
  store : Tbl (List Held) := []
  wait : List (Held × Action) := []
  ptr : Nat := 0
  se0 : List Held := []
  se1 : List Held := []
  ringq : List (Nat × Held) := []
  paths : Tbl PathGrp := []
  redun : Tbl Redun := []
  nodes : Tbl Node := []
  cnt : Tbl Nat := []
  ingress : Tbl Nat := []
  evt : BitVec 6 := 0
  low : Nat := 0x28800
  tc : BitVec 3 := 5
  seed : Word := Config.serial.setWidth 32
  sends : List SendOp := []
  uids : Nat := 0
  fifo : Tbl (List (Nat × Nat)) := []
deriving DecidableEq, Repr

/-- Acquisition states of a time base (R299). -/
inductive Acq where
  | unacquired | locked | holdover | refused
deriving DecidableEq, Repr

/-- A foreign master (R304): its last Announce, the port it came on, when it came, and whether the
master has qualified. -/
structure Foreign where
  port : Nat
  ann : PtpMsg
  last : Nat
  ok : Bool
deriving DecidableEq, Repr

/-- A time base (R294 to R308, R321, R324, R328). `a` and `b` are in 2⁻¹⁶ ns, `rate` and `f` in 2⁻⁴⁰.
`stopSec` is the second in which it entered STOPPING; `count` the measurements beyond the guard in a
row, `okCount` those within it; `master` the selected clock, port number and slave port; `lastAt` the
FRC of the previous measurement used; `syncAt` that of the last usable Sync and `syncLog` its interval;
`syncM` is t2 − t1 − cs of the last Sync; `e2e` the open Delay_Req with its t3; `syncWait` two-step
Syncs with their arrival; `due` the next Announce and Sync of each port; `quiet` the ports that another
master keeps silent; `holdAt` the entry to HOLDOVER; `ppsVal` is `PPS_IN_LAST`, and `gmId`, `path` and `tti` hold the
latest values of its bank; `gmC37` is the grandmasterID last received in a C37.238 TLV (R307, R323). -/
structure TBase where
  cfg : Option (List Word) := none
  en : Enable := .off
  held : Bool := false
  stopSec : Nat := 0
  acq : Acq := .unacquired
  a : Nat := 0
  b : Nat := 0
  rate : Int := 0
  f : Int := 0
  count : Nat := 0
  okCount : Nat := 0
  pending : Int := 0
  armed : Bool := false
  foreign : List Foreign := []
  master : Option (Nat × Nat × Nat) := none
  delays : List Int := []
  lastAt : Option Nat := none
  theta : Int := 0
  syncAt : Nat := 0
  syncLog : Int := 0
  syncM : Option Int := none
  e2e : Option (Nat × Option Int) := none
  syncWait : List (PtpCopy × Nat) := []
  nextDreq : Nat := 0
  seqNo : Nat := 0
  due : Tbl (Nat × Nat) := []
  quiet : List (Nat × Nat) := []
  holdAt : Nat := 0
  ppsVal : Nat := 0
  gmId : Nat := 0
  path : Int := 0
  tti : Nat := 0
  gmC37 : Nat := 0
deriving DecidableEq, Repr

/-- What an armed compare is for (R315). -/
inductive CmpUse where
  | rollover (slot : Nat)
  | ppsOut
  | ppsSet
  | load (ring gen : Nat) (seq : Word)
  | trigger (rec entry : Nat)
deriving DecidableEq, Repr

/-- An armed compare (R315): time base, 48-bit target in ns, use. -/
structure Cmp where
  id : Nat
  tb : Nat
  target : Nat
  use : CmpUse
deriving DecidableEq, Repr

/-- The set-up of PPS_OUT or PPS_IN (R318, R319). -/
structure Pps where
  tb : Nat := 0
  en : Bool := false
  flag : Bool := false
  width : Nat := 0
  phase : Nat := 0
deriving DecidableEq, Repr

/-- The snapshot registers (R327): FRC, and per time base value, rate and state. -/
structure Snap where
  frc : Nat := 0
  vals : List (Nat × Bool × Nat × Int) := []
deriving DecidableEq, Repr

/-- Time bases and precision time (R292 to R330). -/
structure Tim where
  bases : Tbl TBase := []
  cmps : List Cmp := []
  cmpNext : Nat := 0
  ppsOut : Pps := {}
  ppsNext : Option Pps := none
  ppsHigh : Bool := false
  ppsFall : Nat := 0
  ppsIn : Pps := {}
  ppsLast : Option Nat := none
  evt : BitVec 8 := 0
  lastTb : Nat := 0
  lastPort : Nat := 0
  tscls : BitVec 5 := 0x0D
  pdly : Word := 2
  snap : Snap := {}
  tsCnt : Tbl Nat := []
  cnt : Tbl Nat := []
  inbox : List PtpCopy := []
deriving DecidableEq, Repr

/-- A destination of a stream or GOOSE subscription (R333, R342, R349): partition, plane area, ready
line, and the delivery number. -/
structure Dest where
  part : Nat
  area : Nat
  ready : Nat
  rseq : Nat := 0
deriving DecidableEq, Repr

/-- A source descriptor (R333). -/
structure SvSrc where
  appid : Nat := 0
  valid : Bool := false
  confRev : Nat := 0
  smpRate : Nat := 0
  smpMod : Nat := 0
  svId : Bytes := []
deriving DecidableEq, Repr

/-- A slot of an open tick (R337, R339): whether a sample is present, it is missing, it passed to the
filter chain and the chain has finished it; the samples, marks of each channel, and arrival. -/
structure SlotSt where
  slot : Nat
  present : Bool := false
  missing : Bool := false
  passed : Bool := false
  filtered : Bool := false
  samples : List (Int × Word) := []
  marks : List Nat := []
  arr : Nat := 0
deriving DecidableEq, Repr

/-- A change of a threshold detector that waits for the close of its tick (R384). -/
structure DetEv where
  ch : Nat
  det : Nat
  up : Bool
  evt : Bool
  wake : Bool
deriving DecidableEq, Repr

/-- An open tick of a stream (R336 to R338): its number on the time line, start, first slot and slots;
`snap`, the words from 8 of each channel record as they stood after its last slot (R374, R381), with the
detector changes that its record is the first to show. `rephase` marks a tick that closes under R340, with
its source and whether it carries `SWITCHED`. -/
structure OpenTick where
  k : Nat
  start : Nat
  first : Nat
  slots : List SlotSt
  snap : Option (List (List Nat) × List DetEv) := none
  rephase : Option (Nat × Bool) := none
deriving DecidableEq, Repr

/-- A threshold detector (R382 to R385): set-up words, state, counts. -/
structure Det where
  en : Bool := false
  src : Nat := 0
  hnum : Nat := 0
  under : Bool := false
  wakePu : Bool := false
  wakeDo : Bool := false
  evt : Bool := false
  qblock : Bool := false
  puN : Nat := 1
  doN : Nat := 1
  pickup : Int := 0
  dropout : Int := 0
  state : Bool := false
  pu : Nat := 0
  doC : Nat := 0
deriving DecidableEq, Repr

/-- A channel's filter set-up and state (R368 to R384). Times are rationals of ns with denominator
f_s × 2¹⁷; `hist` holds received samples, `outs` the last four FIR outputs with their times, `ring` the last
128 resampled samples, each newest first; `got`, `outN` and `r` count them since the restart; `sums` lists
each computed bin with its S_h; `quest` and `test` hold the FIR output that the marked slot fed last and
the resampled samples made after it; `restartNs` is the nominal time of the slot of the last restart. -/
structure FCh where
  en : Bool := false
  fnom : Bool := false
  track : Nat := 0
  trkCh : Nat := 0
  trkShift : Nat := 0
  cset : Nat := 0
  harm : Nat := 0
  trkMin : Nat := 0
  leaderOk : Bool := false
  hist : List Int := []
  got : Nat := 0
  outs : List (Int × Int) := []
  outN : Nat := 0
  pos : Nat := 4294967296
  r : Nat := 0
  ring : List Int := []
  sums : List (Nat × Int × Int) := []
  freq : Nat := 3276800
  angle : Int := 0
  settling : Bool := true
  quest : Option (Nat × Nat) := none
  test : Option (Nat × Nat) := none
  sat : Bool := false
  hold : Bool := false
  made : Bool := false
  restarted : Bool := false
  restartNs : Nat := 0
  detChg : Nat := 0
  tau : Int := 0
  lastFir : Int := 0
  dets : Tbl Det := []
deriving DecidableEq, Repr

/-- A stream (R331 to R347). `prev` is the source before the last switch, `switchTick` the first tick of
the new one, `swDue` that no record has carried `SWITCHED` yet; `ticks` holds the ticks from `nextTick`, the
next to close; `older` lists the switches before the last one, latest first: tick, source before it, and whether no record
has carried its `SWITCHED`; `loss` and `noAct` count closed ticks without a present slot; `stby` lists the ticks in which
the standby was present; `evs` are detector changes that no record has shown yet. -/
structure Strm where
  channels : Nat := 1
  noasdu : Nat := 1
  rate : Nat := 0
  reclen : Bool := false
  sim : Bool := false
  authReq : Bool := false
  chkRate : Bool := false
  syncMin : Nat := 0
  reorder : Nat := 0
  hold : Nat := 0
  lossN : Nat := 1
  autoN : Nat := 0
  depth : Nat := 0
  srcInit : Nat := 0
  srcs : List SvSrc := []
  dests : List Dest := []
  en : Enable := .off
  held : Bool := false
  active : Nat := 0
  prev : Nat := 0
  firstTick : Nat := 0
  nextTick : Nat := 0
  ticks : List OpenTick := []
  loss : Nat := 0
  lost : Bool := false
  noAct : Nat := 0
  stby : List Nat := []
  lastClosed : Option Nat := none
  switchTick : Nat := 0
  swDue : Bool := false
  older : List (Nat × Nat × Bool) := []
  idAt : Option Nat := none
  evs : List DetEv := []
  chans : Tbl FCh := []
deriving DecidableEq, Repr

/-- Streams (R331 to R361). `rephase`: the time line has changed and open ticks of the old one wait to
close (R340); `oldEnd` is where the old one ended (R408). -/
structure Svs where
  streams : Tbl Strm := []
  rephase : Bool := false
  oldEnd : Nat := 0
  cnt : Tbl Nat := []
  noSub : Nat := 0
  evt : BitVec 7 := 0
  lastIndex : Nat := 0
deriving DecidableEq, Repr

/-- A GOOSE subscription (R348 to R351). `last` is the last image delivered: its message, arrival, and
flags of word 1. -/
structure GSub where
  maxData : Nat := 1
  sim : Bool := false
  authReq : Bool := false
  chkRev : Bool := false
  depth : Nat := 0
  confRev : Nat := 0
  appid : Nat := 0
  ref : Bytes := []
  dests : List Dest := []
  any : Bool := false
  stNum : Word := 0
  sqNum : Word := 0
  stale : Bool := false
  expiry : Nat := 0
  last : Option (GoosePdu × Nat × Nat) := none
  idAt : Option Nat := none
deriving DecidableEq, Repr

/-- A GOOSE publication entry (R352 to R356). `published`: a PUBLISH has come since the enable; `inFlight`
counts its frames that have been handed to SE0 and not left every port. -/
structure GPub where
  cfg : Option (List Word) := none
  en : Enable := .off
  held : Bool := false
  vals : PubValues := {}
  published : Bool := false
  inFlight : Nat := 0
deriving DecidableEq, Repr

/-- GOOSE subscription and publication (R348 to R358). -/
structure Gse where
  subs : Tbl GSub := []
  pubs : Tbl GPub := []
  cnt : Tbl Nat := []
  pubCnt : Tbl Nat := []
deriving DecidableEq, Repr

/-- A slot passed to the filter chain (R337, R363): stream, tick, slot, and its MAC operations (R386). -/
structure Work where
  stream : Nat
  tick : Nat
  slot : Nat
  cost : Nat
deriving DecidableEq, Repr

/-- The filter chain (R362 to R389). `coeff` lists sets that differ from the COLD set. -/
structure Flt where
  coeff : Tbl (List Int) := []
  work : List Work := []
  peak : Nat := 0
  evt : BitVec 3 := 0
  lastStream : Nat := 0
  lastCh : Nat := 0
deriving DecidableEq, Repr

/-- A trigger entry of a recorder (R390, R395): type, group, polarity, source, target, level, and
whether it fired. -/
structure Trig where
  type : Nat := 0
  group : Nat := 0
  pol : Bool := false
  src : Word := 0
  target : Nat := 0
  level : Bool := false
  fired : Bool := false
  cancelled : Bool := false
deriving DecidableEq, Repr

/-- A raw row (R403): slot number counted from the start of the time line, inputs, and the value and
marks of each channel. -/
structure Row where
  slot : Nat
  bins : Nat := 0
  vals : List (Int × Nat) := []
deriving DecidableEq, Repr

/-- A cycle entry (R405). -/
structure Cyc where
  ch : Nat
  flags : Nat := 0
  freq : Nat := 0
  time : Nat := 0
  rms : Nat := 0
  re : Int := 0
  im : Int := 0
deriving DecidableEq, Repr

/-- A marker (R412). -/
structure Marker where
  type : Nat
  ofs : Int
  value : Int
deriving DecidableEq, Repr

/-- An envelope block (R404): first offset and least and greatest value per channel. -/
structure EnvBlk where
  ofs : Nat
  pairs : List (Int × Int)
deriving DecidableEq, Repr

/-- A detector change of a recorder's channel (R409, R410): channel index, detector, whether it picked
up, and its time in 2⁻¹⁶ ns. -/
structure DetLog where
  ch : Nat
  det : Nat
  up : Bool
  time : Nat
deriving DecidableEq, Repr

/-- An open record (R399 to R412). `trigTime` and `faultAt`, the end of the fault, are in 2⁻¹⁶ ns of the
bound time base; `j0`, `jT`, `jEnd` and `jL` count slots from the second that starts at `second` ns;
`peaks` holds each channel's value of greatest magnitude with its offset; `commit` is what remains of the
bytes deducted from the free space. -/
structure Record where
  num : Nat
  second : Nat := 0
  j0 : Int := 0
  jT : Int := 0
  jEnd : Int := 0
  phi : Nat := 0
  trigTime : Nat := 0
  trigEntry : Nat := 15
  trigGroup : Nat := 0
  trigType : Nat := 5
  flags : Nat := 0
  ladder : Nat := 0
  jL : Int := 0
  rows : List Row := []
  env : List EnvBlk := []
  cycs : List Cyc := []
  marks : List Marker := []
  peaks : List (Option (Int × Nat)) := []
  enAtOpen : List Bool := []
  lostTrig : Nat := 0
  deadNs : Nat := 0
  faultAt : Option Nat := none
  openOsn : Nat := 0
  commit : Nat := 0
  rephased : Bool := false
deriving DecidableEq, Repr

/-- A stored record: its number and its export form (R411). -/
structure SRec where
  num : Nat
  data : Bytes
  running : Nat := 0
  released : Bool := false
deriving DecidableEq, Repr

/-- Capture states (R393). -/
inductive Cap where
  | waiting | capturing | closing
deriving DecidableEq, Repr

/-- A recorder (R390 to R415). `truth` holds each group's last value; `hist`, `histCyc` and `detLog` the
pre-trigger history; `freeB` the free bytes of its buffer; `blindSince` the FRC time from which it is
blind; `nextRow` the slot whose row forms next, and `wait` the channel values of slots whose ticks have
closed, as channel index, value and marks. -/
structure Rec where
  set : Bool := false
  nch : Nat := 1
  rate : Nat := 0
  retrig : Bool := false
  overwrite : Bool := false
  owner : Nat := 0
  bufMib : Nat := 0
  pre : Nat := 1
  post : Nat := 1
  maxLen : Nat := 2
  envN : Nat := 2
  fdet : Nat := 4
  status : Nat := 0
  trigs : List Trig := []
  chans : List (Nat × Nat) := []
  en : Enable := .off
  held : Bool := false
  cap : Cap := .waiting
  truth : List Bool := []
  hist : List Row := []
  histCyc : List Cyc := []
  detLog : List DetLog := []
  cur : Option Record := none
  stored : List SRec := []
  freeB : Nat := 0
  nextNum : Nat := 1
  blindSince : Option Nat := none
  deadNs : Nat := 0
  lost : Nat := 0
  lostAt : Option Nat := none
  lastStored : Nat := 0
  lastOsn : Nat := 0
  nextRow : Nat := 0
  wait : Tbl (List (Nat × Int × Nat)) := []
deriving DecidableEq, Repr

/-- A level change or firing that waits to be processed (R396): what changed, the new state, the
time in 2⁻¹⁶ ns, and whether the time was substituted (R397). -/
structure Change where
  type : Nat
  src : Word
  level : Bool
  time : Nat
  subst : Bool := false
  recs : Option (Nat × Nat) := none
  goose : Option (Nat × Nat × Bytes) := none
deriving DecidableEq, Repr

/-- An EXPORT that copies record `num` of recorder `recNo` (R413): its operation, its buffer, where its copy begins, how
long it is at most, and the bytes copied. -/
structure XOp where
  ring : Nat
  gen : Nat
  seq : Word
  recNo : Nat
  num : Nat
  iova : Nat
  off : Nat
  len : Nat
  copied : Nat := 0
deriving DecidableEq, Repr

/-- The acquisition engine (R390 to R422). `exports` are the EXPORTs that copy (R413), `ptr` is the pointer of its writes to
lane memory (R417). -/
structure Acqn where
  recs : Tbl Rec := []
  changes : List Change := []
  stnums : Tbl Nat := []
  cnt : Tbl Nat := []
  noMatch : Nat := 0
  evt : BitVec 5 := 0
  lastRec : Nat := 0
  exports : List XOp := []
  ptr : Nat := 0
deriving DecidableEq, Repr

/-- States of a key slot (R425). -/
inductive KState where
  | empty | valid | bad | invalidated | orphaned | rollPending | rollOverlap | rolled
deriving DecidableEq, Repr

/-- A key slot (R425 to R443). `pre` is the precomputed state and `check` the stored integrity check (R427);
`block` is the wrapped block that Heartwood keeps (R470). -/
structure KSlot where
  st : KState := .empty
  level : Nat := 0
  alg : Nat := 0
  usage : Nat := 0
  owner : Nat := 0
  part : Nat := 0
  overlap : Nat := 0
  keyId : Nat := 0
  parent : Nat := 0
  key : Bytes := []
  pre : Bytes := []
  check : BitVec 64 := 0
  block : Bytes := []
  succ : Nat := 0
  overlapEnd : Nat := 0
deriving DecidableEq, Repr

/-- What waits for a tag (R437): a SEND or a publication frame, with its slot and algorithm, the PUBLISH
that it completes, if any, with its result, and the partition that uses the key. -/
structure TagReq where
  held : Held
  slot : Nat
  auth : Nat
  owner : Nat
  pub : Option Nat := none
  op : Option (Nat × Nat × Word) := none
  result : Nat := 0
deriving DecidableEq, Repr

/-- The frame that a crypto lane holds (R436): one to tag or one to verify, the slot that its reference reached, why the
key may not be used (a status of R441 or a counter of R439, or 0), and the working-key register. -/
structure LaneJob where
  tag : Option TagReq := none
  ver : Option (Held × Action) := none
  slot : Nat := 0
  fault : Nat := 0
  work : KSlot := {}
deriving DecidableEq, Repr

/-- The key store and crypto lanes (R423 to R450). `ptr` and `loadPtr` are the pointers of the grant of lanes and of loads
(R437); `lanes` lists the lanes that hold a frame. -/
structure Keys where
  slots : Tbl KSlot := []
  tagCount : Nat := 0
  cnt : Tbl Nat := []
  store : Tbl Nat := []
  evt : BitVec 5 := 0
  lastSlot : Nat := 0
  tags : List TagReq := []
  refusedAt : Tbl Nat := []
  ptr : Nat := 0
  loadPtr : Nat := 0
  lanes : Tbl LaneJob := []
deriving DecidableEq, Repr

/-- Roles (R453). -/
inductive Role where
  | standalone | idle | active | standby
deriving DecidableEq, Repr

/-- Phases of `GFT_STAT` (R490). -/
inductive GPhase where
  | unpaired | pairing | syncing | shadowing | suspect | detached | active
deriving DecidableEq, Repr

/-- An operation a shadow holds (R474); `tick` is the start of its tick. -/
structure HeldOp where
  ring : Nat
  seq : Word
  payload : Payload
  tick : Nat := 0
deriving DecidableEq, Repr

/-- A Graft frame that the module sends, with its `MARK` (R461). -/
structure GFrame where
  mark : Nat := 0
  body : GBody
deriving DecidableEq, Repr

/-- A frame that waits for a frame start (R462, R463): its lane, none where either will do, and the `LSEQ` that one
sent again keeps. -/
structure TxReq where
  lane : Option Nat := none
  seq : Option Nat := none
  frame : GFrame
deriving DecidableEq, Repr

/-- The Graft controller (R451 to R493). `laneTx` and `laneRx` hold each lane's next `LSEQ` to send and to
expect, `unacked` its unacknowledged frames with theirs, `txWait` the frames that wait for a frame start, `lanePtr` and
`laneFree` each lane's pointer of R463 and the end of the frame it sends, `txOut` that frame with its `LSEQ`; `helloDue`
is when the next HELLOs and ACK leave, `rxSince` counts the frames since an ACK (R462, R464). `watching` says that a loss
of the partner has still to be reported (R464). `queue` holds the mirrors that are not committed, as mark and bytes.
`mirrorRings` to `mirrorChans` are what a standby holds of M, and on an active what it has sent. `copying` says that the
background copy runs, `toCopy` holds its pages to send and `copied` those that the standby has, with the number of lines
written in their partition's tick before they were sent (R483). On a standby: `staged` frames by their mark; `commits` the COMMITs that wait for frames;
`fresh` the pages that SYNC brought, with its `MARK`; `synced` says that there is an M; `ownJrnl` and `ownOsn` are its own
journal and OSN at its mark (R476, R484); `logs` are unmatched LOGs with the tick of their `MARK`; `acks` the forwarded
commands that it ran, as ring, generation, sequence and status; `digests` lists the input digests of each mark that the
module computed itself (R475); `mirror` is the mirror image by page, key p × 2³⁶ + page; `confChans` the tick start at
which a LOG last set a channel. -/
structure Gft where
  role : Role := .idle
  posB : Bool := false
  phase : GPhase := .unpaired
  driving : Bool := false
  line : Bool := true
  lineSince : Nat := 0
  claimAt : Option Nat := none
  resignAt : Option Nat := none
  lanes : List Nat := []
  laneTx : Tbl Nat := []
  laneRx : Tbl Nat := []
  unacked : Tbl (List (Nat × GFrame)) := []
  txWait : List TxReq := []
  lanePtr : Tbl Nat := []
  laneFree : Tbl Nat := []
  txOut : Tbl (Nat × GFrame) := []
  helloDue : Nat := 0
  rxSince : Nat := 0
  ownId : Nat := 0
  peerId : Nat := 0
  peer : Option PairInfo := none
  lost : Bool := false
  watching : Bool := false
  lastRx : Nat := 0
  helloOsn : Nat := 0
  helloAt : Nat := 0
  mark : Nat := 0
  markOsn : Nat := 0
  staged : List (Nat × MirrorFrame) := []
  commits : List CommitInfo := []
  copying : Bool := false
  toCopy : List Nat := []
  copied : Tbl Nat := []
  fresh : Tbl Nat := []
  ownJrnl : List JEntry := []
  ownOsn : Nat := 0
  queue : List (Nat × Nat) := []
  bytes : Nat := 0
  late : Bool := false
  held : List HeldOp := []
  logs : List (Nat × LogInfo) := []
  logOut : List LogInfo := []
  waitAck : List Fwd := []
  fwdSeqP0 : Word := 0
  fwdSeqHost : Word := 0
  acks : List (Nat × Nat × Word × Nat) := []
  mirror : Tbl (List Host.Cell) := []
  mirrorRings : Tbl RingMark := []
  mirrorJrnl : List JEntry := []
  mirrorCtx : Tbl Ctx := []
  mirrorPubs : Tbl PubValues := []
  mirrorRedun : Tbl Nat := []
  mirrorChans : Tbl ChanValues := []
  confChans : Tbl Nat := []
  digests : Tbl (List (Nat × BitVec 64)) := []
  synced : Bool := false
  goodCommits : Nat := 0
  partnerOk : Bool := false
  complete : Bool := false
  switchDue : Bool := false
  evt : BitVec 8 := 0
  cnt : Tbl Nat := []
deriving DecidableEq, Repr

/-- The error account of one memory (R500 to R504, R519): COLD threshold 16, all else 0. `ueLocs` lists
locations that gave an uncorrectable error and were rewritten since COLD; `lapAt` is when the lap in progress began, none for
the first one (R499). -/
structure EccMem where
  ce : Nat := 0
  ue : Nat := 0
  level : Nat := 0
  thresh : Nat := 16
  ovf : Nat := 0
  last : BitVec 64 := 0
  lapMs : Nat := 0
  late : Bool := false
  suspects : List (BitVec 64 × Nat) := []
  ueLocs : List (BitVec 64) := []
  lap : Nat := 0
  lapAt : Option Nat := none
deriving DecidableEq, Repr

/-- Memory integrity (R494 to R504, R517 to R519). `lapsFrom` is when the first laps began, `leakAt` the operating second of the
last leak (R500), `idle` the pointer of each lane's idle cycles (R498). -/
structure Ecc where
  mems : Tbl EccMem := []
  evt : BitVec 32 := 0
  exhausted : Bool := false
  lapsFrom : Nat := 0
  leakAt : Nat := 0
  idle : Tbl Nat := []
deriving DecidableEq, Repr

/-- A logbook record (R507). `num` is its `NUM`; `data` its 20 bytes. -/
structure LogRec where
  num : Nat := 0
  code : Nat := 0
  src : Nat := 0
  sev : Nat := 0
  tbv : Bool := false
  kind : Nat := 0
  index : Nat := 0
  osn : Nat := 0
  time : Nat := 0
  opsec : Nat := 0
  pcyc : Nat := 0
  session : Nat := 0
  data : Bytes := []
  sound : Bool := true
deriving DecidableEq, Repr

/-- The logbook (R505 to R522). `reqs` are records that wait to be accepted, oldest first; the last
`unfl` records of `buf` are not yet flushed. -/
structure Logb where
  reqs : List LogRec := []
  buf : List LogRec := []
  mram : List LogRec := []
  newest : Nat := 0
  any : Bool := false
  flushed : Nat := 0
  lost : Nat := 0
  lostSince : Nat := 0
  flushing : Bool := false
  unfl : Nat := 0
  oldestAt : Nat := 0
  sel : Word := 0
  pstateBad : Bool := false
  ptr : Nat := 0
deriving DecidableEq, Repr

/-- A copy of the persistent state as written to MRAM (R505); `ok` says its CRC matches. -/
structure PCopy where
  gen : Nat := 0
  opsec : Nat := 0
  pcyc : Nat := 0
  session : Nat := 0
  fails : Nat := 0
  saves : Nat := 0
  epoch : Nat := 0
  newest : Nat := 0
  slot : Nat := 0
  repairs : List (Nat × BitVec 64) := []
  ok : Bool := true
deriving DecidableEq, Repr

/-- The persistent state as the module holds it, its two copies in MRAM, and what the fuse array holds for good: the
rollback floor, the Root and the image-key hash (R166, R168, R423, R505, R506). -/
structure Mram where
  opsec : Nat := 0
  pcyc : Nat := 0
  session : Nat := 0
  fails : Nat := 0
  saves : Nat := 0
  epoch : Nat := 0
  newest : Nat := 0
  slot : Nat := 0
  repairs : List (Nat × BitVec 64) := []
  c0 : PCopy := {}
  c1 : PCopy := {}
  floor : Nat := 0
  root : Bytes := Config.root
  keyHash : Bytes := Config.imageKeyHash
deriving DecidableEq, Repr

/-- A binary input (R523 to R528). Times are FRC in 2⁻¹⁶ ns. -/
structure BinIn where
  cfg : Option (List Word) := none
  en : Enable := .off
  held : Bool := false
  level : Bool := false
  state : Bool := false
  lastAt : Nat := 0
  runOpen : Bool := false
  eseq : Word := 0
  riseNs : Nat := 0
  fallNs : Nat := 0
  lastOsn : Nat := 0
  unacq : Bool := false
  told : Bool := false
  stateAt : List (Nat × Bool) := []
deriving DecidableEq, Repr

/-- Binary inputs (R523 to R528, R542). -/
structure Bins where
  ins : Tbl BinIn := []
  cnt : Tbl Nat := []
deriving DecidableEq, Repr

/-- A pending load of a channel (R535): at the next boundary, or at a target, for a LOAD; `dueAt` is the instant of
its effect once its compare has fired, 5.0 ns before (R27). -/
structure Pend where
  ring : Nat
  gen : Nat := 1
  seq : Word
  atTarget : Bool
  dueAt : Option Nat := none
deriving DecidableEq, Repr

/-- An output channel (R529 to R539, R544). P and H in 2⁻⁴ count; `highLen` and `perLen` are counts of
the period in progress; `perAt`, its start, and `endAt`, the end of a pull-in or pulse, are FRC times
in 2⁻¹⁶ ns. -/
structure OutCh where
  cfg : Option (List Word) := none
  en : Enable := .off
  held : Bool := false
  p : Nat := 0
  h : Nat := 0
  accP : Nat := 0
  accH : Nat := 0
  stP : Nat := 0
  stH : Nat := 0
  w : Bool := false
  highLen : Nat := 0
  perLen : Nat := 0
  pend : Option Pend := none
  pullIn : Bool := false
  pulse : Option (Nat × Nat × Word) := none
  pulseSupp : Bool := false
  pulsePol : Bool := false
  pulseInfo : Nat := 0
  perAt : Nat := 0
  endAt : Nat := 0
  inPeriod : Bool := false
  suppSince : Bool := false
  suppAt : Option Nat := none
  pinA : Bool := false
  pinB : Bool := false
  dueA : Bool := false
  dueB : Bool := false
  dueAt : Nat := 0
deriving DecidableEq, Repr

/-- A LOAD that is not yet complete (R534, R535). -/
structure LoadOp where
  ring : Nat
  gen : Nat := 1
  seq : Word
  left : List Nat
  mask : Nat := 0
  lost : Bool := false
deriving DecidableEq, Repr

/-- Output channels and the inhibit latch (R529 to R543). `pinLow`: OUTINH_N reads low; `ptr` is the pointer of the I/O
block's grants (R540). -/
structure Outs where
  chans : Tbl OutCh := []
  inh : Bool := false
  inhRefused : Bool := false
  pinLow : Bool := true
  inhDue : Bool := false
  loads : List LoadOp := []
  cnt : Tbl Nat := []
  ptr : Nat := 0
deriving DecidableEq, Repr

/-- A trace record (R547). -/
structure TrRec where
  type : Nat
  src : Nat := 0
  code : Nat := 0
  index : Nat := 0
  osn : Nat := 0
  frc : Nat := 0
  data : BitVec 64 := 0
  dropped : Bool := false
deriving DecidableEq, Repr

/-- The trace port (R546 to R552). -/
structure Obs where
  lanes : Nat := 0
  types : Nat := 0
  sources : Nat := 0
  part : Nat := 0
  partEn : Bool := false
  queues : Tbl (List TrRec) := []
  lseq : Tbl Nat := []
  dropFlag : List Nat := []
  dropped : Nat := 0
  sending : List Nat := []
  ready : List TrRec := []
  sent : List (Nat × TrRec × Nat) := []
deriving DecidableEq, Repr

/-- The state of the block. `pending` is the queue of commands; `free` counts the free values used
(log entry 2); `sets` lists the W1C bits, as register offset and bit, that were set at the present instant
(R14); `mem` is lane memory and the BAR2 region in canonical form. -/
structure State where
  pending : List Instr := []
  free : Nat := 0
  sets : List (Nat × Nat) := []
  clk : Clock := {}
  pow : Power := {}
  rst : Rst := {}
  boot : Boot := {}
  arb : Arb := {}
  hw : Hw := {}
  rng : Rng := {}
  cnp : Cnp := {}
  pgk : Pgk := {}
  mem : List Host.Cell := []
  prt : Prt := {}
  sw : Sw := {}
  tim : Tim := {}
  sv : Svs := {}
  gse : Gse := {}
  flt : Flt := {}
  acq : Acqn := {}
  key : Keys := {}
  gft : Gft := {}
  ecc : Ecc := {}
  log : Logb := {}
  mram : Mram := {}
  bin : Bins := {}
  out : Outs := {}
  obs : Obs := {}
deriving DecidableEq, Repr

/-- The machine right after reset: every field at the COLD value of its field table (R16) or at the
value a log entry names; VAUX has not yet risen, and the power-on source is asserted (R52). -/
def State.reset : State := {}

end Sys2Proof.Machine
end

