-- ==== Sys2Proof/Machine/Ops.lean ====
section
/-! DEFINITION. The shared operations: tables, memory, the arbiter and events, the logbook request,
delivery into partitions, rings and the replay journal, wakes, and the outcome of a row. -/

namespace Sys2Proof.Machine

open Sys2Proof

/-! ### Tables -/

/-- The entry of key `k`, if listed. -/
def look {α : Type} : Tbl α → Nat → Option α
  | [], _ => none
  | (a, v) :: r, k => if a = k then some v else look r k

/-- The entry of key `k`, or the COLD value `d` of an unlisted key. -/
def lookD {α : Type} (t : Tbl α) (k : Nat) (d : α) : α := (look t k).getD d

/-- Set the entry of key `k`; keys stay rising. -/
def put {α : Type} : Tbl α → Nat → α → Tbl α
  | [], k, v => [(k, v)]
  | (a, w) :: r, k, v =>
    if k < a then (k, v) :: (a, w) :: r
    else if a = k then (k, v) :: r
    else (a, w) :: put r k v

/-- Remove the entry of key `k`. -/
def del {α : Type} (t : Tbl α) (k : Nat) : Tbl α := t.filter fun e => e.1 != k

/-- Change the entry of key `k`, if listed. -/
def alter {α : Type} (t : Tbl α) (k : Nat) (f : α → α) : Tbl α :=
  t.map fun e => if e.1 = k then (e.1, f e.2) else e

/-- The 64-bit counter `i` of a bank plus one (R551); a bank lists counters that are not 0. -/
def bump (t : Tbl Nat) (i : Nat) : Tbl Nat := put t i ((lookD t i 0 + 1) % 2 ^ 64)

/-- The 64-bit counter `i` of a bank plus `n`. -/
def bumpBy (t : Tbl Nat) (i n : Nat) : Tbl Nat := put t i ((lookD t i 0 + n) % 2 ^ 64)

/-! ### Memory -/

namespace Memory

/-- The canonical form: addresses strictly rising, and no entry that equals the 0 of an unlisted byte. -/
def wf : List Host.Cell → Bool
  | [] => true
  | [c] => c.2 != 0
  | c :: d :: r => c.2 != 0 && decide (c.1 < d.1) && wf (d :: r)

/-- The byte at `a`; an unlisted byte reads 0 (pages are zero-filled, R77, R201; log entry 10). -/
def get : List Host.Cell → Nat → Byte
  | [], _ => 0
  | c :: r, a => if c.1 = a then c.2 else get r a

/-- Write one byte; writing 0 removes the entry. -/
def set : List Host.Cell → Nat → Byte → List Host.Cell
  | [], a, b => if b = 0 then [] else [(a, b)]
  | c :: r, a, b =>
    if c.1 < a then c :: set r a b
    else if c.1 = a then (if b = 0 then r else (a, b) :: r)
    else if b = 0 then c :: r else (a, b) :: c :: r

/-- Write bytes at rising addresses from `a`. -/
def write : List Host.Cell → Nat → Bytes → List Host.Cell
  | m, _, [] => m
  | m, a, b :: bs => write (set m a b) (a + 1) bs

/-- Read `n` bytes from `a`. -/
def read (m : List Host.Cell) (a n : Nat) : Bytes := (List.range n).map fun i => get m (a + i)

/-- Make the `n` bytes from `a` read 0. -/
def zero (m : List Host.Cell) (a n : Nat) : List Host.Cell :=
  m.filter fun c => c.1 < a || a + n ≤ c.1

/-- The cells of the `n` bytes from `a`. -/
def cells (m : List Host.Cell) (a n : Nat) : List Host.Cell :=
  m.filter fun c => a ≤ c.1 && decide (c.1 < a + n)

/-- Put cells back. -/
def fill : List Host.Cell → List Host.Cell → List Host.Cell
  | m, [] => m
  | m, c :: cs => fill (set m c.1 c.2) cs

end Memory

/-! ### The outcome of a row -/

/-- What a row answers. -/
abbrev Out := Host.Outcome State Fault Refusal

/-- A row that names an object outside R18 or R99 stops. -/
def named (ok : Bool) (o : Out) : Out := if ok then o else .fault .noSuchObject

/-- A row whose condition holds has its effect `t`; otherwise the step does not take place and
nothing changes (log entry 11). -/
def act (ok : Bool) (s t : State) : Out := .next (if ok then t else s)

/-- The next free value (log entry 2). -/
def fresh (s : State) : Nat × State := (Config.freeValue s.free, { s with free := s.free + 1 })

/-! ### Bits and bytes -/

/-- `n` bytes of a number, least significant first (R11). -/
def toLe : Nat → Nat → Bytes
  | 0, _ => []
  | n + 1, x => BitVec.ofNat 8 x :: toLe n (x / 256)

/-- The number that bytes spell, least significant first (R11). -/
def ofLe : Bytes → Nat
  | [] => 0
  | b :: bs => b.toNat + 256 * ofLe bs

/-- `n` bytes of `b` from offset `i`, as a number (R11); bytes past the end read 0. -/
def leAt (b : Bytes) (i n : Nat) : Nat := ofLe ((b.drop i).take n)

/-- Bits [hi:lo] of a number. -/
def bits (x hi lo : Nat) : Nat := x / 2 ^ lo % 2 ^ (hi + 1 - lo)

/-- Bit `i` of a number. -/
def tbit (x i : Nat) : Bool := x.testBit i

/-- A Bool as a bit. -/
def b2n (b : Bool) : Nat := if b then 1 else 0

/-- Pad or cut to `n` bytes. -/
def padTo (n : Nat) (b : Bytes) : Bytes := (b ++ List.replicate n 0).take n

/-! ### Rotating priority (R35) -/

/-- The requesters 0 to `n` − 1 in the order in which a resource with pointer `ptr` visits them (R35). -/
def visitOrder (n ptr : Nat) : List Nat := (List.range n).map fun i => (ptr + i) % n

/-- One cycle of a contended resource with `n` requesters and `g` grants: those granted, in the order of
their grants, and the pointer afterwards (R35). -/
def arbitrate (n g ptr : Nat) (asking : Nat → Bool) : List Nat × Nat :=
  let won := ((visitOrder n ptr).filter asking).take g
  (won, match won.getLast? with
    | some r => (r + 1) % n
    | none => ptr)

/-- The requester that wins where one grant is made, if any asks (R35). -/
def rotate (n ptr : Nat) (asking : Nat → Bool) : Option Nat := (arbitrate n 1 ptr asking).1.head?

/-- Of the requesters of a list, `i` is the first that a resource with pointer `ptr` visits (R35). -/
def comesFirst (n ptr : Nat) (l : List Nat) (i : Nat) : Bool :=
  l.all fun j => decide ((i + n - ptr) % n ≤ (j + n - ptr) % n)

/-! ### The arbiter (R28 to R37) -/

/-- The Ordering Arbiter is held: in COLD reset and in its release until PLL lock, where its clock
starts (R26, R78; log entry 12). -/
def arbHeld (s : State) : Bool :=
  match s.rst.phase with
  | .trim | .strap | .pll => true
  | .held => s.rst.reach == some .cold
  | _ => false

/-- The OSN that the next grant gives; 0 while the arbiter is held (R28, R78). -/
def nextOsn (s : State) : Nat := if arbHeld s then 0 else s.arb.osn + 1

/-- The arbiter after the cycle in which source `src` asks (R28, R30, R35). Each event asks in a cycle of
its own: the crossing of R27 leaves the cycle of a request open (log entry 75). -/
def arbNext (src : Nat) (s : State) : Arb :=
  if arbHeld s then s.arb
  else { osn := s.arb.osn + 1, ptr := (arbitrate 16 4 s.arb.ptr (· == src)).2 }

/-- One grant to `src`. -/
def grant (src : Nat) (s : State) : State := { s with arb := arbNext src s }

/-! ### Events (R147), logbook requests (R509) and trace records (R547) -/

/-- An event or a record: source, code, kind, index, `DATA`, severity of its logbook record if it
writes one, and the event rings it is written to. -/
structure Ev where
  src : Nat
  code : Nat
  kind : Nat := 0
  index : Nat := 0
  data : Bytes := []
  sev : Option Nat := none
  toP0 : Bool := true
  toHost : Bool := true
deriving DecidableEq, Repr

/-- P0 exists (R147). -/
def p0Exists (s : State) : Bool := (look s.cnp.parts 0).isSome

/-- P0 is dispatched, so that its visibility words are held (R183). -/
def p0Running (s : State) : Bool :=
  match look s.cnp.parts 0 with
  | some p => p.st == .running
  | none => false

/-- Words `EPROD` and `ELOST` after one more record (R147). -/
def evCount (r : EvRing) : EvRing :=
  if r.eprod - r.econs = BitVec.ofNat 32 Config.eventRingMax then { r with elost := r.elost + 1 }
  else { r with eprod := r.eprod + 1 }

/-- The 16 bytes of an event record (R147). -/
def evBytes (e : Ev) (osn : Nat) : Bytes :=
  toLe 4 (e.code % 65536 + 65536 * (e.kind % 256)) ++ toLe 4 e.index ++ toLe 8 osn

/-- What writing one more record makes of memory, for the event ring at offset `ring` and the event
line at offset `line` (R144, R147): pairs of offset and bytes. -/
def evWrites (ring line : Nat) (r : EvRing) (e : Ev) (osn : Nat) : List (Nat × Bytes) :=
  if r.eprod - r.econs = BitVec.ofNat 32 Config.eventRingMax then
    [(line + 4, toLe 4 (r.elost + 1).toNat)]
  else
    [(ring + 16 * (r.eprod.toNat % Config.eventRingMax), evBytes e osn),
     (line, toLe 4 (r.eprod + 1).toNat)]

/-- Apply writes in order, offsets from `base`. -/
def applyWrites (base : Nat) : List Host.Cell → List (Nat × Bytes) → List Host.Cell
  | m, [] => m
  | m, w :: ws => applyWrites base (Memory.write m (base + w.1) w.2) ws

/-- Record of type 5 of an event (R547). -/
def evTrace (e : Ev) (osn : Nat) (s : State) : TrRec :=
  { type := 5, src := e.src, code := e.code, index := e.index, osn := osn, frc := s.clk.frc,
    data := BitVec.ofNat 64 (leAt e.data 0 8) }

/-- The set-up of R548 selects a record of this type, source and partition. -/
def traceSel (s : State) (type src : Nat) (part : Option Nat) : Bool :=
  s.obs.lanes != 0 && tbit s.obs.types type && tbit s.obs.sources src &&
    (type == 5 || !s.obs.partEn || part == some s.obs.part)

/-- The selected records, with one more if the set-up selects it. -/
def traceAdd (s : State) (part : Option Nat) (r : TrRec) : List TrRec :=
  if traceSel s r.type r.src part then s.obs.ready ++ [r] else s.obs.ready

/-- A trace record of a granted event (R546: it changes nothing else). -/
def trace (part : Option Nat) (r : TrRec) (s : State) : State :=
  { s with obs := { s.obs with ready := traceAdd s part r } }

/-- The request for a logbook record of an event (R509). -/
def logReq (e : Ev) (osn : Nat) (sev : Nat) : LogRec :=
  { code := e.code, src := e.src, sev := sev, kind := e.kind, index := e.index, osn := osn,
    data := padTo 20 e.data }

/-- The logbook requests after the event. -/
def logNext (e : Ev) (osn : Nat) (s : State) : List LogRec :=
  match e.sev with
  | some sev => s.log.reqs ++ [logReq e osn sev]
  | none => s.log.reqs

/-- The event reaches the event ring of ring 2,048 (R147). -/
def evToP0 (e : Ev) (s : State) : Bool := e.toP0 && p0Exists s

/-- The event reaches the event ring of ring 2,049 (R147): Heartwood has started and the host
enabled it. -/
def evToHost (e : Ev) (s : State) : Bool :=
  e.toHost && s.hw.evHost.een == 1 && (look s.rng.rings Config.ringHost).isSome

/-- The 64-byte lines that `n` bytes from `iova` touch. -/
def linesOf (iova n : Nat) : List Nat :=
  (List.range ((iova % 64 + n + 63) / 64)).map (iova / 64 + ·)

/-- Raise an event: one OSN (R29), the event rings (R147), its trace record (R547) and its logbook
request (R509). Writes to P0's event ring are held while P0 is dispatched (R183). -/
def raise (e : Ev) (s : State) : State :=
  let osn := nextOsn s
  let p0 := evToP0 e s
  let host := evToHost e s
  let wp := if p0 then evWrites 0x20000 0x14040 s.hw.evP0 e osn else []
  let wh := if host then evWrites 0x10000 0x4040 s.hw.evHost e osn else []
  let direct := if p0Running s then [] else wp
  let later := if p0Running s then wp else []
  { s with
    arb := arbNext e.src s
    hw := { s.hw with
      evP0 := if p0 then evCount s.hw.evP0 else s.hw.evP0
      evHost := if host then evCount s.hw.evHost else s.hw.evHost }
    mem := applyWrites Config.bar2Base (applyWrites 0 s.mem direct) wh
    cnp := { s.cnp with
      parts := alter s.cnp.parts 0 fun p => { p with
        heldWrites := p.heldWrites ++ later
        lines := p.lines ++ direct.flatMap fun w => linesOf w.1 w.2.length } }
    log := { s.log with reqs := logNext e osn s }
    obs := { s.obs with ready := traceAdd s none (evTrace e osn s) } }

/-- A logbook record that is not written to the event rings and is its own event (R560). -/
def recordOnly (e : Ev) (s : State) : State := raise { e with toP0 := false, toHost := false } s

/-- The module sets the W1C bit `bit` of the register at offset `off` at this instant, so that a write of
1 in the same instant does not clear it (R14). -/
def noteSet (off bit : Nat) (s : State) : State := { s with sets := (off, bit) :: s.sets }

/-! ### Partitions: their memory (R200 to R206) -/

/-- The first address in `mem` of partition `p`'s IOVA 0. -/
def partBase (p : Nat) : Nat := p * 2 ^ 48

/-- The mapped pages, in 4 KiB pages (R201). -/
def mapped (p : Part) : Nat := p.pages.foldl (fun n e => n + e.2) 0

/-- The page that holds an IOVA is mapped, as a 4 KiB page or inside a 2 MiB page (R201). -/
def isMapped (p : Part) (iova : Nat) : Bool :=
  (look p.pages (iova / 4096)).isSome || look p.pages (iova / 2097152 * 512) == some 512

/-- The IOVA lies inside the large region (R176). -/
def inLarge (p : Part) (iova : Nat) : Bool :=
  p.largeBase ≤ iova && decide (iova < p.largeBase + p.largeSize * 2097152)

/-- Frames of the free pool not in use: scrubbed and waiting (R217, R218). -/
def framesLeft (s : State) : Nat := s.pgk.free + s.pgk.scrub

/-- Take `n` frames: scrubbed ones first, else frames that are scrubbed at once (R201). -/
def takeFrames (n : Nat) (g : Pgk) : Pgk :=
  { g with free := g.free - n, scrub := g.scrub - (n - g.free) }

/-- Send `n` freed frames to the scrubber (R204). A hard frame is not returned (R504); which of the
freed frames are hard is a free value (log entry 21). -/
def freeFrames (n : Nat) (s : State) : State :=
  let h := Config.freeValue s.free % (min n s.pgk.hard.length + 1)
  if s.pgk.hard.isEmpty then { s with pgk := { s.pgk with scrub := s.pgk.scrub + n } }
  else
    { s with
      free := s.free + 1
      pgk := { s.pgk with scrub := s.pgk.scrub + (n - h), hard := s.pgk.hard.drop h } }

/-- Change partition `p`. -/
def modPart (p : Nat) (f : Part → Part) (s : State) : State :=
  { s with cnp := { s.cnp with parts := alter s.cnp.parts p f } }

/-- Set partition `p`. -/
def setPart (p : Nat) (x : Part) (s : State) : State :=
  { s with cnp := { s.cnp with parts := put s.cnp.parts p x } }

/-- The size of the page that a first touch maps: 2 MiB inside the large region where an aligned run
of free frames exists, which the spec leaves to the allocation and so to a free value; else 4 KiB, as where a part of
that 2 MiB is mapped already (R201, log entry 13). -/
def touchSize (x : Part) (iova : Nat) (s : State) : Nat :=
  if inLarge x iova && !(x.pages.any fun e => e.1 / 512 == iova / 2097152) && decide (512 ≤ framesLeft s) &&
      Config.freeValue s.free % 2 == 1 then 512
  else 1

/-- Map the page of a first touch of partition `p` (R201): none when it would exceed the quota or no
frame is left. A mapped page stays as it is. -/
def touch (p iova : Nat) (s : State) : Option State :=
  match look s.cnp.parts p with
  | none => none
  | some x =>
    if isMapped x iova then some s
    else
      let n := touchSize x iova s
      if x.quota < mapped x + n || framesLeft s < n || 2 ^ 48 ≤ iova then none
      else
        let page := if n = 512 then iova / 2097152 * 512 else iova / 4096
        some { s with
          free := if inLarge x iova then s.free + 1 else s.free
          pgk := takeFrames n s.pgk
          cnp := { s.cnp with parts := put s.cnp.parts p { x with pages := put x.pages page n } } }

/-- A frame or pre-image request of requester `i` is granted, in a cycle of its own (R35, R207; log entry 75). -/
def pgkAsk (i : Nat) (s : State) : State := { s with pgk := { s.pgk with ptr := (arbitrate 17 1 s.pgk.ptr (· == i)).2 } }

/-- An event of the I/O block, of input `i` or of output channel `i - 32`: its request is granted in a cycle of its own
(R35, R540; log entry 75). -/
def ioEvent (i : Nat) (e : Ev) (s : State) : State :=
  raise e { s with out := { s.out with ptr := (arbitrate 48 1 s.out.ptr (· == i)).2 } }

/-- Map every page of `n` bytes from `iova`, page by page; none when the quota forbids one. -/
def touchRange (p iova n : Nat) (s : State) : Option State :=
  (List.range ((iova % 4096 + n + 4095) / 4096)).foldl
    (fun o i => o.bind (touch p ((iova / 4096 + i) * 4096))) (some s)

/-- The lines of a mirrored partition that are written in the tick (R466). -/
def noteLines (iova n : Nat) (x : Part) : Part :=
  if x.mirror.isEmpty then x else { x with written := x.written ++ linesOf iova n }

/-- A page of a mirrored partition as it stands at its first write by an engine in the tick, unless a store has given it
a pre-image (R466). -/
def stagePage (p : Nat) (mem : List Host.Cell) (x : Part) (page : Nat) : Part :=
  if (look x.pre page).isSome || (look x.staged page).isSome then x
  else { x with staged := put x.staged page (Memory.cells mem (partBase p + page * 4096) 4096) }

/-- `stagePage` for every page of `n` bytes. -/
def stagePages (p iova n : Nat) (mem : List Host.Cell) (x : Part) : Part :=
  if x.mirror.isEmpty then x
  else ((List.range ((iova % 4096 + n + 4095) / 4096)).map (iova / 4096 + ·)).foldl (stagePage p mem) x

/-- Bytes of a mirrored partition's memory that differ between two modules, because they are module-local (R475). -/
def noteLocal (p iova n : Nat) (s : State) : State :=
  modPart p (fun x => if x.mirror.isEmpty then x else { x with locals := put x.locals iova n }) s

/-- An engine writes data into mapped pages of partition `p`; the lines are marked as delivered after
the mark (R206). Data writes are not held (R183). -/
def deliver (p iova : Nat) (b : Bytes) (s : State) : State :=
  { s with
    mem := Memory.write s.mem (partBase p + iova) b
    cnp := { s.cnp with
      parts := alter s.cnp.parts p fun x =>
        noteLines iova b.length (stagePages p iova b.length s.mem { x with lines := x.lines ++ linesOf iova b.length }) } }

/-- The IOVA lies in a ring region of partition `p` (R101, R130). -/
def ringRegion (p iova : Nat) (s : State) : Bool :=
  s.rng.rings.any fun e =>
    let w (a n : Nat) : Bool := a ≤ iova && decide (iova < a + n)
    decide (e.1 < 2048) && e.1 / 8 == p &&
      (w e.2.submit (2 ^ e.2.log2s * 32) || w e.2.compl (2 ^ e.2.log2s * 16) || w e.2.doorbell 64 ||
        w e.2.shadow 64)

/-- The pre-image of a page, if the tick has none yet (R205). -/
def keepPre (p page : Nat) (mem : List Host.Cell) (x : Part) : Part :=
  if (look x.pre page).isSome then x
  else { x with pre := put x.pre page (Memory.cells mem (partBase p + page * 4096) 4096) }

/-- A write of the module lands in partition `p`. Ring regions return to the mark at a move (R130), so
their pre-image is kept; other lines count as delivered and survive it (R206; log entry 18). -/
def land (p iova : Nat) (b : Bytes) (s : State) : State :=
  if ringRegion p iova s then
    { s with
      mem := Memory.write s.mem (partBase p + iova) b
      cnp := { s.cnp with
        parts := alter s.cnp.parts p fun x => noteLines iova b.length (keepPre p (iova / 4096) s.mem x) } }
  else deliver p iova b s

/-- The module writes a visibility word of partition `p`: at once, or held while the partition is
dispatched (R183). -/
def visWrite (p iova : Nat) (b : Bytes) (s : State) : State :=
  match look s.cnp.parts p with
  | some x =>
    if x.st == .running then modPart p (fun y => { y with heldWrites := y.heldWrites ++ [(iova, b)] }) s
    else land p iova b s
  | none => s

/-- Writes that land in order. -/
def landAll (p : Nat) : List (Nat × Bytes) → State → State
  | [], s => s
  | w :: ws, s => landAll p ws (land p w.1 w.2 s)

/-- Apply the held writes of partition `p`, in the order in which they were made (R183). -/
def flushHeld (p : Nat) (s : State) : State :=
  match look s.cnp.parts p with
  | some x => landAll p x.heldWrites (modPart p (fun y => { y with heldWrites := [] }) s)
  | none => s

/-! ### Wakes (R196, R197) -/

/-- A wake of partition `p` by cause bit `cause` and wake-binding entry `entry` (64 for a ring
completion, which has no entry). -/
def wakePart (p cause entry : Nat) (s : State) : State :=
  { s with cnp := { s.cnp with wakes := s.cnp.wakes ++ [(p, cause, entry)] } }

/-- The wake that the bindings of one partition give for a source of type `type`: by the first entry
that names it (R182, R196). -/
def bindWakes (p : Nat) (x : Part) (type : Nat) (ok : Nat → Bool) : List (Nat × Nat × Nat) :=
  (x.binds.zipIdx.find? fun e => e.1.1.toNat % 256 == type && ok e.1.2.toNat).toList.map fun e =>
    (p, type, e.2)

/-- Fire every binding of a type whose word 1 names the source; the cause bit equals the type (R182,
R196). -/
def fireBinds (type : Nat) (ok : Nat → Bool) (s : State) : State :=
  { s with cnp := { s.cnp with
    wakes := s.cnp.wakes ++ s.cnp.parts.flatMap fun e => bindWakes e.1 e.2 type ok } }

/-! ### Rings and the journal (R99 to R140) -/

/-- Change ring `r`. -/
def modRing (r : Nat) (f : Ring → Ring) (s : State) : State :=
  { s with rng := { s.rng with rings := alter s.rng.rings r f } }

/-- The owner of a ring in `mem`: a partition's base, or the BAR2 region (R99, R144). -/
def ringBase (r : Nat) : Nat :=
  if r = Config.ringHost then Config.bar2Base
  else if r = Config.ringP0 then partBase 0 else partBase (r / 8)

/-- The partition that owns a ring; none for the host's. -/
def ringOwner (r : Nat) : Option Nat :=
  if r = Config.ringHost then none else if r = Config.ringP0 then some 0 else some (r / 8)

/-- S (R101). -/
def ringSize (x : Ring) : Nat := 2 ^ x.log2s

/-- Occupancy: descriptors consumed but not completed (R123). -/
def occupancy (x : Ring) : Nat := (x.c - x.k).toNat

/-- Code of an enable state in a shadow line and `RING_QUERY` (R114). -/
def enCode : Enable → Nat
  | .off => 0
  | .stopping => 1
  | .on => 2

/-- The 64 bytes of the shadow line (R114). -/
def shadowBytes (x : Ring) : Bytes :=
  toLe 4 x.c.toNat ++ toLe 4 x.k.toNat ++ toLe 4 (x.gen + 256 * enCode x.st) ++ toLe 4 0 ++
    toLe 8 x.lastOsn ++ toLe 4 x.a.toNat ++ List.replicate 36 0

/-- The module writes bytes at an address of a ring's owner: visibility words of a partition are held
while it is dispatched (R183); the BAR2 region is written at once. -/
def ringVis (r iova : Nat) (b : Bytes) (s : State) : State :=
  match ringOwner r with
  | some p => visWrite p iova b s
  | none => { s with mem := Memory.write s.mem (Config.bar2Base + iova) b }

/-- Write the shadow line as the ring stands (R114). -/
def writeShadow (r : Nat) (s : State) : State :=
  match look s.rng.rings r with
  | some x => ringVis r x.shadow (shadowBytes x) s
  | none => s

/-- The journal entry of an operation: its ring, generation and sequence (R126). -/
def isEntry (r gen : Nat) (seq : Word) (e : JRec) : Bool :=
  e.ring == r && e.gen == gen && e.seq == seq

/-- The journal entry of an operation, if it has one. -/
def findEntry (r gen : Nat) (seq : Word) (s : State) : Option JRec :=
  s.rng.jrnl.find? (isEntry r gen seq)

/-- The ring's current generation; 0 for an absent ring. -/
def genOf (r : Nat) (s : State) : Nat :=
  match look s.rng.rings r with
  | some x => x.gen
  | none => 0

/-- An operation as its engine sees it: one whose entry a different descriptor replaced while it had not
finished (R130), else the journal entry. -/
def opEntry (r gen : Nat) (seq : Word) (s : State) : Option JRec :=
  (s.rng.orphans.find? (isEntry r gen seq)).or (findEntry r gen seq s)

/-- The operation of the ring's current generation. -/
def entryOf (r : Nat) (seq : Word) (s : State) : Option JRec := opEntry r (genOf r s) seq s

/-- Change the entry of an operation. -/
def modEntry (r gen : Nat) (seq : Word) (f : JRec → JRec) (s : State) : State :=
  let g (e : JRec) : JRec := if isEntry r gen seq e then f e else e
  if s.rng.orphans.any (isEntry r gen seq) then
    { s with rng := { s.rng with orphans := s.rng.orphans.map g } }
  else { s with rng := { s.rng with jrnl := s.rng.jrnl.map g } }

/-- An operation finishes with a status, a result word and `CFLAGS`; an operation of an older
generation leaves no completion (R120), but it leaves its engine. A re-executed operation of an emitting
binding completes with REPLAYED (R131). An operation whose entry was replaced leaves only its engine
(R130). -/
def finishOp (r gen : Nat) (seq : Word) (status : Nat) (result : Option Word) (short : Bool)
    (s : State) : State :=
  { s with rng := { s.rng with
    ghosts := s.rng.ghosts.filter fun g => g != (r, gen, seq)
    orphans := s.rng.orphans.filter fun e => !isEntry r gen seq e
    jrnl := s.rng.jrnl.map fun e =>
      if isEntry r gen seq e && e.stage != .finished then
        { e with stage := .finished, status := if e.replayed then 0x50 else status, result := result,
                 cflags := e.cflags + 2 * b2n short }
      else e } }

/-- Finish an operation of the ring's current generation. -/
def finishNow (r : Nat) (seq : Word) (status : Nat) (result : Option Word) (s : State) : State :=
  finishOp r (genOf r s) seq status result false s

/-- An entry is RUNNING (R126): its completion is neither written nor withdrawn. -/
def running (e : JRec) : Bool := !e.done && !e.withdrawn

/-- No operation of the ring is outstanding (R103, R210). An entry that is LOOSE is, though its operation has finished,
and an operation whose entry a different descriptor replaced is not (DESIGN CHOICE, log entry 108). -/
def ringDrained (r : Nat) (s : State) : Bool :=
  !(s.rng.jrnl.any fun e => e.ring == r && e.gen == genOf r s && running e && !e.saved)

/-- The entries in use (R137). -/
def jrnlUsed (s : State) : Nat := s.rng.jrnl.length

/-- Set a bit of `RNG_EVT` and raise the event of R139; rings 2,048 and 2,049 use source 0. An event of
kind 0 names no ring and leaves `LAST_RING` as it was (DESIGN CHOICE: the spec says nothing of it; log entry
76). -/
def ringEvent (bit code kind r : Nat) (data : Bytes) (sev : Option Nat) (s : State) : State :=
  raise { src := if Config.ringP0 ≤ r then 0 else 1, code := code, kind := kind,
          index := if kind = 2 then r else 0, data := data, sev := sev }
    { noteSet 0x0404 bit s with rng := { s.rng with
        evt := s.rng.evt ||| BitVec.ofNat 5 (2 ^ bit)
        lastRing := if kind = 2 then r else s.rng.lastRing } }

/-- `DATA` of the records of events 0212h and 0214h: ring, sequence and opcode (R128, R132;
log entry 14). -/
def ringData (r : Nat) (seq : Word) (d : Desc) : Bytes :=
  toLe 4 r ++ toLe 4 seq.toNat ++ toLe 2 d.w0.toNat

/-- `OPCODE` of a descriptor (R106). -/
def opOf (d : Desc) : Nat := bits d.w0.toNat 15 0
/-- `FLAGS` of a descriptor (R106). -/
def flagsOf (d : Desc) : Nat := bits d.w0.toNat 23 16
/-- `GEN` of a descriptor (R106). -/
def genField (d : Desc) : Nat := bits d.w0.toNat 31 24
/-- `WAKE` of a descriptor (R106). -/
def wakeOf (d : Desc) : Bool := tbit d.w0.toNat 16
/-- `FENCE` of a descriptor (R106). -/
def fenceOf (d : Desc) : Bool := tbit d.w0.toNat 17
/-- The buffer IOVA of a descriptor (R106). -/
def iovaOf (d : Desc) : Nat := d.w2.toNat + 2 ^ 32 * d.w3.toNat
/-- `LENGTH` of a descriptor (R106). -/
def lenOf (d : Desc) : Nat := d.w4.toNat
/-- `ARG0` of a descriptor (R106). -/
def arg0 (d : Desc) : Nat := d.w6.toNat
/-- `ARG1` of a descriptor (R106). -/
def arg1 (d : Desc) : Nat := d.w7.toNat

/-- The 32 bytes of a descriptor (R106). -/
def descBytes (d : Desc) : Bytes :=
  [d.w0, d.w1, d.w2, d.w3, d.w4, d.w5, d.w6, d.w7].flatMap fun w => toLe 4 w.toNat

/-! ### Graft frames that the module sends (R461 to R464) -/

/-- `TYPE` of a frame (R461). -/
def bodyType : GBody → Nat
  | .hello _ => 0x01
  | .ack _ _ _ => 0x02
  | .resign => 0x03
  | .taken => 0x04
  | .log _ => 0x05
  | .cmd _ => 0x06
  | .cmdack _ _ _ => 0x07
  | .unpair => 0x08
  | .mirror (.page _ _ _) => 0x10
  | .mirror (.context _ _ _) => 0x11
  | .mirror (.journal _) => 0x12
  | .mirror (.ringMark _) => 0x13
  | .mirror (.state _) => 0x14
  | .commit _ => 0x15
  | .pair _ => 0x20
  | .sync _ _ _ => 0x21

/-- Bytes of a frame of the tick record on the link (R467). -/
def frameLen : MirrorFrame → Nat
  | .page _ _ lines => 40 + 64 * lines.length
  | .context _ _ _ => 664
  | .journal l => 24 + 96 * l.length
  | .ringMark l => 24 + 32 * l.length
  | .state l => 24 + 32 * l.length

/-- Bytes of a frame on the link: header, payload and trailer (R461, R464, R467); where the spec gives no payload, log entry
79. -/
def bodyLen : GBody → Nat
  | .hello _ => 32
  | .ack _ _ _ => 40
  | .resign => 24
  | .taken => 24
  | .log _ => 64
  | .cmd c => 64 + (c.cmd.block.length + 7) / 8 * 8
  | .cmdack _ _ _ => 40
  | .unpair => 24
  | .mirror f => frameLen f
  | .commit _ => 88
  | .pair p => 80 + 16 * p.branches.length
  | .sync _ _ _ => 24 + 8 + 4096

/-- A frame leaves on `lane`: it takes the lane's next `LSEQ` and waits for its acknowledgement. -/
def gftNext (lane : Nat) (f : GFrame) (s : State) : State :=
  let n := lookD s.gft.laneTx lane 0
  { s with gft := { s.gft with
    laneTx := put s.gft.laneTx lane ((n + 1) % 2 ^ 32)
    unacked := put s.gft.unacked lane (lookD s.gft.unacked lane [] ++ [(n, f)]) } }

/-- The class of a frame `TYPE` at a frame start (R463): control, LOG, mirror and SYNC traffic; RESIGN and TAKEN
(3) go ahead of the rotation. -/
def gftClass (type : Nat) : Nat :=
  if type = 3 ∨ type = 4 then 3
  else if type = 5 then 1
  else if (0x10 ≤ type ∧ type ≤ 0x15) ∨ type = 0x21 then 2
  else 0

/-- A waiting frame may start on `lane`. -/
def mayTake (lane : Nat) (f : TxReq) : Bool := f.lane.all (· == lane)

/-- The oldest waiting frame of class `k` that may start on `lane`. -/
def waitingOf (lane k : Nat) (s : State) : Option TxReq :=
  s.gft.txWait.find? fun f => mayTake lane f && gftClass (bodyType f.frame.body) == k

/-- The key of a page of the mirror image and of the background copy. -/
def pageKey (p page : Nat) : Nat := p * 2 ^ 36 + page

/-- The page has been written after it was copied (R483 step 4). -/
def writtenSince (e : Nat × Nat) (s : State) : Bool :=
  ((look s.cnp.parts (e.1 / 2 ^ 36)).map fun x => (x.written.drop e.2).any fun l => l / 64 == e.1 % 2 ^ 36).getD false

/-- The page that the background copy takes next: one not yet sent, or one written since (R483 step 4). -/
def nextCopy (s : State) : Option Nat :=
  match s.gft.toCopy with
  | k :: _ => some k
  | [] => if s.gft.copying then (s.gft.copied.find? fun e => writtenSince e s).map Prod.fst else none

/-- The frame of class `k` that `lane` could start: a waiting one, or the background copy, which has what the
mirrors leave (R463, R483). -/
def candidate (lane k : Nat) (s : State) : Option TxReq :=
  match waitingOf lane k s with
  | some f => some f
  | none =>
    if k = 2 then (nextCopy s).map fun key =>
      { frame := { mark := s.cnp.tickStart % 2 ^ 48, body := .sync (key / 2 ^ 36) (key % 2 ^ 36 * 4096) [] } }
    else none

/-- The frame that `lane` starts next, and its pointer afterwards (R463): RESIGN and TAKEN first, then the
rotation over the three classes. -/
def pickFrame (lane : Nat) (s : State) : Option (TxReq × Nat) :=
  let ptr := lookD s.gft.lanePtr lane 0
  match waitingOf lane 3 s with
  | some f => some (f, ptr)
  | none =>
    let a := arbitrate 3 1 ptr fun k => (candidate lane k s).isSome
    (a.1.head?.bind fun k => candidate lane k s).map fun f => (f, a.2)

/-- What a frame takes from the module as it starts: the OSN of a HELLO, the `LSEQ`s of an ACK, the page of a SYNC
(R462, R464, R483). -/
def filled (f : GFrame) (s : State) : GFrame :=
  match f.body with
  | .hello _ => { f with body := .hello s.arb.osn }
  | .ack _ _ i => { f with body := .ack (lookD s.gft.laneRx 0 0) (lookD s.gft.laneRx 1 0) i }
  | .sync p iova _ => { f with body := .sync p iova (Memory.read s.mem (partBase p + iova) 4096) }
  | .resign | .taken | .log _ | .cmd _ | .cmdack _ _ _ | .unpair | .mirror _ | .commit _ | .pair _ => f

/-- The background copy after a frame starts: a page that it carries is copied, for the time being (R483 step 4). -/
def copyAfter (f : GFrame) (s : State) : Gft :=
  match f.body with
  | .sync p iova _ =>
    let k := pageKey p (iova / 4096)
    let n := ((look s.cnp.parts p).map fun x => x.written.length).getD 0
    { s.gft with
      toCopy := s.gft.toCopy.erase k
      copied := put s.gft.copied k n }
  | .hello _ | .ack _ _ _ | .resign | .taken | .log _ | .cmd _ | .cmdack _ _ _ | .unpair | .mirror _ | .commit _
  | .pair _ => s.gft

/-- ns that a frame of `n` bytes takes on a lane of 25 Gb/s (R460). -/
def frameNs (n : Nat) : Nat := (n * 8 + 24) / 25

/-- A lane that is UP and sends no frame starts the next one, one frame at a time (R463); one sent again keeps its
`LSEQ` (R462). -/
def startFrame (lane : Nat) (s : State) : State :=
  if !s.gft.lanes.contains lane || s.clk.now < lookD s.gft.laneFree lane 0 then s
  else
    match pickFrame lane s with
    | none => s
    | some (q, ptr) =>
      let f := if q.seq.isSome then q.frame else filled q.frame s
      let n := q.seq.getD (lookD s.gft.laneTx lane 0)
      let s1 := { s with gft := copyAfter f s }
      let t := if q.seq.isSome then s1 else gftNext lane f s1
      { t with gft := { t.gft with
          txWait := t.gft.txWait.erase q
          lanePtr := put t.gft.lanePtr lane ptr
          laneFree := put t.gft.laneFree lane (t.clk.now + frameNs (bodyLen f.body))
          txOut := put t.gft.txOut lane (n, f) } }

/-- Each lane's frame start (R463). -/
def frameStarts (s : State) : State := startFrame 1 (startFrame 0 s)

/-- Frames wait for a frame start, and one follows at once where a lane is free (R463). -/
def gftQueue (fs : List TxReq) (s : State) : State :=
  frameStarts { s with gft := { s.gft with txWait := s.gft.txWait ++ fs } }

/-- A frame of the present tick. -/
def frameNow (b : GBody) (s : State) : GFrame := { mark := s.cnp.tickStart % 2 ^ 48, body := b }

/-- A frame leaves on each lane of a list. -/
def gftSend (b : GBody) (lanes : List Nat) (s : State) : State :=
  gftQueue (lanes.map fun l => { lane := some l, frame := frameNow b s }) s

/-- RESIGN, TAKEN and UNPAIR leave on every lane that is UP (R452, R457, R485). -/
def gftSendAll (b : GBody) (s : State) : State := gftSend b s.gft.lanes s

/-- Any other frame leaves on the lane that first has a frame start for it; none waits while no lane is UP. -/
def gftSendOne (b : GBody) (s : State) : State :=
  if s.gft.lanes.isEmpty then s else gftQueue [{ frame := frameNow b s }] s

/-! ### OFF, STOPPING and ON (R149) -/

/-- The enable rule: the new state, the held enable and the status. -/
def enableRule (st : Enable) (held : Bool) : Enable × Bool × Nat :=
  match st, held with
  | .off, _ => (.on, false, 0)
  | .stopping, _ => (.stopping, true, 1)
  | .on, h => (.on, h, 0)

/-- The disable rule: the new state and the held enable; the status is OK. -/
def disableRule (st : Enable) (held : Bool) : Enable × Bool :=
  match st, held with
  | .off, h => (.off, h)
  | .stopping, _ => (.stopping, false)
  | .on, _ => (.stopping, false)

/-- The events of an object that reaches OFF: 0001h, and 0002h when a held enable takes effect at
once (R149). -/
def offEvents (kind index : Nat) (held : Bool) (s : State) : State :=
  let s1 := raise { src := 0, code := 1, kind := kind, index := index } s
  if held then raise { src := 0, code := 2, kind := kind, index := index } s1 else s1

/-- The state in which an object is left when it reaches OFF (R149). -/
def afterOff (held : Bool) : Enable := if held then .on else .off

end Sys2Proof.Machine
end

