-- ==== Sys2Proof/Machine/Operands.lean ====
section
/-! DEFINITION. The operand forms: words of an input block, the check codes of R559, and the division
of a second into ticks (R17). -/

namespace Sys2Proof.Machine

open Sys2Proof

/-! ### Input blocks (R145) -/

/-- Word `i` of a block (R11). -/
def wordAt (b : Bytes) (i : Nat) : Nat := leAt b (4 * i) 4

/-- Words `i` and `i + 1` of a block as 64 bits (R11). -/
def dwordAt (b : Bytes) (i : Nat) : Nat := leAt b (4 * i) 8

/-- The number in two's complement of `n` bits. -/
def signed (n x : Nat) : Int := if x < 2 ^ (n - 1) then x else (x : Int) - 2 ^ n

/-- Two's complement of `n` bits. -/
def unsigned (n : Nat) (x : Int) : Nat := (x % 2 ^ n).toNat

/-- A number whose most significant byte is first, as network addresses are (R11). -/
def beAt (b : Bytes) (i n : Nat) : Nat := ofLe ((b.drop i).take n).reverse

/-- `n` bytes, most significant first. -/
def toBe (n x : Nat) : Bytes := (toLe n x).reverse

/-! ### Check codes (R559) -/

/-- One bit of a CRC that is not reflected, of width 64. -/
def crc64Bit (c : Nat) : Nat :=
  if c.testBit 63 then (c * 2 % 2 ^ 64).xor 0x42F0E1EBA9EA3693 else c * 2 % 2 ^ 64

/-- CRC-64 per ECMA-182, one byte. -/
def crc64Byte (c : Nat) (b : Byte) : Nat :=
  Nat.iterate crc64Bit 8 (c.xor (b.toNat * 2 ^ 56))

/-- CRC-64 per ECMA-182 over bytes (R559). -/
def crc64 (b : Bytes) : Nat := b.foldl crc64Byte 0

/-- One bit of a reflected CRC of width 32 with reflected polynomial `p`. -/
def crc32Bit (p c : Nat) : Nat := if c.testBit 0 then (c / 2).xor p else c / 2

/-- One byte of a reflected CRC-32. -/
def crc32Byte (p c : Nat) (b : Byte) : Nat := Nat.iterate (crc32Bit p) 8 (c.xor b.toNat)

/-- CRC-32C over bytes (R559); 82F6_3B78h is 1EDC_6F41h with its bits reversed. -/
def crc32c (b : Bytes) : Nat := (b.foldl (crc32Byte 0x82F63B78) 0xFFFFFFFF).xor 0xFFFFFFFF

/-- CRC-32 over bytes, of the trim load (R559); EDB8_8320h is 04C1_1DB7h reversed. -/
def crc32 (b : Bytes) : Nat := (b.foldl (crc32Byte 0xEDB88320) 0xFFFFFFFF).xor 0xFFFFFFFF

/-! ### Rounding and the value of a time base (R294) -/

/-- Division rounded to the nearest integer, a half to even. -/
def roundDiv (n : Int) (d : Nat) : Int :=
  let q := n / (d : Int)
  let r := n % (d : Int)
  if 2 * r < d then q else if 2 * r = d ∧ q % 2 = 0 then q else q + 1

/-- The FRC now, in 2⁻¹⁶ ns (R292). -/
def frcNow (s : State) : Nat := s.clk.frc * 65536

/-- T_n(F) in 2⁻¹⁶ ns (R294); the 80-bit value does not go below 0. -/
def tbAt (b : TBase) (f : Nat) : Nat :=
  let d : Int := (f : Int) - b.a
  (b.b + d + roundDiv (d * b.rate) (2 ^ 40)).toNat

/-- Linear ns of a time base at an FRC value (R294). -/
def tbNs (b : TBase) (f : Nat) : Nat := tbAt b f / 65536

/-- Time base `n`. -/
def tbOf (n : Nat) (s : State) : TBase := lookD s.tim.bases n {}

/-- LOCKED, HOLDOVER and REFUSED count as acquired (R299). -/
def acquired (b : TBase) : Bool := b.acq != .unacquired

/-- The time base is acquired: in STOPPING it keeps its acquisition state (R299, R321). -/
def tbAcquired (b : TBase) : Bool := b.en != .off && acquired b

/-- The time base is ON and acquired. -/
def tbGood (b : TBase) : Bool := b.en == .on && acquired b

/-- Canopy's linear ns at FRC value `f` (R192): the bound time base while it is ON and acquired, else
the FRC, continued from the last value where the bound time base was disabled. -/
def lineAt (s : State) (f : Nat) : Nat :=
  let b := tbOf s.cnp.tb s
  if tbGood b then tbNs b f else ((f / 65536 : Nat) + s.cnp.off).toNat

/-- Canopy's time line at FRC value `f`, in 2⁻¹⁶ ns. -/
def lineFrac (s : State) (f : Nat) : Nat :=
  let b := tbOf s.cnp.tb s
  if tbGood b then tbAt b f else ((f : Int) + s.cnp.off * 65536).toNat

/-- Canopy's linear ns now. -/
def lineNow (s : State) : Nat := lineAt s (frcNow s)

/-- Arm a compare on time base `tb` at the 48-bit target `target` (R315). -/
def armCmp (tb target : Nat) (use : CmpUse) (s : State) : State :=
  { s with tim := { s.tim with
      cmps := s.tim.cmps ++ [{ id := s.tim.cmpNext, tb := tb, target := target % 2 ^ 48, use := use }]
      cmpNext := s.tim.cmpNext + 1 } }

/-- Cancel the compares of a use. -/
def cancelCmps (p : CmpUse → Bool) (s : State) : State :=
  { s with tim := { s.tim with cmps := s.tim.cmps.filter fun c => !p c.use } }

/-! ### The tick (R17) -/

/-- The base rate in Hz (R17, R214). -/
def baseRate (rate : Bool) : Nat := if rate then 4800 else 4000

/-- The start of tick `k` of rate `f`, in ns after the start of the second (R17). -/
def tickStartNs (f k : Nat) : Nat := k * 1000000000 / f

/-- The tick of rate `f` that holds the instant `ns` of linear time: the greatest `k` whose start is
not after it (R17). -/
def tickOf (f ns : Nat) : Nat := (ns % 1000000000 * f + f - 1) / 1000000000

/-- The first tick start of rate `f` after the linear instant `ns` (R17). -/
def nextTickNs (f ns : Nat) : Nat :=
  ns / 1000000000 * 1000000000 + tickStartNs f (tickOf f ns + 1)

/-- The tick of rate `f` that holds the linear instant `ns`, counted from the start of the time line. -/
def tickAbs (f ns : Nat) : Nat := ns / 1000000000 * f + tickOf f ns

/-- The start of tick `k`, counted from the start of the time line, in linear ns. -/
def tickAbsStart (f k : Nat) : Nat := k / f * 1000000000 + tickStartNs f (k % f)

/-- The tick that the present tick's end begins. -/
def comingTick (s : State) : Nat := tickAbs (baseRate s.cnp.rate) s.cnp.tickEnd

/-- The usable tick U (R194). -/
def usableTick (rate : Bool) : Nat := if rate then 204333 else 246000

end Sys2Proof.Machine
end

