-- ==== Sys2Proof/Machine/Flags.lean ====
section
/-! DEFINITION. Flags: write-1-to-clear latches (R13, R14), the STAT code (R88), the strap fields
(R87) and the first failing check of a command (R146). -/

namespace Sys2Proof.Machine

open Sys2Proof

/-- A latch after a write: a 1 clears its bit (R13). -/
def w1c {n : Nat} (latch : BitVec n) (value : Word) : BitVec n := latch &&& ~~~(value.setWidth n)

/-- A latch with bit `i` set. -/
def latch {n : Nat} (l : BitVec n) (i : Nat) : BitVec n := l ||| BitVec.ofNat n (2 ^ i)

/-- `MODE` of the strap bin (R87, R97): 0 standalone, 1 paired A, 2 paired B, 3 forced Seedling. -/
def strapMode (bin : Nat) : Nat :=
  if bin = 0 then 3
  else if bin ≤ 12 then (bin + 2) % 3
  else 0

/-- `IMAGE` of the strap bin (R87, R97). -/
def strapImage (bin : Nat) : Nat :=
  if bin = 0 then 7
  else if bin ≤ 3 then 0 else if bin ≤ 6 then 1 else if bin ≤ 9 then 2
  else if bin ≤ 12 then 3 else if bin = 13 then 4 else if bin = 14 then 5 else 7

/-- The image sources of the strap bin, in order: 0 and 1 the slots, 2 the host (R87, R92). -/
def strapSources (bin : Nat) : List Nat :=
  match strapImage bin with
  | 0 => [0, 1]
  | 1 => [1, 0]
  | 2 => [2]
  | 3 => [2, 0]
  | 4 => [0]
  | 5 => [1]
  | _ => []

/-- The reach of a source (R74). -/
def sourceReach : Source → Reach
  | .wrstN | .wdog | .cmdWarm => .warm
  | _ => .cold

/-- The sources still asserted now: pulses end at their time. -/
def liveSources (s : State) : List (Source × Option Nat) :=
  s.rst.sources.filter fun x => match x.2 with
    | none => true
    | some t => decide (s.clk.now < t)

/-- A source of the broad reach `r` is asserted now. -/
def reachLive (r : Reach) (s : State) : Bool := (liveSources s).any fun x => sourceReach x.1 == r

/-- The code of the state, before the flush code Eh is laid over it (R88). With only a WARM source asserted the
module holds at WARM reach, whatever reach governs. 4h stands from the acceptance of the strap bin until training
ends: R88 gives it to PLL lock and training, R91 to the row in which the PLLs have locked (DEDUCED, log entry 78). -/
def statHeld (s : State) : Nat :=
  if s.rst.loadFail then 0xC
  else if s.rst.strapInvalid then 0xD
  else match s.rst.phase with
    | .held =>
      if s.rst.sources.any fun x => x.1 == .porRail || x.1 == .porRefclk || x.1 == .porTemp then 0
      else if reachLive .cold s then 1
      else if reachLive .warm s || s.rst.reach == some .warm then 5 else 1
    | .trim => 2
    | .strap => 3
    | .pll | .lanes => 4
    | .warmHold => if reachLive .warm s || s.rst.reach == some .warm then 5 else 4
    | .started =>
      if s.boot.seedling then (if s.rst.strapBin = 0 then 0xA else 9)
      else if s.boot.done then 8
      else if s.boot.running then 7
      else 6

/-- The 4-bit code on STAT3 to STAT0 (R88). -/
def statCode (s : State) : Nat :=
  let h := statHeld s
  if s.log.flushing && (h == 0 || h == 1 || h == 5 || h == 0xC || h == 0xD) then 0xE else h

/-- Items of the COLD column are held: a COLD reset, or its release before PLL lock, without clocks (R79, R91). -/
def coldHeld (s : State) : Bool :=
  s.rst.reach == some .cold && s.rst.phase != .lanes && s.rst.phase != .warmHold && s.rst.phase != .started

/-- Items of the WARM column are held: until Heartwood starts (R79, R81). -/
def warmHeld (s : State) : Bool := s.rst.phase != .started

/-- The first check that fails decides the status; OK where all hold (R107, R146). -/
def checks : List (Bool × Nat) → Nat
  | [] => 0
  | (ok, st) :: r => if ok then checks r else st

/-! ### Status codes (R152) -/

def stOk : Nat := 0
def stDeferred : Nat := 1
def stBusy : Nat := 2
def stBadArg : Nat := 0x10
def stNoResource : Nat := 0x11
def stNotFound : Nat := 0x12
def stWrongState : Nat := 0x13
def stDenied : Nat := 0x14
def stOverQuota : Nat := 0x15
def stBadSlot : Nat := 0x20
def stOrphaned : Nat := 0x21
def stStepRefused : Nat := 0x30
def stStaleGen : Nat := 0x40
def stReplayed : Nat := 0x50
def stVoteLost : Nat := 0x60
def stScheduleOver : Nat := 0x101
def stDiverged : Nat := 0x201
def stNoPartner : Nat := 0x801
def stImageRefused : Nat := 0x901
def stFlashFault : Nat := 0x902

end Sys2Proof.Machine
end

