-- ==== Sys2Proof/Machine/Crypto.lean ====
section
/-! DEFINITION. The algorithms that the spec takes from outside standards: SHA-2 (FIPS 180-4), HMAC (FIPS 198-1), the
KDF of SP 800-108, AES (FIPS 197), CMAC (SP 800-38B), KW (SP 800-38F), GCM and GMAC (SP 800-38D), and ECDSA over P-384
(FIPS 186-4), as R92, R166, R212, R423, R427 to R429 and R438 name them. PRESUMED from those standards (log entry 77). -/

namespace Sys2Proof.Machine

open Sys2Proof

/-- Item `i` of a table of `w`-bit words packed into a number, item 0 lowest. -/
def packed (w t i : Nat) : Nat := t >>> (w * i) % 2 ^ w

/-! ### SHA-2 -/

/-- What tells SHA-256 from SHA-384: word and block size, rounds, round constants, first hash value, the
rotations of the four functions, and the bytes of the digest. -/
structure Sha where
  word : Nat
  rounds : Nat
  consts : Nat
  init : Nat
  big0 : Nat × Nat × Nat
  big1 : Nat × Nat × Nat
  small0 : Nat × Nat × Nat
  small1 : Nat × Nat × Nat
  size : Nat

/-- SHA-256. -/
def sha256P : Sha :=
  { word := 32, rounds := 64
    consts := 0xC67178F2BEF9A3F7A4506CEB90BEFFFA8CC7020884C8781478A5636F748F82EE682E6FF35B9CCA4F4ED8AA4A391C0CB334B0BCB52748774C1E376C0819A4C116106AA070F40E3585D6990624D192E819C76C51A3C24B8B70A81A664BA2BFE8A192722C8581C2C92E766A0ABB650A735453380D134D2C6DFC2E1B213827B70A851429296706CA6351D5A79147C6E00BF3BF597FC7B00327C8A831C66D983E515276F988DA5CB0A9DC4A7484AA2DE92C6F240CA1CC0FC19DC6EFBE4786E49B69C1C19BF1749BDC06A780DEB1FE72BE5D74550C7DC3243185BE12835B01D807AA98AB1C5ED5923F82A459F111F13956C25BE9B5DBA5B5C0FBCF71374491428A2F98
    init := 0x5BE0CD191F83D9AB9B05688C510E527FA54FF53A3C6EF372BB67AE856A09E667
    big0 := (2, 13, 22), big1 := (6, 11, 25), small0 := (7, 18, 3), small1 := (17, 19, 10), size := 32 }

/-- SHA-384. -/
def sha384P : Sha :=
  { word := 64, rounds := 80
    consts := 0x6C44198C4A4758175FCB6FAB3AD6FAEC597F299CFC657E2A4CC5D4BECB3E42B6431D67C49C100D4C3C9EBE0A15C9BEBC32CAAB7B40C7249328DB77F523047D841B710B35131C471B113F9804BEF90DAE0A637DC5A2C898A606F067AA72176FBAF57D4F7FEE6ED178EADA7DD6CDE0EB1ED186B8C721C0C207CA273ECEEA26619CC67178F2E372532BBEF9A3F7B2C67915A4506CEBDE82BDE990BEFFFA23631E288CC702081A6439EC84C87814A1F0AB7278A5636F43172F60748F82EE5DEFB2FC682E6FF3D6B2B8A35B9CCA4F7763E3734ED8AA4AE3418ACB391C0CB3C5C95A6334B0BCB5E19B48A82748774CDF8EEB991E376C085141AB5319A4C116B8D2D0C8106AA07032BBD1B8F40E35855771202AD69906245565A910D192E819D6EF5218C76C51A30654BE30C24B8B70D0F89791A81A664BBC423001A2BFE8A14CF1036492722C851482353B81C2C92E47EDAEE6766A0ABB3C77B2A8650A73548BAF63DE53380D139D95B3DF4D2C6DFC5AC42AED2E1B21385C26C92627B70A8546D22FFC142929670A0E6E7006CA6351E003826FD5A79147930AA725C6E00BF33DA88FC2BF597FC7BEEF0EE4B00327C898FB213FA831C66D2DB43210983E5152EE66DFAB76F988DA831153B55CB0A9DCBD41FBD44A7484AA6EA6E4832DE92C6F592B0275240CA1CC77AC9C650FC19DC68B8CD5B5EFBE4786384F25E3E49B69C19EF14AD2C19BF174CF6926949BDC06A725C7123580DEB1FE3B1696B172BE5D74F27B896F550C7DC3D5FFB4E2243185BE4EE4B28C12835B0145706FBED807AA98A3030242AB1C5ED5DA6D8118923F82A4AF194F9B59F111F1B605D0193956C25BF348B538E9B5DBA58189DBBCB5C0FBCFEC4D3B2F7137449123EF65CD428A2F98D728AE22
    init := 0x47B5481DBEFA4FA4DB0C2E0D64F98FA78EB44A876858151167332667FFC00B31152FECD8F70E59399159015A3070DD17629A292A367CD507CBBB9D5DC1059ED8
    big0 := (28, 34, 39), big1 := (14, 18, 41), small0 := (1, 8, 7), small1 := (19, 61, 6), size := 48 }

/-- Rotate right by `n` in `w` bits. -/
def rotr (w n x : Nat) : Nat := (x >>> n) ||| (x <<< (w - n)) % 2 ^ w

/-- Σ: three rotations. -/
def sigmaBig (w : Nat) (r : Nat × Nat × Nat) (x : Nat) : Nat :=
  rotr w r.1 x ^^^ rotr w r.2.1 x ^^^ rotr w r.2.2 x

/-- σ: two rotations and a shift. -/
def sigmaSmall (w : Nat) (r : Nat × Nat × Nat) (x : Nat) : Nat :=
  rotr w r.1 x ^^^ rotr w r.2.1 x ^^^ (x >>> r.2.2)

/-- The message schedule, newest word first, after `n` more words. -/
def schedule (p : Sha) : Nat → List Nat → List Nat
  | 0, ws => ws
  | n + 1, ws =>
    let x := (sigmaSmall p.word p.small1 (ws.getD 1 0) + ws.getD 6 0 + sigmaSmall p.word p.small0 (ws.getD 14 0) +
      ws.getD 15 0) % 2 ^ p.word
    schedule p n (x :: ws)

/-- The eight working variables. -/
structure ShaVars where
  a : Nat
  b : Nat
  c : Nat
  d : Nat
  e : Nat
  f : Nat
  g : Nat
  h : Nat

/-- One round, with constant plus schedule word `kw`. -/
def shaRound (p : Sha) (v : ShaVars) (kw : Nat) : ShaVars :=
  let m := 2 ^ p.word
  let t1 := v.h + sigmaBig p.word p.big1 v.e + ((v.e &&& v.f) ^^^ ((m - 1 - v.e) &&& v.g)) + kw
  let t2 := sigmaBig p.word p.big0 v.a + ((v.a &&& v.b) ^^^ (v.a &&& v.c) ^^^ (v.b &&& v.c))
  { a := (t1 + t2) % m, b := v.a, c := v.b, d := v.c, e := (v.d + t1) % m, f := v.e, g := v.f, h := v.g }

/-- The hash value after one block. -/
def shaBlock (p : Sha) (h : List Nat) (block : Bytes) : List Nat :=
  let n := p.word / 8
  let w16 := (List.range 16).map fun i => beAt block (n * i) n
  let ws := (schedule p (p.rounds - 16) w16.reverse).reverse
  let v0 : ShaVars :=
    { a := h.getD 0 0, b := h.getD 1 0, c := h.getD 2 0, d := h.getD 3 0, e := h.getD 4 0, f := h.getD 5 0
      g := h.getD 6 0, h := h.getD 7 0 }
  let v := ws.zipIdx.foldl (fun v e => shaRound p v (e.1 + packed p.word p.consts e.2)) v0
  (h.zip [v.a, v.b, v.c, v.d, v.e, v.f, v.g, v.h]).map fun x => (x.1 + x.2) % 2 ^ p.word

/-- The padded message. -/
def shaPad (p : Sha) (b : Bytes) : Bytes :=
  let blk := 2 * p.word
  let tail := p.word / 4
  let used := (b.length + 1 + tail) % blk
  b ++ [0x80] ++ List.replicate ((blk - used) % blk) 0 ++ toBe tail (8 * b.length)

/-- The digest of a message. -/
def sha2 (p : Sha) (b : Bytes) : Bytes :=
  let blk := 2 * p.word
  let m := shaPad p b
  let h0 := (List.range 8).map (packed p.word p.init)
  let h := (List.range (m.length / blk)).foldl (fun h i => shaBlock p h ((m.drop (blk * i)).take blk)) h0
  (h.flatMap fun x => toBe (p.word / 8) x).take p.size

/-- SHA-256 of a message. -/
def sha256 (b : Bytes) : Bytes := sha2 sha256P b

/-- SHA-384 of a message. -/
def sha384 (b : Bytes) : Bytes := sha2 sha384P b

/-- The bytes of `a` XOR those of `b`, as long as the shorter. -/
def xorBytes (a b : Bytes) : Bytes := (a.zip b).map fun x => x.1 ^^^ x.2

/-- HMAC-SHA256. -/
def hmac (key msg : Bytes) : Bytes :=
  let k := padTo 64 (if 64 < key.length then sha256 key else key)
  sha256 (xorBytes k (List.replicate 64 0x5C) ++ sha256 (xorBytes k (List.replicate 64 0x36) ++ msg))

/-- The inner and the outer chaining value of HMAC-SHA256 under a key of 32 bytes (R427). -/
def hmacChain (key : Bytes) : Bytes :=
  let h0 := (List.range 8).map (packed 32 sha256P.init)
  let one (pad : Byte) : Bytes :=
    (shaBlock sha256P h0 (xorBytes (padTo 64 key) (List.replicate 64 pad))).flatMap fun x => toBe 4 x
  one 0x36 ++ one 0x5C

/-- The KDF of SP 800-108 in counter mode with HMAC-SHA256, for an output of 256 bits (R423): one step, with a
32-bit counter before the label and a 32-bit length after the context, as that standard's example has them. -/
def kdf (key label context : Bytes) : Bytes :=
  hmac key (toBe 4 1 ++ label ++ [0] ++ context ++ toBe 4 256)

/-! ### AES -/

/-- The S-box and its inverse. -/
def sboxT : Nat :=
  0x16BB54B00F2D99416842E6BF0D89A18CDF2855CEE9871E9B948ED9691198F8E19E1DC186B95735610EF6034866B53E708A8BBD4B1F74DDE8C6B4A61C2E2578BA08AE7A65EAF4566CA94ED58D6D37C8E779E4959162ACD3C25C2406490A3A32E0DB0B5EDE14B8EE4688902A22DC4F816073195D643D7EA7C41744975FEC130CCDD2F3FF1021DAB6BCF5389D928F40A351A89F3C507F02F94585334D43FBAAEFD0CF584C4A39BECB6A5BB1FC20ED00D153842FE329B3D63B52A05A6E1B1A2C830975B227EBE28012079A059618C323C7041531D871F1E5A534CCF73F362693FDB7C072A49CAFA2D4ADF04759FA7DC982CA76ABD7FE2B670130C56F6BF27B777C63
def invSboxT : Nat :=
  0x7D0C2155631469E126D677BA7E042B17619953833CBBEBC8B0F52AAE4D3BE0A0EF9CC9939F7AE52D0D4AB519A97F51605FEC8027591012B131C7078833A8DD1FF45ACD78FEC0DB9A2079D2C64B3E56FC1BBE18AA0E62B76F89C5291D711AF1476EDF751CE837F9E28535ADE72274AC9673E6B4F0CECFF297EADC674F4111913A6B8A130103BDAFC1020F3FCA8F1E2CD00645B3B80558E4F70AD3BC8C00ABD890849D8DA75746155EDAB9EDFD5048706C92B6655DCC5CA4D41698688664F6F87225D18B6D49A25B76B224D92866A12E084EC3FA420B954CEE3D23C2A632947B54CBE9DEC444438E3487FF2F9B8239E37CFBD7F3819EA340BF38A53630D56A0952

/-- Multiply by x in the field of AES. -/
def xtime (x : Nat) : Nat := 2 * x % 256 ^^^ 0x1B * (x / 128)

/-- The product of a byte with a constant below 16. -/
def gfMul (c x : Nat) : Nat :=
  let x2 := xtime x
  let x4 := xtime x2
  (c % 2 * x) ^^^ (c / 2 % 2 * x2) ^^^ (c / 4 % 2 * x4) ^^^ (c / 8 * xtime x4)

/-- One column through MixColumns, of first row `r`: each row of its result starts at the next byte. -/
def mixCol (r : Nat × Nat × Nat × Nat) : List Nat → List Nat
  | [w, x, y, z] =>
    let row (a b c d : Nat) : Nat := gfMul r.1 a ^^^ gfMul r.2.1 b ^^^ gfMul r.2.2.1 c ^^^ gfMul r.2.2.2 d
    [row w x y z, row x y z w, row y z w x, row z w x y]
  | _ => []

/-- The four columns of a block. -/
def columns (b : List Nat) : List (List Nat) := (List.range 4).map fun i => (b.drop (4 * i)).take 4

/-- ShiftRows to the left, and back. -/
def shiftRows (b : List Nat) : List Nat := (List.range 16).map fun i => b.getD ((i + 4 * (i % 4)) % 16) 0
def unshiftRows (b : List Nat) : List Nat := (List.range 16).map fun i => b.getD ((i + 12 * (i % 4)) % 16) 0

/-- Add a round key. -/
def addKey (b k : List Nat) : List Nat := (b.zip k).map fun e => e.1 ^^^ e.2

/-- The word `i` of the key schedule from the words before it, newest first; `nk` words of key. -/
def nextWord (nk i : Nat) (ws : List (List Nat)) (rcon : Nat) : List Nat :=
  let t := ws.headD []
  let u := if i % nk = 0 then
      addKey ((t.drop 1 ++ t.take 1).map (packed 8 sboxT)) [rcon, 0, 0, 0]
    else if nk = 8 ∧ i % nk = 4 then t.map (packed 8 sboxT) else t
  addKey (ws.getD (nk - 1) []) u

/-- `n` more words of the key schedule. -/
def expand (nk : Nat) : Nat → Nat → Nat → List (List Nat) → List (List Nat)
  | 0, _, _, ws => ws
  | n + 1, i, rcon, ws =>
    expand nk n (i + 1) (if i % nk = 0 then xtime rcon else rcon) (nextWord nk i ws rcon :: ws)

/-- The round keys of a key of 16 or 32 bytes. -/
def roundKeys (key : Bytes) : List (List Nat) :=
  let nk := key.length / 4
  let k := key.map BitVec.toNat
  let first := (List.range nk).map fun i => (k.drop (4 * i)).take 4
  let ws := (expand nk (4 * (nk + 7) - nk) nk 1 first.reverse).reverse
  (List.range (nk + 7)).map fun r => ((ws.drop (4 * r)).take 4).flatten

/-- The cipher after its first round key: full rounds, and a last one without MixColumns. -/
def aesRounds : List (List Nat) → List Nat → List Nat
  | [], b => b
  | [k], b => addKey (shiftRows (b.map (packed 8 sboxT))) k
  | k :: ks, b =>
    aesRounds ks (addKey ((columns (shiftRows (b.map (packed 8 sboxT)))).flatMap (mixCol (2, 3, 1, 1))) k)

/-- The inverse rounds, from the last round key but one to the first. -/
def aesUnrounds : List (List Nat) → List Nat → List Nat
  | [], b => b
  | [k], b => addKey ((unshiftRows b).map (packed 8 invSboxT)) k
  | k :: ks, b =>
    aesUnrounds ks ((columns (addKey ((unshiftRows b).map (packed 8 invSboxT)) k)).flatMap (mixCol (14, 11, 13, 9)))

/-- Encrypt one block of 16 bytes under round keys. -/
def aesWith (ks : List (List Nat)) (b : Bytes) : Bytes :=
  (aesRounds (ks.drop 1) (addKey (b.map BitVec.toNat) (ks.headD []))).map (BitVec.ofNat 8)

/-- AES of one block. -/
def aes (key b : Bytes) : Bytes := aesWith (roundKeys key) b

/-- The inverse cipher of one block under round keys. -/
def unaesWith (ks : List (List Nat)) (b : Bytes) : Bytes :=
  let r := ks.reverse
  (aesUnrounds (r.drop 1) (addKey (b.map BitVec.toNat) (r.headD []))).map (BitVec.ofNat 8)

/-! ### CMAC (R427) -/

/-- Doubling in the field of CMAC. -/
def dbl (x : Nat) : Nat := if x < 2 ^ 127 then 2 * x else (2 * x % 2 ^ 128) ^^^ 0x87

/-- The chained value over whole blocks. -/
def cbcMac (ks : List (List Nat)) (m : Bytes) : Bytes :=
  (List.range (m.length / 16)).foldl (fun x i => aesWith ks (xorBytes x ((m.drop (16 * i)).take 16)))
    (List.replicate 16 0)

/-- AES-CMAC of a message. -/
def cmac (key m : Bytes) : Bytes :=
  let ks := roundKeys key
  let k1 := dbl (beAt (aesWith ks (List.replicate 16 0)) 0 16)
  let n := if m.isEmpty then 0 else (m.length - 1) / 16
  let last := m.drop (16 * n)
  let tail := if last.length = 16 then xorBytes last (toBe 16 k1)
    else xorBytes (padTo 16 (last ++ [0x80])) (toBe 16 (dbl k1))
  cbcMac ks (m.take (16 * n) ++ tail)

/-! ### KW (R428, R429) -/

/-- The initial value of KW. -/
def kwIv : Bytes := List.replicate 8 0xA6

/-- `n` more steps of the wrapping of semiblocks, from step `t`. -/
def kwWrap (ks : List (List Nat)) : Nat → Nat → Bytes → List Bytes → Bytes × List Bytes
  | 0, _, a, r => (a, r)
  | n + 1, t, a, r =>
    let b := aesWith ks (a ++ r.headD [])
    kwWrap ks n (t + 1) (xorBytes (b.take 8) (toBe 8 t)) (r.drop 1 ++ [b.drop 8])

/-- The unwrapping, from step `t` down. -/
def kwUnwrap (ks : List (List Nat)) : Nat → Bytes → List Bytes → Bytes × List Bytes
  | 0, a, r => (a, r)
  | t + 1, a, r =>
    let b := unaesWith ks (xorBytes a (toBe 8 (t + 1)) ++ r.getLastD [])
    kwUnwrap ks t (b.take 8) (b.drop 8 :: r.dropLast)

/-- The semiblocks of 8 bytes. -/
def semis (b : Bytes) : List Bytes := (List.range (b.length / 8)).map fun i => (b.drop (8 * i)).take 8

/-- KW wrap. -/
def wrapKw (key p : Bytes) : Bytes :=
  let x := kwWrap (roundKeys key) (6 * (p.length / 8)) 1 kwIv (semis p)
  x.1 ++ x.2.flatten

/-- KW unwrap; none when its integrity check fails. -/
def unwrapKw (key c : Bytes) : Option Bytes :=
  let x := kwUnwrap (roundKeys key) (6 * (c.length / 8 - 1)) (c.take 8) (semis (c.drop 8))
  if x.1 = kwIv then some x.2.flatten else none

/-! ### GCM (R212, R438) -/

/-- `n` steps of the product of GHASH: `v` is shifted while the bits of `x` are taken from the first. -/
def ghMul : Nat → Nat → Nat → Nat → Nat
  | 0, _, _, z => z
  | n + 1, x, v, z =>
    ghMul n x (if v.testBit 0 then (v >>> 1) ^^^ (0xE1 <<< 120) else v >>> 1) (if x.testBit n then z ^^^ v else z)

/-- Whole blocks: zeros up to a multiple of 16 bytes. -/
def pad16 (b : Bytes) : Bytes := b ++ List.replicate ((16 - b.length % 16) % 16) 0

/-- GHASH of whole blocks under the subkey `h`. -/
def ghash (h : Nat) (m : Bytes) : Nat :=
  (List.range (m.length / 16)).foldl (fun y i => ghMul 128 (y ^^^ beAt m (16 * i) 16) h 0) 0

/-- The key stream of counter mode from counter value `c`, over a message. -/
def gctr (ks : List (List Nat)) (nonce : Bytes) (c : Nat) (m : Bytes) : Bytes :=
  xorBytes m ((List.range ((m.length + 15) / 16)).flatMap fun i => aesWith ks (nonce ++ toBe 4 ((c + i) % 2 ^ 32)))

/-- The tag of GCM over additional data and ciphertext, for a nonce of 12 bytes. -/
def gcmTag (ks : List (List Nat)) (nonce aad ct : Bytes) : Bytes :=
  let h := beAt (aesWith ks (List.replicate 16 0)) 0 16
  let s := ghash h (pad16 aad ++ pad16 ct ++ toBe 8 (8 * aad.length) ++ toBe 8 (8 * ct.length))
  gctr ks nonce 1 (toBe 16 s)

/-- AES-GCM: the ciphertext and then its tag of 16 bytes. -/
def gcmSeal (key nonce aad pt : Bytes) : Bytes :=
  let ks := roundKeys key
  let ct := gctr ks nonce 2 pt
  ct ++ gcmTag ks nonce aad ct

/-- The plaintext of what `gcmSeal` gave; none when the tag differs. -/
def gcmOpen (key nonce aad blob : Bytes) : Option Bytes :=
  let ks := roundKeys key
  let ct := blob.take (blob.length - 16)
  if gcmTag ks nonce aad ct = blob.drop ct.length then some (gctr ks nonce 2 ct) else none

/-! ### ECDSA over P-384 (R92, R166) -/

/-- The field, the coefficient b, the order and the base point. -/
def p384 : Nat := 2 ^ 384 - 2 ^ 128 - 2 ^ 96 + 2 ^ 32 - 1
def p384b : Nat := 0xB3312FA7E23EE7E4988E056BE3F82D19181D9C6EFE8141120314088F5013875AC656398D8A2ED19D2A85C8EDD3EC2AEF
def p384n : Nat := 0xFFFFFFFFFFFFFFFFFFFFFFFFFFFFFFFFFFFFFFFFFFFFFFFFC7634D81F4372DDF581A0DB248B0A77AECEC196ACCC52973
def p384g : Nat × Nat :=
  (0xAA87CA22BE8B05378EB1C71EF320AD746E1D3B628BA79B9859F741E082542A385502F25DBF55296C3A545E3872760AB7,
   0x3617DE4A96262C6F5D9E98BF9292DC29F8F41DBD289A147CE9DA3113B5F0B8C00A60B1CE1D7E819D7A431D7C90EA0E5F)

/-- `b` to the power `e` modulo `m`, for an exponent of at most `n` bits. -/
def powMod (m : Nat) : Nat → Nat → Nat → Nat
  | 0, _, _ => 1
  | n + 1, b, e =>
    let r := powMod m n (b * b % m) (e / 2)
    if e % 2 = 1 then b * r % m else r

/-- The inverse modulo a prime below 2³⁸⁴. -/
def invMod (m x : Nat) : Nat := powMod m 384 (x % m) (m - 2)

/-- `a` − `b` in the field. -/
def fsub (a b : Nat) : Nat := (a + p384 - b % p384) % p384

/-- The sum of two points; none is the point at infinity. -/
def ecAdd : Option (Nat × Nat) → Option (Nat × Nat) → Option (Nat × Nat)
  | none, q => q
  | q, none => q
  | some a, some b =>
    if a.1 = b.1 ∧ (a.2 + b.2) % p384 = 0 then none
    else
      let l := if a.1 = b.1 then fsub (3 * a.1 * a.1) 3 * invMod p384 (2 * a.2)
        else fsub b.2 a.2 * invMod p384 (fsub b.1 a.1)
      let x := fsub (fsub (l * l) a.1) b.1
      some (x, fsub (l * fsub a.1 x) a.2)

/-- `k` times a point, for a multiplier of at most `n` bits. -/
def ecMul : Nat → Nat → Option (Nat × Nat) → Option (Nat × Nat)
  | 0, _, _ => none
  | n + 1, k, q => ecAdd (if k % 2 = 1 then q else none) (ecMul n (k / 2) (ecAdd q q))

/-- A point of the curve. -/
def onCurve (q : Nat × Nat) : Bool :=
  decide (q.1 < p384) && decide (q.2 < p384) && fsub (q.1 * q.1 * q.1 + p384b) (3 * q.1) == q.2 * q.2 % p384

/-- The signature, r then s, of a message under an uncompressed public key, with SHA-384 (R166). -/
def ecdsaOk (pub msg sig : Bytes) : Bool :=
  let q := (beAt pub 1 48, beAt pub 49 48)
  let r := beAt sig 0 48
  let t := beAt sig 48 48
  let w := invMod p384n t
  let u := beAt (sha384 msg) 0 48 * w % p384n
  pub.length == 97 && leAt pub 0 1 == 4 && onCurve q && r != 0 && decide (r < p384n) && t != 0 && decide (t < p384n) &&
    ((ecAdd (ecMul 384 u (some p384g)) (ecMul 384 (r * w % p384n) (some q))).map fun x => x.1 % p384n) == some r

end Sys2Proof.Machine
end

