-- ==== Sys2Proof/Machine/Wire.lean ====
section
/-! DEFINITION. Frames as bytes: addresses, tags, EtherType, payload, extension and trailer, and the lookup key that
the switch core reads from them (R251, R278, R281). -/

namespace Sys2Proof.Machine

open Sys2Proof

/-- `ETYPE`s whose key has an `APPID` (R251). -/
def hasAppid (e : Nat) : Bool := e == 0x88B8 || e == 0x88B9 || e == 0x88BA

/-- A VLAN tag: its EtherType, then PCP, DEI and VID. -/
def vlanBytes (v : Vlan) : Bytes := toBe 2 v.tpid ++ toBe 2 (v.pcp % 8 * 2 ^ 13 + b2n v.dei * 2 ^ 12 + v.vid % 2 ^ 12)

/-- An HSR tag: 892Fh, PathId and LSDUsize, sequence number (R281). -/
def hsrBytes (t : RedTag) : Bytes := toBe 2 0x892F ++ toBe 2 (t.lan % 16 * 2 ^ 12 + t.size % 2 ^ 12) ++ toBe 2 t.seq

/-- An RCT: sequence number, LanId and LSDUsize, the suffix 88FBh (R281). -/
def rctBytes (t : RedTag) : Bytes := toBe 2 t.seq ++ toBe 2 (t.lan % 16 * 2 ^ 12 + t.size % 2 ^ 12) ++ toBe 2 0x88FB

/-- `b` with `new` in place of its bytes from `off`. -/
def patch (b : Bytes) (off : Nat) (new : Bytes) : Bytes := b.take off ++ new ++ b.drop (off + new.length)

/-- The correctionField of a PTP message that stands at `off` of a payload. -/
def patchCorr (b : Bytes) (off : Nat) (m : PtpMsg) : Bytes := patch b (off + 8) (toBe 8 (unsigned 64 m.corr))

/-- The payload of a frame. What the module writes into a PTP message on the fly, its correctionField and the UDP
checksum, stands in `body` (R278, R309). -/
def payloadBytes (f : Frame) : Bytes :=
  if f.payload.isEmpty then Config.bodyBytes f.body
  else
    match f.body with
    | .ptp m => patchCorr f.payload 0 m
    | .udp4 _ csum m =>
      let udp := 4 * (leAt f.payload 0 1 % 16)
      let b := patch f.payload (udp + 6) (toBe 2 csum)
      match m with
      | some x => patchCorr b (udp + 8) x
      | none => b
    | _ => f.payload

/-- The bytes of a frame from its destination address up to but not including the FCS. An RCT ends the frame, after
padding (R281). -/
def frameBytes (f : Frame) : Bytes :=
  let tag := match f.vlan with
    | some v => vlanBytes v
    | none => []
  let ring := match f.hsr with
    | some t => hsrBytes t
    | none => []
  let ext := match f.auth with
    | some e => Config.authBytes e
    | none => []
  let b := toBe 6 f.da ++ toBe 6 f.sa ++ tag ++ ring ++ toBe 2 f.etype ++
    (if hasAppid f.etype then toBe 2 f.appid else []) ++ payloadBytes f ++ ext
  match f.rct with
  | some t => padTo (f.len - 10) b ++ rctBytes t
  | none => padTo (f.len - 4) b

/-- The lookup key as the switch core reads it from the bytes of a frame; only the first tag is parsed. `ring` says
that the frame came on a port of an HSR instance, where an HSR tag is skipped (R251). -/
def keyOfBytes (ring : Bool) (b : Bytes) : LKey :=
  let first := beAt b 12 2
  let tagged := first == 0x8100 || first == 0x88A8
  let p := if tagged then 16 else 12
  let q := if ring && beAt b p 2 == 0x892F then p + 6 else p
  let e := beAt b q 2
  { da := beAt b 0 6, vid := if tagged then beAt b 14 2 % 2 ^ 12 else 0, etype := e
    appid := if hasAppid e then beAt b (q + 2) 2 else 0 }

end Sys2Proof.Machine
end

