-- ==== Sys2Proof/Machine/Cmds.lean ====
section
/-! DEFINITION. What every Heartwood command shares: availability and authority, blocks and result
blocks, classes S, M, T and B, and completion (R141 to R156, R470, R471). -/

namespace Sys2Proof.Machine

open Sys2Proof

/-- The virtual ring of Seedling requests (R172), and the one that stands for a CMD frame (R470). -/
def ringSeed : Nat := 2050
def ringFwd : Nat := 2051

/-- What a command answers: the state with its effect, its status and its result word. -/
abbrev Res := State × Nat × Option Word

/-- A command that answers a status and no result. -/
def res (s : State) (st : Nat) : Res := (s, st, none)

/-- A command that answers OK and a result word. -/
def resOk (s : State) (x : Nat) : Res := (s, stOk, some (BitVec.ofNat 32 x))

/-- The commands that run in Seedling: reading the logbook, image update, and the exit (R94). -/
def seedlingOp (op : Nat) : Bool :=
  op == 0x0901 || (0x0910 ≤ op && decide (op ≤ 0x0915)) || op == 0x0920

/-- Step 1 of R146: the command is available in the present mode (R94, R95). -/
def available (op : Nat) (s : State) : Bool := if s.boot.seedling then seedlingOp op else op != 0x0920

/-- The opcodes that an active module forwards to its standby (R470). -/
def forwards (c : Cmd) : Bool :=
  let op := opOf c.desc
  let g := op / 256
  !(op == 0 || op == 0x0113 || op == 0x0120 || op == 0x0121 || op == 0x0130 || op == 0x0131 ||
    op == 0x0404 || (op == 0x0601 && arg1 c.desc % 4 == 1) || (g == 8 && op != 0x0803) ||
    g == 9 || g == 0xB)

/-- The module is ACTIVE and paired, with a partner that is not LOST (R470). -/
def activePaired (s : State) : Bool := s.gft.role == .active && s.gft.phase == .active && !s.gft.lost

/-- The command came from one of the two command rings (R141). -/
def fromRing (c : Cmd) : Bool := c.ring == Config.ringP0 || c.ring == Config.ringHost

/-- The common part of step 2 of R146: on a STANDBY, commands that R470 would forward are DENIED
(R471). -/
def authority (c : Cmd) (s : State) : Bool :=
  !(s.gft.role == .standby && fromRing c && forwards c)

/-- Steps 1 and 2 of R146 that every command shares. -/
def common (c : Cmd) (s : State) : List (Bool × Nat) :=
  [(available (opOf c.desc) s, stWrongState), (authority c s, stDenied)]

/-- The status of the checks of a command: the common ones, then its own in order (R146). -/
def judged (c : Cmd) (s : State) (own : List (Bool × Nat)) : Nat := checks (common c s ++ own)

/-- Where a row names no block, `LENGTH` is 0 (R145). -/
def noBlock (c : Cmd) : Bool := lenOf c.desc == 0

/-- The buffer lies where the ring's owner may have it (R145): mapped pages of P0, or the parameter
area; a Seedling frame holds at most 1,024 bytes (R172). -/
def bufferAt (c : Cmd) (n : Nat) (s : State) : Bool :=
  let i := iovaOf c.desc
  if c.ring = Config.ringP0 then
    match look s.cnp.parts 0 with
    | some p => (List.range ((i % 4096 + n + 4095) / 4096)).all fun k => isMapped p ((i / 4096 + k) * 4096)
    | none => false
  else if c.ring = Config.ringHost then 0x20000 ≤ i && decide (i + n ≤ 0x100000)
  else if c.ring = ringSeed then i == 0 && decide (n ≤ 1024)
  else true

/-- An input block of exactly `n` bytes (R145). -/
def inputBlock (c : Cmd) (n : Nat) (s : State) : Bool :=
  lenOf c.desc == n && bufferAt c n s

/-- A data block of 1 to `n` bytes (R145). -/
def dataBlock (c : Cmd) (n : Nat) (s : State) : Bool :=
  decide (1 ≤ lenOf c.desc) && decide (lenOf c.desc ≤ n) && bufferAt c (lenOf c.desc) s

/-- An output buffer of at least `n` bytes (R145). On ring 2,048 pages are mapped by first touch. A Seedling
response holds 1,024 bytes with the result word before the block (R172). -/
def outputBuffer (c : Cmd) (n : Nat) (s : State) : Bool :=
  decide (n ≤ lenOf c.desc) &&
    (if c.ring = Config.ringP0 then decide (iovaOf c.desc + lenOf c.desc ≤ 2 ^ 48)
     else if c.ring = ringSeed then iovaOf c.desc == 0 && decide (n ≤ 1020)
     else bufferAt c (lenOf c.desc) s)

/-- Write a result block from offset 0 of the buffer (R145); none when P0's page quota forbids it. A
Seedling response carries the block (R172); a forwarded command's goes nowhere. -/
def writeOut (c : Cmd) (b : Bytes) (s : State) : Option State :=
  if c.ring = Config.ringP0 then
    (touchRange 0 (iovaOf c.desc) b.length (pgkAsk 16 s)).map (deliver 0 (iovaOf c.desc) b)
  else if c.ring = Config.ringHost then
    some { s with mem := Memory.write s.mem (Config.bar2Base + iovaOf c.desc) b }
  else if c.ring = ringSeed then some { s with boot := { s.boot with seedReply := b } }
  else some s

/-- Answer OK with a result block and a result word, or OVER_QUOTA (R145). -/
def resOut (c : Cmd) (b : Bytes) (x : Option Word) (s : State) : Res :=
  match writeOut c b s with
  | some t => (t, stOk, x)
  | none => (s, stOverQuota, none)

/-- The partition p that a command names, ARG0[7:0] (R157). -/
def argPart (c : Cmd) : Nat := arg0 c.desc % 256

/-- A command on ring 2,048 that would stop, reset, freeze or destroy P0 is DENIED (R143). -/
def notOwnP0 (c : Cmd) : Bool := !(c.ring == Config.ringP0 && argPart c == 0)

/-- A Seedling frame over port 0 (R172): destination, type, exchange number, and what follows. -/
def seedFrame (da type xid : Nat) (body : Bytes) : Bytes :=
  toBe 6 da ++ toBe 6 Config.mac0.toNat ++ toBe 2 0x88B5 ++ toBe 2 1 ++ toBe 2 type ++
    toBe 8 Config.serial.toNat ++ toBe 4 xid ++ List.replicate 4 0 ++ body

/-- The response to a Seedling request goes to its source address and is kept for a retry (R172). -/
def seedRespond (c : Cmd) (st : Nat) (x : Option Word) (s : State) : State :=
  let compl := toLe 4 (st % 65536 + 2 ^ 16) ++ toLe 4 c.desc.w1.toNat ++ toLe 8 (nextOsn s)
  let body := compl ++ toLe 4 (x.getD 0).toNat ++ s.boot.seedReply
  let f := seedFrame s.boot.seedFrom 2 (s.boot.seedXid.getD 0) body
  let t := grant 0 s
  { t with boot := { t.boot with seedReply := f, seedOut := t.boot.seedOut ++ [f], seedAt := t.clk.now } }

/-- The operation of a command finishes: in its ring's journal under the generation in which it was consumed,
or as a Seedling response (R111, R120, R172). -/
def finishCmd (c : Cmd) (st : Nat) (x : Option Word) (s : State) : State :=
  if c.ring = ringSeed then seedRespond c st x s
  else finishOp c.ring (genField c.desc) c.desc.w1 st x false s

/-! ### The configuration in effect (R483 step 3) -/

/-- The object that a command configures: its result where the module numbers it, else its `ARG0` (R160, R161). -/
def confObject (c : Cmd) (x : Option Word) : Nat :=
  let op := opOf c.desc
  if op == 0x0301 || op == 0x0310 || op == 0x0410 then (x.getD 0).toNat
  else if op == 0x0206 then arg0 c.desc % 4096
  else if op == 0x0114 then 0
  else arg0 c.desc

/-- The place inside the object: the channel or detector of a stream, the queue of a port. -/
def confPlace (c : Cmd) : Nat :=
  let op := opOf c.desc
  if op == 0x0330 || op == 0x0331 || op == 0x0420 then arg1 c.desc else 0

/-- Commands that leave no configuration: resets, saves, queries, single acts (log entry 113). -/
def confNone (op : Nat) : Bool :=
  op == 0x0104 || op == 0x0108 || op == 0x0204 || op == 0x0207 || op == 0x0504 || op == 0x0603 || op == 0x0704 ||
    op == 0x0705 || op == 0x0A04

/-- Commands after which nothing of the object's configuration is in effect. -/
def confGone (op : Nat) : Bool :=
  op == 0x0105 || op == 0x0205 || op == 0x0304 || op == 0x0311 || op == 0x0411 || op == 0x0413 || op == 0x0602

/-- The kind of object that a command configures: its opcode without the last digit, but for commands of a partition, of a
stream and of a coefficient set. -/
def confKind (op : Nat) : Nat :=
  if op == 0x0110 then 0x0F
  else if (op / 256 == 1 && decide (op < 0x0113)) || op == 0x0803 then 0x10
  else if op == 0x0330 || op == 0x0331 then 0x30
  else if op == 0x0332 then 0x2F
  else op / 16

/-- A command that ended with OK or DEFERRED joins the configuration in effect, in the place of an earlier one like it; one
that removes its object takes that object's commands away. -/
def remember (c : Cmd) (st : Nat) (x : Option Word) (s : State) : State :=
  let op := opOf c.desc
  let o := confObject c x
  if !forwards c || !fromRing c || confNone op || !(st == stOk || st == stDeferred) then s
  else
    let same (e : ConfCmd) : Bool := confKind (opOf e.cmd.desc) == confKind op && e.object == o
    let rest := s.hw.config.filter fun e =>
      !(same e && (confGone op || (opOf e.cmd.desc == op && e.place == confPlace c)))
    { s with hw := { s.hw with
      config := if confGone op then rest
        else rest ++ [{ object := o, place := confPlace c, cmd := c, status := st }] } }

/-- The executor's command completes (R111): its operation finishes and the executor is free. On an
ACTIVE and paired module a forwarded command waits for its CMDACK (R470). -/
def complete (c : Cmd) (r : Res) : State :=
  let s := remember c r.2.1 r.2.2 r.1
  if activePaired s && forwards c && fromRing c && (r.2.1 == stOk || r.2.1 == stDeferred) then
    gftSendOne (.cmd { cmd := c, status := r.2.1 }) { s with gft := { s.gft with
        waitAck := s.gft.waitAck ++ [{ cmd := c, status := r.2.1, result := r.2.2 }]
        cnt := bump s.gft.cnt 13 } }
  else
    let t := finishCmd c r.2.1 r.2.2 s
    { t with hw := { t.hw with exec := if t.hw.exec == some c then none else t.hw.exec } }

/-- The status of a command's checks, which are made once: a command that passed them when it was consumed
is not checked again (R142, R146). -/
def statusOf (judge : Cmd → State → Nat) (c : Cmd) (s : State) : Nat :=
  if s.hw.passed then stOk else judge c s

/-- The checks and, where they pass, the effect (R146: a command that fails has no effect at all). -/
def perform (judge : Cmd → State → Nat) (eff : Cmd → State → Res) (c : Cmd) (s : State) : Res :=
  let st := statusOf judge c s
  if st = stOk then eff c s else res s st

/-- With `FENCE` a command starts only when every earlier operation of its ring has completed (R106, R145). -/
def fenceReady (c : Cmd) (s : State) : Bool :=
  !fenceOf c.desc || s.rng.jrnl.all fun e =>
    e.ring != c.ring || e.done || decide ((c.desc.w1 - e.seq).toInt ≤ 0)

/-- The executor holds this command, its opcode is the row's, and its fence has passed. -/
def holds (op : Nat) (c : Cmd) (s : State) : Bool :=
  s.hw.exec == some c && opOf c.desc == op && fenceReady c s

/-- A command of class S or M: its checks, its effect and its completion (R153). -/
def runNow (op : Nat) (judge : Cmd → State → Nat) (eff : Cmd → State → Res) (c : Cmd) (s : State) : Out :=
  act (holds op c s) s (complete c (perform judge eff c s))

/-- A command of class T holds the executor until the first tick boundary at least 20 µs after its
consumption (R153). -/
def runAtTick (op : Nat) (judge : Cmd → State → Nat) (c : Cmd) (s : State) : Out :=
  act (holds op c s && s.hw.tWait.isNone) s
    (let st := statusOf judge c s
     if st = stOk then { s with hw := { s.hw with tWait := some (c, s.hw.since) } }
     else complete c (res s st))

/-- A command of class B frees the executor and runs beside it (R153). -/
def runBeside (op : Nat) (kind : BKind) (judge : Cmd → State → Nat) (start : Cmd → State → State)
    (c : Cmd) (s : State) : Out :=
  act (holds op c s) s
    (let st := statusOf judge c s
     if st = stOk then
       let t := start c s
       { t with hw := { t.hw with
           exec := none
           classB := t.hw.classB ++ [{ kind := kind, cmd := c, since := t.clk.now }] } }
     else complete c (res s st))

/-- A class B command of this kind is running (R153). -/
def kindBusy (k : BKind) (s : State) : Bool := s.hw.classB.any fun b => b.kind == k

end Sys2Proof.Machine
end

