-- ==== Sys2Proof/Machine/Keys.lean ====
section
/-! DEFINITION. The key store: slots, loading, invalidation and rollover (R423 to R450). -/

namespace Sys2Proof.Machine

open Sys2Proof

/-- Key slot `k`; an unlisted slot is EMPTY (R425). -/
def slotOf (k : Nat) (s : State) : KSlot := lookD s.key.slots k {}

/-- Set slot `k`. -/
def setSlot (k : Nat) (x : KSlot) (s : State) : State :=
  { s with key := { s.key with slots := put s.key.slots k x } }

/-- Code of a slot state (R425). -/
def kCode : KState → Nat
  | .empty => 0
  | .valid => 1
  | .bad => 2
  | .invalidated => 3
  | .orphaned => 4
  | .rollPending => 5
  | .rollOverlap => 6
  | .rolled => 7

/-- The slot's key may be used (R425). -/
def usable (x : KSlot) : Bool := x.st == .valid || x.st == .rollPending || x.st == .rollOverlap

/-- The slot is the old slot of a rollover that is not ended (R443). -/
def rolling (x : KSlot) : Bool := x.st == .rollPending || x.st == .rollOverlap

/-- Set a bit of `KEY_EVT` for a slot (R448). -/
def latchKey (bit slot : Nat) (s : State) : State :=
  noteSet 0x1604 bit { s with key := { s.key with evt := latch s.key.evt bit, lastSlot := slot } }

/-- Raise a key event (R445), and set its bit of `KEY_EVT` (R448) if it has one. -/
def keyEvent (code slot : Nat) (bit : Option Nat) (sev : Option Nat) (s : State) : State :=
  raise { src := 10, code := code, index := slot, sev := sev }
    (match bit with
     | some i => latchKey i slot s
     | none => s)

/-- Raise one event for each slot of a list. -/
def keyEvents (code : Nat) (bit sev : Option Nat) : List Nat → State → State
  | [], s => s
  | k :: ks, s => keyEvents code bit sev ks (keyEvent code k bit sev s)

/-- The old slots that roll into slot `k` and are not yet ROLLED (R444). -/
def rollingInto (k : Nat) (s : State) : List Nat :=
  (s.key.slots.filter fun e => rolling e.2 && e.2.succ == k).map Prod.fst

/-- Slot `k` takes a state in which it is no longer usable; every rollover that names it is withdrawn
with event 0605h, and other old slots return to VALID (R444). -/
def killSlot (k : Nat) (st : KState) (s : State) : State :=
  let x := slotOf k s
  let olds := (rollingInto k s).filter (· != k)
  let gone := (if rolling x then [k] else []) ++ olds
  let back := s.key.slots.map fun e => if olds.contains e.1 then (e.1, { e.2 with st := .valid }) else e
  let s1 := { s with key := { s.key with slots := put back k { x with st := st } } }
  let s2 := cancelCmps (fun u => match u with
    | .rollover o => gone.contains o
    | _ => false) s1
  keyEvents 0x0605 (some 2) (some 1) gone s2

/-- Kill every slot of a list. -/
def killSlots (st : KState) : List Nat → State → State
  | [], s => s
  | k :: ks, s => killSlots st ks (killSlot k st s)

/-- The Leaves that hold a key under Branch slot `k` (R434). -/
def leavesOf (k : Nat) (s : State) : List Nat :=
  (s.key.slots.filter fun e => e.2.level == 2 && e.2.parent == k && usable e.2).map Prod.fst

/-- Orphan the Leaves of Branch `k` (R431, R434). -/
def orphanLeaves (k : Nat) (s : State) : State := killSlots .orphaned (leavesOf k s) s

/-- Invalidate Branch `k`, orphan its Leaves and raise event 0602h (R434, R435). -/
def invalidateBranch (k : Nat) (s : State) : State :=
  let n := (leavesOf k s).length
  keyEvent 0x0602 k (if n = 0 then none else some 1) (some 1) (orphanLeaves k (killSlot k .invalidated s))

/-- Invalidate each Branch of a list. -/
def invalidateBranches : List Nat → State → State
  | [], s => s
  | k :: ks, s => invalidateBranches ks (invalidateBranch k s)

/-- The partition Branches, VALID or BAD, of one partition or of all (R435). -/
def partBranches (p : Option Nat) (s : State) : List Nat :=
  (s.key.slots.filter fun e => e.2.level == 1 && e.2.owner == 2 && (e.2.st == .valid || e.2.st == .bad) &&
    (match p with
     | some q => e.2.part == q
     | none => true)).map Prod.fst

/-- A slot is found BAD (R427): event 0601h and its logbook record. -/
def foundBad (k : Nat) (s : State) : State :=
  let t := killSlot k .bad s
  keyEvent 0x0601 k (some 0) (some 2)
    { t with key := { t.key with store := bump t.key.store 1 } }

/-- The key of a slot as its algorithm takes it: an AES-128 key is the first 16 bytes (R428). -/
def keyOf (x : KSlot) : Bytes := if x.alg = 1 then x.key.take 16 else x.key

/-- The precomputed state: the GHASH subkey of an AES key, the chaining values of an HMAC key (R427). -/
def preOf (x : KSlot) : Bytes :=
  if x.alg = 1 ∨ x.alg = 2 then aes (keyOf x) (List.replicate 16 0) else if x.alg = 3 then hmacChain x.key else []

/-- The bytes that the integrity check of a slot covers (R427); their order is the model's, which no bit outside the
store shows (DESIGN CHOICE, log entry 77). -/
def slotBytes (x : KSlot) : Bytes :=
  [BitVec.ofNat 8 x.level, BitVec.ofNat 8 x.alg, BitVec.ofNat 8 x.usage, BitVec.ofNat 8 x.owner,
   BitVec.ofNat 8 x.part] ++ toLe 2 x.overlap ++ toLe 4 x.keyId ++ toLe 2 x.parent ++ x.key ++ x.pre

/-- DSK and TK, from the Root (R423). -/
def keyDsk (root : Bytes) : Bytes := kdf root Config.labelSlotSeal []
def keyTk (root : Bytes) : Bytes := kdf root Config.labelTransport []

/-- The integrity check of a slot: the first 64 bits of its CMAC under DSK (R427). -/
def slotCheck (root : Bytes) (x : KSlot) : BitVec 64 := BitVec.ofNat 64 (beAt (cmac (keyDsk root) (slotBytes x)) 0 8)

/-- A slot with its precomputed state and its check (R427, R430). -/
def sealSlot (root : Bytes) (x : KSlot) : KSlot :=
  let y := { x with pre := preOf x }
  { y with check := slotCheck root y }

/-- The slot's check holds; an EMPTY slot, and one that is already BAD, is not tested (R427). -/
def checkHolds (root : Bytes) (x : KSlot) : Bool :=
  x.st == .empty || x.st == .bad || x.check == slotCheck root x

/-- Test slot `k`; a failing slot becomes BAD at once (R427). -/
def testSlot (k : Nat) (s : State) : State := if checkHolds s.mram.root (slotOf k s) then s else foundBad k s

/-- Test every slot of a list. -/
def testSlots : List Nat → State → State
  | [], s => s
  | k :: ks, s => testSlots ks (testSlot k s)

/-- The slots that hold the grove Branch: the VALID Branch of `OWNER` 0 (R432). -/
def groveSlots (s : State) : List (Nat × KSlot) :=
  s.key.slots.filter fun e => e.2.level == 1 && e.2.owner == 0 && e.2.st == .valid

/-- The grove Branch as the store holds it (R432). -/
def groveHeld (s : State) : Option KSlot := (groveSlots s).head?.map Prod.snd

/-- The grove Branch for a command that uses it: its check holds (R427, R432). -/
def groveBranch (s : State) : Option KSlot := (groveHeld s).filter (checkHolds s.mram.root)

/-- The grove Branch is tested (R427). -/
def testGrove (s : State) : State := testSlots ((groveSlots s).map Prod.fst) s

/-- The grove sealing key of a grove Branch (R432). -/
def groveSeal (g : KSlot) : Bytes := kdf g.key Config.labelGroveSeal []

/-- The grove tag, 8 bytes; none without a VALID grove Branch (R432, R449). -/
def groveTag (s : State) : Option Nat :=
  (groveHeld s).map fun g => leAt (kdf g.key Config.labelGroveTag []) 0 8

/-! ### KEY_LOAD (R428 to R431) -/

/-- Every header field of a wrapped key lies within R428: `LEVEL` is 1 or 2 and equals ARG1[1:0]. -/
def keyHeader (b : Bytes) (lvl : Nat) : Bool :=
  let level := leAt b 1 1
  let alg := leAt b 2 1
  let usage := leAt b 3 1
  let owner := leAt b 4 1
  leAt b 0 1 == 1 && (level == 1 || level == 2) && level == lvl &&
    (if level = 1 then alg == 0 && usage &&& 0x8C == 0 && decide (owner ≤ 2) && leAt b 6 2 == 0 &&
        leAt b 8 4 == 0 && (owner == 2 || leAt b 5 1 == 0)
     else decide (1 ≤ alg) && decide (alg ≤ 3) && usage &&& 0xFC == 0 && usage != 0 && owner == 0 &&
        leAt b 5 1 == 0) &&
    leAt b 12 4 == 0 && leAt b 56 8 == 0

/-- The parent's `USAGE` permits the Leaf's `USAGE` and `ALG` (R428, R430). -/
def permits (parent usage alg : Nat) : Bool :=
  usage &&& (parent % 4) == usage && tbit parent (3 + alg)

/-- The slot may be written by `KEY_LOAD` (R426). -/
def loadable (x : KSlot) : Bool :=
  x.st == .empty || x.st == .bad || x.st == .invalidated || x.st == .orphaned || x.st == .rolled

/-- The cases of R430 before the unwrapping, in order. -/
def keyCases (b : Bytes) (lvl parent : Nat) (s : State) : List (Bool × Nat) :=
  let p := slotOf parent s
  let leaf := lvl == 2
  [(lvl != 0, stDenied),
   (keyHeader b lvl, stBadArg),
   (leaf || parent == 0, stBadArg),
   (leaf || leAt b 4 1 != 2 || (look s.cnp.parts (leAt b 5 1)).isSome, stNotFound),
   (leaf || leAt b 4 1 != 0 || (groveHeld s).isNone, stWrongState),
   (!leaf || p.st != .empty, stNotFound),
   (!leaf || p.level == 1, stBadArg),
   (!leaf || p.st != .bad, stBadSlot),
   (!leaf || p.st != .invalidated, stOrphaned),
   (!leaf || permits p.usage (leAt b 3 1) (leAt b 2 1), stDenied)]

/-- `KEY_LOAD`: the parent is tested before it is judged (R427). -/
def judgeKeyLoad (c : Cmd) (s : State) : Nat :=
  let k := arg0 c.desc
  judged c s [(decide (k < 2048), stBadArg), (inputBlock c 64 s, stBadArg),
    (loadable (slotOf k s), stWrongState)]

/-- The wrapping key of a block: KDF under TK for a Branch, under the parent's key for a Leaf (R429). -/
def wrapKey (lvl parent : Nat) (b : Bytes) (s : State) : Bytes :=
  kdf (if lvl = 1 then keyTk s.mram.root else (slotOf parent s).key) Config.labelWrap (b.take 16)

/-- The slot that a wrapped key makes (R430). -/
def loadedSlot (lvl parent : Nat) (b key : Bytes) (s : State) : KSlot :=
  sealSlot s.mram.root
    { st := .valid, level := lvl, alg := leAt b 2 1, usage := leAt b 3 1,
      owner := if lvl = 1 then leAt b 4 1 else (slotOf parent s).owner,
      part := if lvl = 1 then leAt b 5 1 else (slotOf parent s).part,
      overlap := leAt b 6 2, keyId := leAt b 8 4, parent := if lvl = 1 then 0 else parent,
      key := key, block := b }

/-- Write a slot: Leaves of a Branch that it held become ORPHANED in the same step (R431), and its
bank is cleared (R446). -/
def writeSlot (k : Nat) (x : KSlot) (s : State) : State :=
  let old := slotOf k s
  let n := (leavesOf k s).length
  let s1 := if old.level = 1 then orphanLeaves k s else s
  let s2 := if old.level = 1 ∧ n ≠ 0 then keyEvent 0x0602 k (some 1) (some 1) s1 else s1
  let s3 := setSlot k x s2
  { s3 with key := { s3.key with cnt := s3.key.cnt.filter fun e => e.1 / 7 != k } }

/-- The effect of `KEY_LOAD` (R430). -/
def effKeyLoad (c : Cmd) (s : State) : Res :=
  let k := arg0 c.desc
  let lvl := arg1 c.desc % 4
  let parent := bits (arg1 c.desc) 18 8
  let b := c.block
  let s0 := if lvl = 2 then testSlot parent s else s
  let st := checks (keyCases b lvl parent s0)
  if st ≠ stOk then res s0 st
  else
    match unwrapKw (wrapKey lvl parent b s0) ((b.drop 16).take 40) with
    | none => res { s0 with key := { s0.key with store := bump s0.key.store 3 } } stBadArg
    | some key => res (writeSlot k (loadedSlot lvl parent b key s0) s0) stOk

/-- KEY_LOAD (R162, R430). -/
def execKeyLoad (c : Cmd) (s : State) : Out := runNow 0x0601 judgeKeyLoad effKeyLoad c s

/-! ### KEY_INVALIDATE (R434), KEY_QUERY (R425) -/

/-- The status of a slot that is not in the state a key command needs (R426). -/
def notUsableStatus (x : KSlot) : Nat :=
  if x.st == .bad then stBadSlot else if x.st == .orphaned then stOrphaned else stWrongState

def judgeKeyInvalidate (c : Cmd) (s : State) : Nat :=
  judged c s [(decide (arg0 c.desc < 2048), stBadArg), (noBlock c, stBadArg)]

/-- The slot is tested (R427), judged (R426), and invalidated; a Branch orphans its Leaves (R434). -/
def effKeyInvalidate (c : Cmd) (s : State) : Res :=
  let k := arg0 c.desc
  let s0 := testSlot k s
  let x := slotOf k s0
  if !usable x then res s0 (notUsableStatus x)
  else if x.level = 1 then resOk (invalidateBranch k s0) (leavesOf k s0).length
  else resOk (killSlot k .invalidated s0) 0

/-- KEY_INVALIDATE (R162, R434). -/
def execKeyInvalidate (c : Cmd) (s : State) : Out := runNow 0x0602 judgeKeyInvalidate effKeyInvalidate c s

def judgeKeyQuery (c : Cmd) (s : State) : Nat :=
  judged c s [(decide (arg0 c.desc < 2048), stBadArg), (noBlock c, stBadArg)]

/-- The result word of `KEY_QUERY` (R162, R425). -/
def keyWord (x : KSlot) : Nat :=
  kCode x.st + 16 * (if x.st == .empty then 0 else x.level) +
    256 * (if x.st != .empty && x.level == 2 then x.parent else 0)

/-- The slot is tested and read (R427). -/
def effKeyQuery (c : Cmd) (s : State) : Res :=
  let t := testSlot (arg0 c.desc) s
  resOk t (keyWord (slotOf (arg0 c.desc) t))

/-- KEY_QUERY (R162, R425). -/
def execKeyQuery (c : Cmd) (s : State) : Out := runNow 0x0603 judgeKeyQuery effKeyQuery c s

/-! ### KEY_ROLLOVER and its phases (R443, R444) -/

def judgeKeyRollover (c : Cmd) (s : State) : Nat :=
  let n := arg1 c.desc % 2048
  judged c s [(decide (arg0 c.desc < 2048), stBadArg), (inputBlock c 8 s, stBadArg),
    (arg0 c.desc != n, stBadArg), (bits (arg1 c.desc) 29 11 == 0, stBadArg),
    (leAt c.block 6 2 == 0, stBadArg)]

/-- Both slots are tested and judged, the old slot first; then level, `ALG`, `USAGE` and owner, and
the time base (R443). -/
def effKeyRollover (c : Cmd) (s : State) : Res :=
  let o := arg0 c.desc
  let n := arg1 c.desc % 2048
  let tb := bits (arg1 c.desc) 31 30
  let s0 := testSlot n (testSlot o s)
  let x := slotOf o s0
  let y := slotOf n s0
  let st := checks [(x.st == .valid, notUsableStatus x), (y.st == .valid, notUsableStatus y),
    (x.level == 2 && y.level == 2, stBadArg),
    (x.alg == y.alg && x.usage == y.usage && x.owner == y.owner && x.part == y.part, stBadArg),
    ((tbOf tb s0).en == .on, stWrongState)]
  if st ≠ stOk then res s0 st
  else
    res (armCmp tb (leAt c.block 0 8) (.rollover o)
      (setSlot o { x with st := .rollPending, succ := n } s0)) stOk

/-- KEY_ROLLOVER (R162, R443). -/
def execKeyRollover (c : Cmd) (s : State) : Out := runNow 0x0604 judgeKeyRollover effKeyRollover c s

/-- Activation of a rollover at its compare: ROLL_OVERLAP until `OVERLAP` of the new slot has passed,
event 0603h (R443). The overlap is counted on the FRC (log entry 15). -/
def activateRollover (o : Nat) (s : State) : State :=
  let x := slotOf o s
  if x.st == .rollPending then
    keyEvent 0x0603 o (some 2) none
      (setSlot o { x with st := .rollOverlap
                          overlapEnd := s.clk.frc + (slotOf x.succ s).overlap * 10000000 } s)
  else s

/-- The slot that a reference reaches: a ROLLED slot resolves to its successor, in one step (R436). -/
def resolveSlot (k : Nat) (s : State) : Nat := if (slotOf k s).st == .rolled then (slotOf k s).succ else k

/-- The old slot becomes ROLLED, its key erased and its check made anew, and slots that forward to it forward to its
successor, or to that slot's own where it is ROLLED already, so that forwarding stays one step deep (R443). -/
def rollSlot (o : Nat) (s : State) : State :=
  let x := slotOf o s
  let n := resolveSlot x.succ s
  let fwd := s.key.slots.map fun e =>
    if e.2.st == .rolled && e.2.succ == o then (e.1, { e.2 with succ := n }) else e
  let y := { x with st := .rolled, key := [], block := [], succ := n }
  { s with key := { s.key with slots := put fwd o (sealSlot s.mram.root y) } }

/-- OVERLAP_END (R443): the overlap has passed, event 0604h. -/
def execOverlapEnd (slot : Nat) (s : State) : Out :=
  named (decide (slot < 2048))
    (act ((slotOf slot s).st == .rollOverlap && decide ((slotOf slot s).overlapEnd ≤ s.clk.frc)) s
      (keyEvent 0x0604 slot (some 2) none (rollSlot slot s)))

/-- KEY_SWEEP (R427): the sweeper tests a slot; the last slot ends a lap (R446). The store is held in a COLD reset (R77). -/
def execKeySweep (slot : Nat) (s : State) : Out :=
  named (decide (slot < 2048))
    (act (!coldHeld s) s
      (let t := testSlot slot s
       if slot = 2047 then { t with key := { t.key with store := bump t.key.store 2 } } else t))

/-! ### The loads of the crypto lanes (R433, R436, R437) -/

/-- `AUTH` 1 and 2 match `ALG` 1 and 2, a key of either length; 3 to 5 match `ALG` 3 (R433, R438). -/
def algFits (auth alg : Nat) : Bool := if auth ≤ 2 then alg == 1 || alg == 2 else alg == 3

/-- The slot holds a Leaf of this usage bit and algorithm (R428, R433). -/
def leafFor (x : KSlot) (bit auth : Nat) : Bool := x.level == 2 && tbit x.usage bit && algFits auth x.alg

/-- The owner rule of tagging (R433): partition `p`, and for P0 also manager or grove. -/
def mayTag (x : KSlot) (p : Nat) : Bool := (x.owner == 2 && x.part == p) || (p == 0 && x.owner != 2)

/-- The slot under which a frame is tagged: from the activation of a rollover the new slot (R436, R443). -/
def tagSlot (k : Nat) (s : State) : Nat :=
  if (slotOf k s).st == .rollOverlap then resolveSlot (slotOf k s).succ s else resolveSlot k s

/-- The partners of slot `k` in a rollover that is not ended (R439, R443). -/
def partners (k : Nat) (s : State) : List Nat :=
  (if rolling (slotOf k s) then [resolveSlot (slotOf k s).succ s] else []) ++ rollingInto k s

/-- The reason for which a tag cannot be made (R441). -/
def tagStatus (x : KSlot) (auth p : Nat) (s : State) : Nat :=
  checks [(x.st != .bad, stBadSlot), (x.st != .orphaned, stOrphaned), (usable x, stNotFound),
    (leafFor x 1 auth && mayTag x p, stDenied),
    (2 < auth || decide (s.mram.epoch < 0xFFFFFF), stNotFound)]

/-- The key under which a lane verifies a frame whose reference reached slot `k`, or the counter of the reason why there
is none (R436, R438, R439): an extension on another EtherType is none. -/
def verifyKey (k auth : Nat) (f : Frame) (s : State) : Nat × KSlot :=
  let x := slotOf k s
  if !usable x || !leafFor x 0 auth then (4, {})
  else
    match f.auth with
    | none => (3, {})
    | some e =>
      if !e.wellFormed || !(f.etype == 0x88B8 || f.etype == 0x88BA) then (3, {})
      else
        match (k :: partners k s).find? fun j => (slotOf j s).keyId == e.keyId with
        | none => (2, {})
        | some j => (0, slotOf j s)

/-- A load from the store: lane `i` is granted, in a cycle of its own (R35, R437; log entry 75). -/
def loadAsk (i : Nat) (s : State) : State := { s with key := { s.key with loadPtr := (arbitrate 5 1 s.key.loadPtr (· == i)).2 } }

/-- The lane holds a frame. -/
def setLane (lane : Nat) (j : LaneJob) (s : State) : State := { s with key := { s.key with lanes := put s.key.lanes lane j } }

/-- The lane is free, and its working-key register cleared (R436). -/
def freeLane (lane : Nat) (s : State) : State := { s with key := { s.key with lanes := del s.key.lanes lane } }

/-- A lane takes the oldest frame that waits for verification: it tests the slot that the frame's entry reaches, and its
partners, and copies the key (R427, R436). -/
def loadVerify (lane : Nat) (h : Held) (a : Action) (s : State) : State :=
  let s1 := testSlot (resolveSlot a.keySlot s) (loadAsk lane s)
  let s2 := testSlots (partners (resolveSlot a.keySlot s1) s1) s1
  let k := resolveSlot a.keySlot s2
  let w := verifyKey k a.auth h.frame s2
  setLane lane { ver := some (h, a), slot := k, fault := w.1, work := w.2 } s2

/-- A lane takes a frame to tag (R427, R433, R436). -/
def loadTag (lane : Nat) (t : TagReq) (s : State) : State :=
  let s1 := testSlot (tagSlot t.slot s) (loadAsk lane s)
  let k := tagSlot t.slot s1
  let st := tagStatus (slotOf k s1) t.auth t.owner s1
  setLane lane { tag := some t, slot := k, fault := st, work := if st = stOk then slotOf k s1 else {} } s1

/-- The requesters of a lane: 0 verification, 1 tagging of publications, 2 tagging of SENDs (R437). Heartwood's
request, 3, is granted inside the one step of its command. -/
def laneAsks (s : State) (i : Nat) : Bool :=
  if i = 0 then !s.sw.wait.isEmpty
  else if i = 1 then s.key.tags.any fun t => t.pub.isSome
  else i == 2 && s.key.tags.any fun t => t.pub.isNone

/-- A granted requester takes a free lane with its oldest frame (R437). -/
def startLane (s : State) (e : Nat × Nat) : State :=
  if e.2 = 0 then
    match s.sw.wait with
    | [] => s
    | (h, a) :: rest => loadVerify e.1 h a { s with sw := { s.sw with wait := rest } }
  else
    match s.key.tags.find? fun t => t.pub.isSome == (e.2 == 1) with
    | none => s
    | some t => loadTag e.1 t { s with key := { s.key with tags := s.key.tags.erase t } }

/-- The free lanes in ascending order. -/
def freeLanes (s : State) : List Nat := (List.range 4).filter fun l => (look s.key.lanes l).isNone

/-- One cycle of the grant of lanes: as many grants as lanes are free, one at most for each requester (R35, R437). -/
def laneCycle (s : State) : State :=
  let free := freeLanes s
  let g := arbitrate 4 free.length s.key.ptr (laneAsks s)
  (free.zip g.1).foldl startLane { s with key := { s.key with ptr := g.2 } }

/-- The cycles that the free lanes allow. -/
def laneCycles : Nat → State → State
  | 0, s => s
  | n + 1, s => laneCycles n (laneCycle s)

/-- Waiting frames take the lanes that are free (R437). -/
def fillLanes (s : State) : State := laneCycles 4 s

end Sys2Proof.Machine
end

