-- ==== Sys2Proof/Machine/OutPins.lean ====
section
/-! DEFINITION. The emission gate (R453) and the levels of the output pins (R529, R536). -/

namespace Sys2Proof.Machine

open Sys2Proof

/-- The emission gate is open: a STANDALONE module, or an ACTIVE one that has not resigned (R453). -/
def gateOpen (s : State) : Bool :=
  match s.gft.role with
  | .standalone => true
  | .active => s.gft.resignAt.isNone
  | _ => false

/-- The row of R536 that governs every channel: COLD levels, safe levels, or none of the two. -/
inductive PinRule where
  | cold | safe | run
deriving DecidableEq, Repr

/-- A COLD reset, its release sequence, or Seedling (R89, R536). -/
def coldPins (s : State) : Bool :=
  s.boot.seedling || (s.rst.phase != .started && s.rst.reach == some .cold)

/-- What the module does at a pin or a lane (R89). `function` is the pin's own function at work; `held` keeps what
stood when the reset was asserted. -/
inductive Lead where
  | low | high | highZ | idle | function | held
deriving DecidableEq, Repr

/-- Which column of R89 applies: COLD reset and its release, WARM reset, Seedling, or none of them. -/
def padState {α : Type} (cold warm seed run : α) (s : State) : α :=
  if s.rst.phase != .started then (if s.rst.reach == some .warm then warm else cold)
  else if s.boot.seedling then seed else run

/-- The PLLs have locked since COLD: the FRC counts (R91, R292). -/
def pllLocked (s : State) : Bool := s.clk.frcOn

/-- QSPI_CS_N (R89). -/
def qspiCsN (s : State) : Lead := padState .high .high .function .function s

/-- QSPI_RST_N: low until PLL lock (R89, R91). -/
def qspiRstN (s : State) : Lead := padState (if pllLocked s then .high else .low) .high .high .high s

/-- QSPI_SCK and QSPI_IO0 to QSPI_IO3 (R89). -/
def qspiIo (s : State) : Lead := padState .highZ .highZ .function .function s

/-- SNS_SCL and SNS_SDA (R89). -/
def snsPins (s : State) : Lead := padState .highZ .highZ .highZ .function s

/-- The PCIe lanes: idle in COLD until the endpoint is ready, then per PERST_N (R76, R89). -/
def pcieLanes (s : State) : Lead := if s.rst.pcieAt.isSome then .function else .idle

/-- The lanes of port `n` (R89). A port whose PORT source was asserted in the WARM reset is not held (R90). -/
def portLanes (n : Nat) (s : State) : Lead :=
  padState .idle (if (lookD s.prt.ports n {}).freed then .function else .held) (if n = 0 then .function else .idle) .function s

/-- The Graft lanes and the trace lanes (R89). -/
def graftLanes (s : State) : Lead := padState .idle .held .idle .function s
def traceLanes (s : State) : Lead := padState .idle .held .idle .function s

/-- ACTIVE_N: driven low by the module that claims it (R89, R452); PPS_OUT (R89, R318). -/
def activeN (s : State) : Lead :=
  padState .highZ .held .highZ (if s.gft.driving then .low else .highZ) s
def ppsOutPin (s : State) : Lead :=
  padState .low .held .low (if s.tim.ppsHigh then .high else .low) s

/-- The first row of R536 that applies to a channel. -/
def pinRule (c : OutCh) (s : State) : PinRule :=
  if coldPins s then .cold
  else if s.out.inh || !gateOpen s || c.en == .off then .safe
  else .run

/-- Word `i` of a kept set-up block. -/
def cfgWord (cfg : Option (List Word)) (i : Nat) : Nat := ((cfg.getD []).getD i 0).toNat

/-- `MODE` of a channel: 0 PWM, 1 ECON, 2 RELAY (R530). -/
def outMode (c : OutCh) : Nat := cfgWord c.cfg 0 % 4
/-- `SAFE_A` and `SAFE_B` (R530). -/
def safeA (c : OutCh) : Bool := tbit (cfgWord c.cfg 0) 4
def safeB (c : OutCh) : Bool := tbit (cfgWord c.cfg 0) 5
/-- The dead time d in 2⁻¹⁶ ns: `DEAD` × 5 ns (R530). -/
def deadTime (c : OutCh) : Nat := bits (cfgWord c.cfg 0) 15 8 * 5 * 65536

/-- The levels that the waveform asks for (R529, R533): A follows w, B its complement; a RELAY channel
drives them only in a pulse that is not suppressed. -/
def wantPins (c : OutCh) : Bool × Bool :=
  if outMode c = 2 then
    if c.pulse.isSome && !c.pulseSupp then (c.pulsePol, !c.pulsePol) else (false, false)
  else (c.w, !c.w)

/-- The pins of a channel under a rule: every turn-off is immediate, every turn-on waits for the dead
time (R529); safe levels are forced at once (R537). -/
def drive (rule : PinRule) (now : Nat) (c : OutCh) : OutCh :=
  match rule with
  | .cold => { c with pinA := false, pinB := false, dueA := false, dueB := false }
  | .safe => { c with pinA := safeA c, pinB := safeB c, dueA := false, dueB := false }
  | .run =>
    let want := wantPins c
    let d := deadTime c
    let onA := want.1 && !c.pinA
    let onB := want.2 && !c.pinB
    let keepDue := (onA && c.dueA) || (onB && c.dueB)
    { c with
      pinA := want.1 && (c.pinA || d == 0)
      pinB := want.2 && (c.pinB || d == 0)
      dueA := onA && d != 0
      dueB := onB && d != 0
      dueAt := if keepDue then c.dueAt else now + d }

/-- The channel's pins as the state now asks (R536). -/
def drivePins (c : OutCh) (s : State) : OutCh := drive (pinRule c s) (frcNow s) c

/-- Every channel's pins as the state now asks: after a change of gate, inhibit or reset (R536). -/
def applyPins (s : State) : State :=
  { s with out := { s.out with chans := s.out.chans.map fun e => (e.1, drivePins e.2 s) } }

/-- Output channel `n`. -/
def outCh (n : Nat) (s : State) : OutCh := lookD s.out.chans n {}

/-- Set output channel `n`, with its pins as the state asks. -/
def setOut (n : Nat) (c : OutCh) (s : State) : State :=
  { s with out := { s.out with chans := put s.out.chans n (drivePins c s) } }

end Sys2Proof.Machine
end

