-- ==== Sys2Proof/Machine/Logbook.lean ====
section
/-! DEFINITION. The logbook: acceptance, flush, reading, and its rows (R505 to R522). -/

namespace Sys2Proof.Machine

open Sys2Proof

/-- The number after `n`; after FFFF_FFFFh comes 1 (R507). -/
def numAfter (n : Nat) : Nat := if n + 1 = 2 ^ 32 then 1 else n + 1

/-- `n` + 4,096 in record numbers, so that the next record is `n` + 4,097 (R512). -/
def numJump (n : Nat) : Nat := if 2 ^ 32 ≤ n + 4096 then n + 4096 - (2 ^ 32 - 1) else n + 4096

/-- `TIME` and `TBV` of a record accepted now (R507). -/
def logTime (s : State) : Nat × Bool :=
  if !s.clk.frcOn then (0, false)
  else if tbGood (tbOf 0 s) then (tbNs (tbOf 0 s) (frcNow s), true)
  else (s.clk.frc, false)

/-- A flush starts, unless one runs (R511). -/
def startFlush (s : State) : State := { s with log := { s.log with flushing := true } }

/-- The record as the controller accepts it (R507). -/
def stampRec (r : LogRec) (s : State) : LogRec :=
  { r with num := numAfter s.log.newest, time := (logTime s).1, tbv := (logTime s).2,
           opsec := s.mram.opsec, pcyc := s.mram.pcyc, session := s.mram.session }

/-- Every slot of the volatile buffer holds an unflushed record (R509). -/
def bufFull (s : State) : Bool := decide (Config.logBufMax ≤ s.log.unfl)

/-- The last `n` entries of a list. -/
def lastN {α : Type} (n : Nat) (l : List α) : List α := l.drop (l.length - n)

/-- Accept one record, or count it as lost (R509); a FAULT or POWER record, or the 2,048th unflushed
one, starts a flush (R511). -/
def acceptRec (r : LogRec) (s : State) : State :=
  if bufFull s then
    { s with log := { s.log with lost := min (s.log.lost + 1) 65535
                                 lostSince := s.log.lostSince + 1 } }
  else
    { s with log := { s.log with
        buf := lastN Config.logBufMax (s.log.buf ++ [stampRec r s])
        newest := numAfter s.log.newest
        any := true
        unfl := s.log.unfl + 1
        oldestAt := if s.log.unfl = 0 then s.clk.now else s.log.oldestAt
        flushing := s.log.flushing || decide (2 ≤ r.sev) || decide (2048 ≤ s.log.unfl + 1) } }

/-- Accept a record; where records were lost and space has returned, the record of event 0938h comes
first, with the number lost (R509, R516). -/
def accept (r : LogRec) (s : State) : State :=
  if s.log.lostSince ≠ 0 && !bufFull s then
    let e : Ev := { src := 14, code := 0x0938, data := toLe 4 s.log.lostSince }
    let osn := nextOsn s
    let s1 := raise e { s with log := { s.log with lostSince := 0 } }
    acceptRec r (acceptRec (logReq e osn 1) s1)
  else acceptRec r s

/-- Accept every request of a list. -/
def acceptAll : List LogRec → State → State
  | [], s => s
  | r :: rs, s => acceptAll rs (accept r s)

/-- Accept every waiting request, as before the flush of a power-fail (R512). -/
def acceptWaiting (s : State) : State :=
  acceptAll s.log.reqs { s with log := { s.log with reqs := [] } }

/-- The grant of the logbook controller: its winner among the sources with a request, and the pointer
afterwards (R35, R509). -/
def logGrant (s : State) : List Nat × Nat :=
  arbitrate 16 1 s.log.ptr fun i => s.log.reqs.any fun r => r.src == i

/-- LOGBOOK_RECORD (R509): the oldest request of source `source`, which wins the grant, is accepted or lost. -/
def execLogbookRecord (source : Nat) (s : State) : Out :=
  named (decide (source < 16))
    (match s.log.reqs.find? fun r => r.src == source with
     | none => .next s
     | some r =>
       act ((logGrant s).1 == [source]) s
         (accept r { s with log := { s.log with
           reqs := s.log.reqs.erase r
           ptr := (logGrant s).2 } }))

/-- FLUSH_TIMER (R511): 10 s after the oldest unflushed record was accepted. -/
def execFlushTimer (s : State) : Out :=
  act (s.pow.vaux && s.log.unfl != 0 && decide (s.log.oldestAt + 10000000000 ≤ s.clk.now)) s
    (startFlush s)

/-- The present values as a copy of generation `g`. -/
def copyOf (m : Mram) (g : Nat) : PCopy :=
  { gen := g, opsec := m.opsec, pcyc := m.pcyc, session := m.session, fails := m.fails
    saves := m.saves, epoch := m.epoch, newest := m.newest, slot := m.slot, repairs := m.repairs }

/-- Write the persistent state: the copy of the lower generation takes a generation one higher than
the other's (R505). -/
def savePstate (m : Mram) : Mram :=
  if m.c0.gen ≤ m.c1.gen then { m with c0 := copyOf m (m.c1.gen + 1) }
  else { m with c1 := copyOf m (m.c0.gen + 1) }

/-- The state after a flush (R511): every unflushed record stands in MRAM, then the persistent state is
updated (R505). -/
def flushed (s : State) : State :=
  { s with
    log := { s.log with
      mram := lastN Config.logRingMax (s.log.mram ++ lastN s.log.unfl s.log.buf)
      flushed := if s.log.unfl = 0 then s.log.flushed else s.log.newest
      unfl := 0
      flushing := false }
    mram := savePstate { s.mram with
      newest := if s.log.unfl = 0 then s.mram.newest else s.log.newest
      slot := (s.mram.slot + s.log.unfl) % Config.logRingMax } }

/-- FLUSH_COMPLETE (R511). -/
def execFlushComplete (s : State) : Out := act (s.pow.vaux && s.log.flushing) s (flushed s)

/-- OPERATING_SECOND (R506): `OPSEC` counts a second of good VAUX; every 60th writes the persistent
state. -/
def execOperatingSecond (s : State) : Out :=
  act s.pow.vaux s
    (let m := { s.mram with opsec := (s.mram.opsec + 1) % 2 ^ 32 }
     { s with mram := if m.opsec % 60 = 0 then savePstate m else m })

/-! ### Reading (R513 to R515) -/

/-- The words 1 to 14 of a record (R507). -/
def recBody (r : LogRec) : Bytes :=
  toLe 4 (r.code % 65536 + 2 ^ 16 * (r.src % 16) + 2 ^ 20 * (r.sev % 4) + 2 ^ 22 * b2n r.tbv +
      2 ^ 24 * (r.kind % 256)) ++ toLe 4 r.index ++ toLe 8 r.osn ++ toLe 8 r.time ++ toLe 4 r.opsec ++
    toLe 4 r.pcyc ++ toLe 4 r.session ++ padTo 20 r.data

/-- The 64 bytes of a record (R507). A record that is not sound fails its check (R494). -/
def recBytes (r : LogRec) : Bytes :=
  let b := recBody r
  let k := crc32c b
  toLe 4 r.num ++ b ++ toLe 4 (if r.sound then k else (k + 1) % 2 ^ 32)

/-- The record of number `n`: the buffer's while it is held there, otherwise MRAM's (R514). -/
def recordNo (n : Nat) (s : State) : Option LogRec :=
  match s.log.buf.find? fun r => r.num == n with
  | some r => some r
  | none => s.log.mram.find? fun r => r.num == n

/-- `LOG_WINk`: word k of the selected record; zeros where neither holds it (R514, R522). -/
def logWindow (k : Nat) (s : State) : Nat :=
  match recordNo s.log.sel.toNat s with
  | some r => wordAt (recBytes r) k
  | none => 0

/-- The records held, oldest first, each once (R515). -/
def recordsHeld (s : State) : List LogRec :=
  s.log.mram ++ s.log.buf.filter fun r => !(s.log.mram.any fun m => m.num == r.num)

/-- `OLDEST` of `LOG_OLDEST` (R521). -/
def oldestNum (s : State) : Nat :=
  match recordsHeld s with
  | [] => 0
  | r :: _ => r.num

/-- The first record that `LOG_READ` considers (R515). -/
def firstNum (a : Nat) (s : State) : Nat := if a = 0 then oldestNum s else a

/-- The number `n` comes before `first`, as a signed 32-bit difference (R505). -/
def numBefore (n first : Nat) : Bool := decide ((BitVec.ofNat 32 n - BitVec.ofNat 32 first).toInt < 0)

/-- The records that `LOG_READ` copies: those trusted among the first `count` held from `first` on (R515). -/
def readRecords (first count : Nat) (s : State) : List LogRec :=
  (((recordsHeld s).dropWhile fun r => numBefore r.num first).take count).filter fun r => r.sound

def judgeLogRead (c : Cmd) (s : State) : Nat :=
  let n := arg1 c.desc
  judged c s [(decide (1 ≤ n) && decide (n ≤ 16384), stBadArg), (outputBuffer c (64 * n) s, stBadArg)]

def effLogRead (c : Cmd) (s : State) : Res :=
  let rs := readRecords (firstNum (arg0 c.desc) s) (arg1 c.desc) s
  resOut c (rs.flatMap recBytes) (some (BitVec.ofNat 32 rs.length)) s

/-- LOG_READ (R165, R515). -/
def execLogRead (c : Cmd) (s : State) : Out := runNow 0x0901 judgeLogRead effLogRead c s

def judgeLogNote (c : Cmd) (s : State) : Nat := judged c s [(inputBlock c 48 s, stBadArg)]

/-- Three records of code 0937h that share one OSN; the note is one event (R510). The records are
accepted at once, so that the result can hold the number of part 0, which a record of code 0938h may precede;
where the full buffer loses part 0 the spec gives no number, and the result is a free value. -/
def effLogNote (c : Cmd) (s : State) : Res :=
  let osn := nextOsn s
  let part (i : Nat) : Ev :=
    { src := 14, code := 0x0937, index := i, data := (c.block.drop (20 * i)).take (min 20 (48 - 20 * i)) }
  let s1 := raise { src := 14, code := 0x0937, data := c.block.take 20 } s
  let s2 := acceptWaiting s1
  let s3 := accept (logReq (part 0) osn 0) s2
  let s4 := acceptAll [logReq (part 1) osn 0, logReq (part 2) osn 0] s3
  if bufFull s2 then resOk { s4 with free := s4.free + 1 } (Config.freeValue s4.free)
  else resOk s4 s3.log.newest

/-- LOG_NOTE (R165, R510). -/
def execLogNote (c : Cmd) (s : State) : Out := runNow 0x0902 judgeLogNote effLogNote c s

end Sys2Proof.Machine
end

