-- ==== Sys2Proof/Machine/RingOps.lean ====
section
/-! DEFINITION. Completions, marks, restores and generation changes of rings (R99 to R136). -/

namespace Sys2Proof.Machine

open Sys2Proof

/-- The partition of a ring for the trace filter (R548). -/
def ringPart (r : Nat) : Option Nat := ringOwner r

/-- `CFLAGS` of an entry's completion, `woke` when it raises a wake (R109). -/
def cflagsOf (e : JRec) (woke : Bool) : Nat :=
  (if e.rpl then 1 else 0) + (if tbit e.cflags 1 then 2 else 0) + (if woke then 4 else 0)

/-- The 16 bytes of a completion (R109). -/
def complBytes (e : JRec) (flags osn : Nat) : Bytes :=
  toLe 4 (e.status % 65536 + 2 ^ 16 * (e.gen % 256) + 2 ^ 24 * flags) ++ toLe 4 e.seq.toNat ++ toLe 8 osn

/-- Record of type 4, or of type 6 for a completion that is withdrawn (R547). -/
def complTrace (type : Nat) (e : JRec) (flags osn : Nat) (s : State) : TrRec :=
  { type := type, src := if Config.ringP0 ≤ e.ring then 0 else 1, osn := osn, frc := s.clk.frc,
    data := BitVec.ofNat 64 (e.ring % 4096 + 2 ^ 16 * (e.status % 256) + 2 ^ 24 * flags +
      2 ^ 32 * e.seq.toNat) }

/-- The entry whose completion is next in sequence order, if its operation has finished and it is not
an unmatched LOOSE one (R111, R126). -/
def nextEntry (r : Nat) (s : State) : Option JRec :=
  match look s.rng.rings r with
  | none => none
  | some x =>
    match findEntry r x.gen x.k s with
    | some e => if e.stage == .finished && !e.done && !e.loose && !e.withdrawn then some e else none
    | none => none

/-- The completion raises a wake of its partition: `WAKE` on an instance ring, or of P0 on ring
2,048; it is ignored on ring 2,049 (R106, R145). -/
def wakes (r : Nat) (e : JRec) : Bool := wakeOf e.desc && r != Config.ringHost

/-- The active sends a LOG frame after an emitting operation of a mirrored partition completes (R474). -/
def logFrame (r : Nat) (e : JRec) (s : State) : State :=
  let mine := ((ringOwner r).bind fun p => look s.cnp.parts p).map fun x => !x.mirror.isEmpty
  match e.crc with
  | some crc =>
    if activePaired s && mine == some true then
      let l : LogInfo :=
        { part := r / 8, ring := r, seq := e.seq, crc := crc, status := e.status, result := e.result.getD 0
          changeAt := (lookD s.gse.pubs (arg0 e.desc % 1024) {}).vals.changeAt }
      gftSendOne (.log l) { s with gft := { s.gft with logOut := s.gft.logOut ++ [l] } }
    else s
  | none => s

/-! ### The input digest of a mirrored partition (R475) -/

/-- A delivery to partition `p` joins the inputs of its tick, with module-local fields as zero: `kind` 0 a plane
record, 1 a GOOSE image, 2 a completion with what its operation delivered (R475; log entry 96). -/
def noteInput (p kind obj seq : Nat) (b : Bytes) (s : State) : State :=
  modPart p (fun x => if x.mirror.isEmpty then x else { x with inputs := x.inputs ++ [(kind, obj, seq, b)] }) s

/-- The operation is a SEND with `TS`, whose result word is module-local (R273, R475). -/
def stampedSend (x : Ring) (e : JRec) : Bool := x.binding == 1 && opOf e.desc == 1 && tbit (arg0 e.desc) 11

/-- A completion among the inputs: its first two words, the result word, and the shadow line without its OSN. -/
def noteCompl (r : Nat) (y : Ring) (e : JRec) (flags : Nat) (s : State) : State :=
  match ringOwner r with
  | none => s
  | some p =>
    let result := if stampedSend y e then 0 else (e.result.getD 0).toNat
    noteInput p 2 r e.seq.toNat (complBytes e flags 0 ++ toLe 4 result ++ shadowBytes { y with lastOsn := 0 }) s

/-- What is module-local in the memory that a completion writes: its OSN, that of the shadow line, and the result word of a
SEND with `TS` (R475). -/
def localCompl (r : Nat) (x : Ring) (e : JRec) (slot : Nat) (s : State) : State :=
  match ringOwner r with
  | none => s
  | some p =>
    let t := noteLocal p (x.compl + 16 * slot + 8) 8 (noteLocal p (x.shadow + 16) 8 s)
    if stampedSend x e then noteLocal p (x.submit + 32 * slot + 28) 4 t else t

/-- Write the completion of entry `e` of ring `r`: OSN, result word, completion, shadow line, K
(R109, R111). -/
def writeCompl (r : Nat) (x : Ring) (e : JRec) (s : State) : State :=
  let osn := nextOsn s
  let woke := wakes r e
  let flags := cflagsOf e woke
  let y := { x with k := x.k + 1, lastOsn := osn }
  let slot := x.k.toNat % ringSize x
  let s1 := grant (if Config.ringP0 ≤ r then 0 else 1) (noteCompl r y e flags (localCompl r x e slot s))
  let s2 := match e.result with
    | some w =>
      match ringOwner r with
      | some p => land p (x.submit + 32 * slot + 28) (toLe 4 w.toNat) s1
      | none => { s1 with
          mem := Memory.write s1.mem (Config.bar2Base + x.submit + 32 * slot + 28) (toLe 4 w.toNat) }
    | none => s1
  let s3 := { s2 with rng := { s2.rng with
    rings := put s2.rng.rings r y
    jrnl := s2.rng.jrnl.map fun j =>
      if isEntry r x.gen x.k j then
        { j with done := true, osn := osn, cflags := flags }
      else j } }
  let s4 := ringVis r x.shadow (shadowBytes y) (ringVis r (x.compl + 16 * slot) (complBytes e flags osn) s3)
  let s5 := logFrame r e (trace (ringPart r) (complTrace 4 e flags osn s) s4)
  if woke then wakePart ((ringPart r).getD 0) 0 64 s5 else s5

/-- The events of a completion's status, which its writing raises: DIVERGED 0213h, and VOTE_LOST 0214h with a
record (R132, R138, R139). -/
def complEvents (r : Nat) (e : JRec) (s : State) : State :=
  if e.status = stDiverged then ringEvent 2 0x0213 2 r [] none s
  else if e.status = stVoteLost then ringEvent 4 0x0214 2 r (ringData r e.seq e.desc) (some 1) s
  else s

/-- Write the next completion of a ring, if there is one. -/
def writeNext (r : Nat) (s : State) : State :=
  match look s.rng.rings r, nextEntry r s with
  | some x, some e => complEvents r e (writeCompl r x e s)
  | _, _ => s

/-- COMPLETION_WRITE (R111). -/
def execCompletionWrite (ring : Nat) (s : State) : Out :=
  named (decide (ring < 2050)) (.next (writeNext ring s))

/-! ### Marks (R127) -/

/-- The mark of a ring (R127). -/
def markRing (x : Ring) : Ring :=
  { x with mark := { a := x.a, c := x.c, k := x.k, gen := x.gen }, markOsn := x.lastOsn }

/-- Take the marks of every instance ring, retire DONE entries, and start the new tick's entries
(R127). -/
def takeMarks (g : Rng) : Rng :=
  { g with
    rings := g.rings.map fun e => if e.1 < 2048 then (e.1, markRing e.2) else e
    jrnl := (g.jrnl.filter fun e => !e.done).map fun e =>
      { e with afterMark := false } }

/-! ### Restore of a ring to its mark (R130) -/

/-- What a move makes of an entry of a restored ring (R130 step 1). A finished operation whose
completion waited for its grant counts as written after the mark. -/
def restoreEntry (e : JRec) : JRec :=
  let written := e.done || e.stage == .finished
  if written then
    { e with done := false, withdrawn := true, loose := e.loose || e.afterMark, rpl := true }
  else { e with loose := e.loose || e.afterMark, rpl := true }

/-- Entries consumed before the mark are not fetched again: a WITHDRAWN one is written again at once
and a RUNNING one when it finishes (R130 step 2). -/
def rewriteReady (e : JRec) : JRec :=
  if e.withdrawn && !e.loose then { e with withdrawn := false } else e

/-- The doorbell values that the channels brought for ring `r`, no later than `a` (R130, R185). -/
def bellsBack (r : Nat) (a : Word) (l : List (Nat × Chan × Word)) : List (Nat × Chan × Word) :=
  l.map fun b => if b.1 = r ∧ 0 < (b.2.2 - a).toInt then (r, b.2.1, a) else b

/-- Restore ring `r` to its mark, and its entries with it (R130). Type 6 trace records mark the
completions withdrawn (R136, R547). In the tick in which the ring took a new generation the mark holds an index of
the old one; the model restores A, C and K to it all the same, as R130 says without exception, and leaves the new
generation standing (DESIGN CHOICE, log entry 80). -/
def restoreRing (r : Nat) (s : State) : State :=
  match look s.rng.rings r with
  | none => s
  | some x =>
    let mine (e : JRec) : Bool := e.ring == r && e.gen == x.gen
    let wd := s.rng.jrnl.filter fun e => mine e && e.done
    let s1 := { s with
     cnp := { s.cnp with bells := bellsBack r x.mark.a s.cnp.bells }
     rng := { s.rng with
      rings := put s.rng.rings r { x with
        a := x.mark.a, c := x.mark.c, k := x.mark.k, lastOsn := x.markOsn
        inRound := x.inRound && decide (0 < (x.mark.a - x.mark.c).toInt) }
      jrnl := s.rng.jrnl.map fun e => if mine e then rewriteReady (restoreEntry e) else e } }
    let sel := (wd.map fun e => complTrace 6 e e.cflags e.osn s).filter fun t =>
      traceSel s 6 t.src (ringPart r)
    { s1 with obs := { s1.obs with ready := s1.obs.ready ++ sel } }

/-- Restore each ring of a list. -/
def restoreRings : List Nat → State → State
  | [], s => s
  | r :: rs, s => restoreRings rs (restoreRing r s)

/-- The rings of partition `p` (R99). -/
def ringsOf (p : Nat) (s : State) : List Nat :=
  (s.rng.rings.filter fun e => e.1 < 2048 && e.1 / 8 == p).map Prod.fst

/-! ### Entries that leave unmatched, and generations (R119 to R122, R128) -/

/-- An entry that is retired unmatched: record, bit and event 0212h (R128). -/
def unmatched (e : JRec) (s : State) : State :=
  ringEvent 3 0x0212 2 e.ring (ringData e.ring e.seq e.desc) (some 1) s

/-- Report each entry of a list as unmatched. -/
def unmatchedAll : List JRec → State → State
  | [], s => s
  | e :: es, s => unmatchedAll es (unmatched e s)

/-- The generation after `g` (R119). -/
def genAfter (g : Nat) : Nat := if g = 255 then 1 else g + 1

/-- Operations of a ring that are inside an engine (R120): started and not finished. A posted buffer is in no engine,
so that an old generation leaves none (R121, R274; DESIGN CHOICE, log entry 108). -/
def inEngine (r : Nat) (s : State) : List (Nat × Nat × Word) :=
  if ((look s.rng.rings r).map fun x => x.binding) = some 2 then []
  else
    ((s.rng.jrnl ++ s.rng.orphans).filter fun e => e.ring == r && e.stage == .started).map fun e => (r, e.gen, e.seq)

/-- A new generation of ring 2,048 writes 0 to the four words of its event line (R147). -/
def newEventLine (r : Nat) (s : State) : State :=
  if r = Config.ringP0 then
    visWrite 0 0x14040 (List.replicate 16 0) { s with hw := { s.hw with evP0 := {} } }
  else s

/-- Ring `r` takes a new generation at once (R105, R120): indices restart, its entries are discarded
without completions, unmatched ones are reported, and the shadow line is rewritten. -/
def newGeneration (r : Nat) (s : State) : State :=
  match look s.rng.rings r with
  | none => s
  | some x =>
    let lost := s.rng.jrnl.filter fun e => e.ring == r && (e.withdrawn || e.loose)
    let y := { x with gen := genAfter x.gen, a := 0, c := 0, k := 0, q := 0, lastOsn := 0, used := 0, inRound := false }
    let s1 := { s with
     cnp := { s.cnp with bells := s.cnp.bells.filter fun b => b.1 != r }
     rng := { s.rng with
      rings := put s.rng.rings r y
      ghosts := s.rng.ghosts ++ inEngine r s
      orphans := s.rng.orphans.filter fun e => e.ring != r
      jrnl := s.rng.jrnl.filter fun e => e.ring != r } }
    unmatchedAll lost (newEventLine r (writeShadow r s1))

/-- New generations for each ring of a list. -/
def newGenerations : List Nat → State → State
  | [], s => s
  | r :: rs, s => newGenerations rs (newGeneration r s)

/-- The payload of a consumed operation cannot be voted again (R132): VOTE_LOST with a result of 0; its completion
raises the event. -/
def payloadLost (r : Nat) (seq : Word) (s : State) : State :=
  match entryOf r seq s with
  | none => s
  | some e =>
    modEntry r e.gen seq (fun j =>
      { j with stage := .finished, rpl := true, status := stVoteLost, result := some 0 }) s

end Sys2Proof.Machine
end

