-- ==== Sys2Proof/Machine/Reset.lean ====
section
/-! DEFINITION. Reset sources and reaches, supplies, references and temperature (R48 to R85, R486). -/

namespace Sys2Proof.Machine

open Sys2Proof

/-! ### What each reach clears (R77) -/

/-- Channels of a triad that a WARM reset returns to service (R187): those whose lane is in service
and that are not retired (R189). -/
def warmTriad (lanes : List Chan) (t : Triad) : Triad :=
  { chans := [.A, .B, .C].filter fun c =>
      lanes.contains c && (t.chans.contains c || decide (t.isos.count c < 3))
    isos := t.isos }

/-- Canopy, partitions and the voter after a WARM reset: cleared, but for the lanes in service and the
isolations counted toward retirement (R77, R187, R188). Ticks start again at the present one (R192). -/
def warmCnp (s : State) : Cnp :=
  let ns := s.clk.frc
  let base : Cnp := {}
  let t0 := tbOf 0 s
  let line := if tbGood t0 then tbNs t0 (frcNow s) else ns
  { base with
    triads := s.cnp.triads.map fun e => (e.1, warmTriad s.cnp.lanes e.2)
    lanes := s.cnp.lanes
    tickStart := line / 1000000000 * 1000000000 + tickStartNs 4000 (tickOf 4000 line)
    tickFrc := ns
    tickEnd := nextTickNs 4000 line }

/-- The Graft controller after a WARM reset (R77, R457, R486): lanes kept; a paired active resigns and
drives on until the release; an unpaired active stays ACTIVE; any other paired module is IDLE. -/
def warmGft (s : State) : Gft :=
  let paired := s.gft.role == .active && s.gft.phase == .active && s.gft.resignAt.isNone
  let g := (if paired then gftSendAll .resign s else s).gft
  let base : Gft := {}
  { base with
    role := if g.role == .standby then .idle else g.role
    posB := g.posB
    driving := g.driving, line := g.line, lineSince := g.lineSince
    resignAt := if g.role == .active && (g.phase == .active || g.resignAt.isSome)
      then (match g.resignAt with
        | some t => some t
        | none => some s.clk.now)
      else none
    lanes := g.lanes, laneTx := g.laneTx, laneRx := g.laneRx, unacked := g.unacked, txOut := g.txOut
    txWait := g.txWait.filter fun f => f.frame.body == .resign
    helloDue := g.helloDue
    lanePtr := g.lanePtr, laneFree := g.laneFree
    helloOsn := g.helloOsn, helloAt := g.helloAt, lastRx := g.lastRx
    evt := g.evt }

/-- A port in a WARM reset keeps its MAC; a PORT pulse is withdrawn, and its port is not held (R77, R80, R90). -/
def warmPort (now : Nat) (p : Port) : Port := { p with resetUntil := 0, freed := decide (now < p.resetUntil) }

/-- An IMG_ERASE was running (R155). -/
def eraseRuns (s : State) : Bool := s.hw.classB.any fun b => opOf b.cmd.desc == 0x0910

/-- What a WARM reset clears, by the WARM column of R77 and the registers of R561. Partition Branches
are invalidated (R435); ports, counters of ports and switch, time bases, outputs and the trace port are
kept. The receive FIFO of a port belongs to its MAC, and its frames wait on (R77, R231; log entry 94). The poll list of R171 goes with Heartwood: no row of R77 names it (DESIGN CHOICE, log entry 81). -/
def clearWarm (s : State) : State :=
  let inputs := s.bin.ins.map fun e => (e.1, ({ level := e.2.level } : BinIn))
  let s1 : State := { s with
    boot := { s.boot with
      startAt := 0, timerOn := false, sources := [], hostOpen := false, hostPending := false
      running := false, done := false, slot := 7, seedling := false, staging := []
      seedXid := none, seedReply := [], seedOut := [], flashBusy := s.boot.flashBusy || eraseRuns s }
    prt := { s.prt with ports := s.prt.ports.map fun e => (e.1, warmPort s.clk.frc e.2) }
    rst := { s.rst with cfgLock := false }
    hw := {}
    rng := {}
    cnp := warmCnp s
    pgk := { hard := s.pgk.hard }
    mem := []
    sw := { cnt := s.sw.cnt, ingress := s.sw.ingress, fifo := s.sw.fifo, store := s.sw.store.filter fun e => e.1 < 48 }
    tim := { s.tim with cmps := s.tim.cmps.filter fun c => match c.use with
      | .trigger _ _ => false
      | _ => true }
    sv := {}
    gse := {}
    flt := {}
    acq := {}
    gft := warmGft s
    key := { s.key with tags := [], lanes := [], ptr := 0, loadPtr := 0 }
    bin := { s.bin with ins := inputs } }
  applyPins (invalidateBranches (partBranches none s1) s1)

/-- What a COLD reset clears, by the COLD column of R77: every item but the always-on island, the
persistent state in MRAM and the levels at the lands. A module that drove ACTIVE_N lets it go, and the pull-up brings it high
(R89, R459). -/
def clearCold (s : State) : State :=
  let fresh : State := {}
  { fresh with
    pending := s.pending
    free := s.free
    clk := { now := s.clk.now }
    pow := { s.pow with tjSsd := 0x8000, tjCmp := 0x8000, alm := false, limit := 0x0960 }
    rst := { s.rst with
      cfgLock := false, pcieAt := none, strapTries := 0, strapInvalid := false, strapOk := false
      strapCode := 0, strapBin := 0 }
    boot := { flash := s.boot.flash, flashBusy := s.boot.flashBusy || eraseRuns s }
    gft := { posB := false, line := s.gft.line || s.gft.driving
             lineSince := if s.gft.driving then s.clk.now else s.gft.lineSince }
    log := { s.log with sel := 0, ptr := 0 }
    mram := s.mram
    bin := { ins := s.bin.ins.map fun e => (e.1, { level := e.2.level }) }
    out := { pinLow := s.out.pinLow } }

/-! ### Assertion of a source (R74, R78 to R84) -/

/-- The number of a source: its bit of `RST_CAUSE` (R96, R560). -/
def sourceNum : Source → Nat
  | .porRail => 0
  | .porRefclk => 1
  | .porTemp => 2
  | .resetN => 3
  | .bootTimer => 4
  | .cmdCold => 5
  | .wrstN => 6
  | .wdog => 7
  | .cmdWarm => 8

/-- A source is asserted now. -/
def asserted (src : Source) (s : State) : Bool := (liveSources s).any fun x => x.1 == src

/-- The record of code 0010h: source, `RST_CAUSE` after the assertion, and reach (R78, R560). -/
def sourceRecord (src : Source) (s : State) : State :=
  let data := toLe 4 (s.rst.cause.toNat + 2 ^ 16 * s.rst.lastReach) ++
    [if sourceReach src = .cold then 1 else 2]
  recordOnly { src := 14, code := 0x0010, index := sourceNum src, sev := some 2, data := data } s

/-- A trim load aborts (R84, R85): the count, its record, and STRAP_LOAD_FAIL at the fourth, with its
record and a flush. -/
def trimAbort (why words : Nat) (s : State) : State :=
  let n := s.rst.trimAborts + 1
  let data := [BitVec.ofNat 8 why, 0, 0, 0] ++ toLe 4 words
  let s1 := recordOnly { src := 14, code := 0x0011, index := n, sev := some 2, data := data }
    { s with rst := { s.rst with trimAborts := n } }
  if n ≤ 3 then s1
  else
    startFlush (acceptWaiting (recordOnly { src := 14, code := 0x0012, sev := some 2, data := [BitVec.ofNat 8 n] }
      { s1 with rst := { s1.rst with loadFail := true, phase := .held } }))

/-- Words that the trim load has loaded: one each 80 ns (R83). -/
def trimWords (s : State) : Nat := min 6144 ((s.clk.now - s.rst.phaseAt) / 80)

/-- The sources after one more is asserted; a COLD one withdraws the pulses whose logic it clears
(R80). -/
def addSource (src : Source) (until_ : Option Nat) (s : State) : List (Source × Option Nat) :=
  let keep := (liveSources s).filter fun x =>
    x.1 != src && (sourceReach src == .warm || (x.1 != .wdog && x.1 != .cmdWarm))
  keep ++ [(src, until_)]

/-- A release sequence has begun and Heartwood has not started (R82). -/
def releasing (s : State) : Bool := s.rst.phase != .held && s.rst.phase != .started

/-- The state of the release sequence after an assertion: it stops, and then waits for every source (R82); the
governing reach is the broadest since the last completed release (R81). -/
def assertRst (src : Source) (until_ : Option Nat) (s : State) : Rst :=
  { s.rst with
    sources := addSource src until_ s
    cause := s.rst.cause ||| BitVec.ofNat 10 (2 ^ sourceNum src)
    reach := if sourceReach src = .cold ∨ s.rst.reach = some .cold then some .cold else some .warm
    needAll := s.rst.needAll || releasing s
    phase := .held
    phaseAt := s.clk.now }

/-- Assert a source of COLD or WARM reach, as a level or as a pulse of 1,000 ns (R74). In the hold of
R85 every source is ignored. -/
def assertSource (src : Source) (until_ : Option Nat) (s : State) : State :=
  if s.rst.loadFail then s
  else
    let cold := sourceReach src == .cold
    let governed := s.rst.reach == some .cold
    let s1 := noteSet 0x0100 (sourceNum src) { s with rst := assertRst src until_ s }
    let s2 := if cold then { clearCold s1 with sets := s1.sets } else if governed then s1 else clearWarm s1
    let s3 := { s2 with rst := { s2.rst with phase := .held } }
    let s4 := sourceRecord src s3
    if s.rst.phase = .trim then trimAbort 0 (trimWords s) s4 else s4

/-- Assert a pulse of 1,000 ns (R74). -/
def pulseSource (src : Source) (s : State) : State := assertSource src (some (s.clk.now + 1000)) s

/-- Release a source. -/
def releaseSource (src : Source) (s : State) : State :=
  { s with rst := { s.rst with sources := s.rst.sources.filter fun x => x.1 != src } }

/-- A failed start (R93): the count, the record of code 0013h, and the boot-timer source. -/
def failedStart (why : Nat) (s : State) : State :=
  let s1 := { s with
    mram := savePstate { s.mram with fails := s.mram.fails + 1 }
    boot := { s.boot with timerOn := false } }
  let data := [BitVec.ofNat 8 why, BitVec.ofNat 8 s.rst.strapBin, BitVec.ofNat 8 s.boot.lastTried, 0] ++
    toLe 2 s.boot.lastStatus
  pulseSource .bootTimer (recordOnly
    { src := 14, code := 0x0013, index := s1.mram.fails, sev := some 2, data := data } s1)

/-! ### Rows of resets -/

/-- RESET_N (R75): a level held for 1,000 ns asserts or releases the COLD source. A low level of exactly 1,000 ns
is neither less nor longer; the model takes it to assert (DESIGN CHOICE, log entry 82). -/
def execResetN (high : Bool) (ns : Nat) (s : State) : Out :=
  act (s.pow.vaux && decide (1000 ≤ ns) && s.rst.resetN != high) s
    (let t := { s with rst := { s.rst with resetN := high } }
     if high then releaseSource .resetN t else assertSource .resetN none t)

/-- WRST_N (R75): a level held for 1,000 ns asserts or releases the WARM source; exactly 1,000 ns low asserts
(DESIGN CHOICE, log entry 82). -/
def execWrstN (high : Bool) (ns : Nat) (s : State) : Out :=
  act (s.pow.vaux && decide (1000 ≤ ns) && s.rst.wrstN != high) s
    (let t := { s with rst := { s.rst with wrstN := high } }
     if high then releaseSource .wrstN t else assertSource .wrstN none t)

/-- PERST_N resets the PCIe endpoint and its link only (R76). The endpoint starts at the later of PLL lock and
PERST_N high (R91). -/
def execPerstN (high : Bool) (s : State) : Out :=
  let at_ := if !high || !pllLocked s then none else s.rst.pcieAt.orElse fun _ => some s.clk.now
  .next { s with rst := { s.rst with perstN := high, pcieAt := at_ } }

/-- BOOT_TIMER_EXPIRY (R93): 5 s after Heartwood start without boot-complete. -/
def execBootTimerExpiry (s : State) : Out :=
  act (s.rst.phase == .started && s.boot.timerOn && !s.boot.done &&
      decide (s.boot.startAt + 5000000000 ≤ s.clk.now)) s
    (failedStart 0 s)

/-- WATCHDOG_EXPIRY (R74): Heartwood did not service its watchdog for 100 ms, so that it has run for at least that
time. When Heartwood last serviced it is inside Heartwood, and the row says that it did not (DESIGN CHOICE, log
entry 83). -/
def execWatchdogExpiry (s : State) : Out :=
  act (s.rst.phase == .started && decide (s.boot.startAt + 100000000 ≤ s.clk.now)) s (pulseSource .wdog s)

/-- Every source of the governing reach is released, and its release sequence begins (R81, R91). A COLD sequence counts a
session (R506), takes a new IV epoch (R440), and latches the inhibit where OUTINH_N is low (R537). A sequence that runs
from its first step again does so too, one that waited for its sources after a CRC mismatch among them: R82, R83 and R506
do not say whether it is a sequence of its own (DESIGN CHOICE, log entry 37). A WARM release opens a resigned gate again
(R457). -/
def releaseCold (s : State) : State :=
  { s with
    rst := { s.rst with sources := liveSources s, needAll := false, phase := .trim, phaseAt := s.clk.now }
    mram := savePstate { s.mram with
      session := (s.mram.session + 1) % 2 ^ 32
      epoch := min (s.mram.epoch + 1) 0xFFFFFF }
    key := { s.key with tagCount := 0 }
    ecc := { s.ecc with lapsFrom := s.clk.now }
    out := { s.out with inh := s.out.pinLow, inhDue := s.out.pinLow } }

/-- The release of a WARM reset (R91). -/
def releaseWarm (s : State) : State :=
  applyPins { s with
    rst := { s.rst with sources := [], needAll := false, phase := .warmHold, phaseAt := s.clk.now }
    gft := { s.gft with resignAt := none } }

/-- RESET_RELEASE (R81, R82, R84, R91). A sequence that was stopped, or whose load was aborted, starts again only
once every source is released. -/
def execResetRelease (s : State) : Out :=
  let live := liveSources s
  let cold := s.rst.reach == some .cold
  let ready := if cold && !s.rst.needAll then live.all fun x => sourceReach x.1 == .warm else live.isEmpty
  act (s.pow.vaux && !s.rst.loadFail && !s.rst.strapInvalid && s.rst.phase == .held && s.rst.reach.isSome && ready) s
    (if cold then releaseCold s else releaseWarm s)

/-! ### Rows of supplies, clocks and temperature -/

/-- The copy that VAUX rise uses: the higher generation among those whose CRC matches (R505). -/
def bestCopy (m : Mram) : Option PCopy :=
  if m.c0.ok && (!m.c1.ok || decide (m.c1.gen ≤ m.c0.gen)) then some m.c0
  else if m.c1.ok then some m.c1
  else none

/-- The number of the newest trusted record of the MRAM ring; 0 when there is none (R505). -/
def newestTrusted (l : List LogRec) : Nat :=
  match (l.filter fun r => r.sound).getLast? with
  | some r => r.num
  | none => 0

/-- The persistent state at VAUX rise, with the new power cycle counted (R505, R506). -/
def loadPstate (s : State) : Mram :=
  match bestCopy s.mram with
  | some c =>
    { s.mram with
      opsec := c.opsec, pcyc := (c.pcyc + 1) % 2 ^ 32, session := c.session, fails := c.fails
      saves := c.saves, epoch := c.epoch, newest := c.newest, slot := c.slot, repairs := c.repairs }
  | none =>
    { s.mram with
      opsec := 0, pcyc := 1, session := 0, fails := 0, saves := 2 ^ 32 - 1, epoch := 0xFFFFFF
      repairs := [], newest := newestTrusted s.log.mram }

/-- VAUX_RISE (R52, R75, R78, R505, R506, R512): the island starts, with its pin filters; the power-up record is the
first one, and the power-on source, asserted from the start, has its record after it. A trip does not outlast the loss
of VAUX: no rule says whether it does (DESIGN CHOICE, log entry 107). -/
def execVauxRise (s : State) : Out :=
  act (!s.pow.vaux) s
    (let m := loadPstate s
     let s1 := clearCold { s with
       clk := {}
       pow := { s.pow with vaux := true, risen := true, lastGood := 0, refAt := 0, trip := false }
       rst := { perstN := s.rst.perstN }
       mram := m
       log := { mram := s.log.mram, newest := numJump m.newest, flushed := m.newest
                pstateBad := (bestCopy s.mram).isNone } }
     sourceRecord .porRail (acceptWaiting (recordOnly { src := 14, code := 0x0936, sev := some 3 } s1)))

/-- The order in which the rails after VAUX must rise (R50). -/
def railOrder : List Rail := [.vio33, .vio, .vsram, .vcore, .vsd, .vsdh, .vdram1, .vdram2]

/-- Every rail ahead of `r` in R50 is good. A rail that rises while VAUX is down breaks the order only where VAUX has not
been good before it: else the module is held, whatever the rail does (R52). -/
def railsAhead (r : Rail) (s : State) : Bool :=
  s.pow.risen && (railOrder.takeWhile (· != r)).all fun x => s.pow.rails.contains x

/-- RAIL_GOOD (R48, R52): a rail is good, and the 2 ms count starts again. A rise that breaks the order
of R50 has no defined result (R51). -/
def execRailGood (r : Rail) (s : State) : Out :=
  if railsAhead r s then
    .next { s with pow := { s.pow with
      rails := if s.pow.rails.contains r then s.pow.rails else s.pow.rails ++ [r]
      lastGood := s.clk.now } }
  else .fault .supplyOrder

/-- All nine rails are good (R52). -/
def allGood (s : State) : Bool := s.pow.vaux && railOrder.all fun r => s.pow.rails.contains r

/-- POR_RELEASE (R52): 2 ms after the latest rise, with RESET_N high, REFCLK in range and no
temperature trip. -/
def execPorRelease (s : State) : Out :=
  act (allGood s && s.rst.resetN && s.pow.refclk && !s.pow.trip &&
      decide (s.pow.lastGood + 2000000 ≤ s.clk.now)) s
    (releaseSource .porTemp (releaseSource .porRefclk (releaseSource .porRail s)))

/-- RAIL_FAULT (R53): power-on reset, and the logbook flush, while VAUX is good. R51 defines no result of a collapse
of several rails that breaks its order; the model takes each rail of it as a fault of one rail (DESIGN CHOICE, log
entry 84). -/
def execRailFault (r : Rail) (s : State) : Out :=
  let left := s.pow.rails.filter (· != r)
  let t := { s with pow := { s.pow with rails := left, risen := s.pow.vaux || (s.pow.risen && !left.isEmpty) } }
  act (s.pow.rails.contains r) s (if s.pow.vaux then startFlush (assertSource .porRail none t) else t)

/-- VAUX_FAULT (R52, R53): the island stops, the module is held in power-on reset, and the volatile
buffer is lost. R511 bounds the time of a flush and does not say which records an unfinished one has copied; the
model has copied none of them (DESIGN CHOICE, log entry 85). -/
def execVauxFault (s : State) : Out :=
  act s.pow.vaux s
    (let t := clearCold s
     { t with
       clk := {}
       pow := { t.pow with vaux := false }
       rst := { perstN := s.rst.perstN }
       log := { mram := s.log.mram, flushed := s.log.flushed, newest := s.log.newest } })

/-- REFCLK_LOSS (R60): power-on reset, and the flush. A loss while REFCLK is not back yet is a break: the 10 ms count
again. -/
def execRefclkLoss (s : State) : Out :=
  act s.pow.vaux s
    (let t := { s with pow := { s.pow with refclk := false, refAt := s.clk.now } }
     if s.pow.refclk then startFlush (assertSource .porRefclk none t) else t)

/-- REFCLK_RETURN (R60): REFCLK has stayed within range for 10 ms, so that it was lost at least as long ago. -/
def execRefclkReturn (s : State) : Out :=
  act (s.pow.vaux && !s.pow.refclk && decide (s.pow.refAt + 10000000 ≤ s.clk.now)) s
    { s with pow := { s.pow with refclk := true } }

/-- A temperature word is at or above `t` sixteenths of a degree (two's complement; 8000h is no
reading). -/
def atLeast (x : BitVec 16) (t : Int) : Bool := decide (t ≤ x.toInt)

/-- TEMPERATURE_TRIP (R72): a die at 165 °C or more starts the flush and a power-on reset, in every reset too. -/
def execTemperatureTrip (s : State) : Out :=
  act (s.pow.vaux && !s.pow.trip && (atLeast s.pow.ssdNow 2640 || atLeast s.pow.cmpNow 2640)) s
    (startFlush (assertSource .porTemp none { s with pow := { s.pow with trip := true } }))

/-- TJ_CONVERSION (R69 to R72): `CFG_TJ`, the alarm and its event, and the end of a trip below 140 °C. -/
def execTjConversion (ssd cmp : BitVec 16) (s : State) : Out :=
  let cold := s.rst.phase == .held && s.rst.reach == some .cold
  let hot := decide (s.pow.limit.toInt ≤ ssd.toInt) || decide (s.pow.limit.toInt ≤ cmp.toInt)
  let trip := s.pow.trip && (atLeast ssd 2240 || atLeast cmp 2240)
  let s1 := { s with pow := { s.pow with trip := trip, ssdNow := ssd, cmpNow := cmp } }
  let s2 := { (if hot then noteSet 0x0044 31 s1 else s1) with
    pow := { s1.pow with tjSsd := ssd, tjCmp := cmp, alm := s.pow.alm || hot } }
  act s.pow.vaux s
    (if cold then s1
     else if hot && !s.pow.alm then
       raise { src := 0, code := 0x0004, sev := some 2, data := toLe 2 ssd.toNat ++ toLe 2 cmp.toNat } s2
     else s2)

/-- PFAIL_N (R55, R57, R512): low for 1,000 ns asserts power-fail; its POWER record is accepted and the
flush that includes it starts. A low level of exactly 1,000 ns is neither less nor longer; the model takes it to
assert (DESIGN CHOICE, log entry 82). -/
def execPfailN (ns : Nat) (s : State) : Out :=
  act (s.pow.vaux && decide (1000 ≤ ns)) s
    (startFlush (acceptWaiting (raise { src := 14, code := 0x0935, sev := some 3 } s)))

end Sys2Proof.Machine
end

