-- ==== Sys2Proof/Machine/Partitions.lean ====
section
/-! DEFINITION. Partitions: creation, the enable rule, reset, destruction, quota, freeze and thaw
(R173 to R178, R200 to R204, R209, R210). -/

namespace Sys2Proof.Machine

open Sys2Proof

/-- Partition `p`, if it exists. -/
def partOf (p : Nat) (s : State) : Option Part := look s.cnp.parts p

/-- Partition `p` exists. -/
def partExists (p : Nat) (s : State) : Bool := (partOf p s).isSome

/-- The lifecycle state of `p`; none for DESTROYED. -/
def stateOf (p : Nat) (s : State) : Option PState := (partOf p s).map fun x => x.st

/-- The enable state of `p` as R173 reads it: FROZEN and MIGRATING read OFF. -/
def partEnable (x : Part) : Enable :=
  match x.st with
  | .frozen | .migrating | .created => .off
  | _ => x.en

/-- The active partitions of triad `t`. -/
def partsOn (t : Nat) (s : State) : List (Nat × Part) := s.cnp.parts.filter fun e => e.2.triad == t

/-! ### The partition record (R176, R177) -/

/-- The fields of a partition record (R176). -/
structure PartRec where
  triad : Nat
  prio : Nat
  quota : Nat
  dirty : Nat
  entry : Nat
  loadSrc : Nat
  loadLen : Nat
  loadDst : Nat
  largeBase : Nat
  largeSize : Nat
deriving DecidableEq, Repr

/-- Read a partition record (R176). -/
def readRec (b : Bytes) : PartRec :=
  { triad := wordAt b 0 % 16, prio := bits (wordAt b 0) 6 4, quota := wordAt b 1, dirty := wordAt b 2
    entry := dwordAt b 4, loadSrc := dwordAt b 6, loadLen := wordAt b 8, loadDst := dwordAt b 10
    largeBase := dwordAt b 12, largeSize := wordAt b 14 }

/-- Every field lies in its range, reserved words are 0, and the load does not overlap the large region
(R176, R177). -/
def recRanges (b : Bytes) : Bool :=
  let r := readRec b
  let large := r.largeSize * 2097152
  wordAt b 0 / 128 == 0 && wordAt b 3 == 0 && wordAt b 9 == 0 && wordAt b 11 / 2 ^ 32 == 0 &&
    wordAt b 15 == 0 && decide (1 ≤ r.dirty) && decide (r.dirty ≤ 16384) &&
    decide (r.loadLen ≤ 917504) && r.loadDst % 4096 == 0 && decide (r.loadDst + r.loadLen ≤ 2 ^ 48) &&
    r.largeBase % 2097152 == 0 && decide (r.largeSize ≤ 8192) && decide (r.largeBase + large ≤ 2 ^ 48) &&
    (r.largeSize == 0 || r.loadLen == 0 || decide (r.loadDst + r.loadLen ≤ r.largeBase) ||
      decide (r.largeBase + large ≤ r.loadDst))

/-- Pages of 4 KiB that `n` bytes take. -/
def pagesFor (n : Nat) : Nat := (n + 4095) / 4096

/-- The sum of `DIRTY` over every partition that exists (R177). -/
def dirtySum (s : State) : Nat := s.cnp.parts.foldl (fun n e => n + e.2.dirty) 0

/-- The checks of R177 on a record, in the order of R146, without the authority on `TRIAD`. -/
def recChecks (b : Bytes) (s : State) : List (Bool × Nat) :=
  let r := readRec b
  [(recRanges b, stBadArg), (r.triad != s.cnp.spare, stBadArg),
   (decide (dirtySum s + r.dirty ≤ 65536), stNoResource),
   (decide (pagesFor r.loadLen ≤ r.quota), stOverQuota),
   (decide (pagesFor r.loadLen ≤ framesLeft s), stNoResource)]

/-- The load of a record: from P0's memory, from an offset into the parameter area of BAR2, or from what follows the record in a
forwarded command (R176; log entry 16). -/
def loadBytes (c : Cmd) (r : PartRec) (s : State) : Bytes :=
  if c.ring = Config.ringP0 then Memory.read s.mem (partBase 0 + r.loadSrc) r.loadLen
  else if c.ring = Config.ringHost then Memory.read s.mem (Config.bar2Base + 0x20000 + r.loadSrc) r.loadLen
  else padTo r.loadLen (c.block.drop 64)

/-- The load's source lies where the ring's owner may have it (R145, R176). -/
def loadPlace (c : Cmd) (r : PartRec) (s : State) : Bool :=
  let at_ := if c.ring = Config.ringHost then 0x20000 + r.loadSrc else r.loadSrc
  r.loadLen == 0 || (decide (at_ < 2 ^ 64) &&
    bufferAt { c with desc := { c.desc with
      w2 := BitVec.ofNat 32 at_, w3 := BitVec.ofNat 32 (at_ / 2 ^ 32) } } r.loadLen s)

/-- The registers of the entry state in the order of R562: `pc` = `ENTRY`, `a0` = p, `a1` = the number
of PARTITION resets, `vsstatus` at its reset value 2_0000_0000h (UXL = 64), everything else 0 (R178,
R562; log entry 17). -/
def entryCtx (entry p resets : Nat) : Ctx :=
  (List.range 75).map fun i =>
    if i = 0 then entry else if i = 10 then p else if i = 11 then resets
    else if i = 65 then 0x200000000 else 0

/-- Put the load into pages of partition `p`, freshly mapped where they are not mapped already (R177, R178). -/
def putLoad (p dst : Nat) (load : Bytes) (s : State) : State :=
  let x := (partOf p s).getD {}
  let all := (List.range (pagesFor load.length)).map fun i => dst / 4096 + i
  let new := all.filter fun k => !isMapped x (k * 4096)
  { s with
    mem := Memory.write s.mem (partBase p + dst) load
    pgk := takeFrames new.length (if new.isEmpty then s else pgkAsk 16 s).pgk
    cnp := { s.cnp with
      parts := alter s.cnp.parts p fun x => { x with pages := new.foldl (fun t k => put t k 1) x.pages } } }

/-- The partition that a record makes, before its load (R177). -/
def newPart (p : Nat) (r : PartRec) (load : Bytes) : Part :=
  { home := r.triad, triad := r.triad, prio := r.prio, quota := r.quota, dirty := r.dirty
    entry := r.entry, loadSrc := r.loadSrc, loadLen := r.loadLen, loadDst := r.loadDst, load := load
    largeBase := r.largeBase, largeSize := r.largeSize
    ctx := entryCtx r.entry p 0, markCtx := entryCtx r.entry p 0 }

/-- Create partition `p` (R177). -/
def createPart (p : Nat) (r : PartRec) (load : Bytes) (s : State) : State :=
  putLoad p r.loadDst load (setPart p (newPart p r load) s)

/-- `PART_CREATE` (R157, R177). -/
def judgePartCreate (c : Cmd) (s : State) : Nat :=
  let p := argPart c
  judged c s ([((readRec c.block).triad != 0, stDenied), (p != 0, stBadArg), (inputBlock c 64 s, stBadArg),
    (recRanges c.block, stBadArg), ((readRec c.block).triad != s.cnp.spare, stBadArg),
    (loadPlace c (readRec c.block) s, stBadArg), (!partExists p s, stWrongState)] ++ recChecks c.block s)

def effPartCreate (c : Cmd) (s : State) : Res :=
  let r := readRec c.block
  res (createPart (argPart c) r (loadBytes c r s) s) stOk

/-- PART_CREATE (R177). -/
def execPartCreate (c : Cmd) (s : State) : Out := runNow 0x0101 judgePartCreate effPartCreate c s

/-! ### Creation of P0 (R144, R175) -/

/-- The pages of ring 2,048's regions, its event line and its event ring; they count against no quota
(R144, R175). -/
def p0RingPages : Tbl Nat :=
  (List.range 5).map (fun i => (0x10 + i, 0)) ++ (List.range 16).map fun i => (0x20 + i, 0)

/-- P0 from an accepted image: READY and ON on T1 (R175). -/
def createP0 (quota dirty entry : Nat) (body : Bytes) (s : State) : State :=
  let r : PartRec :=
    { triad := 1, prio := 7, quota := quota, dirty := if dirty = 0 then 128 else dirty, entry := entry
      loadSrc := 0, loadLen := body.length, loadDst := 0x01000000, largeBase := 0, largeSize := 0 }
  let x := newPart 0 r body
  let s1 := setPart 0 { x with st := .ready, en := .on, pages := p0RingPages } s
  let s2 := putLoad 0 0x01000000 body s1
  writeShadow Config.ringP0
    { s2 with cnp := { s2.cnp with sched := [{ part := 0, start := 0, len := 90000 }] } }

/-! ### PART_START and PART_STOP (R149, R174) -/

/-- `PART_START` (R157): the enable rule, not in FROZEN or MIGRATING. -/
def judgePartStart (c : Cmd) (s : State) : Nat :=
  let st := stateOf (argPart c) s
  judged c s [(noBlock c, stBadArg), (st.isSome, stNotFound),
    (st != some .frozen && st != some .migrating, stWrongState)]

def effPartStart (c : Cmd) (s : State) : Res :=
  let p := argPart c
  match partOf p s with
  | none => res s stNotFound
  | some x =>
    let r := enableRule (partEnable x) x.held
    res (setPart p { x with
      en := r.1, held := r.2.1, st := if x.st == .created then .ready else x.st } s) r.2.2

/-- PART_START (R174). -/
def execPartStart (c : Cmd) (s : State) : Out := runNow 0x0102 judgePartStart effPartStart c s

/-- A ring of binding 2 that enters STOPPING completes every unfilled RECV with OK and 0, which is below `LENGTH`
(R109, R274), but not one that a save withdrew (R210). -/
def endRecvs (r : Nat) (x : Ring) (l : List JRec) : List JRec :=
  l.map fun e =>
    if x.binding == 2 && x.st == .on && e.ring == r && e.gen == x.gen && e.stage != .finished && !e.saved &&
        opOf e.desc == 1 then
      { e with stage := .finished, status := stOk, result := some 0, cflags := 2 }
    else e

/-- Disable ring `r` by the rule of R149, and rewrite its shadow line (R114). -/
def disableRing (r : Nat) (s : State) : State :=
  match look s.rng.rings r with
  | none => s
  | some x =>
    let d := disableRule x.st x.held
    let y := { x with st := d.1, held := d.2, inRound := x.inRound && x.st != .on }
    let gone := fun (e : JRec) => x.binding == 2 && x.st == .on && e.ring == r
    ringVis r x.shadow (shadowBytes y)
      { s with rng := { s.rng with
          rings := put s.rng.rings r y, jrnl := endRecvs r x s.rng.jrnl
          orphans := s.rng.orphans.filter fun e => !gone e } }

/-- Disable each ring of a list that is ON (R174). -/
def disableRings : List Nat → State → State
  | [], s => s
  | r :: rs, s => disableRings rs (disableRing r s)

/-- The ON rings of partition `p`. -/
def onRings (p : Nat) (s : State) : List Nat :=
  (ringsOf p s).filter fun r => match look s.rng.rings r with
    | some x => x.st == .on
    | none => false

def judgePartStop (c : Cmd) (s : State) : Nat :=
  judged c s [(notOwnP0 c, stDenied), (noBlock c, stBadArg), (partExists (argPart c) s, stNotFound)]

/-- `PART_STOP`: the disable rule and its rings; in FROZEN or MIGRATING the resume state becomes OFF
(R174). -/
def effPartStop (c : Cmd) (s : State) : Res :=
  let p := argPart c
  match partOf p s with
  | none => res s stNotFound
  | some x =>
    if x.st == .frozen || x.st == .migrating then res (setPart p { x with resume := .off } s) stOk
    else
      let d := disableRule (partEnable x) x.held
      res (disableRings (onRings p s) (setPart p { x with en := d.1, held := d.2 } s)) stOk

/-- PART_STOP (R174). -/
def execPartStop (c : Cmd) (s : State) : Out := runNow 0x0103 judgePartStop effPartStop c s

/-! ### PARTITION reset (R77, R120, R151, R178) -/

/-- Pages of the ring regions of partition `p` (R101). -/
def ringPages (p : Nat) (s : State) : List Nat :=
  (ringsOf p s).flatMap fun r => match look s.rng.rings r with
    | none => []
    | some x =>
      let pg (a n : Nat) : List Nat := (List.range (pagesFor (a % 4096 + n))).map (a / 4096 + ·)
      pg x.submit (ringSize x * 32) ++ pg x.compl (ringSize x * 16) ++ pg x.doorbell 64 ++ pg x.shadow 64

/-- A stream's or subscription's destinations without those of partition `p` (R347, R349). -/
def keepDests (p : Nat) (l : List Dest) : List Dest := l.filter fun d => d.part != p

/-- A destination of stream or subscription `n` is removed: bit 5 of `SV_EVT` and its event (R349, R357,
R361). -/
def destGone (goose : Bool) (n : Nat) (s : State) : State :=
  raise (if goose then { src := 4, code := 0x0314, index := n } else { src := 4, code := 0x0305, kind := 3, index := n })
    { noteSet 0x1308 5 s with sv := { s.sv with evt := latch s.sv.evt 5, lastIndex := n } }

/-- `destGone` for each of a list. -/
def destsGone (goose : Bool) : List Nat → State → State
  | [], s => s
  | n :: ns, s => destsGone goose ns (destGone goose n s)

/-- Remove every destination of partition `p`, with event 0305h for each stream and 0314h for each
subscription that loses one (R347, R349, R357). -/
def removeDests (p : Nat) (s : State) : State :=
  let hit (l : List Dest) : Bool := l.any fun d => d.part == p
  let str := (s.sv.streams.filter fun e => hit e.2.dests).map Prod.fst
  let sub := (s.gse.subs.filter fun e => hit e.2.dests).map Prod.fst
  destsGone true sub (destsGone false str { s with
    sv := { s.sv with
      streams := s.sv.streams.map fun e => (e.1, { e.2 with dests := keepDests p e.2.dests }) }
    gse := { s.gse with
      subs := s.gse.subs.map fun e => (e.1, { e.2 with dests := keepDests p e.2.dests }) } })

/-- End the run of partition `p`, if it runs, without a save: it is READY. -/
def dropRun (p : Nat) (s : State) : State :=
  { s with cnp := { s.cnp with
    triads := s.cnp.triads.map fun e => match e.2.run with
      | some r => if r.part = p then (e.1, { e.2 with run := none }) else e
      | none => e
    parts := alter s.cnp.parts p fun x => if x.st == .running then { x with st := .ready } else x } }

/-- An entry of the page table holds a page of a list. -/
def holdsPage (keep : List Nat) (e : Nat × Nat) : Bool := keep.any fun k => e.1 ≤ k && decide (k < e.1 + max e.2 1)

/-- The pages of `p` but its ring regions are reclaimed, its ring regions are zeroed and stay mapped
(R178, R204). A 2 MiB page that holds a ring region stays mapped whole. -/
def reclaim (p : Nat) (s : State) : State :=
  match partOf p s with
  | none => s
  | some x =>
    let keep := (if p = 0 then p0RingPages.map Prod.fst else []) ++ ringPages p s
    let kept := x.pages.filter (holdsPage keep)
    let freed := mapped x - kept.foldl (fun n e => n + e.2) 0
    freeFrames freed { s with
      mem := Memory.zero s.mem (partBase p) (2 ^ 48)
      cnp := { s.cnp with parts := put s.cnp.parts p { x with pages := kept } } }

/-- Discard the pre-images of `p` and its dirty state (R178). -/
def dropPre (p : Nat) (s : State) : State :=
  match partOf p s with
  | none => s
  | some x =>
    setPart p { x with pre := [], stored := [], lines := [], dirtyStop := false, heldWrites := []}
      { s with pgk := { s.pgk with undo := s.pgk.undo - x.stored.length } }

/-- A ring at its partition's PARTITION reset: STOPPING reaches OFF at once, and a held enable takes
effect (R151). -/
def ringAtReset (r : Nat) (s : State) : State :=
  match look s.rng.rings r with
  | some x =>
    if x.st == .stopping then
      offEvents 2 r x.held { s with rng := { s.rng with
        rings := put s.rng.rings r { x with st := afterOff x.held, held := false } } }
    else s
  | none => s

/-- Each ring of a list at its partition's reset: its enable state, then its new generation. -/
def ringsAtReset : List Nat → State → State
  | [], s => s
  | r :: rs, s => ringsAtReset rs (newGeneration r (ringAtReset r s))

/-- The rings that follow a partition's reset: its instance rings, and ring 2,048 for P0 (R144). -/
def resetRings (p : Nat) (s : State) : List Nat :=
  ringsOf p s ++ if p = 0 then [Config.ringP0] else []

/-- Context, reset count and enable state after the reset (R151, R178). -/
def resetPart (p : Nat) (s : State) : State :=
  match partOf p s with
  | none => s
  | some x =>
    let n := min (x.resets + 1) 255
    let stop := x.en == .stopping && (x.st == .ready || x.st == .running)
    let s1 := setPart p { x with
      resets := n
      ctx := entryCtx x.entry p n
      markCtx := entryCtx x.entry p n
      instret := 0
      pwake := 0, pwEntry := 0, pfault := 0, trap := none, wakeHeld := [], stale := s.gft.role == .standby && !x.mirror.isEmpty
      current := false, lastTick := false, resetUntil := s.clk.now + 1000
      en := if stop then afterOff x.held else x.en
      held := if stop then false else x.held
      st := if stop then (if x.held then .ready else .created) else x.st } s
    if stop then offEvents 1 p x.held s1 else s1

/-- The record of a PARTITION reset's assertion (R78, R560). -/
def narrowRecord (source target reach : Nat) (s : State) : State :=
  let data := toLe 4 (s.rst.cause.toNat + 2 ^ 16 * s.rst.lastReach) ++ [BitVec.ofNat 8 reach]
  recordOnly { src := 14, code := 0x0010, index := source + 2 ^ 16 * target, sev := some 2, data := data } s

/-- A PARTITION reset of `p` is asserted, for 1,000 ns (R74, R77): it is not dispatched and its rings consume nothing. -/
def partHeld (p : Nat) (s : State) : Bool := ((partOf p s).map fun x => decide (s.clk.now < x.resetUntil)).getD false

/-- Every mapped line of `p` counts as written: a reset changes it, and the next mirror carries it (R178, R466). -/
def soil (p : Nat) (s : State) : State :=
  modPart p (fun x => x.pages.foldl (fun y e => noteLines (e.1 * 4096) (e.2 * 4096) y) x) s

/-- A PARTITION reset of `p` (R77, R119, R120, R122, R151, R178, R347, R435). -/
def partitionReset (p : Nat) (s : State) : State :=
  let load := (partOf p s).map fun x => (x.loadDst, x.load)
  let s1 := narrowRecord 11 p 4 s
  let s2 := reclaim p (soil p (dropPre p (dropRun p s1)))
  let s3 := ringsAtReset (resetRings p s2) s2
  let s4 := match load with
    | some l => soil p (putLoad p l.1 l.2 s3)
    | none => s3
  removeDests p (invalidateBranches (partBranches (some p) s4) (resetPart p s4))

/-- `PART_RESET` (R157): DENIED to P0 for itself, BUSY in MIGRATING. -/
def judgePartReset (c : Cmd) (s : State) : Nat :=
  judged c s [(notOwnP0 c, stDenied), (noBlock c, stBadArg), (partExists (argPart c) s, stNotFound),
    (stateOf (argPart c) s != some .migrating, stBusy)]

def effPartReset (c : Cmd) (s : State) : Res := res (partitionReset (argPart c) s) stOk

/-- PART_RESET (R178). -/
def execPartReset (c : Cmd) (s : State) : Out := runNow 0x0104 judgePartReset effPartReset c s

/-! ### PART_DESTROY, PART_QUOTA (R174, R201, R204) -/

/-- `PART_DESTROY`: OFF and no ring present (R157). -/
def judgePartDestroy (c : Cmd) (s : State) : Nat :=
  let p := argPart c
  judged c s [(notOwnP0 c, stDenied), (noBlock c, stBadArg), (partExists p s, stNotFound),
    ((stateOf p s == some .created || stateOf p s == some .frozen) && (ringsOf p s).isEmpty, stWrongState)]

/-- Partition `p` is gone: its frames go to the scrubber (R204), its keys and destinations with it
(R173, R347); a partition created again has no slot (R177). -/
def destroyPart (p : Nat) (s : State) : State :=
  let n := match partOf p s with
    | some x => mapped x
    | none => 0
  let s1 := dropPre p (dropRun p s)
  let s2 := freeFrames n { s1 with
    mem := Memory.zero s1.mem (partBase p) (2 ^ 48)
    cnp := { s1.cnp with
      parts := del s1.cnp.parts p
      sched := s1.cnp.sched.filter fun e => e.part != p
      wakes := s1.cnp.wakes.filter fun w => w.1 != p } }
  removeDests p (invalidateBranches (partBranches (some p) s2) s2)

def effPartDestroy (c : Cmd) (s : State) : Res := res (destroyPart (argPart c) s) stOk

/-- PART_DESTROY (R174, R204). -/
def execPartDestroy (c : Cmd) (s : State) : Out := runNow 0x0105 judgePartDestroy effPartDestroy c s

def judgePartQuota (c : Cmd) (s : State) : Nat :=
  judged c s [(noBlock c, stBadArg), (partExists (argPart c) s, stNotFound)]

/-- `PART_QUOTA` takes effect at once and unmaps nothing; the result is the pages now mapped (R201). -/
def effPartQuota (c : Cmd) (s : State) : Res :=
  match partOf (argPart c) s with
  | none => res s stNotFound
  | some x => resOk (setPart (argPart c) { x with quota := arg1 c.desc } s) (mapped x)

/-- PART_QUOTA (R201). -/
def execPartQuota (c : Cmd) (s : State) : Out := runNow 0x0106 judgePartQuota effPartQuota c s

/-! ### PART_FREEZE and PART_THAW (R174, R209, R210) -/

/-- `PART_FREEZE` (R157): BUSY in MIGRATING. -/
def judgePartFreeze (c : Cmd) (s : State) : Nat :=
  judged c s [(notOwnP0 c, stDenied), (noBlock c, stBadArg), (partExists (argPart c) s, stNotFound),
    (stateOf (argPart c) s != some .migrating, stBusy)]

/-- The rings of partition `p` leave their service rounds (R124). -/
def outOfRounds (p : Nat) (s : State) : State :=
  { s with rng := { s.rng with rings := s.rng.rings.map fun e =>
      if e.1 < 2048 ∧ e.1 / 8 = p then (e.1, { e.2 with inRound := false }) else e } }

/-- The freeze at its boundary (R209): the enable state is kept as the resume state, and its rings are no longer
eligible (R124); a FROZEN partition does not change. -/
def effPartFreeze (c : Cmd) (s : State) : Res :=
  res (modPart (argPart c) (fun x =>
    if x.st == .frozen || x.st == .migrating then x
    else { x with st := .frozen, resume := partEnable x }) (outOfRounds (argPart c) s)) stOk

/-- PART_FREEZE (R209): waits for its tick boundary. -/
def execPartFreeze (c : Cmd) (s : State) : Out := runAtTick 0x0107 judgePartFreeze c s

def judgePartThaw (c : Cmd) (s : State) : Nat :=
  judged c s [(noBlock c, stBadArg), (partExists (argPart c) s, stNotFound),
    (stateOf (argPart c) s == some .frozen, stWrongState),
    (!(((partOf (argPart c) s).map fun x => x.stranded).getD false), stWrongState)]

/-- Operations that a save withdrew are executed again from their first byte, and complete with `RPL`
(R210). -/
def reExecute (p : Nat) (s : State) : State :=
  { s with rng := { s.rng with
    jrnl := s.rng.jrnl.map fun e =>
      if e.saved && e.ring / 8 == p && e.ring < 2048 then
        { e with saved := false, stage := .waiting, rpl := true }
      else e } }

/-- The thaw at its boundary (R174, R210). -/
def effPartThaw (c : Cmd) (s : State) : Res :=
  let p := argPart c
  res (reExecute p (modPart p (fun x =>
    if x.st == .frozen then
      { x with st := if x.resume == .off then .created else .ready, en := x.resume, lastTick := false }
    else x) s)) stOk

/-- PART_THAW (R174, R210): waits for its tick boundary. -/
def execPartThaw (c : Cmd) (s : State) : Out := runAtTick 0x010A judgePartThaw c s

end Sys2Proof.Machine
end

