-- ==== Sys2Proof/Machine/Canopy.lean ====
section
/-! DEFINITION. Triads, the voter, Canopy's schedule, runs and wakes, Page Keeper's touches and first
stores (R184 to R202, R205). -/

namespace Sys2Proof.Machine

open Sys2Proof

/-! ### Triads and Canopy's events -/

/-- Triad `t`; an unlisted triad is the COLD one (R213). -/
def triadOf (t : Nat) (s : State) : Triad := lookD s.cnp.triads t {}

/-- Set triad `t`. -/
def setTriad (t : Nat) (x : Triad) (s : State) : State :=
  { s with cnp := { s.cnp with triads := put s.cnp.triads t x } }

/-- Set a bit of `CNP_EVT` with its triad and, where one applies, its partition (R215). -/
def cnpLatch (bit t : Nat) (p : Option Nat) (s : State) : State :=
  { noteSet 0x0244 bit s with cnp := { s.cnp with
      evt := latch s.cnp.evt bit
      lastTriad := t
      lastPart := p.getD s.cnp.lastPart } }

/-- Raise an event of Canopy or the voter. -/
def cnpEvent (code kind index : Nat) (sev : Option Nat) (s : State) : State :=
  raise { src := 2, code := code, kind := kind, index := index, sev := sev } s

/-- Number of a channel: 0 A, 1 B, 2 C. -/
def chanNum : Chan → Nat
  | .A => 0
  | .B => 1
  | .C => 2

/-- Channels in the order A, B, C. -/
def chanSort (l : List Chan) : List Chan := [.A, .B, .C].filter fun c => l.contains c

/-- Channel `c` of a triad is retired: isolated three times since the last COLD reset (R189). -/
def retired (x : Triad) (c : Chan) : Bool := decide (3 ≤ x.isos.count c)

/-- Event 0103h for each channel of a list (R189). -/
def abandonEach (t : Nat) : List Chan → State → State
  | [], s => s
  | c :: cs, s => abandonEach t cs (cnpEvent 0x0103 0 (t + 16 * chanNum c) none s)

/-- Every rejoin of triad `t` in progress is abandoned (R189). -/
def abandonJoins (t : Nat) (s : State) : State :=
  let x := triadOf t s
  abandonEach t x.joining (setTriad t { x with joining := [] } s)

/-- The operations whose payload vote is open on triad `t` (R108, R129). -/
def openPayloads (t : Nat) (s : State) : List (Nat × Word) :=
  s.cnp.votes.filterMap fun v =>
    match v.triad == t && v.passed.isNone, v.copies.head? with
    | true, some (_, .payload r n _) => some (r, n)
    | _, _ => none

/-- A consumed operation with an open payload vote is replayed from its first byte with `RPL` (R129), or
ends with VOTE_LOST where fewer than two copies remain (R132). -/
def replayPayloads (few : Bool) : List (Nat × Word) → State → State
  | [], s => s
  | e :: es, s =>
    replayPayloads few es
      (if few then payloadLost e.1 e.2 s
       else modEntry e.1 (genOf e.1 s) e.2 (fun j => { j with rpl := true }) s)

/-- The voter ignores channel `c` of triad `t`: its copies leave the open votes; payload votes that
keep fewer than two channels are gone, and so are open votes that no other channel had reached (R132, R187). -/
def dropCopies (t : Nat) (c : Chan) (few : Bool) (s : State) : State :=
  let isPayload (v : Vote) : Bool := match v.copies.head? with
    | some (_, .payload _ _ _) => true
    | _ => false
  { s with cnp := { s.cnp with
    votes := ((s.cnp.votes.filter fun v => !(few && v.triad == t && v.passed.isNone && isPayload v)).map fun v =>
      if v.triad = t then { v with copies := v.copies.filter fun k => k.1 != c } else v).filter fun v =>
        v.passed.isSome || !v.copies.isEmpty } }

/-- Channel `c` of triad `t` is isolated with cause 0 MISMATCH, 1 LATE, 2 LANE or 3 ECC (R187, R494). -/
def isolate (t cause : Nat) (c : Chan) (s : State) : State :=
  let x := triadOf t s
  if x.chans.contains c then
    let few := decide (x.chans.length ≤ 2)
    let s1 := replayPayloads few (openPayloads t s)
      (dropCopies t c few (setTriad t { x with chans := x.chans.filter (· != c), isos := x.isos ++ [c] } s))
    abandonJoins t (cnpEvent 0x0101 0 (t + 16 * chanNum c + 256 * cause) (some 2) (cnpLatch 0 t none s1))
  else if x.joining.contains c then abandonJoins t s
  else s

/-- Channel `c` of every triad of a list is isolated with cause LANE (R188). -/
def isolateLane (c : Chan) : List Nat → State → State
  | [], s => s
  | t :: ts, s => isolateLane c ts (isolate t 2 c s)

/-- A lane leaves service (R188); it returns only at the next COLD reset. -/
def laneLeaves (c : Chan) (s : State) : State :=
  if s.cnp.lanes.contains c then
    isolateLane c (List.range 16) { s with cnp := { s.cnp with lanes := s.cnp.lanes.filter (· != c) } }
  else s

/-- Isolate each channel of a list. -/
def isolateAll (t cause : Nat) : List Chan → State → State
  | [], s => s
  | c :: cs, s => isolateAll t cause cs (isolate t cause c s)

/-- An active module whose partner is paired resigns: the gate closes, and RESIGN leaves on every lane
(R452, R457). -/
def resign (s : State) : State :=
  if activePaired s && s.gft.resignAt.isNone then
    gftSendAll .resign (applyPins { s with gft := { s.gft with resignAt := some s.clk.now } })
  else s

/-! ### The end of a run (R183, R184, R195) -/

/-- Code of `pslot.KIND` (R182). -/
def runKind : RunKind → Nat
  | .slot => 1
  | .wake => 2
  | .catchup => 3
  | .refresh => 4

/-- Code of a run's end in a trace record (R547); a refresh has none, so it is a free value. -/
def runEndCode (why : RunEnd) (s : State) : Nat :=
  match why with
  | .slot => 0
  | .yield => 1
  | .budget => 2
  | .tail => 3
  | .preempt => 4
  | .dirty => 5
  | .move => 6
  | .refresh => Config.freeValue s.free % 16

/-- ns that a run has lasted. -/
def elapsed (r : Run) (s : State) : Nat := s.clk.frc - r.since

/-- The run-end event: an OSN of source 2 and its trace record (R30, R547). -/
def traceEnd (t : Nat) (r : Run) (why : RunEnd) (s : State) : State :=
  let data := r.part % 256 + 2 ^ 8 * t + 2 ^ 12 * runEndCode why s + 2 ^ 32 * (elapsed r s % 2 ^ 32)
  let rec_ : TrRec :=
    { type := 2, src := 2, osn := nextOsn s, frc := s.clk.frc, data := BitVec.ofNat 64 data }
  grant 2 (trace (some r.part) rec_ { s with free := if why = .refresh then s.free + 1 else s.free })

/-- The common retired-instruction count: the highest among the stopped channels (R184). -/
def alignCount (counts : List Nat) : Nat := counts.foldl max 0

/-- The saved context, whose last value is `instret` at the common count (R184, R562). -/
def alignCtx (counts : List Nat) (ctx : Ctx) : Ctx := (ctx.take 74) ++ [alignCount counts]

/-- A place goes into a list of places that is in the order of their slots' offsets. -/
def insertSlot (sched : List Slot) (i : Nat) : List Nat → List Nat
  | [] => [i]
  | j :: js =>
    let at_ (k : Nat) : Nat := ((sched[k]?).map fun e => e.start).getD 0
    if at_ i < at_ j then i :: j :: js else j :: insertSlot sched i js

/-- ns since the tick began. -/
def tickOffset (s : State) : Nat := lineNow s - s.cnp.tickStart

/-- The slot of a list of places that is active at offset `off`, each slot starting at the later of its offset and
the end of the one before it, which was at `from_` (R190 step 4); it is answered with the start it has. -/
def restSlot (sched : List Slot) (off : Nat) : Nat → List Nat → Option (Nat × Slot)
  | _, [] => none
  | from_, i :: is =>
    match sched[i]? with
    | none => restSlot sched off from_ is
    | some e =>
      let at_ := max e.start from_
      if off < at_ then none
      else if off < at_ + e.len then some (i, { e with start := at_ })
      else restSlot sched off (at_ + e.len) is

/-- The slot that is active on triad `t` now, with its place in the schedule (R195); after a move the slots that
still run follow one another (R190). -/
def activeSlot (t : Nat) (s : State) : Option (Nat × Slot) :=
  let off := tickOffset s
  match (triadOf t s).rest with
  | some l => restSlot s.cnp.sched off (triadOf t s).slotFrom l
  | none =>
    (s.cnp.sched.zipIdx.find? fun e =>
      e.1.start ≤ off && decide (off < e.1.start + e.1.len) &&
        ((partOf e.1.part s).map fun x => x.triad) == some t).map fun e => (e.2, e.1)

/-- The slot-end signature: CRC-64 over the 75 values of 8 bytes (R562). -/
def sigOf (ctx : Ctx) : BitVec 64 := BitVec.ofNat 64 (crc64 (ctx.flatMap (toLe 8)))

/-- What the end of a run makes of its partition: READY, its context saved, its wake budget charged
(R174, R184, R197); a woken partition that is preempted stays woken (log entry 19). -/
def afterRun (r : Run) (why : RunEnd) (saved : Option (List Nat × Ctx)) (used : Nat) (x : Part) : Part :=
  { x with
    st := if x.st == .running then .ready else x.st
    ctx := match saved with
      | some c => alignCtx c.1 c.2
      | none => x.ctx
    instret := match saved with
      | some c => alignCount c.1
      | none => x.instret
    sig := match saved with
      | some c => sigOf (alignCtx c.1 c.2)
      | none => x.sig
    left := if r.base == .wake then x.left - used else x.left
    dirtyStop := x.dirtyStop || why == .dirty
    wakeHeld := if why == .preempt && r.base == .wake then x.wakeHeld ++ [(6, 64)] else x.wakeHeld }

/-- The slot that a run yields. -/
def yieldedSlot (r : Run) (why : RunEnd) (slot : Option (Nat × Slot)) : List Nat :=
  match slot with
  | some i => if why == .yield && i.2.part == r.part then [i.1] else []
  | none => []

/-- What the end of a run at offset `off` of the tick makes of its triad: after a catch-up run, or a slot that was
yielded, the next of the remaining slots starts no earlier (R190). -/
def afterRunTriad (r : Run) (why : RunEnd) (slot : Option (Nat × Slot)) (used off : Nat) (x : Triad) : Triad :=
  let gone := yieldedSlot r why slot
  { x with
    run := none
    yielded := x.yielded ++ gone
    rest := x.rest.map fun l => l.filter fun i => !gone.contains i
    slotFrom := if r.base == .catchup || !gone.isEmpty then off else x.slotFrom
    refresh := if why == .refresh then some { r with kind := .refresh, grant := r.grant - used } else none }

/-- A catch-up run of a re-seed that the tail ends leaves its partition STALE (R476 step 4). -/
def lateCatchup (r : Run) (why : RunEnd) (s : State) (x : Part) : Part :=
  if why == .tail && r.base == .catchup && s.gft.role == .standby && !x.mirror.isEmpty then
    { x with stale := true, current := false }
  else x

/-- The run on triad `t` ends (R195): the context is saved, the held writes are applied (R183). -/
def endRun (t : Nat) (why : RunEnd) (saved : Option (List Nat × Ctx)) (s : State) : State :=
  match (triadOf t s).run with
  | none => s
  | some r =>
    let used := elapsed r s
    let slot := activeSlot t s
    let s1 := traceEnd t r why s
    let s2 := setTriad t (afterRunTriad r why slot used (tickOffset s) (triadOf t s1)) s1
    flushHeld r.part (modPart r.part (fun x => lateCatchup r why s (afterRun r why saved used x)) s2)

/-! ### Schedules, budgets and wake bindings (R193 to R197) -/

/-- Two slots do not overlap. -/
def apart (a b : Slot) : Bool := a.start + a.len ≤ b.start || b.start + b.len ≤ a.start

/-- No two slots of a list overlap. -/
def noOverlap : List Slot → Bool
  | [] => true
  | a :: r => r.all (apart a) && noOverlap r

/-- The wake time that higher-priority partitions of a triad may take from a slot (R194). -/
def taken (parts : List (Nat × Part)) (prio : Nat) : Nat :=
  (parts.filter fun e => e.2.budget != 0 && decide (prio < e.2.prio)).foldl (fun n e => n + e.2.budget + 800) 0

/-- The sum of the lengths of slots. -/
def slotSum (l : List Slot) : Nat := l.foldl (fun n e => n + e.len) 0

/-- The three conditions of R194 for one triad. -/
def fitsTriad (u : Nat) (parts : Tbl Part) (sched : List Slot) (t : Nat) : Bool :=
  let mine := parts.filter fun e => e.2.triad == t
  let slots := sched.filter fun e => mine.any fun m => m.1 == e.part
  let prio (p : Nat) : Nat := ((look parts p).map fun x => x.prio).getD 0
  let need (e : Nat × Part) : Nat :=
    slotSum (slots.filter fun x => x.part == e.1) + e.2.budget + 5000 + 100 * e.2.dirty
  noOverlap slots && slots.all (fun e => decide (e.start + e.len ≤ u)) &&
    slots.all (fun e => decide (taken mine (prio e.part) + 1000 ≤ e.len)) &&
    mine.all (fun e => decide (slotSum slots + need e ≤ u))

/-- A schedule with its partitions' budgets is accepted at a base rate (R194). -/
def fits (rate : Bool) (parts : Tbl Part) (sched : List Slot) : Bool :=
  (List.range 16).all fun t => fitsTriad (usableTick rate) parts sched t

/-- Entry `i` of a schedule block (R193). -/
def slotAt (b : Bytes) (i : Nat) : Slot :=
  { part := wordAt b (1 + 2 * i) % 256, start := wordAt b (1 + 2 * i) / 4096,
    len := wordAt b (2 + 2 * i) % 2 ^ 20 }

/-- The number of entries of a schedule block (R193). -/
def slotCount (b : Bytes) : Nat := wordAt b 0 % 65536

/-- The schedule of a block (R193). -/
def slotsOf (b : Bytes) : List Slot := (List.range (slotCount b)).map (slotAt b)

/-- The reserved bits and ranges of a schedule block (R193). -/
def schedRanges (b : Bytes) : Bool :=
  wordAt b 0 / 65536 == 0 && decide (slotCount b ≤ 480) &&
    (List.range (slotCount b)).all fun i =>
      bits (wordAt b (1 + 2 * i)) 11 8 == 0 && wordAt b (2 + 2 * i) / 2 ^ 20 == 0 &&
        decide (1000 ≤ (slotAt b i).len)

def judgeCnpSchedule (c : Cmd) (s : State) : Nat :=
  judged c s [(inputBlock c (4 + 8 * slotCount c.block) s && schedRanges c.block, stBadArg),
    ((slotsOf c.block).all fun e => partExists e.part s, stNotFound),
    (fits s.cnp.rate s.cnp.parts (slotsOf c.block), stScheduleOver)]

/-- The schedule at its boundary replaces the whole schedule (R193). -/
def effCnpSchedule (c : Cmd) (s : State) : Res :=
  res { s with cnp := { s.cnp with sched := slotsOf c.block } } stOk

/-- CNP_SCHEDULE (R193, R194): waits for its tick boundary. -/
def execCnpSchedule (c : Cmd) (s : State) : Out := runAtTick 0x0110 judgeCnpSchedule c s

/-- The partitions with the budget of `CNP_BUDGET`. -/
def withBudget (c : Cmd) (s : State) : Tbl Part :=
  alter s.cnp.parts (argPart c) fun x => { x with budget := arg1 c.desc }

def judgeCnpBudget (c : Cmd) (s : State) : Nat :=
  judged c s [(noBlock c, stBadArg), (partExists (argPart c) s, stNotFound),
    (fits s.cnp.rate (withBudget c s) s.cnp.sched, stScheduleOver)]

def effCnpBudget (c : Cmd) (s : State) : Res :=
  res { s with cnp := { s.cnp with parts := withBudget c s } } stOk

/-- CNP_BUDGET (R194, R197): waits for its tick boundary. -/
def execCnpBudget (c : Cmd) (s : State) : Out := runAtTick 0x0111 judgeCnpBudget c s

/-- The entries of a wake-binding block (R196). -/
def bindsOf (c : Cmd) : List (Word × Word) :=
  (List.range (lenOf c.desc / 8)).map fun i =>
    (BitVec.ofNat 32 (wordAt c.block (2 * i)), BitVec.ofNat 32 (wordAt c.block (2 * i + 1)))

/-- The bits of word 1 that R196 gives a type. -/
def bindMask : Nat → Nat
  | 1 => 0xF1FFFF
  | 2 => 0xFFF
  | 3 => 0xFFFF
  | 4 => 0x31F
  | 5 => 0xF
  | _ => 0xFFFFFFFF

/-- A wake-binding entry is valid (R196). -/
def bindOk (e : Word × Word) : Bool :=
  decide (e.1.toNat ≤ 5) && e.2.toNat &&& bindMask e.1.toNat == e.2.toNat

/-- The wake-binding entries that partitions other than `p` hold (R196). -/
def bindsHeld (p : Nat) (s : State) : Nat :=
  (s.cnp.parts.filter fun e => e.1 != p).foldl (fun n e => n + e.2.binds.length) 0

def judgeCnpWake (c : Cmd) (s : State) : Nat :=
  let n := lenOf c.desc
  judged c s [(n % 8 == 0 && decide (n ≤ 512) && (n == 0 || bufferAt c n s) && (bindsOf c).all bindOk, stBadArg),
    (partExists (argPart c) s, stNotFound),
    (decide (bindsHeld (argPart c) s + n / 8 ≤ 8192), stNoResource),
    (fits s.cnp.rate s.cnp.parts s.cnp.sched, stScheduleOver)]

def effCnpWake (c : Cmd) (s : State) : Res :=
  res (modPart (argPart c) (fun x => { x with binds := bindsOf c }) s) stOk

/-- CNP_WAKE (R196): waits for its tick boundary. -/
def execCnpWake (c : Cmd) (s : State) : Out := runAtTick 0x0112 judgeCnpWake c s

/-! ### Spare, tick binding, triad reset and rejoin (R157, R189, R190, R192) -/

/-- ARG0 names a triad other than T0 (R143, R157). -/
def triadArg (c : Cmd) : List (Bool × Nat) :=
  [(arg0 c.desc != 0, stDenied), (decide (arg0 c.desc ≤ 15), stBadArg)]

def judgeCnpSpare (c : Cmd) (s : State) : Nat :=
  let t := arg0 c.desc
  judged c s (triadArg c ++ [(noBlock c, stBadArg),
    ((partsOn t s).isEmpty && !(triadOf t s).failed, stWrongState)])

def effCnpSpare (c : Cmd) (s : State) : Res := res { s with cnp := { s.cnp with spare := arg0 c.desc } } stOk

/-- CNP_SPARE (R157, R190). -/
def execCnpSpare (c : Cmd) (s : State) : Out := runNow 0x0113 judgeCnpSpare effCnpSpare c s

/-- The base rate bit of `CNP_TICK` (R157). -/
def tickRate (c : Cmd) : Bool := tbit (arg0 c.desc) 8

def judgeCnpTick (c : Cmd) (s : State) : Nat :=
  judged c s [(noBlock c && arg0 c.desc &&& 0x103 == arg0 c.desc, stBadArg),
    (s.cnp.parts.all fun e => e.1 == 0 || partEnable e.2 == .off, stWrongState),
    (fits (tickRate c) s.cnp.parts s.cnp.sched, stScheduleOver)]

/-- The binding takes effect at the next boundary of the old one (R192). -/
def effCnpTick (c : Cmd) (s : State) : Res :=
  res { s with cnp := { s.cnp with nextBind := some (arg0 c.desc % 4, tickRate c) } } stOk

/-- CNP_TICK (R157, R192). -/
def execCnpTick (c : Cmd) (s : State) : Out := runNow 0x0114 judgeCnpTick effCnpTick c s

def judgeTriadReset (c : Cmd) (s : State) : Nat :=
  let t := arg0 c.desc
  judged c s (triadArg c ++ [(noBlock c, stBadArg),
    ((partsOn t s).all fun e => partEnable e.2 != .on, stWrongState)])

/-- A TRIAD reset of every channel (R77, R190): its run, votes and copies are gone, `FAILED` is cleared, and its held
writes are applied (R183); isolated channels stay isolated (R187). A join in progress ends with it, without event
0103h, since R189 names no such end (DESIGN CHOICE, log entry 36). -/
def effTriadReset (c : Cmd) (s : State) : Res :=
  let t := arg0 c.desc
  let s1 := narrowRecord 9 t 3 s
  let s2 := match (triadOf t s1).run with
    | some r => flushHeld r.part (dropRun r.part s1)
    | none => s1
  let x := triadOf t s2
  let s3 := setTriad t { chans := x.chans, isos := x.isos } s2
  res { s3 with cnp := { s3.cnp with votes := s3.cnp.votes.filter fun v => v.triad != t } } stOk

/-- TRIAD_RESET (R74, R190). -/
def execTriadReset (c : Cmd) (s : State) : Out := runNow 0x0120 judgeTriadReset effTriadReset c s

/-- The channel of ARG1. -/
def argChan (c : Cmd) : Chan := if arg1 c.desc = 0 then .A else if arg1 c.desc = 1 then .B else .C

def judgeTriadRejoin (c : Cmd) (s : State) : Nat :=
  let x := triadOf (arg0 c.desc) s
  let ch := argChan c
  judged c s (triadArg c ++ [(decide (arg1 c.desc ≤ 2), stBadArg), (noBlock c, stBadArg),
    (!x.failed && !x.chans.contains ch && !x.joining.contains ch && s.cnp.lanes.contains ch &&
      !retired x ch, stWrongState)])

/-- At its boundary the channel is reset and the copy starts (R189 steps 1 and 2). -/
def effTriadRejoin (c : Cmd) (s : State) : Res :=
  let x := triadOf (arg0 c.desc) s
  let ch := argChan c
  if s.cnp.lanes.contains ch && !x.chans.contains ch && !x.joining.contains ch then
    res (setTriad (arg0 c.desc) { x with joining := x.joining ++ [ch] } s) stOk
  else res s stOk

/-- TRIAD_REJOIN (R189): waits for its tick boundary. -/
def execTriadRejoin (c : Cmd) (s : State) : Out := runAtTick 0x0121 judgeTriadRejoin c s

/-- The marks were taken at this instant and no run of the new tick has begun on the triad (R189, R199). -/
def atMark (x : Triad) (s : State) : Bool :=
  s.rst.phase == .started && !s.cnp.inTail && s.cnp.tickFrc == s.clk.frc && x.run.isNone

/-- Channel `c` takes over what channel `d` of the same triad brought of each doorbell (R185, R189). -/
def joinBells (c d : Chan) (l : List (Nat × Chan × Word)) : List (Nat × Chan × Word) :=
  (l.filter fun b => b.2.1 != c) ++ (l.filter fun b => b.2.1 == d).map fun b => (b.1, c, b.2.2)

/-- REJOIN_COMPLETE (R189 steps 3 and 4): at a mark the channel that was copied takes the contexts, and the
triad runs with it. -/
def execRejoinComplete (triad : Nat) (s : State) : Out :=
  named (decide (triad < 16))
    (let x := triadOf triad s
     match x.joining with
     | [] => .next s
     | c :: cs =>
       act (atMark x s) s
         (cnpEvent 0x0102 0 (triad + 16 * chanNum c) none (cnpLatch 1 triad none
           (setTriad triad { x with joining := cs, chans := chanSort (c :: x.chans) }
             { s with cnp := { s.cnp with bells := joinBells c (x.chans.headD c) s.cnp.bells } }))))

/-! ### Moves (R190) -/

/-- The pages of partition `p` return to the mark: the lines of each pre-image whose bit is clear
(R206). -/
def restorePages (p : Nat) (x : Part) (m : List Host.Cell) : List Host.Cell :=
  let kept (a : Nat) : Bool := x.lines.contains ((a - partBase p) / 64)
  let undone (a : Nat) : Bool :=
    a / 2 ^ 48 == p && (look x.pre ((a - partBase p) / 4096)).isSome && !kept a
  Memory.fill (m.filter fun c => !undone c.1)
    ((x.pre.flatMap fun e => e.2).filter fun c => !kept c.1)

/-- Partition `p` is restored to its mark (R190 step 2): pages, context and rings. The restored pages are dirty
again for the next mirror (R208). -/
def restorePart (p : Nat) (s : State) : State :=
  let s1 := flushHeld p s
  match partOf p s1 with
  | none => s1
  | some x =>
    let s2 := setPart p { x with
      ctx := x.markCtx, instret := x.markCtx.getD 74 0, dirtyStop := false
      written := (x.pre.foldl (fun y e => noteLines (e.1 * 4096) 4096 y) x).written } s1
    let s3 := { s2 with mem := restorePages p x s2.mem }
    restoreRings (ringsOf p s3) s3

/-- Partitions of triad `t` are given to triad `u`; `CNP_CFG.SPARE` becomes 0 when `u` was the spare. -/
def giveParts (t u : Nat) (s : State) : State :=
  { s with cnp := { s.cnp with
      parts := s.cnp.parts.map fun e =>
        if e.2.triad = t then (e.1, { e.2 with triad := u, stranded := false }) else e
      spare := if s.cnp.spare = u then 0 else s.cnp.spare } }

/-- The partitions of triad `t` become FROZEN and stranded (R174, R190). -/
def strand (t : Nat) (s : State) : State :=
  { s with cnp := { s.cnp with
      parts := s.cnp.parts.map fun e =>
        if e.2.triad = t then
          if e.2.st == .frozen || e.2.st == .migrating then (e.1, { e.2 with stranded := true })
          else (e.1, { e.2 with st := .frozen, resume := partEnable e.2, stranded := true })
        else e } }

/-- The partition that owns an emission (R190). -/
def emOwner : Emission → Option Nat
  | .doorbell r _ => ringOwner r
  | .descriptor r _ _ => ringOwner r
  | .payload r _ _ => ringOwner r
  | .signature p _ => some p
  | .mirror _ _ => some 0

/-- A triad of which every run has ended without a save, and which is failed. -/
def failTriad (t : Nat) (s : State) : State :=
  let s1 := endRun t .move none s
  let x := triadOf t s1
  let s2 := setTriad t { x with
    failed := true, run := none, refresh := none, catchup := [], joining := [], rest := none, slotFrom := 0 } s1
  { s2 with cnp := { s2.cnp with votes := s2.cnp.votes.filter fun v => v.triad != t } }

/-- Votes of an owner that have passed and not yet had their effect are withdrawn at its restore. -/
def dropPassed (p : Nat) (s : State) : State :=
  { s with cnp := { s.cnp with passed := s.cnp.passed.filter fun e => emOwner e != some p } }

/-- The places of the slots of triad `t` that remain at offset `off`, in the order of their offsets, but for those of the restored partition, which
its catch-up run stands for (R190 step 4). A slot that the loss cut short runs whole, at the later of its offset and
the end of the previous run (DESIGN CHOICE: the spec gives no shorter length; log entry 86). -/
def slotsLeft (t owner off : Nat) (s : State) : List Nat :=
  ((s.cnp.sched.zipIdx.filter fun e =>
    e.1.part != owner && decide (off < e.1.start + e.1.len) &&
      ((partOf e.1.part s).map fun x => x.triad) == some t).map Prod.snd).foldl (fun l i => insertSlot s.cnp.sched i l) []

/-- The spare takes over: it runs with the channels whose lanes held current content for `t`, the others
join, and the restored partition runs at once (R190 steps 4 to 6). -/
def takeOver (t u owner : Nat) (s : State) : State :=
  let old := (triadOf t s).chans
  let y := triadOf u s
  let s1 := setTriad u { y with
    chans := y.chans.filter fun c => old.contains c
    joining := y.joining ++ y.chans.filter fun c => !old.contains c
    catchup := [owner], run := none, refresh := none
    rest := some (slotsLeft t owner (tickOffset s) s), slotFrom := tickOffset s } s
  cnpEvent 0x0104 0 (t + 16 * u) (some 2) (cnpLatch 2 t (some owner) (giveParts t u s1))

/-- A move after the vote that partition `owner` lost on triad `t` (R190). With no spare free its
partitions are stranded, and a paired active module escalates to its partner (R457). -/
def move (t owner : Nat) (s : State) : State :=
  let u := s.cnp.spare
  let s1 := dropPassed owner (restorePart owner (abandonJoins t s |> failTriad t))
  let s2 := cnpEvent 0x0106 1 owner none s1
  if u ≠ 0 then takeOver t u owner s2
  else resign (cnpEvent 0x0104 0 t (some 2) (cnpLatch 3 t (some owner) (strand t s2)))

/-- The stranded partitions of triad `t` go to it, where it is serviceable again, or to the spare (R190). -/
def giveFrom (s : State) (t : Nat) : State :=
  if !(s.cnp.parts.any fun e => e.2.stranded && e.2.triad == t) then s
  else if !(triadOf t s).failed then giveParts t t s
  else if s.cnp.spare ≠ 0 then giveParts t s.cnp.spare s
  else s

/-- Stranded partitions leave that condition at a tick boundary (R190). -/
def giveStranded (s : State) : State := (List.range 16).foldl giveFrom s

/-! ### The voter (R185, R186, R191) -/

/-- Two copies are of the same emission. -/
def sameUnit : Emission → Emission → Bool
  | .doorbell r _, .doorbell q _ => r == q
  | .descriptor r n _, .descriptor q m _ => r == q && n == m
  | .payload r n _, .payload q m _ => r == q && n == m
  | .signature p _, .signature q _ => p == q
  | .mirror a x, .mirror b y => a == b && x.write.isSome == y.write.isSome
  | _, _ => false

/-- An emission belongs to triad `t`: its owner's triad; T0 carries no partition (R190, R191). -/
def belongs (t : Nat) (e : Emission) (s : State) : Bool :=
  t == 0 || ((emOwner e).bind fun p => (partOf p s).map fun x => x.triad) == some t

/-- Code of an emission in a trace record; the mirror access of R557 has none, so it is a free value. -/
def emCode (e : Emission) (s : State) : Nat :=
  match e with
  | .doorbell _ _ => 0
  | .descriptor _ _ _ => 1
  | .payload _ _ _ => 2
  | .signature _ _ => 3
  | .mirror _ _ => Config.freeValue s.free % 16

/-- The emission is a mirror access. -/
def isMirror : Emission → Bool
  | .mirror _ _ => true
  | _ => false

/-- The vote's event: an OSN of source 2 and its trace record (R30, R547). -/
def traceVote (v : Vote) (e : Emission) (passed : Bool) (s : State) : State :=
  let data := emCode e s + 2 ^ 4 * v.copies.length + 2 ^ 7 * b2n passed + 2 ^ 8 * v.triad +
    2 ^ 16 * min (s.clk.frc - v.since) 65535
  let rec_ : TrRec :=
    { type := 3, src := 2, osn := nextOsn s, frc := s.clk.frc, data := BitVec.ofNat 64 data }
  grant 2 (trace (emOwner e) rec_ { s with free := if isMirror e then s.free + 1 else s.free })

/-- A line of 64 bytes of a payload of which two of three copies agree (R185). -/
def lineVote (a b c : Bytes) (i : Nat) : Option Bytes :=
  let cut (x : Bytes) : Bytes := (x.drop (64 * i)).take 64
  if cut a == cut b || cut a == cut c then some (cut a) else if cut b == cut c then some (cut b) else none

/-- The payload of three copies line by line, where two agree on each (R185, R186). -/
def linesVote (a b c : Bytes) : Option Bytes :=
  if a.length ≠ b.length ∨ a.length ≠ c.length then none
  else (List.range ((a.length + 63) / 64)).foldl
    (fun o i => o.bind fun x => (lineVote a b c i).map fun y => x ++ y) (some [])

/-- The value that the copies of a vote give (R186): one that two agree on, or of a payload each line that two agree on
(R185). A frame, which the model does not hold as bytes, is compared whole (DESIGN CHOICE, log entry 109). -/
def agreed (l : List (Chan × Emission)) : Option Emission :=
  match (l.find? fun a => l.any fun b => b.1 != a.1 && b.2 == a.2).map Prod.snd, l with
  | some e, _ => some e
  | none, [(_, .payload r n (.bytes a)), (_, .payload _ _ (.bytes b)), (_, .payload _ _ (.bytes c))] =>
    (linesVote a b c).map fun x => .payload r n (.bytes x)
  | none, _ => none

/-- `CNP_SKEW.PEAK` after a passed vote with three copies (R216). -/
def peakSkew (v : Vote) (s : State) : Nat :=
  if v.passed.isSome && v.copies.length == 3 then max s.cnp.skew (min (s.clk.frc - v.since) 65535)
  else s.cnp.skew

/-- Every channel in service has a copy, and each equals the passed one: the vote closes. -/
def allEqual (v : Vote) (chans : List Chan) : Bool :=
  match v.passed with
  | some e => chans.all fun c => v.copies.contains (c, e)
  | none => false

/-- The vote takes one more copy, and passes as soon as two agree (R186). -/
def voteCopy (v : Vote) (ch : Chan) (e : Emission) : Vote :=
  let l := v.copies ++ [(ch, e)]
  { v with copies := l, passed := if v.passed.isSome then v.passed else agreed l }

/-- Close or keep a vote after a copy: the passed emission takes effect at once. -/
def voteStep (others : List Vote) (old v : Vote) (e : Emission) (s : State) : State :=
  let closed := allEqual v (triadOf v.triad s).chans
  let s1 := { s with cnp := { s.cnp with
    votes := if closed then others else others ++ [v]
    skew := peakSkew v s } }
  match old.passed, v.passed with
  | none, some p =>
    let s2 := { s1 with cnp := { s1.cnp with passed := s1.cnp.passed ++ [p] } }
    traceVote v e true s2
  | _, _ => s1

/-- Channel `ch` has brought a doorbell value of ring `r` that makes item `n` available (R185). -/
def bellBrought (ch : Chan) (r : Nat) (n : Word) (s : State) : Bool :=
  s.cnp.bells.any fun b => b.1 == r && b.2.1 == ch && decide (0 < (b.2.2 - n).toInt)

/-- A copy of a fetched item is taken only after the channel's copy of the doorbell value that made the item
available, or after the channel has been isolated (R185); one that has rejoined took that value from another (R189). -/
def copyDue (x : Triad) (ch : Chan) (e : Emission) (s : State) : Bool :=
  match e with
  | .descriptor r n _ => bellBrought ch r n s || !x.chans.contains ch
  | .payload r n _ => bellBrought ch r n s || !x.chans.contains ch
  | _ => true

/-- A doorbell copy is kept as what its channel brought last. -/
def noteBell (ch : Chan) (e : Emission) (s : State) : State :=
  match e with
  | .doorbell r v =>
    { s with cnp := { s.cnp with bells := (r, ch, v) :: s.cnp.bells.filter fun b => b.1 != r || b.2.1 != ch } }
  | _ => s

/-- VOTE (R185, R186): a copy of an emission from one channel reaches the voter; none does in a WARM or COLD reset (R77,
R79). -/
def execVote (triad : Nat) (ch : Chan) (e : Emission) (s0 : State) : Out :=
  named (decide (triad < 16))
    (let s := noteBell ch e s0
     let x := triadOf triad s
     act (x.chans.contains ch && !x.failed && !warmHeld s0 && belongs triad e s0 && copyDue x ch e s0) s0
       (let mine (v : Vote) : Bool :=
          v.triad == triad && v.copies.all (fun c => c.1 != ch) &&
            ((v.passed.toList ++ v.copies.map Prod.snd).any fun c => sameUnit c e)
        match s.cnp.votes.find? mine with
        | some v => voteStep (s.cnp.votes.erase v) v (voteCopy v ch e) e s
        | none =>
          let v : Vote := { triad := triad, copies := [(ch, e)], since := s.clk.frc }
          voteStep s.cnp.votes v v e s))

/-- The operation whose payload a replay votes (R129 to R132). -/
def replayOf (e : Emission) (s : State) : Option (Nat × Word) :=
  match e with
  | .payload r n _ => if ((entryOf r n s).map fun j => j.rpl && j.stage == .waiting).getD false then some (r, n) else none
  | _ => none

/-- Judge a vote at the end of τ (R186): a replay of which fewer than two copies could be read ends with VOTE_LOST and
no move (R132). -/
def judgeVote (v : Vote) (s : State) : State :=
  let chans := (triadOf v.triad s).chans
  match v.passed with
  | some e =>
    let odd := (v.copies.filter fun c => chans.contains c.1 && c.2 != e).map Prod.fst
    let late := chans.filter fun c => !(v.copies.any fun k => k.1 == c)
    isolateAll v.triad 1 late (isolateAll v.triad 0 odd s)
  | none =>
    match v.copies with
    | [] => s
    | c :: _ =>
      let s1 := traceVote v c.2 false s
      match if v.copies.length < 2 then replayOf c.2 s else none with
      | some o => payloadLost o.1 o.2 s1
      | none =>
      if v.triad = 0 then pulseSource .wdog s1
      else move v.triad ((emOwner c.2).getD 0) s1

/-- VOTE_TOLERANCE_END (R186): τ = 2,500 ns after the first copy, but in a WARM or COLD reset (R79). -/
def execVoteToleranceEnd (triad : Nat) (s : State) : Out :=
  named (decide (triad < 16))
    (match s.cnp.votes.find? fun v => v.triad == triad && decide (v.since + 2500 ≤ s.clk.frc) with
     | none => .next s
     | some v => act (!warmHeld s) s (judgeVote v { s with cnp := { s.cnp with votes := s.cnp.votes.erase v } }))

/-! ### Dispatch (R195) -/

/-- Canopy runs ticks: Heartwood has started, and the tail has not. -/
def ticking (s : State) : Bool := s.rst.phase == .started && !s.cnp.inTail

/-- A partition may be dispatched on its triad (R195, R205); a STALE shadow is not (R473), and none in its
PARTITION reset (R77). -/
def canRun (s : State) (x : Part) : Bool :=
  x.st == .ready && decide (x.resetUntil ≤ s.clk.now) && !(x.stale && !x.mirror.isEmpty) && (x.en == .on || (x.en == .stopping && !x.lastTick)) && !x.dirtyStop

/-- A candidate: priority, slot owner, partition (R195). -/
abbrev Cand := Nat × Bool × Nat

/-- The owner of the active slot, unless it has yielded in it. -/
def slotCand (t : Nat) (s : State) : List Cand :=
  match activeSlot t s with
  | none => []
  | some (i, e) =>
    match partOf e.part s with
    | none => []
    | some x => if canRun s x && !(triadOf t s).yielded.contains i then [(x.prio, true, e.part)] else []

/-- The woken partitions of the triad with wake budget left. -/
def wokenCands (t : Nat) (s : State) : List Cand :=
  ((partsOn t s).filter fun e => canRun s e.2 && !e.2.wakeHeld.isEmpty && e.2.left != 0).map fun e =>
    (e.2.prio, false, e.1)

/-- The winner of the candidates: highest priority, a slot owner before woken ones, then R35 (R195). -/
def winner (ptr : Nat) (l : List Cand) : Option Cand :=
  let top := (l.map fun c => c.1).foldl max 0
  let best := l.filter fun c => c.1 == top
  match best.find? fun c => c.2.1 with
  | some c => some c
  | none => (rotate 256 ptr fun i => best.any fun c => c.2.2 == i).map fun p => (top, false, p)

/-- ns until the tail. -/
def toTail (s : State) : Nat := s.cnp.tickEnd - 4000 - lineNow s

/-- The context whose VS-level external interrupt, bit 9 of `vsip`, is pending where `on`, and whose software and timer
interrupts, bits 1 and 5, are not (R180). -/
def setVseip (on : Bool) (c : Ctx) : Ctx :=
  let v := c.getD 72 0
  c.set 72 (v - 512 * b2n (tbit v 9) - 2 * b2n (tbit v 1) - 32 * b2n (tbit v 5) + 512 * b2n on)

/-- Wake causes seen at dispatch (R182): their bits, and the entry of the first since the last clear. The external
interrupt is pending from then while `pwake` is not 0 (R180). A clear that leaves a cause is none for `ENTRY` (DESIGN
CHOICE, log entry 110). -/
def seeWakes (x : Part) : Part :=
  let causes := x.wakeHeld.filter fun w => w.1 < 6
  let first := match causes with
    | w :: _ => if x.pwake = 0 ∧ w.2 < 64 then w.2 else x.pwEntry
    | [] => x.pwEntry
  let bits := causes.foldl (fun n w => n ||| 2 ^ w.1) x.pwake
  { x with
    st := .running
    wakeHeld := []
    ctx := setVseip (bits != 0) x.ctx
    pwake := bits
    pwEntry := first }

/-- Partition `p` is dispatched on triad `t` (R174, R182): its OSN and trace record of type 1. -/
def startRun (t : Nat) (r : Run) (s : State) : State :=
  let data := r.part % 256 + 2 ^ 8 * t + 2 ^ 12 * runKind r.kind + 2 ^ 32 * (r.grant % 2 ^ 32)
  let rec_ : TrRec :=
    { type := 1, src := 2, osn := nextOsn s, frc := s.clk.frc, data := BitVec.ofNat 64 data }
  let s1 := grant 2 (trace (some r.part) rec_ s)
  let x := triadOf t s1
  setTriad t { x with
    run := some r, refresh := none, catchup := if r.base == .catchup then x.catchup.erase r.part else x.catchup }
    (modPart r.part (fun y => { seeWakes y with ran := true }) s1)

/-- The run that a decision point on triad `t` starts: a refresh or a catch-up at once (R190, R197), where its partition
may run (R77, R195), else the winner of the candidates. -/
def nextRun (t : Nat) (s : State) : Option Run :=
  let x := triadOf t s
  let room := toTail s
  let able (p : Nat) : Bool := canRun s ((partOf p s).getD {})
  match x.refresh.filter fun r => able r.part, x.catchup.find? able with
  | some r, _ => some { r with since := s.clk.frc, grant := min r.grant room }
  | none, some p =>
    some { part := p, kind := .catchup, base := .catchup, since := s.clk.frc
           grant := min room (slotSum (s.cnp.sched.filter fun e => e.part == p) + ((partOf p s).getD {}).budget) }
  | none, none =>
    (winner x.ptr (slotCand t s ++ wokenCands t s)).map fun c =>
      let y := (partOf c.2.2 s).getD {}
      let off := tickOffset s
      let slotLeft := match activeSlot t s with
        | some (_, e) => e.start + e.len - off
        | none => 0
      if c.2.1 then
        { part := c.2.2, kind := .slot, base := .slot, since := s.clk.frc, grant := min room slotLeft }
      else
        { part := c.2.2, kind := .wake, base := .wake, since := s.clk.frc, grant := min room y.left }

/-- The tie of woken partitions moves the triad's pointer (R35). -/
def movePtr (t : Nat) (r : Run) (s : State) : State :=
  if r.kind == .wake then setTriad t { triadOf t s with ptr := (r.part + 1) % 256 } s else s

/-- DISPATCH (R195): a decision point on a triad with no run. -/
def execDispatch (triad : Nat) (s : State) : Out :=
  named (decide (triad < 16))
    (let x := triadOf triad s
     match nextRun triad s with
     | none => .next s
     | some r =>
       act (ticking s && x.run.isNone && !x.failed && triad != 0 && r.grant != 0) s
         (startRun triad r (movePtr triad r s)))

/-- A candidate outranks the run in progress (R195): a slot owner wins a tie against a woken run. -/
def outranked (t : Nat) (r : Run) (s : State) : Bool :=
  match partOf r.part s with
  | none => false
  | some x =>
    (slotCand t s ++ wokenCands t s).any fun c =>
      c.2.2 != r.part && (decide (x.prio < c.1) || (c.1 == x.prio && c.2.1 && r.base == .wake))

/-- A run ends for the reason the row names (R184, R195, R197). A catch-up run is not preempted (DESIGN CHOICE, log
entry 110); a run whose time is used up is not refreshed. -/
def endsFor (t : Nat) (r : Run) (why : RunEnd) (s : State) : Bool :=
  match why with
  | .slot => r.base != .wake && decide (r.grant ≤ elapsed r s)
  | .budget => r.base == .wake && decide (r.grant ≤ elapsed r s)
  | .preempt => r.base != .catchup && outranked t r s
  | .refresh => decide (elapsed r s < r.grant) && ((partOf r.part s).map fun x => x.wakeHeld.any fun w => decide (w.1 < 6)).getD false
  | _ => false

/-- RUN_END (R184, R195): at the common retired-instruction count. -/
def execRunEnd (triad : Nat) (why : RunEnd) (counts : List Nat) (ctx : Ctx) (s : State) : Out :=
  named (decide (triad < 16))
    (match (triadOf triad s).run with
     | none => .next s
     | some r => act (ticking s && endsFor triad r why s) s (endRun triad why (some (counts, ctx)) s))


/-- WAKE (R196, R197): the oldest wake reaches its partition, where it waits for its next dispatch; the
run of a RUNNING partition ends for it as a refresh. -/
def execWake (s : State) : Out :=
  match s.cnp.wakes with
  | [] => .next s
  | (p, cause, entry) :: rest =>
    .next (modPart p (fun x => { x with wakeHeld := x.wakeHeld ++ [(cause, entry)] })
      { s with cnp := { s.cnp with wakes := rest } })


/-! ### What a partition reads, and its exceptions (R180 to R182) -/

/-- Ticks are taken from an acquired time base (R192). -/
def tickAcquired (s : State) : Bool := tbGood (tbOf s.cnp.tb s)

/-- The value of a CSR that partition `p` reads while it runs; none raises an illegal-instruction exception, as the
added CSRs do from VU-mode (R181, R182). `cycle` and the `hpmcounter`s read 0, `time` the start of the tick, `instret`
the count of the context loaded for the run; `pctl` is write-only. -/
def readCsr (vu : Bool) (p csr : Nat) (s : State) : Option Nat :=
  let x := (partOf p s).getD {}
  let run := (triadOf x.triad s).run.filter fun r => r.part == p
  let own (v : Nat) : Option Nat := if vu then none else some v
  match csr with
  | 0xC01 => some s.cnp.tickStart
  | 0xC02 => some x.instret
  | 0xDC0 => own (p + 2 ^ 8 * x.triad)
  | 0xDC1 => own s.cnp.tickNo
  | 0xDC2 => own (s.cnp.tickStart % 2 ^ 48 + 2 ^ 63 * b2n (tickAcquired s))
  | 0xDC3 => own ((run.map fun r => r.grant + 2 ^ 32 * runKind r.kind).getD 0)
  | 0x5C0 => own (x.pwake + 2 ^ 16 * x.pwEntry)
  | 0x5C1 => own 0
  | 0xDC4 => own x.pfault
  | 0xDC5 => own x.stored.length
  | n => if n = 0xC00 ∨ (0xC03 ≤ n ∧ n ≤ 0xC1F) then some 0 else none

/-- An exception as its cause and `vstval`. ECALL from VS-mode and a virtual-instruction exception are an
illegal-instruction exception with the instruction (R180). -/
def illegalTrap (insn : Nat) : Nat × Nat := (2, insn)

/-- The access fault of an access to guest virtual address `va` (R202). -/
def accessTrap (kind : Access) (va : Nat) : Nat × Nat :=
  match kind with
  | .fetch => (1, va)
  | .load => (5, va)
  | .store | .amo | .engine => (7, va)

/-- VS-mode takes an exception (R180): `vsepc`, `vscause` and `vstval` are written, `vsstatus` stacks `SIE` in `SPIE`
and notes the mode left in `SPP`, and the `pc` is that of `vstvec` (PRESUMED: the privileged specification that R180
names; log entry 87). -/
def vsTrap (vu : Bool) (t : Nat × Nat) (c : Ctx) : Ctx :=
  let st := c.getD 65 0
  let clear := st - 2 * b2n (tbit st 1) - 32 * b2n (tbit st 5) - 256 * b2n (tbit st 8)
  ((((c.set 69 (c.getD 0 0)).set 70 t.1).set 71 t.2).set 65
    (clear + 32 * b2n (tbit st 1) + 256 * b2n (!vu))).set 0 (c.getD 67 0 / 4 * 4)

/-- Partition `p`, which runs, takes the exception `t` at context `ctx` (R180, R202). -/
def takeTrap (p : Nat) (vu : Bool) (t : Nat × Nat) (ctx : Ctx) (s : State) : State :=
  modPart p (fun x => { x with trap := some t, ctx := vsTrap vu t ctx }) s

/-- YIELD (R180, R184): a write of `YIELD` or a WFI ends the run at that instruction in every channel; in VU-mode either
is an illegal-instruction exception, of the WFI by the standard that R180 names (R182; log entry 87). -/
def execYield (triad : Nat) (by_ : YieldBy) (ctx : Ctx) (s : State) : Out :=
  named (decide (triad < 16))
    (match (triadOf triad s).run with
     | none => .next s
     | some r =>
       act (ticking s) s
         (if by_.vu then takeTrap r.part true (illegalTrap by_.insn) ctx s
          else endRun triad .yield (some ([(ctx.getD 74 0)], ctx)) s))

/-- PWAKE_CLEAR (R182): the partition, while it runs, writes 1 to bits of `pwake`; the external interrupt is no
longer pending once it is 0 (R180). From VU-mode the write is an illegal-instruction exception. -/
def execPwakeClear (part : Nat) (write : PwWrite) (s : State) : Out :=
  named (decide (part < 256))
    (act (((partOf part s).map fun x => x.st == .running).getD false) s
      (if write.vu then takeTrap part true (illegalTrap write.insn) write.ctx s
       else modPart part (fun x =>
        let w := x.pwake &&& (63 - write.bits.toNat % 64)
        { x with pwake := w, ctx := setVseip (w != 0) x.ctx }) s))

/-! ### Page Keeper (R201, R202, R205) -/

/-- The cause of an access fault of a CPU access, if the access maps nothing (R202). -/
def cpuFault (p iova : Nat) (x : Part) (kind : Access) (s : State) : Option Nat :=
  if 2 ^ 48 ≤ iova then some 2
  else if (kind == .store || kind == .amo) && inLarge x iova then some 3
  else if (touch p iova s).isNone then some 1
  else none

/-- FIRST_TOUCH (R201, R202): an access to an IOVA maps its page, granted to its triad or to the replicator (R207),
or raises an access fault, with the guest virtual address, and sets `pfault`. -/
def execFirstTouch (part : Nat) (addr : Touch) (kind : Access) (s : State) : Out :=
  named (decide (part < 256))
    (match partOf part s with
     | none => .next s
     | some x =>
       if kind == .engine then .next ((touch part addr.iova (pgkAsk 15 s)).getD s)
       else
         act (x.st == .running) s
           (match cpuFault part addr.iova x kind s with
            | some cause =>
              takeTrap part addr.vu (accessTrap kind addr.va) addr.ctx (setPart part { x with pfault := cause } s)
            | none => (touch part addr.iova (pgkAsk (x.triad - 1) s)).getD s))

/-- The store of a partition into one page. -/
def cpuStore (p iova : Nat) (data : Bytes) (s : State) : State :=
  { s with mem := Memory.write s.mem (partBase p + iova) (data.take (4096 - iova % 4096)) }

/-- The triad on which partition `p` runs. -/
def triadRunning (p : Nat) (s : State) : Nat := ((partOf p s).map fun x => x.triad).getD 0

/-- The dirty limit ends the run before the store retires (R205): `DIRTY_STALL`, event 0105h of
source 3. -/
def dirtyStall (p : Nat) (ctx : Ctx) (s : State) : State :=
  let t := triadRunning p s
  let s1 := endRun t .dirty (some ([(ctx.getD 74 0)], ctx)) s
  raise { src := 3, code := 0x0105, kind := 1, index := p } (cnpLatch 4 t (some p) s1)

/-- FIRST_STORE (R205): the first store of a tick to a 4 KiB page takes its pre-image and counts
against `DIRTY`. -/
def execFirstStore (part iova : Nat) (data : Bytes) (ctx : Ctx) (s : State) : Out :=
  named (decide (part < 256))
    (match partOf part s with
     | none => .next s
     | some x =>
       let page := iova / 4096
       act (x.st == .running && !x.stored.contains page && (cpuFault part iova x .store s).isNone) s
         (if x.dirty ≤ x.stored.length then dirtyStall part ctx s
          else
            let s1 := (touch part iova (pgkAsk (x.triad - 1) s)).getD s
            let s2 := modPart part
              (fun y => noteLines iova (min data.length (4096 - iova % 4096))
                (keepPre part page s1.mem { y with stored := y.stored ++ [page] })) s1
            cpuStore part iova data { s2 with pgk := { s2.pgk with undo := s2.pgk.undo + 1 } }))

/-! ### The tail and the tick boundary (R192, R199) -/

/-- The tail's ends of runs: each triad with the counts and context that the row names. -/
def endAll : List (Nat × List Nat × Ctx) → State → State
  | [], s => s
  | e :: es, s => endAll es (endRun e.1 .tail (some e.2) s)

/-- Runs that the row names no context for end as well. -/
def endRest : List Nat → State → State
  | [], s => s
  | t :: ts, s => endRest ts (endRun t .tail none s)

/-- TAIL_START (R199): 4,000 ns before the boundary every run ends. -/
def execTailStart (saved : List (Nat × List Nat × Ctx)) (s : State) : Out :=
  act (ticking s && decide (s.cnp.tickEnd ≤ lineNow s + 4000)) s
    (let t := endRest ((s.cnp.triads.filter fun e => e.2.run.isSome && !(saved.any fun v => v.1 == e.1)).map Prod.fst)
       (endAll saved s)
     { t with cnp := { t.cnp with inTail := true } })

/-- The marks of a partition at the boundary (R199): context, pre-images released, budget restored. -/
def markPart (x : Part) : Part :=
  { x with
    markCtx := x.ctx, pre := [], stored := [], lines := [], dirtyStop := false, left := x.budget
    ran := false, written := [], wrote := (x.written.map fun l => l / 64).dedup, staged := []
    lastTick := x.lastTick || (x.en == .stopping && (x.st == .ready || x.st == .running)) }

/-- A triad at the boundary: yields and catch-ups of the old tick end. -/
def markTriad (x : Triad) : Triad :=
  { x with yielded := [], catchup := [], refresh := none, rest := none, slotFrom := 0 }

/-- The marks of every partition, ring and triad (R127, R199). -/
def takeAllMarks (s : State) : State :=
  { s with
    rng := takeMarks s.rng
    pgk := { s.pgk with undo := 0 }
    cnp := { s.cnp with
      parts := s.cnp.parts.map fun e => (e.1, markPart e.2)
      triads := s.cnp.triads.map fun e => (e.1, markTriad e.2) } }

/-- Budgets after the changes of class T (R197). -/
def restoreBudgets (s : State) : State :=
  { s with cnp := { s.cnp with parts := s.cnp.parts.map fun e => (e.1, { e.2 with left := e.2.budget }) } }

/-- The source of tick `k` before a switch whose predecessor was `p`, by the switches before it (R341). -/
def srcBefore (k : Nat) : Nat → List (Nat × Nat × Bool) → Nat
  | p, [] => p
  | p, e :: es => if e.1 ≤ k then p else srcBefore k e.2.1 es

/-- The source that is active in tick `k` (R341). -/
def sourceIn (x : Strm) (k : Nat) : Nat := if x.switchTick ≤ k then x.active else srcBefore k x.prev x.older

/-- The tick's record carries `SWITCHED`, so that its channels restart before its first slot (R341, R378). -/
def carriesSwitch (x : Strm) (t : OpenTick) : Bool :=
  match t.rephase with
  | some r => r.2
  | none => (x.swDue && t.k == x.switchTick) || x.older.any fun e => e.2.2 && e.1 == t.k

/-- A tick of the old time line that was open: it closes at the next REPHASE row (R340). -/
def markTick (x : Strm) (k : OpenTick) : OpenTick :=
  if k.rephase.isSome then k else { k with rephase := some (sourceIn x k.k, carriesSwitch x k) }

/-- A stream on a new time line whose first delivered tick is `first`: its ticks up to `cur` of the old one
wait to close, and samples of ticks that had not started are dropped (R340). A switch that no record has
shown yet is shown by the first tick delivered (R341). -/
def markStream (cur first : Nat) (x : Strm) : Strm :=
  if x.en == .off then x
  else
    let due := x.swDue && decide (cur < x.switchTick)
    { x with
      ticks := (x.ticks.filter fun k => k.rephase.isSome || decide (k.k ≤ cur)).map (markTick x)
      firstTick := first, nextTick := first, stby := [], lastClosed := none
      switchTick := if due then first else 0, swDue := due, older := [] }

/-- Every stream passes to the new time line; `cur` is the tick of the old one in progress, which ended at `end_` (R340,
R408). -/
def markRephase (cur end_ : Nat) (s : State) : State :=
  { s with sv := { s.sv with
    rephase := true
    oldEnd := end_
    streams := s.sv.streams.map fun e => (e.1, markStream cur (comingTick s) e.2) } }

/-- The next tick begins (R17, R182, R192), on a new binding if one was set. -/
def nextTick (s : State) : State :=
  let s1 := match s.cnp.nextBind with
    | some b => { s with cnp := { s.cnp with tb := b.1, rate := b.2, nextBind := none, tickNo := 0, off := 0 } }
    | none => { s with cnp := { s.cnp with tickNo := s.cnp.tickNo + 1 } }
  let start := if s.cnp.nextBind.isSome then lineNow s1 else s1.cnp.tickEnd
  let s2 := { s1 with cnp := { s1.cnp with
      inTail := false
      tickStart := start
      tickFrc := s1.clk.frc
      tickEnd := nextTickNs (baseRate s1.cnp.rate) start } }
  if s.cnp.nextBind.isSome then markRephase (tickAbs (baseRate s.cnp.rate) s.cnp.tickStart) s.cnp.tickEnd s2 else s2

/-- The bound time base takes its step: the tick in progress ends at the first boundary of the new
timeline at least half a tick after its start (R192). -/
def rephaseTick (s : State) : State :=
  let start := lineAt s (s.cnp.tickFrc * 65536)
  let half := start + 500000000 / baseRate s.cnp.rate
  markRephase (tickAbs (baseRate s.cnp.rate) s.cnp.tickStart) (s.cnp.tickStart + (s.clk.frc - s.cnp.tickFrc)) { noteSet 0x0244 5 s with cnp := { s.cnp with
    off := 0
    tickStart := start
    tickEnd := nextTickNs (baseRate s.cnp.rate) (half - 1)
    evt := latch s.cnp.evt 5 } }

/-- Canopy after time base `n` acquires or steps (R192). -/
def canopyStep (n : Nat) (s : State) : State :=
  if s.cnp.tb = n ∧ s.rst.phase = .started then rephaseTick s else s

/-- Canopy after time base `n` leaves ON: it continues from the last value at the FRC's rate (R192).
`old` is the state before. -/
def canopyLeave (n : Nat) (old s : State) : State :=
  if s.cnp.tb = n ∧ tbGood (tbOf n old) then
    { s with cnp := { s.cnp with off := (lineNow old : Int) - s.clk.frc } }
  else s

end Sys2Proof.Machine
end

