-- ==== Sys2Proof/Machine/Blob.lean ====
section
/-! DEFINITION. The blob of a partition: PART_SAVE and PART_RESTORE (R210 to R212, R428 to R432). The
places of the fields inside a section are the model's own (log entry 20). -/

namespace Sys2Proof.Machine

open Sys2Proof

/-- Fill to a multiple of 64 bytes (R211). -/
def pad64 (b : Bytes) : Bytes := b ++ List.replicate ((64 - b.length % 64) % 64) 0

/-- The serial of this device. -/
def serialNat : Nat := Config.serial.toNat

/-- The nonce: the source serial, then the save count (R212). -/
def blobNonce (saves : Nat) : Bytes := toLe 8 serialNat ++ toLe 4 saves

/-- The header (R211). -/
def blobHeader (p total tag saves : Nat) : Bytes :=
  toLe 4 0x4F544B50 ++ toLe 2 1 ++ toLe 2 p ++ toLe 8 total ++ toLe 8 serialNat ++ toLe 8 tag ++
    blobNonce saves ++ List.replicate 20 0

/-- The partition record of a partition that exists (R176). -/
def recordBytes (x : Part) : Bytes :=
  toLe 4 (x.home + 16 * x.prio) ++ toLe 4 x.quota ++ toLe 4 x.dirty ++ toLe 4 0 ++ toLe 8 x.entry ++
    toLe 8 x.loadSrc ++ toLe 4 x.loadLen ++ toLe 4 0 ++ toLe 8 x.loadDst ++ toLe 8 x.largeBase ++
    toLe 4 x.largeSize ++ toLe 4 0

/-- The state section (R211). -/
def stateBytes (x : Part) : Bytes :=
  padTo 64 (toLe 4 x.prio ++ toLe 4 (enCode x.resume) ++ toLe 4 x.budget ++ toLe 4 x.quota ++
    toLe 4 (mapped x) ++ toLe 4 x.dirty ++ toLe 4 x.resets)

/-- The context section (R211, R562). -/
def ctxBytes (c : Ctx) : Bytes := padTo 1024 (c.flatMap (toLe 8))

/-- The wake-binding section (R196, R211). -/
def bindBytes (l : List (Word × Word)) : Bytes :=
  padTo 512 (l.flatMap fun e => toLe 4 e.1.toNat ++ toLe 4 e.2.toNat)

/-- One pair of the rings section (R158, R211). -/
def ringBytes (x : Ring) : Bytes :=
  padTo 128 (toLe 4 (x.binding + 2 ^ 8 * x.log2s + 2 ^ 16 * x.weight) ++ toLe 4 x.quota ++ toLe 8 x.submit ++
    toLe 8 x.compl ++ toLe 8 x.doorbell ++ toLe 8 x.shadow ++ toLe 4 x.barg.toNat ++ toLe 4 0 ++
    toLe 4 x.a.toNat ++ toLe 4 x.c.toNat ++ toLe 4 x.k.toNat ++ toLe 4 x.gen ++ toLe 4 (enCode x.st) ++
    toLe 4 x.weight ++ toLe 4 x.quota)

/-- The rings section: eight pairs, zeros for an absent one. -/
def ringsBytes (p : Nat) (s : State) : Bytes :=
  (List.range 8).flatMap fun i => match look s.rng.rings (8 * p + i) with
    | some x => ringBytes x
    | none => List.replicate 128 0

/-- Flags of a journal entry in the blob. -/
def entryFlags (e : JRec) : Nat :=
  b2n (e.stage == .finished) + 2 * b2n e.done + 4 * b2n e.withdrawn + 8 * b2n e.loose + 16 * b2n e.saved +
    32 * b2n e.rpl + 64 * b2n e.result.isSome

/-- One journal entry (R126, R211). -/
def entryBytes (e : JRec) : Bytes :=
  padTo 96 (toLe 4 (e.ring % 8) ++ toLe 4 e.gen ++ toLe 4 e.seq.toNat ++ toLe 4 (entryFlags e) ++
    descBytes e.desc ++ toLe 4 e.status ++ toLe 4 e.cflags ++ toLe 4 (e.result.getD 0).toNat)

/-- The journal entries of a partition's rings. -/
def entriesOf (p : Nat) (s : State) : List JRec :=
  s.rng.jrnl.filter fun e => decide (e.ring < 2048) && e.ring / 8 == p

/-- A key wrapped under the grove sealing key (R428, R429). -/
def wrapSlot (gsk : Bytes) (x : KSlot) : Bytes :=
  let head := [1, BitVec.ofNat 8 x.level, BitVec.ofNat 8 x.alg, BitVec.ofNat 8 x.usage,
    if x.level = 1 then BitVec.ofNat 8 x.owner else 0, if x.level = 1 then BitVec.ofNat 8 x.part else 0] ++
    toLe 2 x.overlap ++ toLe 4 x.keyId ++ toLe 4 0
  head ++ padTo 40 (wrapKw (kdf gsk Config.labelWrap head) x.key) ++ List.replicate 8 0

/-- The slots of the partition's Branches, each followed by its Leaves, so that a Leaf keeps its link (R432). -/
def keySlots (p : Nat) (s : State) : List (Nat × KSlot) :=
  (s.key.slots.filter fun e => e.2.level == 1 && e.2.owner == 2 && e.2.part == p && e.2.st == .valid).flatMap
    fun b => b :: (s.key.slots.filter fun e => e.2.level == 2 && e.2.parent == b.1 && usable e.2)

/-- The keys that a save carries: those whose check holds (R427, R432). -/
def keysOf (p : Nat) (s : State) : List KSlot :=
  ((keySlots p s).map Prod.snd).filter (checkHolds s.mram.root)

/-- The slots that a save uses are tested (R427). -/
def testKeys (p : Nat) (s : State) : State := testSlots ((keySlots p s).map Prod.fst) (testGrove s)

/-- One page: IOVA, size and content (R211). -/
def pageBytes (p : Nat) (s : State) (e : Nat × Nat) : Bytes :=
  toLe 8 (e.1 * 4096) ++ toLe 8 (e.2 * 4096) ++ Memory.read s.mem (partBase p + e.1 * 4096) (e.2 * 4096)

/-- What follows the header of partition `p`'s blob, in clear (R211). -/
def blobPlain (p : Nat) (x : Part) (gsk : Bytes) (s : State) : Bytes :=
  let js := entriesOf p s
  let ks := keysOf p s
  recordBytes x ++ stateBytes x ++ ctxBytes x.markCtx ++ bindBytes x.binds ++ ringsBytes p s ++
    pad64 (toLe 8 js.length ++ js.flatMap entryBytes) ++
    pad64 (toLe 8 ks.length ++ ks.flatMap (wrapSlot gsk)) ++ pad64 x.load ++
    pad64 (toLe 8 x.pages.length ++ x.pages.flatMap (pageBytes p s))

/-- The length of a section of `n` bytes, aligned to 64 (R211). -/
def up64 (n : Nat) : Nat := (n + 63) / 64 * 64

/-- The length of partition `p`'s blob (R211). -/
def blobLen (p : Nat) (x : Part) (s : State) : Nat :=
  64 + 64 + 64 + 1024 + 512 + 1024 + up64 (8 + 96 * (entriesOf p s).length) +
    up64 (8 + 64 * (keysOf p s).length) + up64 x.load.length +
    up64 (8 + 16 * x.pages.length + 4096 * mapped x) + 16

/-! ### PART_SAVE -/

/-- The longest blob (R211). -/
def blobMax : Nat := 67108864

/-- A save count that has reached its end gives no fresh nonce (R505). -/
def saveCount (s : State) : Bool := decide (s.mram.saves < 2 ^ 32 - 1)

/-- The blob of partition `p` is within the limit and fits the output buffer (R211). -/
def blobFits (c : Cmd) (s : State) : Bool :=
  match partOf (argPart c) s with
  | some x => decide (blobLen (argPart c) x s ≤ blobMax) && decide (blobLen (argPart c) x s ≤ lenOf c.desc)
  | none => true

def judgePartSave (c : Cmd) (s : State) : Nat :=
  let p := argPart c
  judged c s [(p != 0, stDenied), ((groveBranch s).isSome, stDenied), (saveCount s, stDenied),
    (lenOf c.desc == 0 || outputBuffer c (lenOf c.desc) s, stBadArg), (partExists p s, stNotFound),
    (stateOf p s == some .frozen, stWrongState), (!kindBusy .blob s, stBusy),
    (blobFits c s, stNoResource)]

/-- The transfer of an operation has not begun: it waits in its ring, or it is a RECV that no frame fills (R210,
R274). -/
def notBegun (e : JRec) (s : State) : Bool :=
  e.stage == .waiting || (e.stage == .started && opOf e.desc == 1 &&
    ((look s.rng.rings e.ring).map fun x => x.binding == 2) == some true)

/-- The partition is MIGRATING, and operations whose transfer has not begun are withdrawn from their
engines (R210). -/
def startSave (c : Cmd) (s : State) : State :=
  let p := argPart c
  let s1 := modPart p (fun x => { x with st := .migrating }) s
  { s1 with rng := { s1.rng with
    jrnl := s1.rng.jrnl.map fun e =>
      if decide (e.ring < 2048) && e.ring / 8 == p && notBegun e s && running e then
        { e with saved := true }
      else e } }

/-- PART_SAVE (R210, R211): runs beside the executor. -/
def execPartSave (c : Cmd) (s : State) : Out := runBeside 0x0108 .blob judgePartSave startSave c s

/-- Operations of the partition that are still inside an engine (R210). -/
def stillRunning (p : Nat) (s : State) : Bool :=
  (entriesOf p s).any fun e => running e && !e.saved

/-- The save ends: the blob is written, the save count advances, and the partition is FROZEN. Deliveries of
operations that still ran may have mapped pages, so the length is judged again (R211). -/
def finishSave (c : Cmd) (s0 : State) : Res :=
  let p := argPart c
  let s := testKeys p s0
  match partOf p s, groveBranch s with
  | some x, some g =>
    if !blobFits c s then res (modPart p (fun y => { y with st := .frozen }) s) stNoResource else
    let gsk := groveSeal g
    let total := blobLen p x s
    let saves := s.mram.saves + 1
    let head := blobHeader p total ((groveTag s).getD 0) saves
    let blob := head ++ gcmSeal gsk (blobNonce saves) head (blobPlain p x gsk s)
    let s1 := modPart p (fun y => { y with st := .frozen }) { s with mram := savePstate { s.mram with saves := saves } }
    resOut c (padTo total blob) (some (BitVec.ofNat 32 total)) s1
  | some _, none => res (modPart p (fun y => { y with st := .frozen }) s) stDenied
  | none, _ => res s stNotFound

/-! ### PART_RESTORE -/

def judgePartRestore (c : Cmd) (s : State) : Nat :=
  let p := argPart c
  judged c s [((groveBranch s).isSome, stDenied), (dataBlock c blobMax s, stBadArg),
    (!partExists p s, stWrongState), (!kindBusy .blob s, stBusy)]

/-- The header of a blob is of this format, and names its length (R211). -/
def headerOk (b : Bytes) : Bool :=
  leAt b 0 4 == 0x4F544B50 && leAt b 4 2 == 1 && leAt b 8 8 == b.length && decide (80 ≤ b.length)

/-- A ring of the rings section (R158, R211), none for an absent pair. -/
def ringOfBytes (b : Bytes) : Option Ring :=
  let w := wordAt b 0
  if w % 16 = 0 then none
  else
    let a := BitVec.ofNat 32 (wordAt b 12)
    let k := BitVec.ofNat 32 (wordAt b 14)
    let cc := BitVec.ofNat 32 (wordAt b 13)
    some
      { binding := w % 16, log2s := bits w 11 8, weight := wordAt b 17, weightNext := wordAt b 17
        quota := wordAt b 18, submit := dwordAt b 2, compl := dwordAt b 4, doorbell := dwordAt b 6
        shadow := dwordAt b 8, barg := BitVec.ofNat 32 (wordAt b 10), gen := wordAt b 15
        st := if wordAt b 16 = 0 then .off else if wordAt b 16 = 1 then .stopping else .on
        a := a, c := cc, k := k, mark := { a := a, c := cc, k := k, gen := wordAt b 15 } }

/-- A descriptor from 32 bytes (R106). -/
def descOfBytes (b : Bytes) : Desc :=
  let w (i : Nat) : Word := BitVec.ofNat 32 (wordAt b i)
  { w0 := w 0, w1 := w 1, w2 := w 2, w3 := w 3, w4 := w 4, w5 := w 5, w6 := w 6, w7 := w 7 }

/-- A journal entry of partition `p` (R126, R211, R212). -/
def entryOfBytes (p : Nat) (b : Bytes) : JRec :=
  let f := wordAt b 3
  { ring := 8 * p + wordAt b 0 % 8, gen := wordAt b 1, seq := BitVec.ofNat 32 (wordAt b 2)
    desc := descOfBytes (b.drop 16)
    stage := if tbit f 0 then .finished else .waiting
    done := tbit f 1, withdrawn := tbit f 2, loose := tbit f 3, saved := tbit f 4, rpl := tbit f 5
    status := wordAt b 12, cflags := wordAt b 13, afterMark := false
    result := if tbit f 6 then some (BitVec.ofNat 32 (wordAt b 14)) else none }

/-- Cut `n` blocks of `size` bytes from offset `o`. -/
def blocks (b : Bytes) (o size n : Nat) : List Bytes :=
  (List.range n).map fun i => (b.drop (o + i * size)).take size

/-- The pages of the pages section: IOVA page, size in 4 KiB pages, and content. -/
def pagesOf : Nat → Bytes → List (Nat × Nat × Bytes)
  | 0, _ => []
  | n + 1, b =>
    let size := dwordAt b 2
    (dwordAt b 0 / 4096, size / 4096, (b.drop 16).take size) :: pagesOf n (b.drop (16 + size))

/-- A blob opened: its sections (R211). -/
structure Opened where
  part : Part
  rings : List (Nat × Ring)
  jrnl : List JRec
  keys : List Bytes
  pages : List (Nat × Nat × Bytes)
deriving DecidableEq, Repr

/-- Read the sections of the clear part for partition `p` (R211, R212). -/
def openBlob (p : Nat) (b : Bytes) : Opened :=
  let r := readRec b
  let st := b.drop 64
  let ctx := (List.range 75).map fun i => leAt (b.drop 128) (8 * i) 8
  let binds := (List.range 64).map fun i =>
    (BitVec.ofNat 32 (wordAt (b.drop 1152) (2 * i)), BitVec.ofNat 32 (wordAt (b.drop 1152) (2 * i + 1)))
  let nj := leAt b 2688 8
  let ok := 2688 + up64 (8 + 96 * nj)
  let nk := leAt b ok 8
  let ol := ok + up64 (8 + 64 * nk)
  let load := (b.drop ol).take r.loadLen
  let op := ol + up64 r.loadLen
  let pages := pagesOf (leAt b op 8) (b.drop (op + 8))
  let resume : Enable := if wordAt st 1 = 0 then .off else if wordAt st 1 = 1 then .stopping else .on
  { part := { newPart p r load with
      st := .frozen, resume := resume, budget := wordAt st 2, quota := wordAt st 3, resets := wordAt st 6
      ctx := ctx, markCtx := ctx, instret := ctx.getD 74 0
      binds := (binds.reverse.dropWhile fun e => e.1 == 0).reverse
      pages := pages.foldl (fun t e => put t e.1 e.2.1) [] }
    rings := (List.range 8).filterMap fun i =>
      (ringOfBytes ((b.drop (1664 + 128 * i)).take 128)).map fun x => (8 * p + i, x)
    jrnl := (blocks b 2696 96 nj).map (entryOfBytes p)
    keys := blocks b (ok + 8) 64 nk
    pages := pages }

/-- The lowest free slots (R432). -/
def freeSlots (s : State) : List Nat := (List.range 2048).filter fun k => (slotOf k s).st == .empty

/-- Unwrap a key of a blob (R429). -/
def unwrapKey (gsk b : Bytes) : Option Bytes :=
  unwrapKw (kdf gsk Config.labelWrap (b.take 16)) ((b.drop 16).take 40)

/-- Place the keys of a blob, in its order, in the lowest free slots; `branch` is the slot of the last
Branch (R432). -/
def placeKeys (p : Nat) (gsk : Bytes) : List Bytes → List Nat → Nat → State → State
  | b :: bs, k :: ks, branch, s =>
    let level := leAt b 1 1
    let x : KSlot :=
      { st := .valid, level := level, alg := leAt b 2 1, usage := leAt b 3 1, owner := 2, part := p
        overlap := leAt b 6 2, keyId := leAt b 8 4, parent := if level = 1 then 0 else branch
        key := (unwrapKey gsk b).getD [], block := b }
    let t := writeSlot k (sealSlot s.mram.root x) s
    placeKeys p gsk bs ks (if level = 1 then k else branch) t
  | _, _, _, s => s

/-- The status of an opened blob on this module (R177, R212). -/
def restoreStatus (o : Opened) (b gsk : Bytes) (s : State) : Nat :=
  checks ([((readRec b).triad != 0, stDenied)] ++ recChecks b s ++
    [(decide (mapped o.part ≤ framesLeft s), stNoResource),
     (decide (o.keys.length ≤ (freeSlots s).length), stNoResource),
     (decide (jrnlUsed s + o.jrnl.length ≤ Config.journalMax), stNoResource),
     (o.keys.all fun k => (unwrapKey gsk k).isSome, stBadArg)])

/-- The contents of the pages. -/
def fillPages (p : Nat) : List (Nat × Nat × Bytes) → List Host.Cell → List Host.Cell
  | [], m => m
  | e :: es, m => fillPages p es (Memory.write m (partBase p + e.1 * 4096) e.2.2)

/-- A restored ring, whose `LAST_OSN` stands in its shadow line among the pages (R114, R212). -/
def ringFromShadow (p : Nat) (m : List Host.Cell) (x : Ring) : Ring :=
  let n := ofLe (Memory.read m (partBase p + x.shadow + 16) 8)
  { x with lastOsn := n, markOsn := n }

/-- Partition `p` as the blob gives it: FROZEN, its rings 8 × p + i, its keys and pages, for frames that Heartwood
requests (R207, R212). -/
def restored (p : Nat) (o : Opened) (gsk : Bytes) (s : State) : State :=
  let s1 := setPart p o.part s
  let m := fillPages p o.pages s1.mem
  let s2 := { s1 with
    mem := m
    pgk := takeFrames (mapped o.part) (if o.part.pages.isEmpty then s1 else pgkAsk 16 s1).pgk
    rng := { s1.rng with
      rings := o.rings.foldl (fun t e => put t e.1 (ringFromShadow p m e.2)) s1.rng.rings
      jrnl := s1.rng.jrnl ++ o.jrnl
      peak := max s1.rng.peak (s1.rng.jrnl ++ o.jrnl).length } }
  placeKeys p gsk o.keys (freeSlots s2) 0 s2

/-- The clear part of a blob, where its tag holds (R212). -/
def openSealed (gsk b : Bytes) : Option Bytes := gcmOpen gsk ((b.drop 32).take 12) (b.take 64) (b.drop 64)

/-- The triad that the record of a blob names; 16, no triad, while it cannot be read. -/
def blobTriad (b : Bytes) (s : State) : Nat :=
  match (groveBranch s).bind fun g => openSealed (groveSeal g) b with
  | some plain => (readRec plain).triad
  | none => 16

/-- The partition exists as MIGRATING, on the triad of its record (R174, R213), with nothing yet. -/
def startRestore (c : Cmd) (s : State) : State :=
  let t := blobTriad c.block s
  setPart (argPart c) { st := .migrating, home := t, triad := t, dirty := 0 } s

/-- PART_RESTORE (R212): runs beside the executor. -/
def execPartRestore (c : Cmd) (s : State) : Out := runBeside 0x0109 .blob judgePartRestore startRestore c s

/-- The restore ends: the blob is judged and the partition is FROZEN, or it is gone again (R174,
R212). -/
def finishRestore (c : Cmd) (s0 : State) : Res :=
  let p := argPart c
  let s := testGrove s0
  let b := c.block
  let gone := { s with cnp := { s.cnp with parts := del s.cnp.parts p } }
  match groveBranch s with
  | none => res gone stDenied
  | some g =>
    let gsk := groveSeal g
    if !headerOk b then res gone stBadArg
    else if some (leAt b 24 8) ≠ groveTag s then res gone stDenied
    else match openSealed gsk b with
      | none => res gone stBadArg
      | some plain =>
        let o := openBlob p plain
        let st := restoreStatus o plain gsk gone
        if st ≠ stOk then res gone st else res (restored p o gsk gone) stOk

end Sys2Proof.Machine
end

