-- ==== Sys2Proof/Machine/Rings.lean ====
section
/-! DEFINITION. Ring commands, doorbells, the start of an operation and NOP (R99 to R125, R158). -/

namespace Sys2Proof.Machine

open Sys2Proof

/-- The ring r of a ring command, ARG0[11:0] (R158). -/
def argRing (c : Cmd) : Nat := arg0 c.desc % 4096

/-- Ring `r`, if present. -/
def ringOf (r : Nat) (s : State) : Option Ring := look s.rng.rings r

/-- Rings 2,048 and 2,049 are named in no ring command but `RING_QUERY` (R143). -/
def notCommandRing (c : Cmd) : Bool := argRing c != Config.ringP0 && argRing c != Config.ringHost

/-! ### RING_CREATE (R101, R158) -/

/-- The ring that a ring record describes (R158), as it stands at creation (R105, R119). `LOG2S` has four bits, so a
ring of 65,536 descriptors, which R101 allows, cannot be coded: the model takes the field as it stands (DESIGN CHOICE,
log entry 88). -/
def ringRecord (b : Bytes) : Ring :=
  let w := wordAt b 0
  { binding := w % 16, log2s := bits w 11 8, weight := bits w 22 16, weightNext := bits w 22 16
    quota := wordAt b 1, submit := dwordAt b 2, compl := dwordAt b 4, doorbell := dwordAt b 6
    shadow := dwordAt b 8, barg := BitVec.ofNat 32 (wordAt b 10) }

/-- The regions of a ring: address and size (R101). -/
def regions (x : Ring) : List (Nat × Nat) :=
  [(x.submit, ringSize x * 32), (x.compl, ringSize x * 16), (x.doorbell, 64), (x.shadow, 64)]

/-- Two regions share no byte. -/
def disjoint (a b : Nat × Nat) : Bool := a.1 + a.2 ≤ b.1 || b.1 + b.2 ≤ a.1

/-- The page of a ring's doorbell line (R101). -/
def bellPage (x : Ring) : Nat × Nat := (x.doorbell / 4096 * 4096, 4096)

/-- The page is mapped uncached and strongly ordered: it holds the doorbell line of a ring of partition `p` (R101). -/
def strongPage (p page : Nat) (s : State) : Bool :=
  (s.rng.rings.filter fun e => ringOwner e.1 == some p).any fun e => e.2.doorbell / 4096 == page

/-- The regions lie in the address space, are aligned, and the doorbell line is alone in its page
(R101). -/
def regionsOk (x : Ring) : Bool :=
  let n := ringSize x
  x.submit % (n * 32) == 0 && x.compl % (n * 16) == 0 && x.doorbell % 64 == 0 && x.shadow % 64 == 0 &&
    (regions x).all (fun g => decide (g.1 + g.2 ≤ 2 ^ 48)) &&
    disjoint (x.submit, n * 32) (x.compl, n * 16) && disjoint (x.submit, n * 32) (x.shadow, 64) &&
    disjoint (x.compl, n * 16) (x.shadow, 64) && disjoint (bellPage x) (x.submit, n * 32) &&
    disjoint (bellPage x) (x.compl, n * 16) && disjoint (bellPage x) (x.shadow, 64)

/-- The rings of a partition, ring 2,048 among those of P0. -/
def ownRings (p : Nat) (s : State) : List Ring :=
  ((resetRings p s).filterMap fun r => ringOf r s)

/-- The regions keep clear of those of the partition's other rings, doorbell pages included (R101). -/
def apartFrom (p : Nat) (x : Ring) (s : State) : Bool :=
  (ownRings p s).all fun y =>
    (regions x).all (fun g => disjoint g (bellPage y) && (regions y).all (disjoint g)) &&
      (regions y).all (disjoint (bellPage x))

/-- The binding argument is valid for the binding (R272, R353, R413, R534). -/
def bargOk (x : Ring) : Bool :=
  if x.binding = 1 then decide (x.barg.toNat ≤ 1) else x.barg == 0

/-- Every field of a ring record lies in its range (R158). The value 16 of `LOG2S` does not fit its four bits (log
entry 88). -/
def ringRanges (b : Bytes) : Bool :=
  let x := ringRecord b
  let w := wordAt b 0
  decide (1 ≤ x.binding) && decide (x.binding ≤ 5) && decide (6 ≤ x.log2s) && decide (x.log2s ≤ 16) &&
    decide (1 ≤ x.weight) && decide (x.weight ≤ 64) && bits w 7 4 == 0 && bits w 15 12 == 0 &&
    bits w 31 23 == 0 && decide (1 ≤ x.quota) && decide (x.quota ≤ ringSize x) && wordAt b 11 == 0 &&
    bargOk x && regionsOk x

/-- The pages of the regions of a ring. -/
def regionPages (x : Ring) : List Nat :=
  (regions x).flatMap fun g => (List.range (pagesFor (g.1 % 4096 + g.2))).map (g.1 / 4096 + ·)

/-- The pages of its regions that a new ring of partition `p` has to map, each once. -/
def newPages (p : Nat) (x : Ring) (s : State) : List Nat :=
  ((regionPages x).eraseDups).filter fun g => !(((partOf p s).map fun y => isMapped y (g * 4096)).getD false)

/-- Map the pages of a list; none where the quota or the pool forbids one. -/
def mapPages (p : Nat) (pages : List Nat) (s : State) : Option State :=
  pages.foldl (fun o g => o.bind (touch p (g * 4096))) (some s)

def judgeRingCreate (c : Cmd) (s : State) : Nat :=
  let r := argRing c
  let x := ringRecord c.block
  judged c s [(notCommandRing c, stDenied), (decide (r < 2048), stBadArg), (inputBlock c 48 s, stBadArg),
    (ringRanges c.block, stBadArg), (partExists (r / 8) s, stNotFound), (apartFrom (r / 8) x s, stBadArg),
    ((ringOf r s).isNone && stateOf (r / 8) s != some .migrating, stWrongState),
    (decide ((newPages (r / 8) x s).length ≤ framesLeft s), stNoResource),
    ((mapPages (r / 8) (regionPages x) s).isSome, stOverQuota)]

/-- The ring is OFF at generation 1, its pages are mapped and its shadow line is written (R101, R114). -/
def effRingCreate (c : Cmd) (s : State) : Res :=
  let r := argRing c
  let x := ringRecord c.block
  match mapPages (r / 8) (regionPages x) (if (newPages (r / 8) x s).isEmpty then s else pgkAsk 16 s) with
  | none => res s stOverQuota
  | some t => resOk (writeShadow r { t with rng := { t.rng with rings := put t.rng.rings r x } }) 1

/-- RING_CREATE (R101, R158). -/
def execRingCreate (c : Cmd) (s : State) : Out := runNow 0x0201 judgeRingCreate effRingCreate c s

/-! ### The other ring commands -/

/-- The checks that ring commands share: authority, range and existence (R143, R158). -/
def ringChecks (c : Cmd) (s : State) : List (Bool × Nat) :=
  [(notCommandRing c, stDenied), (decide (argRing c < 2048), stBadArg), (noBlock c, stBadArg),
   ((ringOf (argRing c) s).isSome, stNotFound)]

/-- Change ring `r` and rewrite its shadow line (R114). -/
def setRing (r : Nat) (x : Ring) (s : State) : State :=
  writeShadow r { s with rng := { s.rng with rings := put s.rng.rings r x } }

def judgeRingEnable (c : Cmd) (s : State) : Nat := judged c s (ringChecks c s)

def effRingEnable (c : Cmd) (s : State) : Res :=
  match ringOf (argRing c) s with
  | none => res s stNotFound
  | some x =>
    let e := enableRule x.st x.held
    res (setRing (argRing c) { x with st := e.1, held := e.2.1 } s) e.2.2

/-- RING_ENABLE (R149, R158). -/
def execRingEnable (c : Cmd) (s : State) : Out := runNow 0x0202 judgeRingEnable effRingEnable c s

def judgeRingDisable (c : Cmd) (s : State) : Nat := judged c s (ringChecks c s)

def effRingDisable (c : Cmd) (s : State) : Res := res (disableRing (argRing c) s) stOk

/-- RING_DISABLE (R149, R158). -/
def execRingDisable (c : Cmd) (s : State) : Out := runNow 0x0203 judgeRingDisable effRingDisable c s

/-- The ring is OFF. -/
def ringOff (r : Nat) (s : State) : Bool := ((ringOf r s).map fun x => x.st == .off).getD true

/-- An operation of the generation that a reset would take is still inside an engine (R121). -/
def genBusy (r : Nat) (s : State) : Bool :=
  s.rng.ghosts.any fun g => g.1 == r && g.2.1 == genAfter (genOf r s)

def judgeRingReset (c : Cmd) (s : State) : Nat :=
  judged c s (ringChecks c s ++
    [(ringOff (argRing c) s, stWrongState), (!genBusy (argRing c) s, stBusy)])

def effRingReset (c : Cmd) (s : State) : Res :=
  let t := newGeneration (argRing c) s
  resOk t (genOf (argRing c) t)

/-- RING_RESET (R119 to R121). -/
def execRingReset (c : Cmd) (s : State) : Out := runNow 0x0204 judgeRingReset effRingReset c s

def judgeRingDestroy (c : Cmd) (s : State) : Nat :=
  judged c s (ringChecks c s ++ [(ringOff (argRing c) s, stWrongState)])

/-- The ring is gone with its entries; WITHDRAWN and LOOSE ones are reported, those that a save
withdrew are not (R128, R210). -/
def effRingDestroy (c : Cmd) (s : State) : Res :=
  let r := argRing c
  let lost := s.rng.jrnl.filter fun e => e.ring == r && (e.withdrawn || e.loose) && !e.saved
  res (unmatchedAll lost { s with
   cnp := { s.cnp with bells := s.cnp.bells.filter fun b => b.1 != r }
   rng := { s.rng with
    rings := del s.rng.rings r
    ghosts := s.rng.ghosts ++ inEngine r s
    orphans := s.rng.orphans.filter fun e => e.ring != r
    jrnl := s.rng.jrnl.filter fun e => e.ring != r } }) stOk

/-- RING_DESTROY (R158). -/
def execRingDestroy (c : Cmd) (s : State) : Out := runNow 0x0205 judgeRingDestroy effRingDestroy c s

/-- W of `RING_SHARE` (R158). -/
def shareW (c : Cmd) : Nat := bits (arg0 c.desc) 22 16

def judgeRingShare (c : Cmd) (s : State) : Nat :=
  let u := arg1 c.desc
  judged c s [(notCommandRing c, stDenied),
    (decide (argRing c < 2048) && decide (1 ≤ shareW c) && decide (shareW c ≤ 64) && decide (1 ≤ u), stBadArg),
    (noBlock c, stBadArg), ((ringOf (argRing c) s).isSome, stNotFound),
    (((ringOf (argRing c) s).map fun x => decide (u ≤ ringSize x)).getD true, stBadArg)]

/-- W takes effect at the start of the next round, U at once, so that a ring at or above it leaves the round (R124,
R125). -/
def effRingShare (c : Cmd) (s : State) : Res :=
  res (modRing (argRing c) (fun x =>
    { x with weightNext := shareW c, quota := arg1 c.desc
             inRound := x.inRound && decide (occupancy x < arg1 c.desc) }) s) stOk

/-- RING_SHARE (R125, R158). -/
def execRingShare (c : Cmd) (s : State) : Out := runNow 0x0206 judgeRingShare effRingShare c s

def judgeRingQuery (c : Cmd) (s : State) : Nat :=
  judged c s [(decide (argRing c < 2050), stBadArg), (noBlock c, stBadArg),
    ((ringOf (argRing c) s).isSome, stNotFound)]

/-- Generation, state and occupancy (R158). -/
def effRingQuery (c : Cmd) (s : State) : Res :=
  match ringOf (argRing c) s with
  | none => res s stNotFound
  | some x => resOk s (x.gen + 2 ^ 8 * enCode x.st + 2 ^ 15 * occupancy x)

/-- RING_QUERY (R158). -/
def execRingQuery (c : Cmd) (s : State) : Out := runNow 0x0207 judgeRingQuery effRingQuery c s

/-! ### Doorbells (R115 to R117) -/

/-- An emission has passed its vote (R22). -/
def hasPassed (e : Emission) (s : State) : Bool := s.cnp.passed.contains e

/-- The passed emission takes effect, once. -/
def usePassed (e : Emission) (s : State) : State :=
  { s with cnp := { s.cnp with passed := s.cnp.passed.erase e } }

/-- The ring's doorbell needs a vote: every ring but the host's (R116, R185). -/
def voted (r : Nat) : Bool := r != Config.ringHost

/-- What the module reads of the lines beside the doorbell (R113, R147): Q, and on a command ring the
words of its event line. -/
def sampleLines (r : Nat) (ccons econs een : Word) (s : State) : State :=
  let s1 := modRing r (fun x => { x with q := ccons }) s
  if r = Config.ringP0 then
    { s1 with hw := { s1.hw with evP0 := { s1.hw.evP0 with econs := econs, een := een } } }
  else if r = Config.ringHost then
    { s1 with hw := { s1.hw with evHost := { s1.hw.evHost with econs := econs, een := een } } }
  else s1

/-- The module judges a passed doorbell value (R117). -/
def judgeBell (r : Nat) (prod : Word) (s : State) : State :=
  match ringOf r s with
  | none => s
  | some x =>
    if (prod - x.a).toInt ≤ 0 then s
    else if (prod - x.q).toInt ≤ (ringSize x : Int) then setRing r { x with a := prod } s
    else ringEvent 0 0x0210 2 r [] none s

/-- The doorbell value of a ring whose turn it is: the first that the voter passed for it and that has not had its
effect (R116). -/
def nextBell (r : Nat) (s : State) : Option Word :=
  s.cnp.passed.findSome? fun e => match e with
    | .doorbell q v => if q = r then some v else none
    | _ => none

/-- DOORBELL (R115 to R117): a store to `PROD` of an armed line, passed by the voter and in its order. -/
def execDoorbell (ring : Nat) (prod ccons econs een : Word) (s : State) : Out :=
  let armed := match ringOf ring s with
    | some x => x.st != .off
    | none => false
  named (decide (ring < 2050))
    (act (armed && (!voted ring || nextBell ring s == some prod)) s
      (judgeBell ring prod (sampleLines ring ccons econs een (usePassed (.doorbell ring prod) s))))

/-! ### Service rounds (R123 to R125) -/

/-- The engine that serves a ring: the switch core has bindings 1 and 2 (R100). -/
def engineOf (x : Ring) : Nat := if x.binding = 2 then 1 else x.binding

/-- The owner of a ring may have descriptors consumed (R77, R209): not FROZEN or MIGRATING, nor in a PARTITION reset. -/
def ownerServes (r : Nat) (s : State) : Bool :=
  match ringOwner r with
  | none => true
  | some p =>
    let st := stateOf p s
    st.isSome && st != some .frozen && st != some .migrating && !partHeld p s

/-- A ring is eligible (R124). -/
def eligible (r : Nat) (x : Ring) (s : State) : Bool :=
  x.st == .on && decide (0 < (x.a - x.c).toInt) && decide (occupancy x < x.quota) && ownerServes r s

/-- The ring takes part in the round in progress and has not used its W (R124). -/
def hasShare (r : Nat) (x : Ring) (s : State) : Bool := x.inRound && eligible r x s && decide (x.used < x.weight)

/-- Every eligible ring of the engine has used its W or stopped being eligible, so that the round ends (R124). -/
def roundOver (eng : Nat) (s : State) : Bool :=
  s.rng.rings.all fun e => decide (2048 ≤ e.1) || engineOf e.2 != eng || !hasShare e.1 e.2 s

/-- A new round: the rings that are eligible now take part, shares start again, with the weights set meanwhile (R124,
R125). -/
def newRound (eng : Nat) (s : State) : State :=
  let turn := fun (e : Nat × Ring) =>
    if e.1 < 2048 ∧ engineOf e.2 = eng then
      (e.1, { e.2 with used := 0, weight := e.2.weightNext, inRound := eligible e.1 e.2 s })
    else e
  { s with rng := { s.rng with rings := s.rng.rings.map turn } }

/-- The rings of the round in progress that have stopped being eligible leave it (R124). -/
def leaveRound (eng : Nat) (s : State) : State :=
  let turn := fun (e : Nat × Ring) =>
    if e.1 < 2048 ∧ engineOf e.2 = eng then (e.1, { e.2 with inRound := e.2.inRound && eligible e.1 e.2 s }) else e
  { s with rng := { s.rng with rings := s.rng.rings.map turn } }

/-- The engine's rings in the round in which a descriptor is consumed. The round is judged when a descriptor is
consumed, so that one which ended earlier begins then (DESIGN CHOICE, log entry 26); a ring leaves it where it stops
being eligible. -/
def roundFor (eng : Nat) (s : State) : State := if roundOver eng s then newRound eng s else leaveRound eng s

/-! ### The start of an operation (R106) -/

/-- An entry precedes the submit sequence `seq`. -/
def before (e : JRec) (seq : Word) : Bool := decide ((seq - e.seq).toInt > 0)

/-- The operation may start: it waits, every earlier operation of its ring has started, and with
`FENCE` every earlier one has completed (R106). A LOOSE one is not withdrawn from its engine (R130), and a PARTITION
reset holds its rings (R77). -/
def mayStart (r : Nat) (seq : Word) (s : State) : Bool :=
  match entryOf r seq s with
  | none => false
  | some e =>
    let earlier := s.rng.jrnl.filter fun x => x.ring == r && x.gen == e.gen && before x seq
    e.stage == .waiting && !e.saved && !(((ringOwner r).map fun p => partHeld p s).getD false) && earlier.all (fun x => x.stage != .waiting || x.saved) &&
      (!fenceOf e.desc || earlier.all fun x => x.done)

/-- The operation has started in its engine. -/
def markStarted (r : Nat) (seq : Word) (s : State) : State :=
  modEntry r (genOf r s) seq (fun e => { e with stage := .started }) s

/-- The ring's binding. -/
def bindingOf (r : Nat) (s : State) : Nat := ((ringOf r s).map fun x => x.binding).getD 0

/-- An operation of binding `b` and opcode `op` may start (R100, R106). -/
def opReady (b op r : Nat) (seq : Word) (s : State) : Bool :=
  bindingOf r s == b && mayStart r seq s && ((entryOf r seq s).map fun e => opOf e.desc == op).getD false

/-! ### Emitting operations: votes and shadow execution (R22, R185, R474) -/

/-- The ring belongs to a mirrored partition in shadow execution on a STANDBY (R473). -/
def shadowed (r : Nat) (s : State) : Bool :=
  s.gft.role == .standby &&
    (((ringOwner r).bind fun p => partOf p s).map fun x => !x.mirror.isEmpty).getD false

/-- A partition becomes STALE (R474): it is re-seeded at the next commit. -/
def markStale (p : Nat) (s : State) : State :=
  modPart p (fun x => { x with current := false, stale := true }) s

/-- An operation of a shadow is held: neither executed nor completed; at most 4,096 are held (R474). -/
def holdOp (r : Nat) (seq : Word) (p : Payload) (s : State) : State :=
  let s1 := markStarted r seq s
  if 4096 ≤ s.gft.held.length then markStale (r / 8) s1
  else { s1 with gft := { s1.gft with
      held := s1.gft.held ++ [{ ring := r, seq := seq, payload := p, tick := s1.cnp.tickStart }] } }

/-- The bytes of a payload: those of a frame end before its FCS. -/
def opBytes : Payload → Bytes
  | .frame f => frameBytes f
  | .bytes b => b

/-- CRC-32C over the descriptor and the payload (R474). -/
def opCrc (d : Desc) (p : Option Payload) : Word :=
  BitVec.ofNat 32 (crc32c (descBytes d ++ ((p.map opBytes).getD [])))

/-- An emitting operation of a mirrored partition starts on an active module: its LOG will carry the CRC
(R474). -/
def noteCrc (b r : Nat) (seq : Word) (p : Option Payload) (s : State) : State :=
  let mine := ((ringOwner r).bind fun q => partOf q s).map fun x => !x.mirror.isEmpty
  if b ≠ 4 ∧ activePaired s ∧ mine = some true then
    modEntry r (genOf r s) seq (fun e => { e with crc := some (opCrc e.desc p) }) s
  else s

/-- A row of an operation of an emitting binding or of EXPORT: it starts in its engine once its payload has
passed the vote; one of an emitting binding is held by a shadow. -/
def emitRow (b op ring : Nat) (seq : Word) (p : Option Payload) (s : State) (eff : State → State) : Out :=
  let e := Emission.payload ring seq (p.getD (.bytes []))
  named (decide (ring < 2048))
    (act (opReady b op ring seq s && (p.isNone || hasPassed e s)) s
      (let t := if p.isSome then usePassed e s else s
       if b ≠ 4 ∧ shadowed ring t then holdOp ring seq (p.getD (.bytes [])) t
       else eff (noteCrc b ring seq p (markStarted ring seq t))))

/-- NOP (R100): completes with OK and has no other effect. On a command ring it is Heartwood's
command 0000h (R145). -/
def execNop (ring : Nat) (seq : Word) (s : State) : Out :=
  let isNop := ((entryOf ring seq s).map fun e => opOf e.desc == 0).getD false
  named (decide (ring < 2050))
    (if ring < 2048 then act (isNop && mayStart ring seq s) s (finishNow ring seq stOk none s)
     else match s.hw.exec with
      | some c => act (isNop && c.ring == ring && c.desc.w1 == seq && holds 0 c s) s (complete c (res s stOk))
      | none => .next s)

end Sys2Proof.Machine
end

