-- ==== Sys2Proof/Machine/Start.lean ====
section
/-! DEFINITION. The release sequence, Heartwood start, images and Seedling (R83 to R98, R144, R165 to
R168, R171, R172). -/

namespace Sys2Proof.Machine

open Sys2Proof

/-! ### Trim, strap, PLL lock and training (R83 to R87, R91) -/

/-- The release sequence is in step `p`, at least `ns` after the step began. -/
def inPhase (p : Phase) (ns : Nat) (s : State) : Bool :=
  s.pow.vaux && s.rst.phase == p && decide (s.rst.phaseAt + ns ≤ s.clk.now)

/-- The release sequence goes to step `p`. -/
def toPhase (p : Phase) (s : State) : State :=
  { s with rst := { s.rst with phase := p, phaseAt := s.clk.now } }

/-- A trim load that matches its CRC (R84): the aborts before it are kept in `ABORTS`. -/
def trimDone (s : State) : State :=
  toPhase .strap { s with rst := { s.rst with aborts := s.rst.trimAborts, trimAborts := 0, strapTries := 0 } }

/-- A CRC that does not match aborts the load of all 6,144 words; it restarts from its first word at once where no
source is asserted, and else once all are released (R84). -/
def trimMismatch (s : State) : State :=
  let t := trimAbort 1 6144 s
  if t.rst.loadFail then t
  else if (liveSources t).isEmpty then toPhase .trim t
  else toPhase .held { t with rst := { t.rst with needAll := true } }

/-- The CRC-32 that follows the words of the fuse array matches them (R83, R559). -/
def trimMatches (words : List Word) (crc : Word) : Bool :=
  words.length == 6144 && crc32 (words.flatMap fun w => toLe 4 w.toNat) == crc.toNat

/-- TRIM_LOAD_END (R83, R84): 492,000 ns after the load began, the words stand in their shadow registers and the CRC
is judged. -/
def execTrimLoadEnd (words : List Word) (crc : Word) (s : State) : Out :=
  let t := { s with rst := { s.rst with shadow := words } }
  act (inPhase .trim 492000 s) s (if trimMatches words crc then trimDone t else trimMismatch t)

/-- The bin of 16 conversions, if they agree (R86). -/
def strapBinOf (codes : List Nat) : Option Nat :=
  match codes with
  | [] => none
  | c :: r => if r.all fun d => d / 4 == c / 4 then some (c / 4) else none

/-- STRAP_INVALID (R86, R87): the module holds in reset. -/
def strapHold (s : State) : State :=
  toPhase .held { s with rst := { s.rst with strapInvalid := true } }

/-- An accepted bin selects the role and position (R87, R97, R453). -/
def strapAccept (bin code : Nat) (s : State) : State :=
  let mode := strapMode bin
  toPhase .pll { s with
    rst := { s.rst with strapOk := true, strapCode := code, strapBin := bin }
    gft := { s.gft with
      role := if mode = 1 ∨ mode = 2 then .idle else .standalone
      posB := mode == 2 } }

/-- STRAP_MEASUREMENT_END (R86, R87): a set of 16 conversions is complete. -/
def execStrapMeasurementEnd (codes : List Nat) (s : State) : Out :=
  act (inPhase .strap 36000 s && codes.length == 16 && codes.all fun c => decide (c < 64)) s
    (match strapBinOf codes with
     | some bin => if bin = 15 then strapHold s else strapAccept bin (codes.getLastD 0) s
     | none =>
       let n := s.rst.strapTries + 1
       let t := { s with rst := { s.rst with strapTries := n } }
       if 4 ≤ n then strapHold t else toPhase .strap t)

/-- PLL_LOCK (R26, R91, R292, R537): the FRC starts at 0 and the arbiter runs; the event of an inhibit
latched at the release is raised. The PCIe endpoint starts, where PERST_N is high. -/
def execPllLock (s : State) : Out :=
  act (inPhase .pll 0 s) s
    (let s1 := toPhase .lanes { s with
       clk := { s.clk with frc := 0, frcOn := true }
       rst := { s.rst with pcieAt := if s.rst.perstN then some s.clk.now else none } }
     if s1.out.inhDue then
       raise { src := 13, code := 0x0A10, sev := some 1 } { s1 with out := { s1.out with inhDue := false } }
     else s1)

/-- Event 0933h for each memory of which a repair found no spare (R504). -/
def noSpares : List Nat → State → State
  | [], s => s
  | m :: ms, s => noSpares ms (raise { src := 12, code := 0x0933, index := m } s)

/-- LANES_TRAINED (R91, R504): SRAMs and lanes are ready and the repairs are applied, so that repaired
lane frames are no longer hard. -/
def execLanesTrained (noSpare : List Nat) (s : State) : Out :=
  act (inPhase .lanes 0 s && noSpare.all fun m => decide (m < 16)) s
    (noSpares noSpare (toPhase .warmHold { s with
      pgk := { s.pgk with hard := [] }
      ecc := { s.ecc with exhausted := !noSpare.isEmpty } }))

/-! ### Heartwood start (R91, R92, R94, R144) -/

/-- The two command rings at Heartwood start, ON at generation 1 (R144). -/
def ringP0Start : Ring :=
  { submit := 0x10000, compl := 0x12000, doorbell := 0x13000, shadow := 0x14000, st := .on }
def ringHostStart : Ring :=
  { submit := 0, compl := 0x2000, doorbell := 0x3000, shadow := 0x4000, st := .on }

/-- Heartwood turns to the next image source now (R92): the host opens its window; with no source left
the start has failed (R93). -/
def turnTo (sources : List Nat) (s : State) : State :=
  let s1 := { s with boot := { s.boot with
    sources := sources, readAt := s.clk.now
    hostOpen := sources.head? == some 2, hostPending := false
    lastTried := sources.headD s.boot.lastTried } }
  if sources.isEmpty then failedStart 1 s1 else s1

/-- Boot state at Heartwood start (R92, R94, R167). -/
def bootStart (s : State) : Boot :=
  let seed := decide (3 ≤ s.mram.fails) || s.rst.strapBin == 0
  { flash := s.boot.flash, flashBusy := s.boot.flashBusy, startAt := s.clk.now, timerOn := !seed, seedling := seed }

/-- Ticks at Heartwood start: the present tick of the bound time line (R192). -/
def tickStart (s : State) : Cnp :=
  let line := lineNow s
  let f := baseRate s.cnp.rate
  { s.cnp with
    inTail := false
    tickStart := line / 1000000000 * 1000000000 + tickStartNs f (tickOf f line)
    tickFrc := s.clk.frc - (line % 1000000000 - tickStartNs f (tickOf f line))
    tickEnd := nextTickNs f line }

/-- Port 0 in Seedling: ON at 1 Gb/s (R94). The spec gives no other value of its set-up block: 1000BASE-X, frames of
up to 1,518 bytes and every option off (DESIGN CHOICE, log entry 91). A port that a WARM reset kept so stays as it is
(R77). -/
def seedPort (s : State) : State :=
  let p : Port := { cfg := some [2, 1518, 1, 0, 0, 0, 0, 0], en := .on, link := .training, since := s.clk.frc }
  let now := lookD s.prt.ports 0 {}
  if now.cfg = p.cfg ∧ now.en = .on then s else
  { s with prt := { s.prt with ports := put s.prt.ports 0 p } }

/-- Heartwood starts (R91): the reach that governed is the last one released (R96). -/
def heartwoodStart (s : State) : State :=
  let s1 := { s with
    rst := { s.rst with
      sources := [], phase := .started, phaseAt := s.clk.now, reach := none
      lastReach := if s.rst.reach == some Reach.warm then 2 else 1 }
    boot := bootStart s
    rng := { s.rng with rings := [(Config.ringP0, ringP0Start), (Config.ringHost, ringHostStart)] }
    hw := { polls := s.hw.polls }
    prt := { s.prt with ports := s.prt.ports.map fun (e : Nat × Port) => (e.1, { e.2 with freed := false }) } }
  let s2 := writeShadow Config.ringHost { s1 with cnp := tickStart s1 }
  if s2.boot.seedling then applyPins (seedPort s2) else turnTo (strapSources s2.rst.strapBin) s2

/-- Heartwood may start: the sequence has reached this step and no source holds it (R91). -/
def mayHeartwood (s : State) : Bool := inPhase .warmHold 0 s && (liveSources s).isEmpty

/-! ### Images (R92, R166) -/

/-- Fields of the image header (R166). -/
def imgMagic (h : Bytes) : Nat := leAt h 0 4
def imgVersion (h : Bytes) : Nat := leAt h 4 4
def imgLen (h : Bytes) : Nat := leAt h 8 4
def imgQuota (h : Bytes) : Nat := leAt h 12 4
def imgEntry (h : Bytes) : Nat := leAt h 16 8
def imgDirty (h : Bytes) : Nat := leAt h 24 4
def imgEpoch (h : Bytes) : Nat := imgVersion h / 2 ^ 24
/-- `n` bytes of a header from `off`, which keep their standard's order (R166). -/
def imgPart (h : Bytes) (off n : Nat) : Bytes := padTo n (h.drop off)

/-- `PUBKEY` is the one whose hash the fuse array holds, and `SIG` verifies under it (R166). -/
def imgSigned (h : Bytes) (m : Mram) : Bool :=
  sha384 (imgPart h 208 97) == m.keyHash && ecdsaOk (imgPart h 208 97) (imgPart h 0 112) (imgPart h 112 96)

/-- The checks that the header of an image decides (R92, R166). An epoch above 64 lies outside the field's range and
is refused, which the list of R166 does not say (DESIGN CHOICE, log entry 89). -/
def headerPasses (h : Bytes) (m : Mram) : Bool :=
  imgMagic h == 0x4F544B49 && decide (imgLen h ≤ 33550336) && decide (pagesFor (imgLen h) ≤ imgQuota h) &&
    decide (m.floor ≤ imgEpoch h) && decide (imgEpoch h ≤ 64) && decide (imgDirty h ≤ 1024) && imgSigned h m

/-- `DIGEST` is the SHA-384 of the body (R166). -/
def digestOk (h body : Bytes) : Bool := sha384 (padTo (imgLen h) body) == imgPart h 64 48

/-- Every check of R166. -/
def imagePasses (h body : Bytes) (m : Mram) : Bool := headerPasses h m && digestOk h body

/-- What a flash slot reads from `off` of it, where it held `b` before the module last changed it: pages that were
programmed since, and FFh where it was erased (R155, R165; log entry 6). -/
def slotReads (f : FlashSlot) (off : Nat) (b : Bytes) : Bytes :=
  (List.range ((b.length + 255) / 256)).flatMap fun i =>
    let old := (b.drop (256 * i)).take 256
    match look f.pages (off / 256 + i) with
    | some new => (padTo 256 new).take old.length
    | none => if f.erased then List.replicate old.length 0xFF else old

/-- The header and the body that a slot reads, of which `i` gives what the module has not changed. -/
def slotHeader (slot : Nat) (i : ImageSeen) (s : State) : Bytes :=
  match look s.boot.flash slot with
  | some f => slotReads f 0 (padTo 4096 i.header)
  | none => padTo 4096 i.header
def slotBody (slot : Nat) (i : ImageSeen) (s : State) : Bytes :=
  let n := min (imgLen (slotHeader slot i s)) 33550336
  match look s.boot.flash slot with
  | some f => slotReads f 4096 (padTo n i.body)
  | none => padTo n i.body

/-- The slot is partly written, so that it fails until it is written again (R155). Start-up refuses it when its header
has been read, whichever of its pages it is (DESIGN CHOICE, log entry 107). -/
def slotBroken (slot : Nat) (s : State) : Bool :=
  match look s.boot.flash slot with
  | some f => !f.partialWrite.isEmpty
  | none => false

/-- A slot is accepted (R92, R155, R166). -/
def slotPasses (slot : Nat) (i : ImageSeen) (s : State) : Bool :=
  !slotBroken slot s && imagePasses (slotHeader slot i s) (slotBody slot i s) s.mram

/-- The ns that a source takes from the start of its read (R92), after the flash has become ready (R155). -/
def readTime (slot : Nat) (i : ImageSeen) (s : State) : Nat :=
  let h := slotHeader slot i s
  if !i.answers then 0
  else (if s.boot.flashBusy then i.busyNs else 0) +
    if slotBroken slot s || !headerPasses h s.mram then 2081920 else (4096 + imgLen h) * 20 + 2000000

/-- P0 runs from an accepted image (R91, R175): STAT 7h, `SLOT` and `VERSION`. -/
def acceptImage (slot : Nat) (h body : Bytes) (s : State) : State :=
  let s1 := createP0 (imgQuota h) (imgDirty h) (imgEntry h) (padTo (imgLen h) body) s
  { s1 with boot := { s1.boot with
      running := true, slot := slot, version := BitVec.ofNat 32 (imgVersion h), sources := []
      hostOpen := false, hostPending := false } }

/-- A source is refused, and Heartwood turns to the next (R92). -/
def refuseImage (st : Nat) (s : State) : State :=
  turnTo s.boot.sources.tail { s with boot := { s.boot with lastStatus := st } }

/-- IMAGE_SOURCE_DONE (R92, R155, R166): the read of the slot at the head of the order ends. -/
def execImageSourceDone (seen : ImageSeen) (s : State) : Out :=
  match s.boot.sources with
  | [] => .next s
  | slot :: _ =>
    let t := { s with boot := { s.boot with flashBusy := false } }
    act (s.rst.phase == .started && !s.boot.seedling && !s.boot.running && slot != 2 &&
        decide (s.boot.readAt + readTime slot seen s ≤ s.clk.now)) s
      (if !seen.answers then refuseImage stFlashFault s
       else if slotPasses slot seen s then acceptImage slot (slotHeader slot seen s) (slotBody slot seen s) t
       else refuseImage stImageRefused t)

/-- An `IMG_HOST_START` has been consumed and has not ended (R167). -/
def hostStarting (s : State) : Bool :=
  s.boot.hostPending || (s.hw.exec.map fun c => opOf c.desc == 0x0914).getD false

/-- HOST_WINDOW_EXPIRY (R167): 2 s from Heartwood start with no `IMG_HOST_START` consumed. -/
def execHostWindowExpiry (s : State) : Out :=
  act (s.rst.phase == .started && s.boot.hostOpen && !hostStarting s && strapImage s.rst.strapBin == 3 &&
      decide (s.boot.startAt + 2000000000 ≤ s.clk.now)) s
    (turnTo s.boot.sources.tail s)

/-! ### MODULE_RESET, BOOT_COMPLETE, SEEDLING_EXIT (R74, R93, R95, R157) -/

/-- Write the completions of ring `r` that are ready, at most `n`. -/
def writeReady (r : Nat) : Nat → State → State
  | 0, s => s
  | n + 1, s => writeReady r n (writeNext r s)

/-- Every earlier operation of the command's ring has finished, so that its completion is next (R111). -/
def earlierFinished (c : Cmd) (s : State) : Bool :=
  s.rng.jrnl.all fun e => e.ring != c.ring || !before e c.desc.w1 || e.stage == .finished

/-- A command that resets the module completes, its completion is written, and its pulse begins (R74). -/
def completeThenPulse (c : Cmd) (src : Source) (r : Res) : State :=
  let t := complete c r
  if r.2.1 = stOk then pulseSource src (writeReady c.ring Config.journalMax t) else t

def judgeModuleReset (c : Cmd) (s : State) : Nat :=
  judged c s [(arg0 c.desc == 1 || arg0 c.desc == 2, stBadArg), (noBlock c, stBadArg)]

def effModuleReset (_c : Cmd) (s : State) : Res := res s stOk

/-- MODULE_RESET (R74, R157). -/
def execModuleReset (c : Cmd) (s : State) : Out :=
  act (holds 0x0130 c s && (statusOf judgeModuleReset c s != stOk || earlierFinished c s)) s
    (completeThenPulse c (if arg0 c.desc = 1 then .cmdCold else .cmdWarm)
      (perform judgeModuleReset effModuleReset c s))

def judgeBootComplete (c : Cmd) (s : State) : Nat :=
  judged c s [(noBlock c, stBadArg), (statHeld s == 7, stWrongState)]

/-- Boot-complete (R93): STAT 8h, the failed-start count is 0, event 0003h. -/
def effBootComplete (_c : Cmd) (s : State) : Res :=
  res (raise { src := 0, code := 3 } { s with
    boot := { s.boot with done := true, timerOn := false }
    mram := savePstate { s.mram with fails := 0 } }) stOk

/-- BOOT_COMPLETE (R93, R157). -/
def execBootComplete (c : Cmd) (s : State) : Out := runNow 0x0131 judgeBootComplete effBootComplete c s

def judgeSeedlingExit (c : Cmd) (s : State) : Nat := judged c s [(noBlock c, stBadArg)]

def effSeedlingExit (_c : Cmd) (s : State) : Res :=
  res { s with mram := savePstate { s.mram with fails := 0 } } stOk

/-- SEEDLING_EXIT (R95): the failed-start count is 0 and the COLD command source asserts. -/
def execSeedlingExit (c : Cmd) (s : State) : Out :=
  act (holds 0x0920 c s && (statusOf judgeSeedlingExit c s != stOk || earlierFinished c s)) s
    (completeThenPulse c .cmdCold (perform judgeSeedlingExit effSeedlingExit c s))

/-! ### Image update (R154, R155, R165, R168) -/

/-- The bytes of a slot (R92). -/
def slotBytesMax : Nat := 33554432

/-- Change what is known of a flash slot. -/
def setFlash (slot : Nat) (f : FlashSlot) (s : State) : State :=
  { s with boot := { s.boot with flash := put s.boot.flash slot f } }

def judgeImgErase (c : Cmd) (s : State) : Nat :=
  judged c s [(decide (arg0 c.desc ≤ 1), stBadArg), (noBlock c, stBadArg), (!kindBusy .image s, stBusy)]

/-- The slot as the module knows it; one that it never changed is as it stands. -/
def flashOf (slot : Nat) (s : State) : FlashSlot := lookD s.boot.flash slot { erased := false }

/-- The erase that QSPI begins completes even through a reset (R155). -/
def startImgErase (c : Cmd) (s : State) : State :=
  setFlash (arg0 c.desc) { erased := true, partialWrite := (flashOf (arg0 c.desc) s).partialWrite } s

/-- IMG_ERASE (R154, R155): runs beside the executor. -/
def execImgErase (c : Cmd) (s : State) : Out := runBeside 0x0910 .image judgeImgErase startImgErase c s

/-- The erase ends with the flash's answer. After a flash error the module reads what stands in the slot, and a slot
that was partly written is not written again by it (R155). -/
def finishImgErase (c : Cmd) (r : BReply) (s : State) : Res :=
  let f := flashOf (arg0 c.desc) s
  if r.flashOk then res (setFlash (arg0 c.desc) { f with partialWrite := [] } s) stOk
  else res (setFlash (arg0 c.desc) { f with erased := false } s) stFlashFault

def judgeImgWrite (c : Cmd) (s : State) : Nat :=
  let n := lenOf c.desc
  judged c s [(decide (arg0 c.desc ≤ 1) && arg1 c.desc % 256 == 0 && n % 256 == 0, stBadArg),
    (dataBlock c 65536 s, stBadArg), (decide (arg1 c.desc + n ≤ slotBytesMax), stBadArg),
    (!kindBusy .image s, stBusy)]

/-- The pages of 256 bytes that an `IMG_WRITE` programs. -/
def writtenPages (c : Cmd) : List Nat := (List.range (lenOf c.desc / 256)).map fun i => arg1 c.desc / 256 + i

/-- Until the write ends, its pages are partly written (R155). -/
def startImgWrite (c : Cmd) (s : State) : State :=
  let f := flashOf (arg0 c.desc) s
  setFlash (arg0 c.desc)
    { f with partialWrite := f.partialWrite ++ (writtenPages c).filter fun k => !f.partialWrite.contains k } s

/-- IMG_WRITE (R154, R155): runs beside the executor. -/
def execImgWrite (c : Cmd) (s : State) : Out := runBeside 0x0911 .image judgeImgWrite startImgWrite c s

/-- The pages are programmed with the data block; after a flash error they stay partly written (R155). -/
def finishImgWrite (c : Cmd) (r : BReply) (s : State) : Res :=
  let f := flashOf (arg0 c.desc) s
  let ks := writtenPages c
  if r.flashOk then
    res (setFlash (arg0 c.desc) { f with
      partialWrite := f.partialWrite.filter fun k => !ks.contains k
      pages := ks.zipIdx.foldl (fun t e => put t e.1 (padTo 256 (c.block.drop (256 * e.2)))) f.pages } s) stOk
  else res s stFlashFault

def judgeImgCheck (c : Cmd) (s : State) : Nat :=
  judged c s [(decide (arg0 c.desc ≤ 1), stBadArg), (noBlock c, stBadArg), (!kindBusy .image s, stBusy)]

/-- IMG_CHECK (R154, R165): runs beside the executor. -/
def execImgCheck (c : Cmd) (s : State) : Out := runBeside 0x0912 .image judgeImgCheck (fun _ t => t) c s

/-- The result is the image's `VERSION`. -/
def finishImgCheck (c : Cmd) (r : BReply) (s : State) : Res :=
  if !r.flashOk || !r.image.answers then res s stFlashFault
  else if !slotPasses (arg0 c.desc) r.image s then res s stImageRefused
  else (s, stOk, some (BitVec.ofNat 32 (imgVersion (slotHeader (arg0 c.desc) r.image s))))

/-- The strap bin allows a host image, Heartwood has no image yet, and the window is open (R165, R167). -/
def hostWindow (s : State) : Bool := statHeld s == 6 && s.boot.hostOpen

/-- Put `b` into the staging area from `off`, in chunks of 256 bytes; a last short chunk leaves the rest
of its place as it was (R167). -/
def stage256 (t : Tbl Bytes) (off : Nat) (b : Bytes) : Tbl Bytes :=
  (List.range ((b.length + 255) / 256)).foldl (fun u i =>
    let k := off / 256 + i
    let new := (b.drop (256 * i)).take 256
    put u k (new ++ (padTo 256 (lookD u k [])).drop new.length)) t

/-- Read `n` bytes of the staging area from `off`, a multiple of 256; it starts as zeros (R167). -/
def staged (t : Tbl Bytes) (off n : Nat) : Bytes :=
  ((List.range ((n + 255) / 256)).flatMap fun i => padTo 256 (lookD t (off / 256 + i) [])).take n

def judgeImgHostLoad (c : Cmd) (s : State) : Nat :=
  judged c s [(c.ring != Config.ringP0, stDenied), (arg1 c.desc % 256 == 0, stBadArg),
    (dataBlock c 917504 s, stBadArg), (decide (arg1 c.desc + lenOf c.desc ≤ slotBytesMax), stBadArg),
    (hostWindow s, stWrongState)]

def effImgHostLoad (c : Cmd) (s : State) : Res :=
  res { s with boot := { s.boot with
    staging := stage256 s.boot.staging (arg1 c.desc) (padTo (lenOf c.desc) c.block) } } stOk

/-- IMG_HOST_LOAD (R165, R167). -/
def execImgHostLoad (c : Cmd) (s : State) : Out := runNow 0x0913 judgeImgHostLoad effImgHostLoad c s

def judgeImgHostStart (c : Cmd) (s : State) : Nat :=
  judged c s [(c.ring != Config.ringP0, stDenied), (noBlock c, stBadArg), (hostWindow s, stWrongState),
    (!kindBusy .image s, stBusy)]

/-- The window stays open for a start consumed in it (R167). -/
def startImgHostStart (_c : Cmd) (s : State) : State :=
  { s with boot := { s.boot with hostPending := true } }

/-- IMG_HOST_START (R165, R167): runs beside the executor. -/
def execImgHostStart (c : Cmd) (s : State) : Out :=
  runBeside 0x0914 .image judgeImgHostStart startImgHostStart c s

/-- The header and the body of the image in the staging area (R166, R167). -/
def stagedHeader (s : State) : Bytes := staged s.boot.staging 0 4096
def stagedBody (s : State) : Bytes :=
  staged s.boot.staging 4096 (if imgLen (stagedHeader s) ≤ 33550336 then imgLen (stagedHeader s) else 0)

/-- The staging area is accepted, or refused; under "Host, then slot 0" a refusal turns to slot 0. -/
def finishImgHostStart (s : State) : Res :=
  let s1 := { s with boot := { s.boot with hostPending := false } }
  if imagePasses (stagedHeader s) (stagedBody s) s.mram then
    res (acceptImage 2 (stagedHeader s) (stagedBody s) s1) stOk
  else if strapImage s.rst.strapBin = 3 then res (refuseImage stImageRefused s1) stImageRefused
  else res { s1 with boot := { s1.boot with lastStatus := stImageRefused } } stImageRefused

/-- The epoch of the running image (R166, R168). -/
def runningEpoch (s : State) : Nat := s.boot.version.toNat / 2 ^ 24

def judgeImgFloor (c : Cmd) (s : State) : Nat :=
  let n := arg0 c.desc
  judged c s [(decide (n ≤ runningEpoch s) && decide (s.mram.floor < n), stDenied),
    (decide (1 ≤ n) && decide (n ≤ 64), stBadArg), (noBlock c, stBadArg), (s.boot.done, stWrongState),
    (!kindBusy .image s, stBusy)]

/-- IMG_FLOOR (R168): runs beside the executor. -/
def execImgFloor (c : Cmd) (s : State) : Out := runBeside 0x0915 .image judgeImgFloor (fun _ t => t) c s

/-- The fused floor rises, with its record (R168, R560). -/
def finishImgFloor (c : Cmd) (s : State) : Res :=
  let n := arg0 c.desc
  let data := toLe 4 s.mram.floor ++ toLe 4 s.boot.version.toNat
  res (recordOnly { src := 0, code := 0x0939, index := n, sev := some 1, data := data }
    { s with mram := { s.mram with floor := max n s.mram.floor } }) stOk

/-! ### OBS_IDENT and Seedling over port 0 (R171, R172) -/

/-- The 64 bytes of `OBS_IDENT` (R171). -/
def identBytes (s : State) : Bytes :=
  let id := if s.gft.phase = .unpaired then 0xFFFF else s.gft.ownId
  padTo 64 (toLe 4 Config.romVersion.toNat ++ toLe 4 s.boot.version.toNat ++ toLe 1 s.boot.slot ++
    List.replicate 7 0 ++ toLe 8 serialNat ++ toLe 2 id)

def judgeObsIdent (c : Cmd) (s : State) : Nat := judged c s [(outputBuffer c 64 s, stBadArg)]

def effObsIdent (c : Cmd) (s : State) : Res := resOut c (identBytes s) none s

/-- OBS_IDENT (R170, R171). -/
def execObsIdent (c : Cmd) (s : State) : Out := runNow 0x0B05 judgeObsIdent effObsIdent c s

/-- SEEDLING_ANNOUNCE (R172): once per second to the broadcast address, with the `OBS_IDENT` fields. R172 gives the
offset of a block after a descriptor or a completion, and an announce has neither: its block stands at offset 20
(DESIGN CHOICE, log entry 90). -/
def execSeedlingAnnounce (s : State) : Out :=
  act (s.rst.phase == .started && s.boot.seedling &&
      decide (s.boot.startAt + s.boot.announces * 1000000000 ≤ s.clk.now)) s
    { s with boot := { s.boot with
        announces := s.boot.announces + 1
        seedOut := s.boot.seedOut ++ [seedFrame 0xFFFFFFFFFFFF 3 0 (identBytes s)] } }

/-- A request that the module acts on: addressed to it, untagged, of its serial (R172). -/
def seedAccepts (f : Frame) (q : SeedReq) : Bool :=
  f.etype == 0x88B5 && f.vlan.isNone && f.da == Config.mac0.toNat && q.version == 1 && q.type == 1 &&
    q.serial == serialNat

/-- A Seedling request is executing (R172). -/
def seedBusy (s : State) : Bool :=
  (s.hw.exec.map fun c => c.ring == ringSeed).getD false || s.hw.classB.any fun b => b.cmd.ring == ringSeed

/-- The request repeats the last one executed, within 1 s of it (R172). -/
def seedRetry (q : SeedReq) (s : State) : Bool :=
  s.boot.seedXid == some q.xid && decide (s.clk.now < s.boot.seedAt + 1000000000)

/-- The command of a request, on the virtual ring. -/
def seedCmd (q : SeedReq) : Cmd := { ring := ringSeed, desc := q.desc, block := q.block }

/-- The descriptor checks against the virtual ring (R107, R172): generation 1, no sequence check. A request whose `IOVA`
is not 0 fails with BAD_ARG beside them (DESIGN CHOICE, log entry 111). -/
def seedChecks (q : SeedReq) (defined : Bool) : Nat :=
  checks [(genField q.desc == 1, stStaleGen), (flagsOf q.desc / 4 == 0 && defined, stBadArg),
    (iovaOf q.desc == 0, stBadArg)]

end Sys2Proof.Machine
end

