-- ==== Sys2Proof/Machine/Ecc.lean ====
section
/-! DEFINITION. Memory integrity: buckets, scrubbers and correctable errors (R494 to R504, R517 to
R519). -/

namespace Sys2Proof.Machine

open Sys2Proof

/-- The account of memory `m`; an unlisted one is COLD (R500, R502). -/
def eccOf (m : Nat) (s : State) : EccMem := lookD s.ecc.mems m {}

/-- Set the account of memory `m`. -/
def setEcc (m : Nat) (x : EccMem) (s : State) : State :=
  { s with ecc := { s.ecc with mems := put s.ecc.mems m x } }

/-- A memory event (R516). -/
def eccEvent (code m : Nat) (data : Bytes) (sev : Option Nat) (s : State) : State :=
  raise { src := 12, code := code, index := m, data := data, sev := sev } s

/-- The bucket takes one correctable error; at its threshold it overflows (R500, R501). -/
def fillBucket (m : Nat) (s : State) : State :=
  let x := eccOf m s
  if x.level + 1 < x.thresh then setEcc m { x with level := x.level + 1 } s
  else
    let s1 := setEcc m { x with level := 0, ovf := min (x.ovf + 1) (2 ^ 32 - 1) } s
    eccEvent 0x0930 m [] (some 2) { noteSet 0x1800 m s1 with ecc := { s1.ecc with evt := latch s1.ecc.evt m } }

/-- The 34-bit byte address of a lane error as a frame of the free pool's numbering (R200, R564). -/
def frameOf (loc : Nat) : Nat := loc % 2 ^ 34 / 4096

/-- A hard location (R504): a repair entry, if the list has room, event 0932h and its record; a hard
lane frame is kept out of the free pool. The record holds the value of `LAST` (R564). -/
def addRepair (m : Nat) (loc : BitVec 64) (s : State) : State :=
  if s.mram.repairs.contains (m, loc) || decide (64 ≤ s.mram.repairs.length) then s
  else
    let s1 := { s with
      mram := savePstate { s.mram with repairs := s.mram.repairs ++ [(m, loc)] }
      pgk := if m < 3 then { s.pgk with hard := s.pgk.hard ++ [frameOf loc.toNat] } else s.pgk }
    eccEvent 0x0932 m (toLe 8 (eccOf m s1).last.toNat) (some 1) s1

/-- The lap of the scrubber in which an error fell is remembered with its location (R504). -/
def noteSuspect (m : Nat) (loc : BitVec 64) (s : State) : State :=
  let x := eccOf m s
  let keep := x.suspects.filter fun e => e.1 != loc && decide (x.lap ≤ e.2 + 1)
  setEcc m { x with suspects := keep ++ [(loc, x.lap)] } s

/-- A correctable error again on the next lap after its write-back is hard (R504). -/
def ceHard (m : Nat) (loc : BitVec 64) (s : State) : Bool :=
  (eccOf m s).suspects.any fun e => e.1 == loc && e.2 + 1 == (eccOf m s).lap

/-- The memory is a lane out of service, whose scrubber has stopped (R497). -/
def scrubStopped (m : Nat) (s : State) : Bool := decide (m < 3) && !s.cnp.lanes.contains ([Chan.A, .B, .C].getD m .A)

/-- The patrol scrubber of a stopped lane reports no error (R497, R564). -/
def noReader (m : Nat) (loc : BitVec 64) (s : State) : Bool := scrubStopped m s && bits loc.toNat 41 40 == 0

/-- Zeroing (0) or the patrol (1) takes an idle cycle of a lane (R498): the row's user is the only one that asks in its
cycle (log entry 75). -/
def idleAsk (i lane : Nat) (s : State) : State :=
  { s with ecc := { s.ecc with idle := put s.ecc.idle lane (arbitrate 2 1 (lookD s.ecc.idle lane 0) (· == i)).2 } }

/-- The patrol reads a word of a lane in an idle cycle (R497, R498). -/
def patrolAsk (m : Nat) (s : State) : State := if m < 3 then idleAsk 1 m s else s

/-- ns since the lap in progress began (R499). -/
def lapNs (m : Nat) (s : State) : Nat := s.clk.now - (eccOf m s).lapAt.getD s.ecc.lapsFrom

/-- The limit of a lap in ms (R499). -/
def lapLimit (m : Nat) : Nat := if m < 3 ∨ m = 15 then 86400000 else 1000

/-- The lap in progress has exceeded its limit (R499). -/
def lapOver (m : Nat) (s : State) : Bool := decide (lapLimit m * 1000000 < lapNs m s)

/-- CORRECTABLE_ERROR (R496, R500, R502): corrected and counted once in its memory's bucket. -/
def execCorrectableError (mem : Nat) (loc : BitVec 64) (s : State) : Out :=
  named (decide (mem < 16))
    (let l := loc &&& 0x7FFFFFFFFFFFFFFF
     let x := eccOf mem s
     let hard := ceHard mem l s
     let s1 := fillBucket mem (setEcc mem { x with ce := (x.ce + 1) % 2 ^ 64, last := l } s)
     let s2 := if hard then addRepair mem l s1 else s1
     act (!noReader mem l s) s (noteSuspect mem l s2))

/-- The lap is late: once for each lap, event 0934h and `LATE` (R499). -/
def lapLate (m : Nat) (s : State) : State :=
  if lapOver m s && !(eccOf m s).late then eccEvent 0x0934 m [] none (setEcc m { eccOf m s with late := true } s) else s

/-- A lap may end after `ms` ms (R499): the clock gives that length, a lane lap has its least length, and the scrubber
runs (R497). -/
def lapEnds (m ms : Nat) (s : State) : Bool :=
  ms == lapNs m s / 1000000 && (!decide (m < 3) || decide (4832 ≤ ms)) && !scrubStopped m s

/-- SCRUB_LAP_END (R499, R519): the lap's length is reported and a new lap begins. -/
def execScrubLapEnd (mem ms : Nat) (s : State) : Out :=
  named (decide (mem < 16))
    (act (lapEnds mem ms s) s
      (let t := patrolAsk mem (lapLate mem s)
       let x := eccOf mem t
       setEcc mem { x with lapMs := min ms (2 ^ 31 - 1), late := false, lap := x.lap + 1, lapAt := some t.clk.now } t))

/-- SCRUB_LAP_LATE (R499): the limit of the lap in progress has passed. -/
def execScrubLapLate (mem : Nat) (s : State) : Out :=
  named (decide (mem < 16)) (act (!scrubStopped mem s) s (lapLate mem s))

/-- The leak of a 60th operating second is due: once in it, and none at operating second 0 (R500). -/
def leakDue (s : State) : Bool := s.mram.opsec % 60 == 0 && s.mram.opsec != s.ecc.leakAt

/-- BUCKET_LEAK (R500): at every 60th operating second every level above 0 falls by 1. -/
def execBucketLeak (s : State) : Out :=
  act (leakDue s) s
    { s with ecc := { s.ecc with
      leakAt := s.mram.opsec
      mems := s.ecc.mems.map fun e => (e.1, { e.2 with level := e.2.level - 1 }) } }

/-- FRAME_SCRUBBED (R204): a frame is scrubbed, in idle cycles of each lane in service (R498), and rejoins the free pool. -/
def execFrameScrubbed (s : State) : Out :=
  act (s.pgk.scrub != 0) s
    ((s.cnp.lanes.map chanNum).foldl (fun t l => idleAsk 0 l t)
      { s with pgk := { s.pgk with scrub := s.pgk.scrub - 1, free := s.pgk.free + 1 } })

def judgeEccBucket (c : Cmd) (s : State) : Nat :=
  let n := arg1 c.desc
  judged c s [(decide (arg0 c.desc ≤ 15) && decide (1 ≤ n) && decide (n ≤ 65535), stBadArg),
    (noBlock c, stBadArg)]

/-- The threshold takes effect at once; the level waits for the next error (R501). -/
def effEccBucket (c : Cmd) (s : State) : Res :=
  res (setEcc (arg0 c.desc) { eccOf (arg0 c.desc) s with thresh := arg1 c.desc } s) stOk

/-- ECC_BUCKET (R501). -/
def execEccBucket (c : Cmd) (s : State) : Out := runNow 0x0903 judgeEccBucket effEccBucket c s

/-- The 32 bytes of `ECC_QUERY` (R502). -/
def eccBytes (x : EccMem) : Bytes :=
  toLe 8 x.ce ++ toLe 8 x.ue ++ toLe 2 x.level ++ toLe 2 x.thresh ++ toLe 4 x.ovf ++ toLe 8 x.last.toNat

def judgeEccQuery (c : Cmd) (s : State) : Nat :=
  judged c s [(decide (arg0 c.desc ≤ 15), stBadArg), (outputBuffer c 32 s, stBadArg)]

def effEccQuery (c : Cmd) (s : State) : Res := resOut c (eccBytes (eccOf (arg0 c.desc) s)) none s

/-- ECC_QUERY (R502). -/
def execEccQuery (c : Cmd) (s : State) : Out := runNow 0x0904 judgeEccQuery effEccQuery c s

end Sys2Proof.Machine
end

