-- ==== Sys2Proof/Machine/BinIn.lean ====
section
/-! DEFINITION. Binary inputs (R523 to R528, R541, R542, R545). -/

namespace Sys2Proof.Machine

open Sys2Proof

/-- Binary input `n`. -/
def binOf (n : Nat) (s : State) : BinIn := lookD s.bin.ins n {}

/-- Set binary input `n`. -/
def setBin (n : Nat) (x : BinIn) (s : State) : State :=
  { s with bin := { s.bin with ins := put s.bin.ins n x } }

/-- Counter `i` of input `n`: 0 `RISES`, 1 `FALLS`, 2 `GLITCHES` (R542). -/
def countBin (n i : Nat) (s : State) : State :=
  { s with bin := { s.bin with cnt := bump s.bin.cnt (n * 3 + i) } }

/-- `FILT_US` in 2⁻¹⁶ ns (R524). -/
def filtWindow (x : BinIn) : Nat := cfgWord x.cfg 0 % 2 ^ 15 * 1000 * 65536
/-- `INVERT`, `EVT`, `OWNER`, `LINE_EN`, `LINE` (R524). -/
def binInvert (x : BinIn) : Bool := tbit (cfgWord x.cfg 0) 16
def binEvt (x : BinIn) : Bool := tbit (cfgWord x.cfg 0) 17
def binOwner (x : BinIn) : Nat := cfgWord x.cfg 1 % 256
def binLineEn (x : BinIn) : Bool := tbit (cfgWord x.cfg 1) 8
def binLine (x : BinIn) : Nat := cfgWord x.cfg 2 + 2 ^ 32 * cfgWord x.cfg 3

/-- The words of an input block, kept as set-up. -/
def blockWords (b : Bytes) (n : Nat) : List Word := (List.range n).map fun i => BitVec.ofNat 32 (wordAt b i)

/-! ### Commands (R149, R169, R524, R528) -/

/-- The reserved bits and ranges of `BIN_CONFIG` (R524). -/
def binRanges (b : Bytes) : Bool :=
  decide (wordAt b 0 % 2 ^ 15 ≤ 20000) && tbit (wordAt b 0) 15 == false && wordAt b 0 / 2 ^ 18 == 0 &&
    wordAt b 1 / 2 ^ 9 == 0 && (!tbit (wordAt b 1) 8 || dwordAt b 2 % 64 == 0) &&
    (List.range 4).all fun i => wordAt b (4 + i) == 0

def judgeBinConfig (c : Cmd) (s : State) : Nat :=
  let b := c.block
  let en := tbit (wordAt b 1) 8
  let owner := wordAt b 1 % 256
  judged c s [(decide (arg0 c.desc < 32), stBadArg), (inputBlock c 32 s && binRanges b, stBadArg),
    (!en || partExists owner s, stNotFound),
    (!en || ((partOf owner s).map fun x => isMapped x (dwordAt b 2)).getD false, stBadArg),
    ((binOf (arg0 c.desc) s).en == .off, stWrongState)]

def effBinConfig (c : Cmd) (s : State) : Res :=
  res (setBin (arg0 c.desc) { binOf (arg0 c.desc) s with cfg := some (blockWords c.block 8) } s) stOk

/-- BIN_CONFIG (R524). -/
def execBinConfig (c : Cmd) (s : State) : Out := runNow 0x0A10 judgeBinConfig effBinConfig c s

/-- The filter starts with the pin's present level as its state, `ESEQ` 0 (R528). -/
def startBin (x : BinIn) (s : State) : BinIn :=
  let st := x.level != binInvert x
  { x with
    en := .on, held := false, state := st, runOpen := false, eseq := 0, told := false
    stateAt := [(lineFrac s (frcNow s), st)] }

/-- A change of a level, or with type 0 of what is enabled, reaches the acquisition engine (R395, R396). -/
def levelChange (type src : Nat) (level : Bool) (s : State) : State :=
  { s with acq := { s.acq with
    changes := s.acq.changes ++
      [{ type := type, src := BitVec.ofNat 32 src, level := level, time := lineFrac s (frcNow s) }] } }

def judgeBinEnable (c : Cmd) (s : State) : Nat :=
  judged c s [(decide (arg0 c.desc < 32), stBadArg), (noBlock c, stBadArg),
    ((binOf (arg0 c.desc) s).cfg.isSome, stWrongState)]

def effBinEnable (c : Cmd) (s : State) : Res :=
  let x := binOf (arg0 c.desc) s
  let e := enableRule x.en x.held
  let y := if x.en == .off then startBin x s else { x with en := e.1, held := e.2.1 }
  let s1 := setBin (arg0 c.desc) y s
  res (if x.en == .off then levelChange 2 (arg0 c.desc) y.state s1 else s1) e.2.2

/-- BIN_ENABLE (R149, R528). -/
def execBinEnable (c : Cmd) (s : State) : Out := runNow 0x0A11 judgeBinEnable effBinEnable c s

def judgeBinDisable (c : Cmd) (s : State) : Nat :=
  judged c s [(decide (arg0 c.desc < 32), stBadArg), (noBlock c, stBadArg)]

def effBinDisable (c : Cmd) (s : State) : Res :=
  let x := binOf (arg0 c.desc) s
  let d := disableRule x.en x.held
  res (setBin (arg0 c.desc) { x with en := d.1, held := d.2 } s) stOk

/-- BIN_DISABLE (R149, R528). -/
def execBinDisable (c : Cmd) (s : State) : Out := runNow 0x0A12 judgeBinDisable effBinDisable c s

/-! ### The filter (R525 to R527) -/

/-- The 64 bytes of the edge line (R527). -/
def lineBytes (x : BinIn) (osn : Nat) : Bytes :=
  padTo 64 (toLe 4 x.eseq.toNat ++ toLe 4 (b2n x.state + 2 * b2n x.unacq) ++ toLe 8 (x.riseNs / 65536) ++
    toLe 4 (x.riseNs % 65536) ++ toLe 8 (x.fallNs / 65536) ++ toLe 4 (x.fallNs % 65536) ++ toLe 8 osn)

/-- The edge line is written while its owner exists and is not MIGRATING (R527). -/
def writeLine (x : BinIn) (osn : Nat) (s : State) : State :=
  let ok := binLineEn x && partExists (binOwner x) s && stateOf (binOwner x) s != some .migrating
  if ok then visWrite (binOwner x) (binLine x) (lineBytes x osn) s else s

/-- The wakes of a change (R196): input, and rising 1 or falling 2. -/
def binWakes (n : Nat) (rise : Bool) (s : State) : State :=
  fireBinds 4 (fun w => w % 32 == n && tbit (bits w 9 8) (if rise then 0 else 1)) s

/-- A change of input `n` to `v` with the FRC time `f` (R526). -/
def binChange (n : Nat) (v : Bool) (f : Nat) (s : State) : State :=
  let x := binOf n s
  let good := tbGood (tbOf s.cnp.tb s)
  let time := lineFrac s f
  let lineTime := if good then time else f
  let osn := nextOsn s
  let tell := binEvt x && !x.told
  let y := { x with
    state := v, runOpen := false, eseq := x.eseq + 1, unacq := !good, told := x.told || tell, lastOsn := osn
    riseNs := if v then lineTime else x.riseNs
    fallNs := if v then x.fallNs else lineTime
    stateAt := x.stateAt ++ [(time, v)] }
  let s1 := ioEvent n
    { src := 13, code := if v then 0x0A01 else 0x0A02, kind := 9, index := n, toP0 := tell, toHost := tell }
    (countBin n (if v then 0 else 1) (setBin n y s))
  let s2 := { s1 with acq := { s1.acq with
    changes := s1.acq.changes ++ [{ type := 2, src := BitVec.ofNat 32 n, level := v, time := time }] } }
  writeLine y osn (binWakes n v s2)

/-- The window of the open run ends: a change with the time of its last transition, or one glitch
(R525). -/
def endRunOf (n : Nat) (s : State) : State :=
  let x := binOf n s
  let v := x.level != binInvert x
  if v != x.state then binChange n v x.lastAt s else countBin n 2 (setBin n { x with runOpen := false } s)

/-- A window that has ended before the FRC time `f` is judged first. -/
def settleBin (n f : Nat) (s : State) : State :=
  let x := binOf n s
  if x.runOpen && decide (x.lastAt + filtWindow x ≤ f) then endRunOf n s else s

/-- The value of a converter for an instant: whole units of 125 ps, 8,192 of 2⁻¹⁶ ns, the last one begun
(R62, R523; log entry 92). -/
def tdcTime (instant : Nat) : Nat := instant / 8192 * 8192

/-- BIN_TRANSITION (R523, R525): a transition at the land, timed against the FRC by the input's converter. -/
def execBinTransition (input : Nat) (level : Bool) (instant : Nat) (s : State) : Out :=
  named (decide (input < 32))
    (let at_ := tdcTime instant
     let s1 := if (binOf input s).en == .off then s else settleBin input at_ s
     let x := binOf input s1
     let s2 := setBin input { x with level := level } s1
     .next (if x.en == .off then s2
       else if filtWindow x = 0 then binChange input (level != binInvert x) at_ s2
       else setBin input { x with level := level, lastAt := at_, runOpen := true } s2))

/-- BIN_FILTER_WINDOW_END (R525): the pin has held its level for `FILT_US`. -/
def execBinFilterWindowEnd (input : Nat) (s : State) : Out :=
  named (decide (input < 32))
    (let x := binOf input s
     act (x.en != .off && x.runOpen && decide (x.lastAt + filtWindow x ≤ frcNow s)) s (endRunOf input s))

/-- A STOPPING input reaches OFF when no run of transitions is open (R528); OFF reads 0. -/
def stopBin (n : Nat) (s : State) : State :=
  let x := binOf n s
  let off := { x with en := .off, held := false, state := false, runOpen := false }
  let y := if x.held then startBin off s else off
  levelChange 2 n y.state (offEvents 9 n x.held (setBin n y s))

/-- The input may reach OFF. -/
def binStops (n : Nat) (s : State) : Bool := (binOf n s).en == .stopping && !(binOf n s).runOpen

/-- The filtered state of input `n` at time `t` of the bound time line (R525). -/
def binAt (n t : Nat) (s : State) : Bool :=
  let x := binOf n s
  ((x.stateAt.filter fun e => e.1 ≤ t).getLast?.map Prod.snd).getD false

end Sys2Proof.Machine
end

