-- ==== Sys2Proof/Machine/OutCh.lean ====
section
/-! DEFINITION. Output channels and the inhibit (R529 to R544). -/

namespace Sys2Proof.Machine

open Sys2Proof

/-- One count of the output counter in 2⁻¹⁶ ns: 2.5 ns (R530). -/
def countUnit : Nat := 163840

/-- Counter `i` of channel `n`: `PERIODS`, `LOADS`, `PULSES`, `SUPP_HI`, `SUPP_LO`, `SUPP_PULSE`,
`INH_PERIODS` (R542). -/
def countOut (n i : Nat) (s : State) : State :=
  { s with out := { s.out with cnt := bump s.out.cnt (n * 7 + i) } }

/-- `MINP` × 5 ns in 2⁻¹⁶ ns (R530). -/
def minPulse (c : OutCh) : Nat := bits (cfgWord c.cfg 0) 23 16 * 5 * 65536
/-- `OWNER`, `P_INIT` and `PULL_IN` (R530). -/
def outOwner (c : OutCh) : Nat := cfgWord c.cfg 1 % 256
def periodInit (c : OutCh) : Nat := cfgWord c.cfg 2 % 2 ^ 28
def pullInLen (c : OutCh) : Nat := cfgWord c.cfg 3 % 2 ^ 28

/-! ### Set-up and enable (R149, R530, R539) -/

/-- The reserved bits and ranges of `OUT_CONFIG` (R530). -/
def outRanges (b : Bytes) : Bool :=
  let w := wordAt b 0
  w % 4 != 3 && bits w 3 2 == 0 && !(tbit w 4 && tbit w 5) && bits w 7 6 == 0 &&
    decide (1 ≤ bits w 23 16) && w / 2 ^ 24 == 0 && wordAt b 1 / 256 == 0 &&
    decide (32 ≤ wordAt b 2) && decide (wordAt b 2 < 2 ^ 28) && decide (wordAt b 3 < 2 ^ 28) &&
    (List.range 4).all fun i => wordAt b (4 + i) == 0

def judgeOutConfig (c : Cmd) (s : State) : Nat :=
  judged c s [(decide (arg0 c.desc < 16), stBadArg), (inputBlock c 32 s && outRanges c.block, stBadArg),
    (partExists (wordAt c.block 1 % 256) s, stNotFound), ((outCh (arg0 c.desc) s).en == .off, stWrongState)]

def effOutConfig (c : Cmd) (s : State) : Res :=
  res (setOut (arg0 c.desc) { outCh (arg0 c.desc) s with cfg := some (blockWords c.block 8) } s) stOk

/-- OUT_CONFIG (R530). -/
def execOutConfig (c : Cmd) (s : State) : Out := runNow 0x0A01 judgeOutConfig effOutConfig c s

/-- A channel that becomes ON: P = `P_INIT`, H = 0, the staging registers likewise (R539). -/
def startOut (x : OutCh) (s : State) : OutCh :=
  { x with
    en := .on, held := false, p := periodInit x, h := 0, stP := periodInit x, stH := 0, accP := 0, accH := 0
    w := false, pend := none, pullIn := false, pulse := none, inPeriod := false, suppSince := false
    perAt := frcNow s }

def judgeOutEnable (c : Cmd) (s : State) : Nat :=
  judged c s [(decide (arg0 c.desc < 16), stBadArg), (noBlock c, stBadArg),
    ((outCh (arg0 c.desc) s).cfg.isSome, stWrongState)]

def effOutEnable (c : Cmd) (s : State) : Res :=
  let x := outCh (arg0 c.desc) s
  let e := enableRule x.en x.held
  let y := if x.en == .off then startOut x s else { x with en := e.1, held := e.2.1 }
  res (setOut (arg0 c.desc) y s) e.2.2

/-- OUT_ENABLE (R149, R539). -/
def execOutEnable (c : Cmd) (s : State) : Out := runNow 0x0A02 judgeOutEnable effOutEnable c s

def judgeOutDisable (c : Cmd) (s : State) : Nat :=
  judged c s [(decide (arg0 c.desc < 16), stBadArg), (noBlock c, stBadArg)]

/-- STOPPING; a pull-in ends at once (R539). -/
def effOutDisable (c : Cmd) (s : State) : Res :=
  let x := outCh (arg0 c.desc) s
  let d := disableRule x.en x.held
  let y := { x with en := d.1, held := d.2 }
  res (setOut (arg0 c.desc) (if x.pullIn && d.1 == .stopping then { y with pullIn := false, w := false } else y) s) stOk

/-- OUT_DISABLE (R149, R539). -/
def execOutDisable (c : Cmd) (s : State) : Out := runNow 0x0A03 judgeOutDisable effOutDisable c s

/-! ### The inhibit (R537, R538) -/

/-- The inhibit latches: event 0A10h and its record; while the arbiter is held the event waits for PLL
lock (R537). -/
def latchInh (s : State) : State :=
  if s.out.inh then s
  else
    let s1 := applyPins { s with out := { s.out with inh := true } }
    if arbHeld s then { s1 with out := { s1.out with inhDue := true } }
    else raise { src := 13, code := 0x0A10, sev := some 1 } s1

/-- A low level of 10 ns or more latches; whether a shorter one does is a free value (R537). -/
def inhLatches (ns : Nat) (s : State) : Bool := decide (10 ≤ ns) || Config.freeValue s.free % 2 == 1

/-- A COLD source is asserted, so that the latch waits for its release (R537). -/
def inhWaits (s : State) : Bool := s.rst.phase == .held && s.rst.reach == some .cold

/-- OUTINH_N (R537, R543). -/
def execOutinhN (high : Bool) (ns : Nat) (s : State) : Out :=
  let s1 := { s with
    out := { s.out with pinLow := !high }
    free := if !high && decide (ns < 10) then s.free + 1 else s.free }
  .next (if high || inhWaits s || !inhLatches ns s then s1 else latchInh s1)

def judgeOutInhClear (c : Cmd) (s : State) : Nat := judged c s [(noBlock c, stBadArg)]

/-- The latch clears only when OUTINH_N reads high; otherwise the clear is refused (R169, R538). -/
def effOutInhClear (_c : Cmd) (s : State) : Res :=
  if s.out.pinLow then res (noteSet 0x1A00 0 { s with out := { s.out with inhRefused := true } }) stWrongState
  else if !s.out.inh then res s stOk
  else
    res (raise { src := 13, code := 0x0A11, sev := some 1 } (applyPins { s with out := { s.out with inh := false } })) stOk

/-- OUT_INH_CLEAR (R169, R538). -/
def execOutInhClear (c : Cmd) (s : State) : Out := runNow 0x0A04 judgeOutInhClear effOutInhClear c s

/-! ### Suppression (R532) -/

/-- Event 0A12h at the first suppression after a load, at most once per second per channel (R532). -/
def suppress (n : Nat) (s : State) : State :=
  let c := outCh n s
  let recent := match c.suppAt with
    | some t => decide (s.clk.frc < t + 1000000000)
    | none => false
  if c.suppSince then s
  else
    let s1 := setOut n { c with suppSince := true, suppAt := if recent then c.suppAt else some s.clk.frc } s
    if recent then s1 else ioEvent (32 + n) { src := 13, code := 0x0A12, kind := 8, index := n } s1

/-! ### Loads (R533 to R535) -/

/-- The pending load belongs to the LOAD. -/
def ofLoad (q : Pend) (l : LoadOp) : Bool := l.ring == q.ring && l.gen == q.gen && l.seq == q.seq

/-- A LOAD whose channels are all done completes with the mask of those loaded, and its compare, if one is still
armed, is no more (R317, R534). One of an older generation leaves its engine without a completion (R120). -/
def loadDone (q : Pend) (s : State) : State :=
  match s.out.loads.find? (ofLoad q) with
  | none => s
  | some l =>
    if l.left.isEmpty then
      finishOp l.ring l.gen l.seq (if l.lost then stWrongState else stOk) (some (BitVec.ofNat 32 l.mask)) false
        (cancelCmps (fun u => u == .load l.ring l.gen l.seq)
          { s with out := { s.out with loads := s.out.loads.erase l } })
    else s

/-- Channel `n` is done for a LOAD: loaded, released, or lost because it went OFF (R535, R539). -/
def channelDone (q : Pend) (n : Nat) (loaded lost : Bool) (s : State) : State :=
  loadDone q { s with out := { s.out with
    loads := s.out.loads.map fun l =>
      if ofLoad q l && l.left.contains n then
        { l with
          left := l.left.erase n
          mask := if loaded then l.mask + 2 ^ n else l.mask
          lost := l.lost || lost }
      else l } }

/-- The pending load of channel `n` ends without loading (R535, R539). -/
def releasePend (n : Nat) (lost : Bool) (s : State) : State :=
  let c := outCh n s
  match c.pend with
  | none => s
  | some q => channelDone q n false lost (setOut n { c with pend := none } s)

/-- The channel after the staged values become its P and H, accumulators at 0 (R531, R535). -/
def loadValues (c : OutCh) : OutCh :=
  { c with p := c.stP, h := c.stH, accP := 0, accH := 0, suppSince := false, pend := none }

/-- The period that starts at `t`: dither, then the judgement of R532. -/
def periodOf (t : Nat) (c : OutCh) : OutCh :=
  let aP := c.accP + c.p % 16
  let aH := c.accH + c.h % 16
  let per := c.p / 16 + aP / 16
  let high := if c.h = c.p then per else c.h / 16 + aH / 16
  { c with accP := aP % 16, accH := aH % 16, perLen := per, highLen := high, perAt := t, inPeriod := true }

/-- The high phase is suppressed (R532). -/
def hiSupp (c : OutCh) : Bool :=
  c.h != 0 && c.h != c.p && decide (c.highLen * countUnit < minPulse c + deadTime c)

/-- The low phase is suppressed (R532). -/
def loSupp (c : OutCh) : Bool :=
  c.h != 0 && c.h != c.p && !hiSupp c && decide ((c.perLen - c.highLen) * countUnit < minPulse c + deadTime c)

/-- w at the start of the period, and its high phase after suppression (R532). -/
def waveOf (c : OutCh) : OutCh :=
  if c.h = 0 || hiSupp c then { c with w := false, highLen := 0 }
  else if loSupp c then { c with w := true, highLen := c.perLen }
  else { c with w := true }

/-- Counts of a period (R532, R542). -/
def countPeriod (n : Nat) (c : OutCh) (s : State) : State :=
  let s1 := countOut n 0 s
  let s2 := if s.out.inh then countOut n 6 s1 else s1
  if hiSupp c then suppress n (countOut n 3 s2)
  else if loSupp c then suppress n (countOut n 4 s2)
  else s2

/-- A new period of channel `n` starts at `t`. -/
def beginPeriod (n t : Nat) (s : State) : State :=
  let c := periodOf t (outCh n s)
  countPeriod n c (setOut n (waveOf c) s)

/-- A load takes effect on channel `n` at `t` (R533, R535): a new period, or a pull-in in ECON when H
leaves 0; in a pull-in the values are replaced and the pull-in runs on, unless H is 0. -/
def takeLoad (n t : Nat) (q : Pend) (s : State) : State :=
  let c := outCh n s
  let y := loadValues c
  let econ := outMode c == 1
  let s1 := countOut n 1 s
  let s2 :=
    if econ && c.pullIn && y.h != 0 then setOut n y s1
    else if econ && !c.pullIn && c.h == 0 && y.h != 0 && pullInLen c != 0 then
      setOut n { y with pullIn := true, w := true, inPeriod := false, endAt := t + pullInLen c * countUnit } s1
    else beginPeriod n t (setOut n { y with pullIn := false } s1)
  channelDone q n true false s2

/-- A channel that may take new commands of its rings (R534): ON, and its mode is not RELAY. -/
def loadable? (n : Nat) (s : State) : Bool := (outCh n s).en == .on && outMode (outCh n s) != 2

/-- The channels of a mask. -/
def maskChans (m : Nat) : List Nat := (List.range 16).filter fun i => tbit m i

/-- Bits `INH` and `GATED` of a result (R534). -/
def outInfo (s : State) : Nat := b2n s.out.inh + 2 * b2n (!gateOpen s)

/-- The checks of STAGE (R107, R534). -/
def stageChecks (r : Nat) (d : Desc) (s : State) : Nat :=
  let n := arg0 d / 2 ^ 28
  let p := arg0 d % 2 ^ 28
  checks [(decide (32 ≤ p) && decide (arg1 d % 2 ^ 28 ≤ p) && arg1 d / 2 ^ 28 == 0, stBadArg),
    (outOwner (outCh n s) == r / 8, stDenied), (loadable? n s, stWrongState)]

/-- STAGE, whose checks passed when it was consumed (R107), writes the staging registers only (R534). -/
def stageEff (r : Nat) (seq : Word) (s : State) : State :=
  match entryOf r seq s with
  | none => s
  | some e =>
    let n := arg0 e.desc / 2 ^ 28
    finishNow r seq stOk (some (BitVec.ofNat 32 (outInfo s)))
      (setOut n { outCh n s with stP := arg0 e.desc % 2 ^ 28, stH := arg1 e.desc % 2 ^ 28 } s)

/-- A row of STAGE (R534). -/
def stageRow (ring : Nat) (seq : Word) (s : State) : Out := emitRow 5 1 ring seq none s (stageEff ring seq)

/-- The checks of LOAD (R107, R534). -/
def loadChecks (r : Nat) (d : Desc) (s : State) : Nat :=
  let m := arg0 d
  let w := arg1 d
  checks [(m != 0 && decide (m < 2 ^ 16) && decide (w ≤ 2) && (w != 2 || lenOf d == 8), stBadArg),
    ((maskChans m).all fun n => outOwner (outCh n s) == r / 8, stDenied),
    ((maskChans m).all (fun n => loadable? n s) && (w != 2 || (tbOf s.cnp.tb s).en == .on), stWrongState)]

/-- One channel of a LOAD (R533, R535): an earlier pending load is released; then the load waits for its
boundary or target, or takes effect now. -/
def loadChan (q : Pend) (when_ : Nat) (s : State) (n : Nat) : State :=
  let s1 := releasePend n false s
  if when_ = 1 || (when_ = 0 && (outCh n s1).pullIn) then takeLoad n (frcNow s) q s1
  else setOut n { outCh n s1 with pend := some q } s1

/-- Every channel that a LOAD names is ON, and with `WHEN` 2 so is the bound time base. -/
def loadStarts (d : Desc) (s : State) : Bool :=
  (maskChans (arg0 d)).all (fun n => (outCh n s).en == .on) && (arg1 d != 2 || (tbOf s.cnp.tb s).en == .on)

/-- LOAD (R534, R535), whose checks passed when it was consumed (R107). One that finds its target gone, a channel or the
time base that has left ON since, ends with WRONG_STATE (R150; DESIGN CHOICE, log entry 23). -/
def loadEff (r : Nat) (seq : Word) (block : Bytes) (s : State) : State :=
  match entryOf r seq s with
  | none => s
  | some e =>
    let ch := maskChans (arg0 e.desc)
    if !loadStarts e.desc s then finishNow r seq stWrongState (some 0) s
    else
      let op : LoadOp := { ring := r, gen := e.gen, seq := seq, left := ch }
      let q : Pend := { ring := r, gen := e.gen, seq := seq, atTarget := arg1 e.desc == 2 }
      let s1 := { s with out := { s.out with loads := s.out.loads ++ [op] } }
      let s2 := if arg1 e.desc = 2 then armCmp s.cnp.tb (leAt block 0 8) (.load r e.gen seq) s1 else s1
      ch.foldl (loadChan q (arg1 e.desc)) s2

/-- A row of LOAD (R534): with `WHEN` 2 its block is voted as a payload. -/
def loadRow (ring : Nat) (seq : Word) (block : Bytes) (s : State) : Out :=
  let target := ((entryOf ring seq s).map fun e => arg1 e.desc == 2).getD false
  emitRow 5 2 ring seq (if target then some (.bytes block) else none) s (loadEff ring seq block)

/-- The compare of a LOAD fires: every channel that still waits for it restarts its period 5.0 ns later, when the
crossing has brought the compare to the output counter (R27, R534; log entry 92); PERIOD_START is that instant. -/
def fireLoad (ring gen : Nat) (seq : Word) (s : State) : State :=
  (List.range 16).foldl (fun t n =>
    match (outCh n t).pend with
    | some q => if q.ring == ring && q.gen == gen && q.seq == seq && q.atTarget then
        setOut n { outCh n t with pend := some { q with dueAt := some (frcNow t + 5 * 65536) } } t
      else t
    | none => t) s

/-- The compare of a LOAD is cancelled (R317, R534): its waiting channels are done with WRONG_STATE. -/
def cancelLoad (ring gen : Nat) (seq : Word) (s : State) : State :=
  (List.range 16).foldl (fun t n =>
    match (outCh n t).pend with
    | some q => if q.ring == ring && q.gen == gen && q.seq == seq && q.atTarget then releasePend n true t else t
    | none => t) s

/-! ### Pulses (R533, R534) -/

/-- A PULSE of channel `n` is consumed and has not begun, so that it counts as running on it (R107, R126, R534;
DEDUCED, log entry 23). -/
def pulseWaits (n : Nat) (s : State) : Bool :=
  s.rng.jrnl.any fun e => bindingOf e.ring s == 5 && e.stage == .waiting && opOf e.desc == 3 && arg0 e.desc % 16 == n

/-- The checks of PULSE (R107, R534). -/
def pulseChecks (r : Nat) (d : Desc) (s : State) : Nat :=
  let n := arg0 d % 16
  let c := outCh n s
  checks [(decide (arg0 d < 32) && decide (1 ≤ arg1 d) && decide (arg1 d < 2 ^ 28), stBadArg),
    (outOwner c == r / 8, stDenied), (c.en == .on && outMode c == 2, stWrongState),
    (c.pulse.isNone && !pulseWaits n s, stBusy)]

/-- PULSE, whose checks passed when it was consumed (R107), takes effect (R532 to R534): judged with W × 2.5 ns as the
phase length. On a channel that has left ON since it ends with WRONG_STATE (R150; DESIGN CHOICE, log entry 23). -/
def pulseEff (r : Nat) (seq : Word) (s : State) : State :=
  match entryOf r seq s with
  | none => s
  | some e =>
    let n := arg0 e.desc % 16
    let c := outCh n s
    if c.en ≠ .on then finishNow r seq stWrongState none s
    else
      let len := arg1 e.desc * countUnit
      let supp := decide (len < minPulse c + deadTime c)
      let s1 := countOut n 2 (setOut n { c with
        pulse := some (r, e.gen, seq), pulseSupp := supp, pulsePol := tbit (arg0 e.desc) 4
        pulseInfo := outInfo s + 4 * b2n supp, endAt := frcNow s + len, suppSince := false } s)
      if supp then suppress n (countOut n 5 s1) else s1

/-- A row of PULSE (R534). -/
def pulseRow (ring : Nat) (seq : Word) (s : State) : Out := emitRow 5 3 ring seq none s (pulseEff ring seq)

/-- PULSE_END (R533, R534): the pulse or its suppression ends and both pins return to low. -/
def execPulseEnd (ch : Nat) (s : State) : Out :=
  named (decide (ch < 16))
    (let c := outCh ch s
     match c.pulse with
     | none => .next s
     | some q =>
       act (decide (c.endAt ≤ frcNow s)) s
         (finishOp q.1 q.2.1 q.2.2 stOk (some (BitVec.ofNat 32 c.pulseInfo)) false
           (setOut ch { c with pulse := none, pulseSupp := false } s)))

/-! ### Periods (R529, R531 to R533) -/

/-- The end of the period in progress. -/
def periodEnd (c : OutCh) : Nat := c.perAt + c.perLen * countUnit

/-- The channel is at a period boundary, or has no period yet. -/
def atBoundary (c : OutCh) (s : State) : Bool := !c.inPeriod || decide (periodEnd c ≤ frcNow s)

/-- The instant of the boundary. -/
def boundaryAt (c : OutCh) (s : State) : Nat := if c.inPeriod then periodEnd c else frcNow s

/-- The load of a compare that has fired reaches the output counter, before the end of the period in progress (R27,
R534). -/
def loadDue (c : OutCh) (s : State) : Option (Nat × Pend) :=
  match c.pend with
  | some q => (q.dueAt.filter fun t => decide (t ≤ frcNow s) && (c.pullIn || !atBoundary c s || t ≤ boundaryAt c s)).map
      fun t => (t, q)
  | none => none

/-- PERIOD_START (R531, R532, R535): at the boundary a pending load replaces the values; the period is
dithered and judged. A load with `WHEN` 2 starts its period at its target, whatever is in progress. -/
def execPeriodStart (ch : Nat) (s : State) : Out :=
  named (decide (ch < 16))
    (let c := outCh ch s
     match loadDue c s with
     | some q => act (c.en == .on && outMode c != 2) s (takeLoad ch q.1 q.2 s)
     | none =>
     act (c.en == .on && outMode c != 2 && !c.pullIn && atBoundary c s) s
       (match c.pend with
        | some q => if q.atTarget then beginPeriod ch (boundaryAt c s) s else takeLoad ch (boundaryAt c s) q s
        | none => beginPeriod ch (boundaryAt c s) s))

/-- PHASE_END (R531): the high phase ends and w falls. -/
def execPhaseEnd (ch : Nat) (s : State) : Out :=
  named (decide (ch < 16))
    (let c := outCh ch s
     act (c.inPeriod && c.w && decide (c.highLen < c.perLen) &&
         decide (c.perAt + c.highLen * countUnit ≤ frcNow s)) s
       (setOut ch { c with w := false } s))

/-- DEAD_TIME_END (R529): a turn-on that waited for d happens. -/
def execDeadTimeEnd (ch : Nat) (s : State) : Out :=
  named (decide (ch < 16))
    (let c := outCh ch s
     act ((c.dueA || c.dueB) && decide (c.dueAt ≤ frcNow s)) s
       (setOut ch { c with pinA := c.pinA || c.dueA, pinB := c.pinB || c.dueB, dueA := false, dueB := false } s))

/-- PULL_IN_END (R533): the loaded waveform starts with a new period. -/
def execPullInEnd (ch : Nat) (s : State) : Out :=
  named (decide (ch < 16))
    (let c := outCh ch s
     act (c.pullIn && decide (c.endAt ≤ frcNow s)) s
       (beginPeriod ch c.endAt (setOut ch { c with pullIn := false } s)))

/-- A STOPPING channel may reach OFF (R539). -/
def outStops (n : Nat) (s : State) : Bool :=
  let c := outCh n s
  c.en == .stopping && c.pulse.isNone && (outMode c == 2 || c.pullIn || atBoundary c s)

/-- The channel reaches OFF: its pins take the safe levels and a pending load ends (R149, R539). -/
def stopOut (n : Nat) (s : State) : State :=
  let s1 := releasePend n true s
  let c := outCh n s1
  let off := { c with en := .off, held := false, w := false, pullIn := false, inPeriod := false }
  let y := if c.held then startOut off s1 else off
  offEvents 8 n c.held (setOut n y s1)

end Sys2Proof.Machine
end

