-- ==== Sys2Proof/Machine/SwOps.lean ====
section
/-! DEFINITION. What the switch core and the ports share: counters, the fate of a SEND, admission and
flush of queues, the internal destinations and receive rings (R258 to R276). -/

namespace Sys2Proof.Machine

open Sys2Proof

/-! ### Ports -/

/-- Port `n`. -/
def portOf (n : Nat) (s : State) : Port := lookD s.prt.ports n {}

/-- Set port `n`. -/
def setPort (n : Nat) (x : Port) (s : State) : State :=
  { s with prt := { s.prt with ports := put s.prt.ports n x } }

/-- Counter `i` of port `n` plus `k` (R245). -/
def addPort (n i k : Nat) (s : State) : State :=
  { s with prt := { s.prt with cnt := bumpBy s.prt.cnt (n * 38 + i) k } }

/-- Counter `i` of port `n` plus one (R245). -/
def countPort (n i : Nat) (s : State) : State := addPort n i 1 s

/-- The port passes new frames: its link is UP and it is ON (R225, R243). -/
def portUp (n : Nat) (s : State) : Bool := (portOf n s).link == .up && (portOf n s).en == .on

/-- The address of port `n`: that of port 0 with `n` added to its last 24 bits (R240, R296). -/
def portMac (n : Nat) : Nat :=
  let m := Config.mac0.toNat
  m / 2 ^ 24 * 2 ^ 24 + (m + n) % 2 ^ 24

/-- The mean link delay of port `n` in 2⁻¹⁶ ns, the average of its last 4 values (R310). -/
def linkDelay (n : Nat) (s : State) : Option Int :=
  let d := (portOf n s).delays
  if d.isEmpty then none else some (roundDiv d.sum d.length)

/-- The bytes that wait in the receive FIFO of port `n` (R231). -/
def fifoUse (n : Nat) (s : State) : Nat := (lookD s.sw.store n []).foldl (fun k h => k + h.frame.len) 0

/-- The FIFO of port `n` is about to change: what it held is noted for frames whose SFD came before, for 100 ms, which no
frame lasts (R231). -/
def noteFifo (n : Nat) (s : State) : State :=
  let old := (lookD s.sw.fifo n []).filter fun e => decide (s.clk.frc < e.1 + 100000000)
  { s with sw := { s.sw with fifo := put s.sw.fifo n ((s.clk.frc, fifoUse n s) :: old) } }

/-- The bytes that waited when a frame's SFD came, at `sfd` in 2⁻¹⁶ ns (R231). -/
def fifoAt (n sfd : Nat) (s : State) : Nat :=
  (((lookD s.sw.fifo n []).filter fun e => decide (sfd < e.1 * 65536)).getLast?.map Prod.snd).getD (fifoUse n s)

/-- SDCLK runs again: a lane or port that trains shows it, and every enabled trace lane sends again (R61; log entry
97). -/
def sdclkBack (s : State) : State :=
  if s.pow.sdclk then s
  else { s with
    pow := { s.pow with sdclk := true }
    obs := { s.obs with sending := (List.range 4).filter fun t => tbit s.obs.lanes t } }

/-! ### Counters and events of the switch core (R285, R286, R289) -/

/-- Counter `i` of queue `q` (R285). -/
def countQueue (q i : Nat) (s : State) : State :=
  { s with sw := { s.sw with cnt := bump s.sw.cnt (70000 + q * 8 + i) } }

/-- Counter `i` of port A (`side` 0) or B of an instance (R285). -/
def countRed (inst side i : Nat) (s : State) : State :=
  { s with sw := { s.sw with cnt := bump s.sw.cnt (80000 + (inst * 2 + side) * 8 + i) } }

/-- Counter `i` of the switch bank (R285). -/
def countSw (i : Nat) (s : State) : State := { s with sw := { s.sw with cnt := bump s.sw.cnt (90000 + i) } }

/-- Set a bit of `SW_EVT` (R289). -/
def latchSw (bit : Nat) (s : State) : State :=
  { noteSet 0x1108 bit s with sw := { s.sw with evt := latch s.sw.evt bit } }

/-- The entry of a snapshot still exists: handle and epoch (R255, R256, R262). -/
def entryLives (m : FMeta) (s : State) : Bool :=
  (if m.entry < 16384 then (look s.sw.exact m.entry).isSome else (look s.sw.wild (m.entry - 16384)).isSome) &&
    lookD s.sw.epochs m.entry 0 == m.epoch

/-- Counter `i` of a frame's entry plus `n`, or of the orphan counters (R262). -/
def countEntry (m : FMeta) (i n : Nat) (s : State) : State :=
  if entryLives m s then { s with sw := { s.sw with cnt := bumpBy s.sw.cnt (m.entry * 4 + i) n } }
  else latchSw 2 { s with sw := { s.sw with cnt := bumpBy s.sw.cnt (16640 * 4 + i) n } }

/-! ### The fate of a frame at a destination (R273, R356) -/

/-- What a destination did with a frame: sent it with its SFD at the land, took it inside, dropped it
under rule 1 of R265, a flush or the MAC, or dropped it for want of room. -/
inductive Fate where
  | left (port sfd : Nat)
  | inside
  | down
  | full
deriving DecidableEq, Repr

/-- A SEND after one destination is done. -/
def sendFate (f : Fate) (o : SendOp) : SendOp :=
  let o := { o with left := o.left - 1 }
  match f with
  | .left p t =>
    if p < o.tsPort then { o with sent := true, tsPort := p, ts := t } else { o with sent := true }
  | .inside => { o with sent := true }
  | .down => o
  | .full => { o with resDrop := true }

/-- The status of a SEND whose destinations are all done (R273). -/
def sendStatus (o : SendOp) : Nat := if o.sent then stOk else if o.resDrop then stNoResource else stWrongState

/-- The result word of a SEND: the SFD's FRC ns where a timestamp was asked for (R273). -/
def sendResult (o : SendOp) : Word :=
  if o.tsWanted && decide (o.tsPort < 64) then BitVec.ofNat 32 (o.ts / 65536) else 0

/-- Complete each SEND whose destinations are all done. -/
def finishSends : List SendOp → State → State
  | [], s => s
  | o :: os, s => finishSends os (finishOp o.ring o.gen o.seq (sendStatus o) (some (sendResult o)) false s)

/-- The SEND of a frame, if one sent it. -/
def isSend (m : FMeta) (o : SendOp) : Bool := m.op == some (o.ring, o.gen, o.seq)

/-- A destination is done with a frame. -/
def settle (m : FMeta) (f : Fate) (s : State) : State :=
  let all := s.sw.sends.map fun o => if isSend m o then sendFate f o else o
  let s1 := { s with
    sw := { s.sw with sends := all.filter fun o => o.left != 0 }
    gse := { s.gse with pubs := match m.pub with
      | some e => alter s.gse.pubs e fun x => { x with inFlight := x.inFlight - 1 }
      | none => s.gse.pubs } }
  finishSends (all.filter fun o => o.left == 0) s1

/-! ### The packet buffer and its queues (R264 to R267) -/

/-- The cells of a frame (R264). -/
def cellsOf (f : Frame) : Nat := (f.len + 255) / 256

/-- The cells of a list of frames. -/
def cellSum (l : List Held) : Nat := l.foldl (fun n h => n + cellsOf h.frame) 0

/-- Queue `q` of 384, port-major (R285). -/
def queueAt (q : Nat) (s : State) : Queue := lookD s.sw.queues q {}

/-- Set queue `q`. -/
def setQueue (q : Nat) (x : Queue) (s : State) : State :=
  { s with sw := { s.sw with queues := put s.sw.queues q x } }

/-- The cells that the MAC holds of queue `q`, those in which the frame was stored: it leaves its queue with its
last byte (R268). -/
def macCells (q : Nat) (s : State) : Nat :=
  let p := portOf (q / 8) s
  ((p.tx.toList ++ p.rest.toList).map fun t => if t.queue = q % 8 then t.cells else 0).sum

/-- occ_q (R264). -/
def occQ (q : Nat) (s : State) : Nat := cellSum (queueAt q s).frames + macCells q s

/-- Σ MIN_q; queues not listed have 64 (R264, R266). -/
def minSum (s : State) : Nat :=
  s.sw.queues.foldl (fun n e => n + e.2.min) 0 + (384 - s.sw.queues.length) * 64

/-- P, the shared pool (R264). -/
def poolCells (s : State) : Nat := Config.packetCells - 3 * Config.reserveCells - minSum s

/-- S, the pool's use (R264). -/
def poolUse (s : State) : Nat := s.sw.queues.foldl (fun n e => n + (occQ e.1 s - e.2.min)) 0

/-- Keep the lowest `FREE` (R288). -/
def noteLow (s : State) : State :=
  { s with sw := { s.sw with low := min s.sw.low (poolCells s - poolUse s) } }

/-- The colour profile of set `n` (R267). -/
def redOf (n colour : Nat) (s : State) : RedProf := lookD s.sw.red (n * 3 + colour) {}

/-- T (R267). -/
def redT (p : RedProf) (o : Nat) : Nat := (p.pMax + 1) * 256 * (o - p.minTh) / (p.maxTh - p.minTh)

/-- RED drops the frame (R267); the draw of the generator is a free value (log entry 2). -/
def redDrops (q colour : Nat) (s : State) : Bool × State :=
  let p := redOf (queueAt q s).profile colour s
  let o := occQ q s
  if o < p.minTh then (false, s)
  else if p.maxTh ≤ o then (true, s)
  else
    let d := fresh s
    (decide (d.1 % 65536 < redT p o), d.2)

/-- The rule of R265 that decides, as the number of its counter: 0 admits. -/
def admitCode (q c colour : Nat) (s : State) : Nat × State :=
  let x := queueAt q s
  let o := occQ q s
  if !portUp (q / 8) s then (1, s)
  else if o + c ≤ x.min then (0, s)
  else if x.max < o + c then (2, s)
  else if poolCells s < poolUse s + o + c - max o x.min then (3, s)
  else if x.redEn then
    let d := redDrops q colour s
    (if d.1 then 4 + colour else 0, d.2)
  else (0, s)

/-- Frames wait at a port whose MAC is free. -/
def waiting (n : Nat) (s : State) : Bool :=
  (portOf n s).tx.isNone &&
    ((portOf n s).rest.isSome || (List.range 8).any fun q => !(queueAt (n * 8 + q) s).frames.isEmpty)

/-- A pause that stops a waiting frame is counted once, and the frame's time begins (R241). -/
def notePause (n : Nat) (s : State) : State :=
  let p := portOf n s
  if p.paused && p.link == .up && p.pauseWait.isNone && waiting n s then
    let s1 := setPort n { p with pauseWait := some s.clk.frc, pauseMet := true } s
    if p.pauseMet then s1 else countPort n 29 s1
  else s

/-- The decision at one queue (R265): admitted into queue `q`, or dropped and counted. -/
def enqueue (h : Held) (q colour : Nat) (s : State) : State :=
  let d := admitCode q (cellsOf h.frame) colour s
  let s1 := countQueue q d.1 d.2
  if d.1 = 0 then
    let x := queueAt q s1
    notePause (q / 8) (noteLow (setQueue q { x with frames := x.frames ++ [h] } s1))
  else settle h.info (if d.1 = 1 then .down else .full) (if d.1 = 3 then latchSw 0 s1 else s1)

/-- Frames removed from a queue: counted in `FLUSHED` and reported as not sent (R269). -/
def flushFrames (q : Nat) : List Held → State → State
  | [], s => s
  | h :: hs, s => flushFrames q hs (settle h.info .down (countQueue q 7 s))

/-- Flush one queue. -/
def flushQueue (q : Nat) (s : State) : State :=
  let x := queueAt q s
  if x.frames.isEmpty then s else flushFrames q x.frames (setQueue q { x with frames := [] } s)

/-- Flush the 8 queues of port `n` (R269). -/
def flushPort (n : Nat) (s : State) : State := (List.range 8).foldl (fun t q => flushQueue (n * 8 + q) t) s

/-! ### Delivery by an engine, page by page (R133, R203) -/

/-- Deliver bytes of an operation into partition `p`, a new page at a request of the replicator (R207); false where a
page could not be mapped: that write and the later ones are discarded. -/
def deliverPages (p : Nat) : Nat → Nat → Bytes → State → State × Bool
  | 0, _, _, s => (s, true)
  | n + 1, iova, b, s =>
    let k := 4096 - iova % 4096
    match touch p iova (if ((look s.cnp.parts p).map fun x => isMapped x iova).getD true then s else pgkAsk 15 s) with
    | none => (s, false)
    | some t => deliverPages p n (iova + k) (b.drop k) (deliver p iova (b.take k) t)

/-- Deliver bytes of an operation (R203). -/
def deliverOp (p iova : Nat) (b : Bytes) (s : State) : State × Bool :=
  deliverPages p (if b.isEmpty then 0 else (iova % 4096 + b.length + 4095) / 4096) iova b s

/-! ### Receive rings (R259, R274, R275) -/

/-- The first 20 bytes of the receive header hold these words (R275). `LEN` is the length as received without FCS,
with what redundancy ingress removed since. -/
def recvHeader (h : Held) (trunc : Bool) : Bytes :=
  let m := h.info
  let t := m.ts.getD 0
  toLe 4 (m.src % 64 + 2 ^ 8 * b2n m.ts.isSome + 2 ^ 9 * b2n m.tsLost + 2 ^ 10 * (m.verdict % 4) +
      2 ^ 12 * b2n trunc + 2 ^ 13 * b2n m.lanB + 2 ^ 16 * m.entry) ++
    toLe 4 ((h.frame.len - 4 + m.cut) % 2 ^ 14) ++ toLe 8 (t / 65536) ++ toLe 4 (t % 65536) ++
    toLe 4 m.flow.toNat ++ List.replicate 8 0

/-- The receive header without its module-local fields: `PORT`, the timestamp and `LAN_B` (R275, R475). -/
def plainHeader (h : Held) (trunc : Bool) : Bytes :=
  recvHeader { h with info := { h.info with src := 0, ts := none, tsLost := false, lanB := false } } trunc

/-- The module-local bytes of a receive header in memory: those of `PORT`, `TS_*` and `LAN_B` (R275, R475). -/
def localHeader (p iova : Nat) (s : State) : State := noteLocal p iova 2 (noteLocal p (iova + 8) 12 s)

/-- The bytes of a frame as received, without FCS (R274). -/
def frameData (f : Frame) : Bytes := padTo (f.len - 4) ((frameBytes f).take (f.len - 4))

/-- The posted buffer of ring `r` that is filled next, in submit-sequence order (R274): one that a different
descriptor replaced is not withdrawn from its engine (R130). -/
def postedRecv (r : Nat) (s : State) : Option JRec :=
  match look s.rng.rings r with
  | some x =>
    if x.binding = 2 then
      let posted := (s.rng.orphans ++ s.rng.jrnl).filter fun e =>
        e.ring == r && e.gen == x.gen && e.stage == .started && !e.saved && opOf e.desc == 1
      posted.find? fun e => posted.all fun j => decide ((e.seq - j.seq).toInt ≤ 0)
    else none
  | none => none

/-- A frame fills the next posted buffer, if there are both (R274). -/
def fillRecv (r : Nat) (s : State) : State :=
  match s.sw.ringq.find? (fun e => e.1 == r), postedRecv r s with
  | some q, some e =>
    let all := 32 + (q.2.frame.len - 4)
    let n := min all (lenOf e.desc)
    let trunc := decide (lenOf e.desc < all)
    let b := (recvHeader q.2 trunc ++ frameData q.2.frame).take n
    let d := deliverOp (r / 8) (iovaOf e.desc) b
      (localHeader (r / 8) (iovaOf e.desc) <| noteInput (r / 8) 2 r e.seq.toNat ((plainHeader q.2 trunc ++ frameData q.2.frame).take n)
        { s with sw := { s.sw with ringq := s.sw.ringq.erase q } })
    if d.2 then finishOp r e.gen e.seq stOk (some (BitVec.ofNat 32 n)) (decide (n < lenOf e.desc)) d.1
    else finishOp r e.gen e.seq stOverQuota none false d.1
  | _, _ => s

/-- A frame that finds no place at an internal destination: `RING_DROP` of its entry (R259, R276). -/
def ringDrop (h : Held) (s : State) : State := settle h.info .full (countEntry h.info 3 1 s)

/-- The frame finds room in a reserve (R264). -/
def roomFor (l : List Held) (f : Frame) : Bool := decide (cellSum l + cellsOf f ≤ Config.reserveCells)

/-- A frame for ring `r` (R259, R274). -/
def toRing (h : Held) (r : Nat) (s : State) : State :=
  let ok := match look s.rng.rings r with
    | some x => x.binding == 2 && x.st == .on
    | none => false
  let mine := s.sw.ringq.filter fun e => e.1 == r
  if ok && decide (mine.length < 64) && roomFor (s.sw.ringq.map Prod.snd) h.frame then
    fillRecv r (settle h.info .inside { s with sw := { s.sw with ringq := s.sw.ringq ++ [(r, h)] } })
  else ringDrop h s

/-- A frame for SE0 (R276). -/
def toSe0 (h : Held) (s : State) : State :=
  if roomFor s.sw.se0 h.frame then settle h.info .inside { s with sw := { s.sw with se0 := s.sw.se0 ++ [h] } }
  else ringDrop h s

/-- A frame for SE1 (R276). -/
def toSe1 (h : Held) (s : State) : State :=
  if roomFor s.sw.se1 h.frame then settle h.info .inside { s with sw := { s.sw with se1 := s.sw.se1 ++ [h] } }
  else ringDrop h s

end Sys2Proof.Machine
end

