-- ==== Sys2Proof/Machine/Time.lean ====
section
/-! DEFINITION. Time bases and precision time (R292 to R330). -/

namespace Sys2Proof.Machine

open Sys2Proof

/-! ### Set-up fields (R296) -/

/-- PPS_OUT is not held low: `EN`, `ACQ_ONLY` and the time base (R318). -/
def ppsFree (s : State) : Bool :=
  let b := tbOf s.tim.ppsOut.tb s
  s.tim.ppsOut.en && b.en == .on && (!s.tim.ppsOut.flag || b.acq == .locked)

/-- A pulse ends where something holds PPS_OUT low, and does not rise again off the grid (R318). -/
def holdPps (s : State) : State := { s with tim := { s.tim with ppsHigh := s.tim.ppsHigh && ppsFree s } }

/-- Set time base `n`. -/
def setTb (n : Nat) (b : TBase) (s : State) : State :=
  holdPps { s with tim := { s.tim with bases := put s.tim.bases n b } }

/-- Counter `i` of time base `n` plus `k` (R323). -/
def addTb (n i k : Nat) (s : State) : State :=
  { s with tim := { s.tim with cnt := bumpBy s.tim.cnt (n * 9 + i) k } }

/-- Counter `i` of the timestamp bank of port `n` (R323). -/
def countTs (n i : Nat) (s : State) : State :=
  { s with tim := { s.tim with tsCnt := bump s.tim.tsCnt (n * 7 + i) } }

def tbSource (b : TBase) : Nat := cfgWord b.cfg 0 % 4
def tbP2p (b : TBase) : Bool := tbit (cfgWord b.cfg 0) 2
def tbGm (b : TBase) : Bool := tbit (cfgWord b.cfg 0) 3
def tbUdp4 (b : TBase) : Bool := tbit (cfgWord b.cfg 0) 4
def tbDomain (b : TBase) : Nat := bits (cfgWord b.cfg 0) 15 8
def tbProfile (b : TBase) : Nat := bits (cfgWord b.cfg 0) 17 16
def tbPorts (b : TBase) : Nat := cfgWord b.cfg 1 + 2 ^ 32 * (cfgWord b.cfg 2 % 2 ^ 16)
def tbGuard (b : TBase) : Nat := cfgWord b.cfg 3
def tbLog (b : TBase) (i : Nat) : Int := signed 8 (bits (cfgWord b.cfg 4) (8 * i + 7) (8 * i))
def tbAnnTmo (b : TBase) : Nat := bits (cfgWord b.cfg 4) 31 24
def tbKp (b : TBase) : Nat := cfgWord b.cfg 5 % 16
def tbKi (b : TBase) : Nat := bits (cfgWord b.cfg 5) 11 8
def tbSlew (b : TBase) : Nat := cfgWord b.cfg 5 / 2 ^ 16
def tbInit (b : TBase) : Nat := cfgWord b.cfg 6 + 2 ^ 32 * cfgWord b.cfg 7

/-- 2^`k` seconds in ns. -/
def logNs (k : Int) : Nat := if 0 ≤ k then 1000000000 * 2 ^ k.toNat else 1000000000 / 2 ^ (-k).toNat

/-- The clockIdentity of time base `n` (R296). -/
def clockId (n : Nat) : Nat :=
  let m := Config.mac0.toNat
  m / 2 ^ 24 * 2 ^ 40 + (0xFFF0 + n) * 2 ^ 24 + m % 2 ^ 24

/-- The instance in which port `n` is an HSR ring port, or a PRP port (R280). -/
def instOf (n : Nat) (s : State) : Option (Nat × Redun) :=
  s.sw.redun.find? fun e => e.2.portA == n || e.2.portB == n

/-- Modes 2 to 4 are HSR on the ring ports (R280). -/
def isHsr (r : Redun) : Bool := 2 ≤ r.mode && decide (r.mode ≤ 4)

/-- The port is an HSR ring port. -/
def hsrPort (n : Nat) (s : State) : Bool := ((instOf n s).map fun e => isHsr e.2).getD false

/-! ### TB_CONFIG (R296 to R298) -/

/-- A signed byte of word 4 lies in a range. -/
def logIn (b : Bytes) (i : Nat) (lo hi : Int) : Bool :=
  let v := signed 8 (bits (wordAt b 4) (8 * i + 7) (8 * i))
  decide (lo ≤ v) && decide (v ≤ hi)

/-- R298. -/
def profileOk (b : Bytes) : Bool :=
  let w := wordAt b 0
  let tmo := bits (wordAt b 4) 31 24
  if bits w 17 16 = 0 then
    decide (bits w 15 8 ≤ 127) && logIn b 0 (-7) 4 && logIn b 1 (-3) 4 && logIn b 2 (-7) 5 &&
      decide (2 ≤ tmo) && decide (tmo ≤ 10)
  else
    tbit w 2 && !tbit w 4 && logIn b 0 0 0 && logIn b 1 0 0 && logIn b 2 0 0 && tmo == 3

/-- Ranges, reserved bits and combinations of R296 and R297. -/
def tbRanges (b : Bytes) : Bool :=
  let w := wordAt b 0
  let src := w % 4
  let gm := tbit w 3
  let ports := wordAt b 1 + 2 ^ 32 * wordAt b 2
  src != 3 && !(gm && src == 1) && bits w 7 5 == 0 && bits w 17 16 != 3 && w / 2 ^ 18 == 0 &&
    decide (wordAt b 2 < 2 ^ 16) && !(ports == 0 && (src == 1 || gm)) &&
    decide (100 ≤ wordAt b 3) && decide (wordAt b 3 ≤ 1000000000) && profileOk b &&
    bits (wordAt b 5) 7 4 == 0 && bits (wordAt b 5) 15 12 == 0 && decide (1 ≤ wordAt b 5 / 2 ^ 16) &&
    decide (wordAt b 5 / 2 ^ 16 ≤ 1000) && (src != 2 || dwordAt b 6 % 1000000000 == 0) &&
    decide (wordAt b 9 < 2 ^ 24) && decide (wordAt b 10 < 2 ^ 19) && decide (wordAt b 11 < 2 ^ 16) &&
    (List.range 3).all fun i => wordAt b (13 + i) == 0

/-- The configuration takes part in PTP: `SOURCE` 1 or `GM` 1 (R297). -/
def ptpCfg (b : TBase) : Bool := tbSource b == 1 || tbGm b

/-- The kept configuration `y` takes part in PTP and shares `DOMAIN` and a port with `x` (R297). -/
def tbClash (x y : TBase) : Bool :=
  ptpCfg y && tbDomain x == tbDomain y && (tbPorts x).land (tbPorts y) != 0

/-- The configuration that a block describes. -/
def tbOfBlock (b : Bytes) : TBase := { cfg := some (blockWords b 16) }

def judgeTbConfig (c : Cmd) (s : State) : Nat :=
  let n := arg0 c.desc
  judged c s [(decide (n < 4), stBadArg), (inputBlock c 64 s && tbRanges c.block, stBadArg),
    (s.tim.bases.all fun e => e.1 == n || e.2.cfg.isNone || !tbClash (tbOfBlock c.block) e.2, stBadArg),
    ((tbOf n s).en == .off, stWrongState)]

def effTbConfig (c : Cmd) (s : State) : Res :=
  res (setTb (arg0 c.desc) { tbOf (arg0 c.desc) s with cfg := some (blockWords c.block 16) } s) stOk

/-- TB_CONFIG (R296, R297). -/
def execTbConfig (c : Cmd) (s : State) : Out := runNow 0x0501 judgeTbConfig effTbConfig c s

/-! ### Events (R322, R325) -/

/-- Set a bit of `TB_EVT` for time base `n` (R325). -/
def latchTb (bit n : Nat) (s : State) : State :=
  { noteSet 0x1210 bit s with tim := { s.tim with evt := latch s.tim.evt bit, lastTb := n } }

/-- Raise an event of time base `n` (R322). -/
def tbEvent (code n : Nat) (data : Bytes) (sev : Option Nat) (s : State) : State :=
  raise { src := 9, code := code, kind := 6, index := n, data := data, sev := sev } s

/-! ### PPS_OUT (R318) -/

/-- Arm the next rising edge: the first instant of the grid at or after the linear ns `t`; a time base that is not
ON takes no compare (R317, R318). -/
def armPps (t : Nat) (s : State) : State :=
  let p := s.tim.ppsOut
  if p.en && (tbOf p.tb s).en == .on then
    armCmp p.tb ((t + 999999999 - p.phase) / 1000000000 * 1000000000 + p.phase) .ppsOut s
  else s

/-- The next rising edge is taken anew, at or after `t`: after a step, and when the time base turns ON (R318). -/
def rearmPps (n t : Nat) (s : State) : State :=
  if s.tim.ppsOut.tb = n then armPps t (cancelCmps (fun u => u == .ppsOut) s) else s

/-- A set-up of PPS_OUT takes effect at the linear ns `t` (R318). -/
def applyPps (t : Nat) (s : State) : State :=
  match s.tim.ppsNext with
  | none => s
  | some p =>
    armPps t (holdPps (cancelCmps (fun u => u == .ppsOut || u == .ppsSet)
      { s with tim := { s.tim with ppsOut := p, ppsNext := none } }))

/-- A set-up of PPS_OUT that waits for a whole second of time base `n` waits for the next one of its new value after a
step; one that is no longer ON lets it take effect at once (R318). -/
def rewaitPps (n : Nat) (s : State) : State :=
  if s.tim.cmps.any fun c => c.tb == n && c.use == .ppsSet then
    let b := tbOf n s
    if b.en == .on then
      armCmp n ((tbNs b (frcNow s) / 1000000000 + 1) * 1000000000) .ppsSet (cancelCmps (fun u => u == .ppsSet) s)
    else applyPps 0 s
  else s

/-- The ranges of the two pulse set-ups (R318, R319). -/
def ppsRanges (b : Bytes) (out : Bool) : Bool :=
  if out then
    wordAt b 0 / 8 == 0 && !tbit (wordAt b 0) 1 && decide (100 ≤ wordAt b 1) &&
      decide (wordAt b 1 ≤ 900000000) && decide (wordAt b 2 ≤ 999999999) && wordAt b 3 == 0
  else decide (wordAt b 0 < 4) && (List.range 3).all fun i => wordAt b (1 + i) == 0

def judgeTbPps (c : Cmd) (s : State) : Nat :=
  judged c s [(decide (arg0 c.desc ≤ 1) && decide (arg1 c.desc < 4), stBadArg),
    (inputBlock c 16 s && ppsRanges c.block (arg0 c.desc == 1), stBadArg)]

/-- A set-up of PPS_IN takes effect at once; one of PPS_OUT at the next whole second of its time base
when that is ON, and at once when it is not (R318, R319). -/
def effTbPps (c : Cmd) (s : State) : Res :=
  let n := arg1 c.desc
  let w := wordAt c.block 0
  if arg0 c.desc = 0 then
    res { s with tim := { s.tim with ppsIn := { tb := n, en := tbit w 0, flag := tbit w 1 } } } stOk
  else
    let p : Pps := { tb := n, en := tbit w 0, flag := tbit w 2, width := wordAt c.block 1, phase := wordAt c.block 2 }
    let s1 := cancelCmps (fun u => u == .ppsSet) { s with tim := { s.tim with ppsNext := some p } }
    let b := tbOf n s
    if b.en == .on then
      res (armCmp n ((tbNs b (frcNow s) / 1000000000 + 1) * 1000000000) .ppsSet s1) stOk
    else res (applyPps 0 s1) stOk

/-- TB_PPS (R318, R319). -/
def execTbPps (c : Cmd) (s : State) : Out := runNow 0x0505 judgeTbPps effTbPps c s

/-- A rising edge of the grid, and the arming of the next: a STOPPING time base takes no new compare (R318,
R321). -/
def ppsRise (target : Nat) (s : State) : State :=
  let s1 := if s.tim.ppsOut.en && (tbOf s.tim.ppsOut.tb s).en == .on
    then armCmp s.tim.ppsOut.tb (target + 1000000000) .ppsOut s else s
  if ppsFree s then
    { s1 with tim := { s1.tim with ppsHigh := true, ppsFall := s.clk.frc + s.tim.ppsOut.width } }
  else s1

/-- PPS_OUT_FALL (R318). -/
def execPpsOutFall (s : State) : Out :=
  act (s.tim.ppsHigh && decide (s.tim.ppsFall ≤ s.clk.frc)) s { s with tim := { s.tim with ppsHigh := false } }

/-! ### Steps, the servo and the guard (R295, R299 to R303) -/

/-- Time base `n` leaves HOLDOVER: its time there is counted (R323). -/
def leaveHold (n : Nat) (s : State) : State :=
  let b := tbOf n s
  if b.acq == .holdover then addTb n 6 (s.clk.frc - b.holdAt) s else s

/-- Take a step of `d` in 2⁻¹⁶ ns now, and be LOCKED (R295, R299); Canopy re-phases (R192), the next edge of PPS_OUT
lies after the step (R318), and a STOPPING time base waits for the next whole second of its new value (R321). -/
def stepTb (n : Nat) (d : Int) (code bit : Nat) (s : State) : State :=
  let b := tbOf n s
  let f := frcNow s
  let v := ((tbAt b f : Int) + d).toNat
  let y := { b with
    b := v, a := f, stopSec := v / 65536 / 1000000000, acq := .locked, count := 0, okCount := 0, pending := 0
    armed := false, lastAt := none, syncM := b.syncM.map (· + d)
    e2e := b.e2e.map fun e => (e.1, e.2.map (· + d)) }
  canopyStep n (rewaitPps n (rearmPps n (v / 65536 + 1) (tbEvent code n [] (some 1) (latchTb bit n (setTb n y s)))))

/-- A new rate takes effect at the next FRC cycle, without a jump (R295, R302). -/
def setRate (n : Nat) (r : Int) (s : State) : State :=
  let b := tbOf n s
  let f := frcNow s + 65536
  setTb n { b with b := tbAt b f, a := f, rate := r } s

/-- The bound of R295. -/
def rateMax : Int := 1099511627

/-- Limit a value to plus or minus `m`. -/
def clamp (m x : Int) : Int := max (-m) (min m x)

/-- The servo (R302): Δ of 0, for which the division is not stated, stands for a free value. -/
def servo (n : Nat) (theta : Int) (f delta : Nat) (s : State) : State :=
  let dl := if delta = 0 then (fresh s).1 + 1 else delta
  let s0 := if delta = 0 then (fresh s).2 else s
  let b := tbOf n s0
  let p := clamp (roundDiv (tbSlew b * 2 ^ 40) 1000000) (roundDiv (-theta * 2 ^ 40) (dl * 2 ^ tbKp b))
  let g := b.f - roundDiv (theta * 2 ^ 40) (dl * 2 ^ tbKi b)
  let g' := max (-rateMax - p) (min (rateMax - p) g)
  setRate n (g' + p) (setTb n { b with f := g', lastAt := some f } s0)

/-- A step request is refused (R303): record of the time base, the master's clockIdentity and the
step. -/
def refuseStep (n : Nat) (theta : Int) (s : State) : State :=
  let s1 := leaveHold n s
  let b := tbOf n s1
  let who := (b.master.map fun m => m.1).getD 0
  let data := toLe 4 n ++ toLe 8 who ++ toLe 8 (unsigned 64 (-theta))
  tbEvent 0x0503 n data (some 1) (latchTb 1 n (addTb n 4 1
    (setTb n { b with acq := .refused, pending := -theta, count := 0, okCount := 0 } s1)))

/-- LOCKED, HOLDOVER: the measurement corrects the rate, or counts toward a step request (R302,
R303). -/
def follow (n : Nat) (theta : Int) (beyond : Bool) (f delta : Nat) (s : State) : State :=
  let b := tbOf n s
  if beyond then
    if 3 ≤ b.count + 1 then refuseStep n theta s else setTb n { b with count := b.count + 1 } s
  else servo n theta f delta (setTb n { b with acq := .locked, count := 0 } (leaveHold n s))

/-- REFUSED: a step where a re-arm authorised it, else the pending step follows, and three
measurements within the guard drop it (R299, R303, R306). -/
def refusedMeas (n : Nat) (theta : Int) (beyond : Bool) (s : State) : State :=
  let b := tbOf n s
  let k := if beyond then 0 else b.okCount + 1
  if b.armed then stepTb n (-theta) 0x0502 2 s
  else if 3 ≤ k then
    tbEvent 0x0504 n [] (some 1) (setTb n { b with acq := .locked, okCount := 0, pending := 0 } s)
  else setTb n { b with okCount := k, pending := -theta } s

/-- A usable measurement θ, taken at FRC value `f`, `delta` after the last one used (R299 to R303). -/
def measure (n : Nat) (theta : Int) (f delta : Nat) (s : State) : State :=
  let b := tbOf n s
  let beyond := decide (tbGuard b * 65536 < theta.natAbs)
  let s1 := setTb n { b with theta := theta } s
  match b.acq with
  | .unacquired => stepTb n (-theta) 0x0501 0 s1
  | .refused => refusedMeas n theta beyond s1
  | _ => follow n theta beyond f delta s1

/-! ### Enable, disable, re-arm (R149, R306, R321) -/

/-- The time base becomes ON: UNACQUIRED, equal to the FRC, f = 0; a local one takes `INIT_TIME` at
once and is LOCKED (R299, R300, R321). -/
def startTb (n : Nat) (s : State) : State :=
  let old := tbOf n s
  let y : TBase :=
    { cfg := old.cfg, en := .on, a := frcNow s, b := frcNow s, theta := old.theta, ppsVal := old.ppsVal
      gmId := old.gmId, path := old.path, tti := old.tti, gmC37 := old.gmC37 }
  let s1 := setTb n y s
  let s2 := if tbSource y = 0 then stepTb n ((tbInit y * 65536 : Nat) - (frcNow s : Int)) 0x0501 0 s1 else s1
  rearmPps n ((tbAt (tbOf n s2) (frcNow s2) + 65535) / 65536) s2

/-- The checks of a command that names a time base. -/
def tbArg (c : Cmd) : List (Bool × Nat) := [(decide (arg0 c.desc < 4), stBadArg), (noBlock c, stBadArg)]

def judgeTbEnable (c : Cmd) (s : State) : Nat :=
  judged c s (tbArg c ++ [((tbOf (arg0 c.desc) s).cfg.isSome, stWrongState)])

def effTbEnable (c : Cmd) (s : State) : Res :=
  let n := arg0 c.desc
  let b := tbOf n s
  let e := enableRule b.en b.held
  res (if b.en == .off then startTb n s else setTb n { b with en := e.1, held := e.2.1 } s) e.2.2

/-- TB_ENABLE (R149, R321). -/
def execTbEnable (c : Cmd) (s : State) : Out := runNow 0x0502 judgeTbEnable effTbEnable c s

def judgeTbDisable (c : Cmd) (s : State) : Nat := judged c s (tbArg c)

/-- STOPPING until the next whole second; Canopy continues from its value (R192, R321). -/
def effTbDisable (c : Cmd) (s : State) : Res :=
  let n := arg0 c.desc
  let b := tbOf n s
  let d := disableRule b.en b.held
  let sec := if b.en == .on then tbNs b (frcNow s) / 1000000000 else b.stopSec
  res (canopyLeave n s (setTb n { b with en := d.1, held := d.2, stopSec := sec } s)) stOk

/-- TB_DISABLE (R149, R321). -/
def execTbDisable (c : Cmd) (s : State) : Out := runNow 0x0503 judgeTbDisable effTbDisable c s

def judgeTbRearm (c : Cmd) (s : State) : Nat :=
  judged c s (tbArg c ++ [((tbOf (arg0 c.desc) s).en == .on, stWrongState)])

/-- One step is authorised while REFUSED, with record 0510h of the step that was pending when the command was
consumed; otherwise STEP_REFUSED (R161, R306). -/
def effTbRearm (c : Cmd) (s : State) : Res :=
  let n := arg0 c.desc
  let b := tbOf n s
  if b.acq == .refused then
    let data := toLe 2 c.ring ++ [0, 0] ++ toLe 8 (unsigned 64 (if fromRing c then s.hw.rearm else b.pending))
    res (recordOnly { src := 0, code := 0x0510, kind := 6, index := n, data := data, sev := some 1 }
      (addTb n 5 1 (setTb n { b with armed := true } s))) stOk
  else res s stStepRefused

/-- TB_REARM (R306). -/
def execTbRearm (c : Cmd) (s : State) : Out := runNow 0x0504 judgeTbRearm effTbRearm c s

/-- What the cancellation of a compare means for its user (R317, R318, R444, R534, R395). -/
def cancelUse (u : CmpUse) (s : State) : State :=
  match u with
  | .rollover k =>
    if (slotOf k s).st == .rollPending then
      keyEvent 0x0605 k (some 2) (some 1) (setSlot k { slotOf k s with st := .valid } s)
    else s
  | .ppsOut => s
  | .ppsSet => applyPps 0 s
  | .load r g q => cancelLoad r g q s
  | .trigger r e =>
    raise { src := 6, code := 0x0706, kind := 7, index := r }
      { s with acq := { s.acq with recs := alter s.acq.recs r fun x => { x with
        trigs := x.trigs.zipIdx.map fun t => if t.2 = e then { t.1 with cancelled := true } else t.1 } } }

/-- The cancelled compares, in order. -/
def cancelUses : List Cmp → State → State
  | [], s => s
  | c :: cs, s => cancelUses cs (cancelUse c.use s)

/-- Two-step Syncs of time base `n` whose Follow_Up has not come within one Sync interval are not usable; with `all`
none of them can be used any more (R301). -/
def lapse (n : Nat) (all : Bool) (s : State) : State :=
  let b := tbOf n s
  let gone := b.syncWait.filter fun w => all || decide (w.2 + logNs w.1.msg.logInt < s.clk.frc)
  if gone.isEmpty then s
  else addTb n 1 gone.length (setTb n { b with syncWait := b.syncWait.filter fun w => !gone.contains w } s)

/-- The compare is armed on the time base `n`: a set-up of PPS_OUT that waits for a whole second is none (R315,
R317). -/
def armedOn (n : Nat) (c : Cmp) : Bool := c.tb == n && c.use != .ppsSet

/-- A STOPPING time base reaches OFF (R149, R317, R321): the rate becomes 0 without a step, and its
armed compares are cancelled, with one event 0507h. -/
def stopTb (n : Nat) (s : State) : State :=
  let s0 := lapse n true (leaveHold n s)
  let b := tbOf n s0
  let f := frcNow s
  let y := { b with
    en := .off, held := false, acq := .unacquired, b := tbAt b f, a := f, rate := 0, armed := false
    pending := 0, count := 0, okCount := 0, foreign := [], master := none, delays := [], syncM := none
    e2e := none, syncWait := [], due := [], quiet := [] }
  let gone := s.tim.cmps.filter fun c => c.tb == n
  let s1 := setTb n y { s0 with tim := { s0.tim with cmps := s0.tim.cmps.filter fun c => c.tb != n } }
  let armed := (gone.filter (armedOn n)).length
  let s2 := if armed = 0 then s1 else tbEvent 0x0507 n [] none (latchTb 5 n (addTb n 8 armed s1))
  let s3 := offEvents 6 n b.held (cancelUses gone s2)
  if b.held then startTb n s3 else s3

/-- The time base may reach OFF: the next whole second of its value has come (R150). -/
def tbStops (n : Nat) (s : State) : Bool :=
  let b := tbOf n s
  b.en == .stopping && decide (b.stopSec < tbNs b (frcNow s) / 1000000000)

/-! ### PTP frames that the engine sends (R296, R307, R308) -/

/-- The destination address and the body of a PTP message by transport (R307). -/
def ptpFrame (port len : Nat) (udp4 pdelay event : Bool) (m : PtpMsg) : Frame :=
  { da := if pdelay then 0x0180C200000E else if udp4 then 0x01005E000181 else 0x011B19000000
    sa := portMac port, etype := if udp4 then 0x0800 else 0x88F7, len := len + (if udp4 then 28 else 0)
    body := if udp4 then .udp4 (if event then 319 else 320) 0 (some m) else .ptp m }

/-- A green frame direct to its port in queue 7, bypassing the tables (R308). `ts` is the receive time
of a Pdelay_Req that it answers. -/
def sendPtp (n port : Nat) (f : Frame) (ts : Option Nat) (s : State) : State :=
  enqueue { frame := f, info := { src := 50, flow := BitVec.ofNat 32 n, ts := ts } } (port * 8 + 7) 0
    (countTs port 3 s)

/-- A message that time base `n` sends on `port`. -/
def ptpFrom (n port : Nat) (s : State) : PtpMsg :=
  let b := tbOf n s
  { domain := tbDomain b, seq := b.seqNo, clock := clockId n, portNum := port + 1 }

/-- The time base sends and answers as a grandmaster: `GM`, LOCKED or HOLDOVER, not OFF (R308). -/
def gmActive (b : TBase) : Bool := b.en != .off && tbGm b && (b.acq == .locked || b.acq == .holdover)

/-- Another master keeps a port silent (R308). -/
def quietNow (b : TBase) (port : Nat) (s : State) : Bool :=
  b.quiet.any fun q => q.1 == port && decide (s.clk.frc < q.2)

/-- A port that takes part. -/
def onPort (b : TBase) (port : Nat) : Bool := tbit (tbPorts b) port

/-- The clockClass sent: 7 in HOLDOVER when `CLASS` is 6 (R308). -/
def gmClass (b : TBase) : Nat :=
  let c := bits (cfgWord b.cfg 8) 23 16
  if b.acq == .holdover && c == 6 then 7 else c

/-- The Announce of a grandmaster (R296, R307, R308). -/
def announceMsg (n port : Nat) (s : State) : PtpMsg :=
  let b := tbOf n s
  { ptpFrom n port s with
    kind := .announce, messageType := 11, logInt := tbLog b 1, prio1 := cfgWord b.cfg 8 % 256
    prio2 := bits (cfgWord b.cfg 8) 15 8, cls := gmClass b, accuracy := bits (cfgWord b.cfg 8) 31 24
    variance := cfgWord b.cfg 9 % 65536, tsource := bits (cfgWord b.cfg 9) 23 16, utc := cfgWord b.cfg 10
    gmId := clockId n
    gmTlv := if tbProfile b = 2 then some (cfgWord b.cfg 11, cfgWord b.cfg 12) else none }

/-- The Sync of a grandmaster; its origin timestamp is written as it leaves (R309). -/
def syncMsg (n port : Nat) (s : State) : PtpMsg :=
  { ptpFrom n port s with kind := .sync, messageType := 0, logInt := tbLog (tbOf n s) 0 }

/-- One message of time base `n` leaves for `port`; the sequence number advances. -/
def sendFrom (n port len : Nat) (event : Bool) (m : PtpMsg) (s : State) : State :=
  let b := tbOf n s
  sendPtp n port (ptpFrame port len (tbUdp4 b) false event m) none
    (setTb n { b with seqNo := (b.seqNo + 1) % 65536 } s)

/-- When the next Announce and Sync of a port are due. -/
def setDue (n port : Nat) (d : Nat × Nat) (s : State) : State :=
  setTb n { tbOf n s with due := put (tbOf n s).due port d } s

/-- GM_ANNOUNCE_SYNC_TX (R308). -/
def execGmAnnounceSyncTx (tb port : Nat) (s : State) : Out :=
  named (decide (tb < 4) && decide (port < 48))
    (let b := tbOf tb s
     let d := lookD b.due port (0, 0)
     let now := s.clk.frc
     let ok := gmActive b && onPort b port && portUp port s && !quietNow b port s
     let ann := decide (d.1 ≤ now)
     let syn := decide (d.2 ≤ now)
     act (ok && (ann || syn)) s
       (let s1 := if ann then sendFrom tb port 82 false (announceMsg tb port s) s else s
        let s2 := if syn then sendFrom tb port 64 true (syncMsg tb port s1) s1 else s1
        setDue tb port (if ann then now + logNs (tbLog b 1) else d.1,
          if syn then now + logNs (tbLog b 0) else d.2) s2))

/-- DELAY_REQ_TX (R308): the next interval is drawn from 0.5 to 1.5 times 2^`LOG_DREQ` s, a free value. -/
def execDelayReqTx (tb : Nat) (s : State) : Out :=
  named (decide (tb < 4))
    (let b := tbOf tb s
     match b.master with
     | none => .next s
     | some m =>
       act (b.en != .off && tbSource b == 1 && !tbP2p b && decide (b.nextDreq ≤ s.clk.frc)) s
         (let iv := logNs (tbLog b 2)
          let d := fresh s
          let s1 := setTb tb { b with
            e2e := some (b.seqNo, none), nextDreq := s.clk.frc + iv / 2 + d.1 % (iv + 1) } d.2
          sendFrom tb m.2.2 64 true
            { ptpFrom tb m.2.2 s with kind := .delayReq, messageType := 1, logInt := 127 } s1))

/-! ### Use of received copies (R301, R304, R308, R310, R311) -/

/-- versionPTP is 2 and minorVersionPTP 0 or 1 (R307). -/
def versionOk (m : PtpMsg) : Bool := m.version == 2 && decide (m.minor ≤ 1)

/-- A time base uses a copy: ON or STOPPING, its domain and ports match, and the port is no HSR ring
port (R307, R311). -/
def usesCopy (b : TBase) (c : PtpCopy) (s : State) : Bool :=
  versionOk c.msg && b.en != .off && b.cfg.isSome && tbDomain b == c.msg.domain && onPort b c.port && !hsrPort c.port s

/-- The time bases that use a copy. -/
def users (c : PtpCopy) (s : State) : List Nat := (List.range 4).filter fun n => usesCopy (tbOf n s) c s

/-- The engine has a use for the copy: peer-delay messages by `TB_PDLY`, any other by a time base whose `DOMAIN` and
`PORTS` match (R310, R311). A change of `EN` applies from a port's next interval, so that a response to an open request
is still wanted (R330). Management and signalling messages are not supported (R307). -/
def copyWanted (c : PtpCopy) (s : State) : Bool :=
  match c.msg.kind with
  | .pdelayReq => versionOk c.msg && tbit s.tim.pdly.toNat 1
  | .pdelayResp => versionOk c.msg && (tbit s.tim.pdly.toNat 0 || (portOf c.port s).pdelay.isSome)
  | .other => false
  | _ => !(users c s).isEmpty

/-- A copy reaches the time-base engine at the store stage (R311). -/
def takeCopy (c : PtpCopy) (s : State) : State :=
  let s1 := countTs c.port 2 s
  if copyWanted c s then { s1 with tim := { s1.tim with inbox := s1.tim.inbox ++ [c] } } else countTs c.port 4 s1

/-- The row of a copy of kind `k`: the engine holds it. -/
def copyRow (k : PtpKind) (c : PtpCopy) (s : State) (eff : State → State) : Out :=
  act (s.tim.inbox.contains c && c.msg.kind == k) s
    (eff { s with tim := { s.tim with inbox := s.tim.inbox.erase c } })

/-- Apply an effect for each time base of a list. -/
def eachTb (eff : Nat → State → State) : List Nat → State → State
  | [], s => s
  | n :: ns, s => eachTb eff ns (eff n s)

/-- The dataset comparison of IEEE 1588-2019, 9.3, as a key; the lower is better (R304). -/
def dataset (m : PtpMsg) : List Nat :=
  [m.prio1, m.cls, m.accuracy, m.variance, m.prio2, m.gmId, m.steps, m.clock, m.portNum]

/-- Lexicographic order of two keys. -/
def lexLt : List Nat → List Nat → Bool
  | a :: as, b :: bs => decide (a < b) || (a == b && lexLt as bs)
  | _, _ => false

/-- The better of two foreign masters; ties go to the lower port number (R304). -/
def betterOf (a b : Foreign) : Foreign :=
  if lexLt (dataset a.ann) (dataset b.ann) then a
  else if lexLt (dataset b.ann) (dataset a.ann) then b
  else if b.port < a.port then b else a

/-- A foreign master has not timed out (R305). -/
def heard (b : TBase) (now : Nat) (f : Foreign) : Bool := decide (now < f.last + tbAnnTmo b * logNs f.ann.logInt)

/-- The best qualified master (R304). -/
def bestMaster (b : TBase) (now : Nat) : Option Foreign :=
  match b.foreign.filter fun f => f.ok && heard b now f with
  | [] => none
  | f :: fs => some (fs.foldl betterOf f)

/-- The name under which a master is selected. -/
def masterName (f : Foreign) : Nat × Nat × Nat := (f.ann.clock, f.ann.portNum, f.port)

/-- The mean path delay d (R301, R310). -/
def pathDelay (b : TBase) (port : Nat) (s : State) : Option Int :=
  if tbP2p b then linkDelay port s
  else if b.delays.isEmpty then none else some (roundDiv b.delays.sum b.delays.length)

/-- The values of the bank of time base `n` that are known now are its latest: those of the selected master's last
Announce and the mean path delay (R307, R323). -/
def noteVals (n : Nat) (s : State) : State :=
  let b := tbOf n s
  let f := b.foreign.find? fun f => b.master == some (masterName f)
  let tlv := f.bind fun f => f.ann.gmTlv
  setTb n { b with
    gmId := (f.map fun f => f.ann.gmId).getD b.gmId
    tti := (tlv.map Prod.snd).getD b.tti
    gmC37 := (tlv.map Prod.fst).getD b.gmC37
    path := (b.master.bind fun m => pathDelay b m.2.2 s).getD b.path } s

/-- The same master, on whichever slave port (R304). -/
def sameMaster (a b : Nat × Nat × Nat) : Bool := a.1 == b.1 && a.2.1 == b.2.1

/-- Select the best qualified master; a change raises event 0505h (R304). The same master on another slave port is no
change of it. -/
def selectMaster (n : Nat) (s0 : State) : State :=
  let b0 := tbOf n s0
  let best := (bestMaster b0 s0.clk.frc).map masterName
  let same := match b0.master, best with
    | some x, some y => sameMaster x y
    | x, y => x == y
  let s := if same then s0 else lapse n true s0
  let b := tbOf n s
  match bestMaster b s.clk.frc with
  | none => setTb n { b with master := none } s
  | some f =>
    if same then setTb n { b with master := some (masterName f) } s
    else
      tbEvent 0x0505 n [] (some 1) (latchTb 4 n (addTb n 3 1
        (setTb n { b with
          master := some (masterName f), delays := [], syncM := none, e2e := none
          syncAt := s.clk.frc, syncLog := 0 } s)))

/-- The foreign master that sent this Announce, on whichever port (R304). -/
def sentBy (c : PtpCopy) (f : Foreign) : Bool := f.ann.clock == c.msg.clock && f.ann.portNum == c.msg.portNum

/-- The foreign master whose Announce this is. -/
def announcedBy (c : PtpCopy) (f : Foreign) : Bool :=
  f.ann.clock == c.msg.clock && f.ann.portNum == c.msg.portNum && f.port == c.port

/-- An Announce counts toward the qualification of its master for 4 announce intervals (R304). -/
def counts (now : Nat) (f : Foreign) : Bool := decide (now ≤ f.last + 4 * logNs f.ann.logInt)

/-- The list of foreign masters after an Announce (R304): its sender qualifies with the second within 4 of its
announce intervals, on whichever ports they came, and stays qualified until its announce receipt timeout. -/
def noteForeign (b : TBase) (c : PtpCopy) (now : Nat) : List Foreign :=
  let live := b.foreign.filter fun f => heard b now f || counts now f
  let ok := live.any fun f => sentBy c f && ((f.ok && heard b now f) || counts now f)
  ((live.filter fun f => !announcedBy c f).map fun f => { f with ok := f.ok || (ok && sentBy c f) }) ++
    [{ port := c.port, ann := c.msg, last := now, ok := ok }]

/-- The silence of a port after an Announce of a better qualified master: until that master's announce receipt
timeout, or a longer one that another keeps up (R308). -/
def silence (b : TBase) (port until_ : Nat) : List (Nat × Nat) :=
  (b.quiet.filter fun e => e.1 != port) ++
    [(port, (b.quiet.filter fun e => e.1 == port).foldl (fun t e => max t e.2) until_)]

/-- An Announce at one time base (R304, R308). -/
def takeAnnounce (c : PtpCopy) (n : Nat) (s : State) : State :=
  let s1 := addTb n 2 1 s
  let own := (List.range 4).any fun k => clockId k == c.msg.clock || clockId k == c.msg.gmId
  if 255 ≤ c.msg.steps || own then s1
  else
    let b := tbOf n s1
    let fs := noteForeign b c s.clk.frc
    let silent := fs.any fun f => announcedBy c f && f.ok && lexLt (dataset f.ann) (dataset (announceMsg n c.port s))
    let until_ := s.clk.frc + tbAnnTmo b * logNs c.msg.logInt
    let q := if tbGm b && silent then silence b c.port until_ else b.quiet
    let s2 := setTb n { b with foreign := fs, quiet := q } s1
    if tbSource b = 1 then noteVals n (selectMaster n s2) else s2

/-- ANNOUNCE_RX (R304). -/
def execAnnounceRx (c : PtpCopy) (s : State) : Out :=
  copyRow .announce c s fun t => eachTb (takeAnnounce c) ((users c t).filter fun n => ptpCfg (tbOf n t)) t

/-- The time base follows the sender of a copy on its slave port. -/
def fromMaster (b : TBase) (c : PtpCopy) : Bool :=
  tbSource b == 1 && b.master == some (c.msg.clock, c.msg.portNum, c.port)

/-- A Sync with its t1 in ns and its corrections, received at FRC value `ts`: the offset θ, or no
usable measurement (R301, R302). -/
def offsetOf (n port t1 : Nat) (cs log : Int) (ts : Nat) (s : State) : State :=
  let b := tbOf n s
  let m := (tbAt b ts : Int) - t1 * 65536 - cs
  let s1 := setTb n { b with syncM := some m } s
  match pathDelay b port s with
  | none => addTb n 1 1 s1
  | some d =>
    let delta := match b.lastAt with
      | some l => ts - l
      | none => logNs log * 65536
    measure n (m - d) ts delta
      (addTb n 0 1 (setTb n { b with syncM := some m, syncAt := s.clk.frc, syncLog := log } s1))

/-- A Sync at one time base: a two-step one waits for its Follow_Up (R301). -/
def takeSync (c : PtpCopy) (n : Nat) (s : State) : State :=
  let s1 := lapse n false s
  let b := tbOf n s1
  match c.ts with
  | none => addTb n 1 1 s1
  | some ts =>
    if c.msg.twoStep then setTb n { b with syncWait := b.syncWait ++ [(c, s.clk.frc)] } s1
    else offsetOf n c.port c.msg.origin c.msg.corr c.msg.logInt ts s1

/-- SYNC_RX (R301, R302). -/
def execSyncRx (c : PtpCopy) (s : State) : Out :=
  copyRow .sync c s fun t => eachTb (takeSync c) ((users c t).filter fun n => fromMaster (tbOf n t) c) t

/-- A Follow_Up at one time base: it completes the Sync of its sequence number within one Sync
interval (R301). -/
def takeFollowUp (c : PtpCopy) (n : Nat) (s : State) : State :=
  let s1 := lapse n false s
  let b := tbOf n s1
  match b.syncWait.find? fun w => w.1.msg.seq == c.msg.seq with
  | none => s1
  | some w =>
    offsetOf n c.port c.msg.origin (w.1.msg.corr + c.msg.corr) w.1.msg.logInt (w.1.ts.getD 0)
      (setTb n { b with syncWait := b.syncWait.erase w } s1)

/-- FOLLOW_UP_RX (R301). -/
def execFollowUpRx (c : PtpCopy) (s : State) : Out :=
  copyRow .followUp c s fun t => eachTb (takeFollowUp c) ((users c t).filter fun n => fromMaster (tbOf n t) c) t

/-- The last 4 of a list. -/
def last4 (l : List Int) : List Int := l.drop (l.length - 4)

/-- A Delay_Resp at one time base completes an exchange (R301). -/
def takeDelayResp (c : PtpCopy) (n : Nat) (s : State) : State :=
  let b := tbOf n s
  match b.e2e, b.syncM with
  | some (q, some t3), some m =>
    if q == c.msg.seq && c.msg.reqClock == clockId n && c.msg.reqPort == c.port + 1 then
      let v := roundDiv (m + ((c.msg.origin * 65536 : Nat) - t3 - c.msg.corr)) 2
      setTb n { b with delays := last4 (b.delays ++ [v]), e2e := none } s
    else s
  | _, _ => s

/-- DELAY_RESP_RX (R301). -/
def execDelayRespRx (c : PtpCopy) (s : State) : Out :=
  copyRow .delayResp c s fun t =>
    let l := (users c t).filter fun n => fromMaster (tbOf n t) c
    eachTb noteVals l (eachTb (takeDelayResp c) l t)

/-- A Delay_Req at one grandmaster is answered, unless its t4 was lost (R308). -/
def takeDelayReq (c : PtpCopy) (n : Nat) (s : State) : State :=
  let b := tbOf n s
  match c.ts with
  | none => s
  | some ts =>
    if gmActive b && portUp c.port s && !quietNow b c.port s then
      sendPtp n c.port (ptpFrame c.port 72 (tbUdp4 b) false false { ptpFrom n c.port s with
        kind := .delayResp, messageType := 9, seq := c.msg.seq, corr := c.msg.corr
        origin := tbNs b ts, logInt := tbLog b 2, reqClock := c.msg.clock, reqPort := c.msg.portNum }) none s
    else s

/-- DELAY_REQ_RX (R308). -/
def execDelayReqRx (c : PtpCopy) (s : State) : Out :=
  copyRow .delayReq c s fun t => eachTb (takeDelayReq c) (users c t) t

/-- The source of a time base is lost (R305). -/
def sourceLost (b : TBase) (s : State) : Bool :=
  if tbSource b = 1 then
    (bestMaster b s.clk.frc).isNone || decide (b.syncAt + tbAnnTmo b * logNs b.syncLog ≤ s.clk.frc)
  else if tbSource b = 2 then
    match s.tim.ppsLast with
    | some t => decide (t / 65536 + 1500000000 ≤ s.clk.frc)
    | none => false
  else false

/-- The master selected is no longer the best qualified one (R304). -/
def masterStale (b : TBase) (s : State) : Bool :=
  tbSource b == 1 && b.master != (bestMaster b s.clk.frc).map masterName

/-- SOURCE_LOSS (R304, R305): the masters are judged again, and a LOCKED time base without a source enters
HOLDOVER. -/
def execSourceLoss (tb : Nat) (s : State) : Out :=
  named (decide (tb < 4))
    (let b := tbOf tb s
     act (b.en != .off && b.cfg.isSome && (sourceLost b s || masterStale b s)) s
       (let s1 := if tbSource b = 1 then selectMaster tb s else s
        let y := tbOf tb s1
        if y.acq == .locked && sourceLost y s1 then
          tbEvent 0x0506 tb [] (some 1) (latchTb 3 tb
            (setTb tb { y with acq := .holdover, holdAt := s.clk.frc } s1))
        else s1))

/-! ### Peer delay (R310, R330) -/

/-- `LOGINT` of `TB_PDLY`, −7 to 5 (R330; log entry 39). -/
def pdlyLog (s : State) : Int := max (-7) (min 5 (signed 8 (bits s.tim.pdly.toNat 23 16)))

/-- The interval of an unanswered request of port `n` has ended (R310). -/
def pdelayFailed (n : Nat) (s : State) : Bool :=
  (portOf n s).pdelay.isSome && decide ((portOf n s).pdelayAt ≤ s.clk.frc)

/-- A request that had no response in its interval is counted (R310). -/
def failPdelay (n : Nat) (s : State) : State :=
  if pdelayFailed n s then countTs n 6 (setPort n { portOf n s with pdelay := none } s) else s

/-- PDELAY_REQ_TX (R310): a request that had no response in its interval is counted, and where the port is an
initiator the next one leaves. -/
def execPdelayReqTx (port : Nat) (s : State) : Out :=
  named (decide (port < 48))
    (let p := portOf port s
     let s1 := failPdelay port s
     act (tbit s.tim.pdly.toNat 0 && portUp port s && decide (p.pdelayAt ≤ s.clk.frc)) s1
       (let m : PtpMsg := { kind := .pdelayReq, messageType := 2, domain := bits s.tim.pdly.toNat 15 8
                            seq := p.pdelaySeq, clock := clockId 0, portNum := port + 1, logInt := 127 }
        let s2 := setPort port { p with
          pdelay := some (p.pdelaySeq, none), pdelaySeq := (p.pdelaySeq + 1) % 65536
          pdelayAt := s.clk.frc + logNs (pdlyLog s) } s1
        sendPtp 0 port (ptpFrame port 72 false true true m) none s2))

/-- PDELAY_REQ_RX (R310): answered in the request's domain on a port that is UP, unless the request's
timestamp was lost. -/
def execPdelayReqRx (c : PtpCopy) (s : State) : Out :=
  copyRow .pdelayReq c s fun t =>
    if tbit t.tim.pdly.toNat 1 && portUp c.port t && c.ts.isSome then
      sendPtp 0 c.port (ptpFrame c.port 72 false true true
        { kind := .pdelayResp, messageType := 3, domain := c.msg.domain, seq := c.msg.seq
          clock := clockId 0, portNum := c.port + 1, logInt := 127
          reqClock := c.msg.clock, reqPort := c.msg.portNum }) c.ts (countTs c.port 5 t)
    else t

/-- PDELAY_RESP_RX (R310): the mean link delay takes ((t4 − t1) − c) ⁄ 2. -/
def execPdelayRespRx (c : PtpCopy) (s : State) : Out :=
  copyRow .pdelayResp c s fun u =>
    let t := failPdelay c.port u
    let p := portOf c.port t
    match p.pdelay, c.ts with
    | some (q, some t1), some t4 =>
      if q == c.msg.seq && c.msg.reqClock == clockId 0 && c.msg.reqPort == c.port + 1 then
        let v := roundDiv ((t4 : Int) - t1 - c.msg.corr) 2
        eachTb noteVals (List.range 4) (setPort c.port { p with delays := last4 (p.delays ++ [v]), pdelay := none } t)
      else t
    | _, _ => t

/-! ### PPS_IN (R300, R305, R319) -/

/-- An accepted edge at one time base of `SOURCE` 2 (R300, R319). -/
def ppsMeasure (f : Nat) (delta : Option Nat) (n : Nat) (s : State) : State :=
  let b := tbOf n s
  let v : Int := tbAt b f
  let sec : Nat := 1000000000 * 65536
  if b.acq == .unacquired then
    stepTb n ((tbInit b * 65536 : Nat) - v) 0x0501 0 (setTb n { b with theta := v - roundDiv v sec * sec } s)
  else
    match delta with
    | none => s
    | some d => measure n (v - roundDiv v sec * sec) f d s

/-- The edge falls within 500 ms after the last accepted one (R319). -/
def ppsEarly (f : Nat) (s : State) : Bool :=
  match s.tim.ppsLast with
  | some l => decide (f < l + 500000000 * 65536)
  | none => false

/-- PPS_IN_EDGE (R319). -/
def execPpsInEdge (instant : Nat) (s : State) : Out :=
  let n := s.tim.ppsIn.tb
  let at_ := tdcTime instant
  act s.tim.ppsIn.en s
    (if ppsEarly at_ s then latchTb 7 n (addTb n 7 1 s)
     else
       let delta := s.tim.ppsLast.map (at_ - ·)
       let b := tbOf n s
       let s1 := setTb n { b with ppsVal := tbNs b at_ } { s with tim := { s.tim with ppsLast := some at_ } }
       let s2 := if s.tim.ppsIn.flag then tbEvent 0x0508 n [] none s1 else s1
       let on := (List.range 4).filter fun k => (tbOf k s2).en != .off && tbSource (tbOf k s2) == 2
       eachTb (ppsMeasure at_ delta) on s2)

/-! ### Compares (R315) -/

/-- d of R315: the target less the time base's integer linear ns, as a signed 48-bit difference. -/
def cmpDiff (c : Cmp) (s : State) : Int :=
  let d := ((c.target : Int) - tbNs (tbOf c.tb s) (frcNow s)) % 2 ^ 48
  if d < 2 ^ 47 then d else d - 2 ^ 48

/-- The target as a linear time, in 2⁻¹⁶ ns. -/
def fullTarget (c : Cmp) (s : State) : Nat := ((tbNs (tbOf c.tb s) (frcNow s) : Int) + cmpDiff c s).toNat * 65536

/-- What a compare does when it fires (R315, R318, R395, R443, R534). -/
def fireUse (c : Cmp) (s : State) : State :=
  match c.use with
  | .rollover k => activateRollover k s
  | .ppsOut => ppsRise c.target s
  | .ppsSet => applyPps (fullTarget c s / 65536) s
  | .load r g q => fireLoad r g q s
  | .trigger r e =>
    { s with acq := { s.acq with changes := s.acq.changes ++
        [{ type := 4, src := 0, level := true, time := fullTarget c s, recs := some (r, e) }] } }

/-- How far ahead of its target a compare fires: one of an output channel 5.0 ns (R27, R315). -/
def fireLead (c : Cmp) : Int :=
  match c.use with
  | .load _ _ _ => 5
  | _ => 0

/-- COMPARE_FIRE (R315). -/
def execCompareFire (id : Nat) (s : State) : Out :=
  match s.tim.cmps.find? fun c => c.id == id with
  | none => .next s
  | some c =>
    act (decide (cmpDiff c s ≤ fireLead c)) s
      (fireUse c { s with tim := { s.tim with cmps := s.tim.cmps.filter fun x => x.id != id } })

/-! ### CAPTURE (R326, R327) -/

/-- The value, `VALID`, state and rate of a time base as a snapshot holds them (R327). -/
def snapOf (b : TBase) (f : Nat) : Nat × Bool × Nat × Int :=
  let q := match b.acq with
    | .unacquired => 0
    | .locked => 1
    | .holdover => 2
    | .refused => 3
  (tbAt b f, tbGood b, q, b.rate)

/-- CAPTURE (R326): a 1 latches the FRC and every time base in one FRC cycle. -/
def execCapture (value : Word) (s : State) : Out :=
  act s.rst.pcieAt.isSome s (if tbit value.toNat 0 then
      { s with tim := { s.tim with snap :=
        { frc := frcNow s, vals := (List.range 4).map fun n => snapOf (tbOf n s) (frcNow s) } } }
    else s)

end Sys2Proof.Machine
end

