-- ==== Sys2Proof/Machine/Ports.lean ====
section
/-! DEFINITION. Ports and MACs (R220 to R248), with the path groups that follow their links (R270,
R271) and what the MAC writes into a frame as it leaves (R277, R278, R293, R309). -/

namespace Sys2Proof.Machine

open Sys2Proof

/-! ### Set-up (R220, R223, R224) -/

def pSpeed (p : Port) : Nat := cfgWord p.cfg 0 % 8
def pPcs (p : Port) : Nat := bits (cfgWord p.cfg 0) 6 4
def pHalf (p : Port) : Bool := tbit (cfgWord p.cfg 0) 8
def pAneg (p : Port) : Bool := tbit (cfgWord p.cfg 0) 9
def pPauseRx (p : Port) : Bool := tbit (cfgWord p.cfg 0) 10
def pFilter (p : Port) : Bool := tbit (cfgWord p.cfg 0) 11
def pPreempt (p : Port) : Bool := tbit (cfgWord p.cfg 0) 12
def pVerifyDis (p : Port) : Bool := tbit (cfgWord p.cfg 0) 13
def pAddFrag (p : Port) : Nat := bits (cfgWord p.cfg 0) 15 14
def pExpress (p : Port) (q : Nat) : Bool := tbit (cfgWord p.cfg 0) (16 + q)
def pFec (p : Port) : Nat := bits (cfgWord p.cfg 0) 25 24
def pMaxLen (p : Port) : Nat := cfgWord p.cfg 1 % 2 ^ 14
def pVerifyMs (p : Port) : Nat := cfgWord p.cfg 2 % 256
def pUpHold (p : Port) : Nat := bits (cfgWord p.cfg 2) 25 16

/-- The combinations of R220. -/
def comboOk (n pcs speed : Nat) (half : Bool) : Bool :=
  let h := !half || (pcs == 1 && speed ≤ 1 && n ≤ 3)
  h && ((pcs == 0 && speed == 2) || (pcs == 1 && speed ≤ 2) || (pcs == 2 && speed == 3) ||
    (pcs == 3 && speed == 4) || (pcs == 4 && speed == 5 && decide (44 ≤ n)))

/-- Ranges, reserved bits and combinations of `PORT_CONFIG` (R223, R224). -/
def portRanges (n : Nat) (b : Bytes) : Bool :=
  let w := wordAt b 0
  let p : Port := { cfg := some (blockWords b 8) }
  comboOk n (pPcs p) (pSpeed p) (pHalf p) &&
    !(pAneg p && (2 ≤ pPcs p || (pPcs p == 1 && pSpeed p != 2) || pHalf p)) &&
    !(pPreempt p && (pHalf p || pSpeed p == 0)) && pFec p != 3 && !(pFec p != 0 && pSpeed p != 5) &&
    !tbit w 3 && !tbit w 7 && w / 2 ^ 26 == 0 && decide (1518 ≤ wordAt b 1) && decide (wordAt b 1 ≤ 9216) &&
    decide (1 ≤ pVerifyMs p) && decide (pVerifyMs p ≤ 128) && bits (wordAt b 2) 15 8 == 0 &&
    decide (pUpHold p ≤ 1000) && wordAt b 2 / 2 ^ 26 == 0 && bits (wordAt b 3) 7 6 == 0 &&
    wordAt b 3 / 2 ^ 14 == 0 && (List.range 4).all fun i => wordAt b (4 + i) == 0

def judgePortConfig (c : Cmd) (s : State) : Nat :=
  judged c s [(decide (arg0 c.desc < 48), stBadArg),
    (inputBlock c 32 s && portRanges (arg0 c.desc) c.block, stBadArg),
    ((portOf (arg0 c.desc) s).en == .off, stWrongState)]

def effPortConfig (c : Cmd) (s : State) : Res :=
  res (setPort (arg0 c.desc) { portOf (arg0 c.desc) s with cfg := some (blockWords c.block 8) } s) stOk

/-- PORT_CONFIG (R223, R224). -/
def execPortConfig (c : Cmd) (s : State) : Out := runNow 0x0401 judgePortConfig effPortConfig c s

/-- The 8 entries of a filter block (R229). -/
def filterOf (b : Bytes) : List (Nat × Bool) :=
  (List.range 8).map fun i => (beAt b (8 * i) 6, tbit (leAt b (8 * i + 6) 1) 0)

def judgePortFilter (c : Cmd) (s : State) : Nat :=
  let clean := (List.range 8).all fun i => decide (leAt c.block (8 * i + 6) 2 ≤ 1)
  judged c s [(decide (arg0 c.desc < 48), stBadArg), (inputBlock c 64 s && clean, stBadArg)]

def effPortFilter (c : Cmd) (s : State) : Res :=
  let p := portOf (arg0 c.desc) s
  res (setPort (arg0 c.desc) { p with
    filter := filterOf c.block, filterOld := (s.clk.frc, p.filter) :: p.filterOld } s) stOk

/-- PORT_FILTER (R229, R230). -/
def execPortFilter (c : Cmd) (s : State) : Out := runNow 0x0405 judgePortFilter effPortFilter c s

/-! ### Path groups and the links of their members (R271) -/

/-- The members of a group that are UP, by index. -/
def upMembers (g : PathGrp) : List Nat :=
  (g.upAt.zipIdx.filter fun e => e.1.isSome).map Prod.snd

/-- The buckets of member `m` go in turn, in ascending bucket order, to the members that are UP. -/
def spreadBuckets (m : Nat) (ups : List Nat) : Nat → List Nat → List Nat
  | _, [] => []
  | k, b :: bs =>
    if b = m then ups.getD (k % ups.length) m :: spreadBuckets m ups (k + 1) bs
    else b :: spreadBuckets m ups k bs

/-- Buckets moved: event 0410h and its bit (R271, R286, R289). -/
def pathMoved (g : Nat) (s : State) : State := raise { src := 7, code := 0x0410, index := g } (latchSw 4 s)

/-- Member `m` of group `g` leaves UP. -/
def memberDown (g m : Nat) (x : PathGrp) (s : State) : State :=
  let y := { x with upAt := x.upAt.set m none }
  let ups := upMembers y
  let set (bs : List Nat) : State := { s with sw := { s.sw with paths := put s.sw.paths g { y with buckets := bs } } }
  if ups.isEmpty || !x.buckets.contains m then set x.buckets
  else pathMoved g (set (spreadBuckets m ups 0 x.buckets))

/-- The group of a port, with its member index (R270). -/
def groupOf (n : Nat) (s : State) : Option (Nat × PathGrp × Nat) :=
  (s.sw.paths.find? fun e => e.2.members.contains n).map fun e => (e.1, e.2, e.2.members.idxOf n)

/-- A port enters or leaves UP: its path group follows (R271). -/
def pathLink (n : Nat) (up : Bool) (s : State) : State :=
  match groupOf n s with
  | none => s
  | some (g, x, m) =>
    if up then
      { s with sw := { s.sw with paths := put s.sw.paths g { x with upAt := x.upAt.set m (some s.clk.frc) } } }
    else memberDown g m x s

/-- PATH_RETURN (R271): the member has been UP for `RETURN` × 100 ms, and its own buckets return. -/
def execPathReturn (group member : Nat) (s : State) : Out :=
  named (decide (1 ≤ group) && decide (group ≤ 15) && decide (member < 8))
    (match look s.sw.paths group with
     | none => .next s
     | some x =>
       let due := match x.upAt.getD member none with
         | some t => decide (t + x.ret * 100000000 ≤ s.clk.frc)
         | none => false
       let own := x.buckets.zipIdx.map fun e => if e.2 % x.members.length = member then member else e.1
       act (due && own != x.buckets) s
         (pathMoved group { s with sw := { s.sw with paths := put s.sw.paths group { x with buckets := own } } }))

/-! ### Link (R225, R226, R237, R240) -/

/-- An event of port `n` (R246), with a logbook record where it has a severity. -/
def portNote (code n : Nat) (sev : Option Nat) (s : State) : State :=
  raise { src := 8, code := code, kind := 5, index := n, sev := sev } s

/-- An event of port `n` without a record. -/
def portEvent (code n : Nat) (s : State) : State := portNote code n none s

/-- The severity of a link's loss: the loss of a port whose traffic PRP or HSR carries over another port too, for a
cause that is not a command, is a fault that the module absorbs, and goes to the logbook (R4, R8). -/
def lossSev (n cause : Nat) (s : State) : Option Nat :=
  if (instOf n s).isSome && (cause == 0 || cause == 1 || cause == 4) then some 1 else none

/-- Latch a link change (R248). -/
def latchLink (n : Nat) (s : State) : State :=
  { noteSet (if n < 32 then 0x10C0 else 0x10C4) (n % 32) s with prt := { s.prt with linkEvt := latch s.prt.linkEvt n } }

/-- The port is in the pulse of a PORT reset (R244). -/
def inPortReset (n : Nat) (s : State) : Bool := decide (s.clk.frc < (portOf n s).resetUntil)

/-- The time during which a frame waited is counted (R241). -/
def endWait (n : Nat) (s : State) : State :=
  let p := portOf n s
  match p.pauseWait with
  | some t => addPort n 28 (s.clk.frc - t) (setPort n { p with pauseWait := none } s)
  | none => s

/-- The frames in the MAC end as not sent, counted in `TX_ABORTED` (R233, R243, R244). -/
def abortTx (n : Nat) (s : State) : State :=
  let p := portOf n s
  (p.tx.toList ++ p.rest.toList).foldl (fun t x => settle x.held.info .down (countPort n 25 t))
    (setPort n { p with tx := none, rest := none } s)

/-- What is left of the port when its link is DOWN; a running pause timer stops counting, and a peer-delay request
stays without a response (R225, R240, R310). -/
def downPort (cause : Nat) (now : Nat) (p : Port) : Port :=
  { p with
    link := .down, since := now, downCause := cause, speedNow := 0, halfNow := false, anegDone := false
    verify := 0, delays := [], pdelay := p.pdelay.map fun q => (q.1, none), filterOld := []
    pauseEnd := if p.link = .up then p.pauseEnd - now * 100 else p.pauseEnd
    leftUp := if p.link = .up then some now else p.leftUp }

/-- The link goes DOWN (R225, R233, R269): from UP with event 0402h. -/
def linkGone (n cause : Nat) (s : State) : State :=
  let p := portOf n s
  if p.link = .down then s
  else if p.link = .up then
    let s1 := abortTx n (endWait n s)
    let s2 := setPort n (downPort cause s.clk.frc (portOf n s1)) s1
    pathLink n false (portNote 0x0402 n (lossSev n cause s) (latchLink n (countPort n 36 (flushPort n s2))))
  else setPort n (downPort cause s.clk.frc p) s

/-- `DOWN_CAUSE` (R247). -/
def causeCode : DownCause → Nat
  | .pcs => 0
  | .localFault => 1
  | .admin => 2
  | .reset => 3
  | .sdclk => 4

/-- LINK_DOWN (R225): no PCS or signal for 10,000 ns, or a local fault received while UP at 10 or
25 Gb/s. The other causes come about in rows of their own. -/
def execLinkDown (port : Nat) (cause : DownCause) (s : State) : Out :=
  named (decide (port < 48))
    (let p := portOf port s
     act (cause == .pcs || (cause == .localFault && p.link == .up && decide (4 ≤ pSpeed p))) s
       (linkGone port (causeCode cause) s))

/-- SIGNAL_DETECT (R225). -/
def execSignalDetect (port : Nat) (s : State) : Out :=
  named (decide (port < 48))
    (let p := portOf port s
     act (p.en != .off && p.link == .down && !inPortReset port s) s
       (sdclkBack (setPort port { p with link := .training, since := s.clk.frc } s)))

/-- PCS_UP (R225, R293): auto-negotiation is complete where enabled; the alignment that the PCS
measures is a free value. A PCS that locks shows that SDCLK runs (R61). -/
def execPcsUp (port : Nat) (s : State) : Out :=
  named (decide (port < 48))
    (let p := portOf port s
     let d := fresh s
     act (p.link == .training && (!pAneg p || p.anegDone) && !inPortReset port s) s
       (sdclkBack (setPort port { p with link := .hold, since := s.clk.frc, align := d.1 } d.2)))

/-- PCS_DROP (R225): in the hold-off, back to TRAINING; in UP a short drop changes nothing. -/
def execPcsDrop (port : Nat) (s : State) : Out :=
  named (decide (port < 48))
    (let p := portOf port s
     act (p.link == .hold) s (setPort port { p with link := .training, since := s.clk.frc, anegDone := false } s))

/-- The MAC Merge sublayer of a link (R221): with `PREEMPT`, at 100 Mb/s and above in full duplex. -/
def mergeOn (p : Port) (speed : Nat) (half : Bool) : Bool := pPreempt p && decide (1 ≤ speed) && !half

/-- The port as it enters UP (R225, R237, R240). -/
def upPort (now : Nat) (p : Port) : Port :=
  let speed := if pAneg p then p.speedNow else pSpeed p
  let half := if pAneg p then p.halfNow else pHalf p
  let merge := mergeOn p speed half
  { p with
    link := .up, since := now, speedNow := speed, halfNow := half
    verify := if !merge then 0 else if pVerifyDis p then 2 else 1
    verifyTries := if merge && !pVerifyDis p then 1 else 0
    verifyAt := now + pVerifyMs p * 1000000
    pauseEnd := p.pauseEnd + now * 100 }

/-- UP_HOLD_EXPIRY (R225): the link is UP, event 0401h. -/
def execUpHoldExpiry (port : Nat) (s : State) : Out :=
  named (decide (port < 48))
    (let p := portOf port s
     act (p.link == .hold && decide (p.since + pUpHold p * 1000000 ≤ s.clk.frc)) s
       (pathLink port true (portEvent 0x0401 port (latchLink port (setPort port (upPort s.clk.frc p) s)))))

/-- The base page that 1000BASE-X auto-negotiation advertises (R221): full duplex only, PAUSE and ASM_DIR equal to
`PAUSE_RX`, at the bits of IEEE 802.3 Clause 37 (PRESUMED, log entry 93). -/
def clause37Page (p : Port) : Nat := 2 ^ 5 + (2 ^ 7 + 2 ^ 8) * b2n (pPauseRx p)

/-- An auto-negotiation result that the module accepts (R226). -/
def anegOk (p : Port) (port speed : Nat) (full ok : Bool) : Bool :=
  ok && (if pPcs p = 0 then full else speed ≤ 2 && (full || (speed ≤ 1 && port ≤ 3)))

/-- ANEG_RESULT (R226): a refused word keeps the link in TRAINING, whatever came before it. -/
def execAnegResult (port speed : Nat) (full ok : Bool) (s : State) : Out :=
  named (decide (port < 48))
    (let p := portOf port s
     act (p.link == .training && pAneg p) s
       (if anegOk p port speed full ok then
         setPort port { p with anegDone := true, speedNow := if pPcs p = 0 then 2 else speed, halfNow := !full } s
        else portEvent 0x0405 port
          (noteSet (0x1000 + 4 * port) 16 (setPort port { p with anegRef := true, anegDone := false } s))))

/-! ### Preemption verification (R237) -/

/-- VERIFY_MPACKET_TIMER (R237): the verify mPacket is repeated, up to 3 in all, then it fails. -/
def execVerifyMpacketTimer (port : Nat) (s : State) : Out :=
  named (decide (port < 48))
    (let p := portOf port s
     act (p.link == .up && p.verify == 1 && decide (p.verifyAt ≤ s.clk.frc)) s
       (if p.verifyTries < 3 then
         setPort port { p with verifyTries := p.verifyTries + 1, verifyAt := s.clk.frc + pVerifyMs p * 1000000 } s
        else portEvent 0x0404 port (countPort port 37 (setPort port { p with verify := 3 } s))))

/-- RESPOND_MPACKET_RX (R237); with `PREEMPT` 0 its SMD is an error (R239). -/
def execRespondMpacketRx (port : Nat) (s : State) : Out :=
  named (decide (port < 48))
    (let p := portOf port s
     act (p.link == .up) s
       (if !pPreempt p then countPort port 17 s
        else if p.verify = 1 then portEvent 0x0403 port (setPort port { p with verify := 2 } s)
        else s))

/-- VERIFY_MPACKET_RX (R237): answered whenever `PREEMPT` is 1; otherwise its SMD is an error (R239). -/
def execVerifyMpacketRx (port : Nat) (s : State) : Out :=
  named (decide (port < 48))
    (let p := portOf port s
     act (p.link == .up) s
       (if pPreempt p then setPort port { p with responds := p.responds + 1 } s else countPort port 17 s))

/-! ### Enable, disable and PORT reset (R151, R243, R244) -/

/-- The checks of a command that names a port. -/
def portArg (c : Cmd) : List (Bool × Nat) := [(decide (arg0 c.desc < 48), stBadArg), (noBlock c, stBadArg)]

/-- The port becomes ON and its link goes to TRAINING (R243); in the pulse of a PORT reset the SerDes is held, and the
link waits for the detection of a signal after it (R225, R244). -/
def startPort (n : Nat) (s : State) : State :=
  let link : Link := if inPortReset n s then .down else .training
  setPort n { portOf n s with en := .on, held := false, link := link, since := s.clk.frc } s

def judgePortEnable (c : Cmd) (s : State) : Nat :=
  judged c s (portArg c ++ [((portOf (arg0 c.desc) s).cfg.isSome, stWrongState)])

def effPortEnable (c : Cmd) (s : State) : Res :=
  let n := arg0 c.desc
  let p := portOf n s
  let e := enableRule p.en p.held
  res (if p.en == .off then startPort n s else setPort n { p with en := e.1, held := e.2.1 } s) e.2.2

/-- PORT_ENABLE (R149, R243). -/
def execPortEnable (c : Cmd) (s : State) : Out := runNow 0x0402 judgePortEnable effPortEnable c s

/-- A frame that only deferred to the carrier has not begun, and a STOPPING port does not begin it (R232, R243; log
entry 47). -/
def dropDeferred (n : Nat) (s : State) : State :=
  let p := portOf n s
  match p.tx with
  | some t =>
    if t.deferred && t.tries == 0 && t.begun.isNone then
      settle t.held.info .down (countPort n 25 (setPort n { p with tx := none } s))
    else s
  | none => s

/-- A preempted remainder that has not begun again is not sent (R243). -/
def dropRest (n : Nat) (s : State) : State :=
  let p := portOf n s
  match p.rest with
  | some t => settle t.held.info .down (countPort n 25 (setPort n { p with rest := none } s))
  | none => s

def judgePortDisable (c : Cmd) (s : State) : Nat := judged c s (portArg c)

/-- STOPPING: no new frame in or out, the queues flushed (R243, R269). -/
def effPortDisable (c : Cmd) (s : State) : Res :=
  let n := arg0 c.desc
  let p := portOf n s
  let d := disableRule p.en p.held
  let s1 := setPort n { p with en := d.1, held := d.2, stopAt := if p.en == .on then s.clk.frc else p.stopAt } s
  res (if p.en == .on then flushPort n (dropRest n (dropDeferred n (endWait n s1))) else s1) stOk

/-- PORT_DISABLE (R149, R243). -/
def execPortDisable (c : Cmd) (s : State) : Out := runNow 0x0403 judgePortDisable effPortDisable c s

/-- A STOPPING port reaches OFF: event 0402h when the link was UP, then 0001h (R243). -/
def stopPort (n : Nat) (s : State) : State :=
  let held := (portOf n s).held
  let s1 := linkGone n 2 s
  let s2 := setPort n { portOf n s1 with en := .off, held := false } s1
  let s3 := offEvents 5 n held s2
  if held then startPort n s3 else s3

/-- The frame on the wire has ended and the queues are flushed (R150, R243). -/
def portStops (n : Nat) (s : State) : Bool :=
  let p := portOf n s
  p.en == .stopping && p.tx.isNone && p.rest.isNone

def judgePortReset (c : Cmd) (s : State) : Nat := judged c s (portArg c)

/-- PORT reset (R74, R151, R244): record 0010h, the link DOWN with cause RESET, filter, pause,
verification, receive FIFO and timestamp queue cleared; a STOPPING port reaches OFF at once. -/
def effPortReset (c : Cmd) (s : State) : Res :=
  let n := arg0 c.desc
  let s1 := linkGone n 3 (narrowRecord 12 n 5 s)
  let f := noteFifo n s1
  let s2 := flushPort n (abortTx n { f with sw := { f.sw with store := del f.sw.store n } })
  let p := portOf n s2
  let s3 := setPort n { p with
    filter := [], filterOld := [], paused := false, pauseEnd := 0, pauseWait := none, pauseMet := false
    verify := 0, verifyTries := 0, tsq := [], rxIndex := 0, delays := [], pdelay := p.pdelay.map fun q => (q.1, none)
    resetUntil := s.clk.frc + 1000 } s2
  res (if p.en == .stopping then stopPort n s3 else s3) stOk

/-- PORT_RESET (R244). -/
def execPortReset (c : Cmd) (s : State) : Out := runNow 0x0404 judgePortReset effPortReset c s

/-! ### Timestamps (R227, R293, R312 to R314) -/

/-- Receive latency, land to MII, in 2⁻¹⁶ ns (R293). -/
def rxLatency (p : Port) : Nat :=
  match pPcs p with
  | 0 | 1 => (roundDiv ((416 + 8 * p.align : Nat) * 65536) 10).toNat
  | 2 => (roundDiv ((1920 + 32 * p.align : Nat) * 65536) 100).toNat
  | 3 => 31 * 65536 + p.align
  | _ =>
    let tenths : Nat := if pFec p = 0 then 186 else if pFec p = 1 then 1026 else 2662
    (roundDiv (tenths * 65536 : Nat) 10).toNat + p.align

/-- Transmit latency, MII to land, in 2⁻¹⁶ ns (R293). -/
def txLatency (p : Port) : Nat :=
  let tenths : Nat := match pPcs p with
    | 0 | 1 => 304
    | 2 => 144
    | 3 => 248
    | _ => if pFec p = 0 then 147 else if pFec p = 1 then 173 else 178
  (roundDiv (tenths * 65536 : Nat) 10).toNat

/-- The EtherType after at most one VLAN tag: that of an HSR tag where the frame has one (R251, R312). -/
def outerType (f : Frame) : Nat := if f.hsr.isSome then 0x892F else f.etype

/-- The frame is timed (R312, R329). -/
def timed (f : Frame) (s : State) : Bool :=
  let on (i : Nat) : Bool := tbit s.tim.tscls.toNat i
  on 4 ||
    (match f.body with
     | .ptp m => outerType f == 0x88F7 && (m.messageType ≤ 3 || (8 ≤ m.messageType && m.messageType ≤ 13 && on 1))
     | .udp4 p _ _ => outerType f == 0x0800 && (p == 319 || (p == 320 && on 1))
     | _ => false) ||
    (on 3 && outerType f == 0x88B8) || (on 2 && outerType f == 0x88BA)

/-- A timestamp finds no free entry: counted, `TS_LOST` set, event 0509h at most once per second and
port (R314). -/
def loseTs (n : Nat) (s : State) : State :=
  let p := portOf n s
  let recent := match p.tsLostAt with
    | some t => decide (s.clk.frc < t + 1000000000)
    | none => false
  let s1 := countTs n 1 { noteSet 0x1210 6 s with tim := { s.tim with evt := latch s.tim.evt 6, lastPort := n } }
  if recent then s1
  else raise { src := 9, code := 0x0509, kind := 5, index := n } (setPort n { p with tsLostAt := some s.clk.frc } s1)

/-! ### Reception (R227 to R231, R239, R240, R242) -/

/-- The size of the receive FIFO (R231). -/
def fifoSize (n : Nat) : Nat := if n < 44 then 32768 else 65536

/-- A pause quantum of 512 bit times in 10 ps, by speed (R240). -/
def quantum (speed : Nat) : Nat := [5120000, 512000, 51200, 20480, 5120, 2048].getD speed 0

/-- When the destination address of a frame had been received, 6 byte times after its SFD, in 2⁻¹⁶ ns. -/
def addressAt (p : Port) (sfd : Nat) : Nat := sfd + quantum p.speedNow * 48 * 65536 / 51200

/-- The set of addresses that judges a frame: the one under which the frame's address was received (R230). -/
def filterFor (p : Port) (sfd : Nat) : List (Nat × Bool) :=
  ((p.filterOld.filter fun e => decide (addressAt p sfd ≤ e.1 * 65536)).getLast?.map Prod.snd).getD p.filter

/-- The filter accepts the destination (R229, R230). -/
def accepts (p : Port) (sfd da : Nat) : Bool :=
  !pFilter p || (filterFor p sfd).contains (da, true) || (0x0180C2000000 ≤ da && decide (da ≤ 0x0180C200000F))

/-- The counter of the first check from 2 to 6 and 8 that fails (R228). -/
def rxCheck (p : Port) (f : RxFrame) (cut : Bool) : Option Nat :=
  if f.codeError || cut then some 9
  else if f.frame.len < 64 then some 7
  else if pMaxLen p < f.frame.len then some 8
  else if p.speedNow ≤ 1 && f.oddNibble && !f.fcsOk then some 6
  else if !f.fcsOk then some 5
  else if f.frame.etype != 0x8808 && !accepts p f.sfd f.frame.da then some 10
  else none

/-- A valid PAUSE sets the timer; 0 ends the pause (R240, R241). -/
def takePause (n quanta : Nat) (s : State) : State :=
  let p := portOf n s
  if quanta = 0 then setPort n { portOf n (endWait n s) with paused := false, pauseMet := false } (endWait n s)
  else
    notePause n (setPort n { p with paused := true, pauseEnd := s.clk.frc * 100 + quanta * quantum p.speedNow } s)

/-- MAC Control (R240, R242). -/
def macControl (n : Nat) (f : Frame) (s : State) : State :=
  let p := portOf n s
  match f.body with
  | .macControl op quanta =>
    if op = 1 then
      let s1 := countPort n 13 s
      if pPauseRx p && !p.halfNow && p.link == .up && (f.da == 0x0180C2000001 || f.da == portMac n) then
        takePause n quanta s1
      else s1
    else countPort n 14 s
  | _ => countPort n 14 s

/-- The counter that splits the frames by their destination (R245). -/
def castOf (da : Nat) : Nat := if da = 2 ^ 48 - 1 then 2 else if tbit da 40 then 1 else 0

/-- A frame that passed every check waits for its ingress grant (R228, R249). -/
def rxOk (n : Nat) (h : Held) (s : State) : State :=
  let t := noteFifo n s
  countPort n (2 + castOf h.frame.da) (addPort n 1 h.frame.len (countPort n 0
    { t with sw := { t.sw with store := put t.sw.store n (lookD t.sw.store n [] ++ [h]) } }))

/-- A frame takes its receive index and, when it is timed, an entry of the timestamp queue (R313). -/
def stampRx (n : Nat) (f : RxFrame) (s : State) : State × FMeta :=
  let p := portOf n s
  let i := (p.rxIndex + 1) % 65536
  let m : FMeta := { src := n, rxIdx := some i }
  let s1 := setPort n { p with rxIndex := i } s
  if !timed f.frame s then (s1, m)
  else if p.tsq.length < 64 then
    (countTs n 0 (setPort n { p with rxIndex := i, tsq := p.tsq ++ [i] } s1), { m with ts := some (f.sfd - rxLatency p) })
  else (loseTs n s1, { m with tsLost := true })

/-- The entry of a discarded frame is released (R313). -/
def releaseTs (n : Nat) (i : Option Nat) (s : State) : State :=
  let p := portOf n s
  setPort n { p with tsq := p.tsq.filter fun k => some k != i } s

/-- A frame of the MAC through the checks of R228; the FIFO is judged as it was when the SFD came (R231). -/
def checkRx (n : Nat) (f : RxFrame) (cut : Bool) (s : State) : State :=
  let p := portOf n s
  if fifoSize n < fifoAt n f.sfd s + pMaxLen p then addPort n 12 f.frame.len (countPort n 11 s)
  else
    let d := stampRx n f s
    match rxCheck p f cut with
    | some k => countPort n k (releaseTs n d.2.rxIdx d.1)
    | none =>
      if f.frame.etype = 0x8808 then macControl n f.frame (releaseTs n d.2.rxIdx d.1)
      else rxOk n { frame := f.frame, info := d.2 } d.1

/-- Reassembly comes before the checks (R239): with `PREEMPT` 0 each mPacket of the frame is an SMD error; a
fragmented frame beyond `MAX_LEN` is discarded here. -/
def reassemble (n : Nat) (f : RxFrame) (cut : Bool) (s : State) : State :=
  let p := portOf n s
  if f.frags != 0 && !pPreempt p then addPort n 17 f.frags s
  else if f.smdErr then countPort n 17 s
  else
    let s1 := addPort n 18 f.frags s
    if f.assyErr || (f.frags != 0 && decide (pMaxLen p < f.frame.len)) then countPort n 16 s1
    else checkRx n f cut (if f.frags = 0 then s1 else countPort n 15 s1)

/-- The port receives the frame: UP and ON, or its SFD came before the disable; `cut` when the link left
UP during it (R225, R228, R243). -/
def receives (p : Port) (f : RxFrame) : Bool :=
  p.link == .up && (p.en == .on || (p.en == .stopping && decide (f.sfd < p.stopAt * 65536)))
def cutShort (p : Port) (f : RxFrame) : Bool :=
  p.link != .up && (match p.leftUp with
    | some t => decide (f.sfd < t * 65536)
    | none => false)

/-- FRAME_RX (R227, R228). -/
def execFrameRx (port : Nat) (f : RxFrame) (s : State) : Out :=
  named (decide (port < 48))
    (let p := portOf port s
     act (receives p f || cutShort p f) s (reassemble port f (cutShort p f) s))

/-- PAUSE_TIMER_EXPIRY (R240). -/
def execPauseTimerExpiry (port : Nat) (s : State) : Out :=
  named (decide (port < 48))
    (let p := portOf port s
     let s1 := endWait port s
     act (p.link == .up && p.paused && decide (p.pauseEnd ≤ s.clk.frc * 100)) s
       (setPort port { portOf port s1 with paused := false, pauseMet := false } s1))

/-! ### Transmission (R232 to R238, R268) -/

/-- The queue of highest priority that holds a frame; express queues only where `express` (R236,
R268). -/
def nextQueue (n : Nat) (express : Bool) (s : State) : Option Nat :=
  let p := portOf n s
  [7, 6, 5, 4, 3, 2, 1, 0].find? fun q =>
    !(queueAt (n * 8 + q) s).frames.isEmpty && (!express || pExpress p q)

/-! ### Redundancy egress (R249, R279, R281) -/

/-- The RedBox HSR–PRP whose interlink is port `n` (R279, R280). -/
def linkOf (n : Nat) (s : State) : Option (Nat × Redun) :=
  s.sw.redun.find? fun e => e.2.mode == 4 && e.2.interlink == n

/-- The instance through which a frame leaves on port `n`: of its two ports, or a RedBox HSR–PRP with its
interlink. -/
def leavesBy (n : Nat) (s : State) : Option (Nat × Redun) := (instOf n s).or (linkOf n s)

/-- The proxy node table takes the source of a frame that a RedBox sends from its interlink into the instance
(R279). -/
def learnProxy (h : Held) (n i : Nat) (r : Redun) (s : State) : State :=
  if 3 ≤ r.mode && n != r.interlink && h.info.src == r.interlink && !r.proxy.contains h.frame.sa &&
      decide (r.proxy.length < 1024) then
    { s with sw := { s.sw with redun := put s.sw.redun i { r with proxy := r.proxy ++ [h.frame.sa] } } }
  else s

/-- The sequence number with which a frame entered through another instance or the other side of a RedBox, which it
keeps (R279, R281). `way` is what it leaves through: the instance, or 12 more for its interlink. -/
def keptSeq (h : Held) (way : Nat) : Option Nat :=
  h.info.ringSeq.bind fun q => if q.1 = way then none else some q.2

/-- Every waiting copy of a frame carries the number that instance `i` gave it (R281). -/
def tellCopies (uid i q : Nat) (s : State) : State :=
  let mark := fun (h : Held) =>
    if h.info.uid = uid then { h with info := { h.info with seqs := (i, q) :: h.info.seqs } } else h
  { s with sw := { s.sw with queues := s.sw.queues.map fun e => (e.1, { e.2 with frames := e.2.frames.map mark }) } }

/-- A frame takes its sequence number of instance `i` (R281): its own where it has one, that of its other copy, else
the next value of the counter. -/
def takeSeq (h : Held) (way i : Nat) (s : State) : Nat × State :=
  match keptSeq h way, h.info.seqs.find? fun e => e.1 == i with
  | some q, _ => (q, s)
  | none, some e => (e.2, s)
  | none, none =>
    match look s.sw.redun i with
    | none => (0, s)
    | some r =>
      (r.counter, tellCopies h.info.uid i r.counter
        { s with sw := { s.sw with redun := put s.sw.redun i { r with counter := (r.counter + 1) % 65536 } } })

/-- LSDUsize of a frame of `len` bytes with its tag or RCT: what follows the MAC addresses, the VLAN tag and the
EtherType, to the FCS (R281; PRESUMED, IEC 62439-3, log entry 95). -/
def lsduSize (f : Frame) (len : Nat) : Nat := len - 18 - (if f.vlan.isSome then 4 else 0)

/-- The frame as it leaves on port `n` of an instance: an RCT at its end, or an HSR tag after any VLAN tag (R281). -/
def tagFor (n q : Nat) (r : Redun) (f : Frame) : Frame :=
  if n = r.interlink then
    let len := max (f.len + 6) 64
    { f with rct := some { lan := 10 + b2n r.prpLan, seq := q, size := lsduSize f len }, len := len }
  else
    let side := if n = r.portA then 0 else 1
    if isHsr r then
      { f with hsr := some { lan := Config.pathId r.mode side r.prpLan, seq := q, size := lsduSize f (f.len + 6) }
               len := f.len + 6 }
    else
      let len := max (f.len + 6) 64
      { f with rct := some { lan := 10 + side, seq := q, size := lsduSize f len }, len := len }

/-- Redundancy egress of a frame that an action or the module itself sends through an instance (R249, R281); what the
ring forwards, a direct SEND and a PTP frame of the engine leave as they are (log entry 52). -/
def redEgress (n : Nat) (h : Held) (s : State) : Held × State :=
  match leavesBy n s with
  | none => (h, s)
  | some (i, r) =>
    if h.info.uid = 0 then (h, s)
    else
      let d := takeSeq h (if n = r.interlink then 12 + i else i) i (learnProxy h n i r s)
      ({ h with frame := tagFor n d.1 r h.frame }, d.2)

/-- A frame of queue `q` is handed to the MAC through redundancy egress (R232, R249, R268); one that an uncorrectable
error hit is discarded and reported to its source as not sent (R494). -/
def handOver (n q : Nat) (s : State) : State :=
  let x := queueAt (n * 8 + q) s
  match x.frames with
  | [] => s
  | h :: hs =>
    let s1 := setQueue (n * 8 + q) { x with frames := hs } s
    if h.info.drop then settle h.info .down s1
    else
      let d := redEgress n h s1
      setPort n { portOf n d.2 with tx := some { held := d.1, queue := q, cells := cellsOf h.frame } } d.2

/-- EGRESS (R238, R241, R268): strict priority; a preempted remainder continues when no express frame
is ready. -/
def execEgress (port : Nat) (s : State) : Out :=
  named (decide (port < 48))
    (let p := portOf port s
     act (portUp port s && p.tx.isNone && !p.paused && !inPortReset port s) s
       (match nextQueue port p.rest.isSome s with
        | some q => handOver port q s
        | none =>
          match p.rest with
          | some t => setPort port { p with tx := some t, rest := none } s
          | none => s))

/-- The PTP message of a frame as the transparent clock and the timestamp insertion see it (R277,
R309). -/
def ptpOf (f : Frame) (udp4 : Bool) : Option PtpMsg :=
  match f.body with
  | .ptp m => some m
  | .udp4 p _ (some m) => if udp4 && p == 319 then some m else none
  | _ => none

/-- The frame with its PTP message replaced; over UDP/IPv4 the checksum is set to 0 (R278, R309). -/
def setPtp (f : Frame) (m : PtpMsg) : Frame :=
  match f.body with
  | .ptp _ => { f with body := .ptp m }
  | .udp4 p _ (some _) => { f with body := .udp4 p 0 (some m) }
  | _ => f

/-- The rate of the time base that a domain is bound to (R278): the first that is ON and acquired. -/
def domainRate (domain : Nat) (s : State) : Int :=
  match s.tim.bases.find? fun e => e.2.cfg.isSome && tbDomain e.2 == domain && tbGood e.2 with
  | some e => e.2.rate
  | none => 0

/-- The correction of a forwarded event message (R277, R278); that of a message whose receive
timestamp was lost is a free value. -/
def tcCorrect (m : PtpMsg) (i : FMeta) (sfd : Nat) (s : State) : PtpMsg × State :=
  let d := if i.ts.isSome then (0, s) else fresh s
  let res : Int := match i.ts with
    | some t => roundDiv (((sfd : Int) - t) * (2 ^ 40 + domainRate m.domain s)) (2 ^ 40)
    | none => d.1
  let link := if tbit s.sw.tc.toNat 1 && m.kind == .sync then (linkDelay i.src s).getD 0 else 0
  ({ m with corr := m.corr + res + link }, countSw 1 d.2)

/-- PTP over UDP/IPv6 that is forwarded (R277). -/
def isUdp6 (f : Frame) : Bool :=
  match f.body with
  | .udp6 p => p == 319 || p == 320
  | _ => false

/-- What the MAC writes into a frame as it leaves (R277, R309). -/
def onTheFly (h : Held) (sfd : Nat) (s : State) : Frame × State :=
  let f := h.frame
  if h.info.src = 50 then
    match ptpOf f true with
    | some m =>
      if m.kind = .sync then
        let v := tbAt (tbOf h.info.flow.toNat s) sfd
        (setPtp f { m with origin := v / 65536, corr := m.corr + (v % 65536 : Nat) }, s)
      else if m.kind = .pdelayResp then (setPtp f { m with corr := (sfd : Int) - (h.info.ts.getD 0) }, s)
      else (f, s)
    | none => (f, s)
  else if h.info.src < 48 && tbit s.sw.tc.toNat 0 then
    match ptpOf f (tbit s.sw.tc.toNat 2) with
    | some m =>
      if m.kind = .sync || m.kind = .delayReq then
        let d := tcCorrect m h.info sfd s
        (setPtp f d.1, d.2)
      else (f, s)
    | none => if isUdp6 f then (f, latchSw 5 (countSw 3 s)) else (f, s)
  else (f, s)

/-- The engine learns when its Delay_Req or Pdelay_Req left (R301, R310). -/
def learnTx (n : Nat) (h : Held) (sfd : Nat) (s : State) : State :=
  if h.info.src != 50 then s
  else
    match ptpOf h.frame true with
    | none => s
    | some m =>
      let k := h.info.flow.toNat
      let b := tbOf k s
      let p := portOf n s
      if m.kind = .delayReq && b.e2e.map Prod.fst == some m.seq then
        setTb k { b with e2e := some (m.seq, some (tbAt b sfd : Int)) } s
      else if m.kind = .pdelayReq && p.pdelay.map Prod.fst == some m.seq then
        setPort n { p with pdelay := some (m.seq, some sfd) } s
      else s

/-- The length of a frame as sent, padded and with its FCS (R232). -/
def wireLen (f : Frame) : Nat := max f.len 64

/-- Counts of a half-duplex frame that was sent (R235): with no collision, whether it had deferred. -/
def countHalf (n : Nat) (t : TxFrame) (s : State) : State :=
  if !(portOf n s).halfNow then s
  else if t.tries = 0 then (if t.deferred then countPort n 35 s else s)
  else countPort n (if t.tries = 1 then 31 else 32) s

/-- The whole frame has left (R232, R235, R238, R245). -/
def txSent (n : Nat) (t : TxFrame) (sfd : Nat) (s : State) : State :=
  let d := onTheFly t.held sfd s
  let len := wireLen t.held.frame
  let s1 := setPort n { portOf n d.2 with tx := none, wire := some { d.1 with len := len } } d.2
  let s2 := if t.frags = 0 then s1 else countPort n 27 (countPort n 26 s1)
  let s3 := countPort n (21 + castOf t.held.frame.da) (addPort n 20 len (countPort n 19 (countHalf n t s2)))
  notePause n (settle t.held.info (.left n sfd) (learnTx n t.held sfd s3))

/-- The frame leaves the MAC unsent (R232, R235). -/
def txDrop (n counter : Nat) (t : TxFrame) (s : State) : State :=
  notePause n (settle t.held.info .down (countPort n counter (setPort n { portOf n s with tx := none } s)))

/-- Where a preemptable fragment ends for an express frame that became ready after `k` bytes: the first
boundary at which both conditions of R238 hold, if there is one. -/
def cutAt (p : Port) (left k : Nat) : Option Nat :=
  let e := max k (64 * (1 + pAddFrag p) - 4)
  if e + 64 ≤ left then some e else none

/-- The fragment's end under preemption (R236 to R238). -/
def fragEnd (n : Nat) (p : Port) (t : TxFrame) (preemptAt : Option Nat) (s : State) : Option Nat :=
  match preemptAt with
  | some k =>
    let left := if t.frags = 0 then wireLen t.held.frame else t.remain
    if p.verify == 2 && !pExpress p t.queue && (nextQueue n true s).isSome then
      (cutAt p left k).map fun e => left - e
    else none
  | none => none

/-- FRAME_TX (R232 to R238): in half duplex a frame defers to the carrier. -/
def execFrameTx (port sfd : Nat) (meets : TxMoment) (s : State) : Out :=
  named (decide (port < 48))
    (let p := portOf port s
     match p.tx with
     | none => .next s
     | some t =>
       let land := t.begun.getD (sfd + txLatency p)
       act t.backoff.isNone s
         (if pMaxLen p < wireLen t.held.frame then txDrop port 24 t s
          else if p.halfNow && meets.carrier then setPort port { p with tx := some { t with deferred := true } } s
          else
            match fragEnd port p t meets.preemptAt s with
            | some left =>
              notePause port (countPort port 26 (setPort port { p with
                tx := none, rest := some { t with begun := some land, remain := left, frags := t.frags + 1 } } s))
            | none => txSent port t land s))

/-! ### Half duplex (R234, R235) -/

/-- The slot time in ns (R234). -/
def slotTime (speed : Nat) : Nat := if speed = 0 then 51200 else 5120

/-- COLLISION (R234, R235): before the threshold, jam, back-off and retry, to the 16th; the back-off is
a free value within its range. -/
def execCollision (port bits : Nat) (s : State) : Out :=
  named (decide (port < 48))
    (let p := portOf port s
     match p.tx with
     | none => .next s
     | some t =>
       act (p.halfNow && t.backoff.isNone) s
         (let s1 := countPort port 30 s
          if 512 ≤ bits then txDrop port 33 t s1
          else if 16 ≤ t.tries + 1 then txDrop port 34 t s1
          else
            let d := fresh s1
            let wait := d.1 % 2 ^ min (t.tries + 1) 10 * slotTime p.speedNow
            setPort port { p with tx := some { t with tries := t.tries + 1, backoff := some (s.clk.frc + wait) } } d.2))

/-- BACKOFF_EXPIRY (R234): the frame may be attempted again. -/
def execBackoffExpiry (port : Nat) (s : State) : Out :=
  named (decide (port < 48))
    (let p := portOf port s
     match p.tx with
     | none => .next s
     | some t =>
       act (match t.backoff with
         | some e => decide (e ≤ s.clk.frc)
         | none => false) s (setPort port { p with tx := some { t with backoff := none } } s))

end Sys2Proof.Machine
end

