-- ==== Sys2Proof/Machine/Switch.lean ====
section
/-! DEFINITION. The switch core: tables, ingress, redundancy, SEND and RECV (R249 to R291). -/

namespace Sys2Proof.Machine

open Sys2Proof

/-! ### Entry blocks (R256, R258) -/

/-- The key in words `w` to `w + 2` of a block (R258). -/
def keyAt (b : Bytes) (w : Nat) : LKey :=
  { da := beAt b (4 * w) 6, vid := bits (wordAt b (w + 1)) 27 16, etype := wordAt b (w + 2) % 2 ^ 16
    appid := wordAt b (w + 2) / 2 ^ 16 }

/-- The action in words `w` to `w + 3` of a block (R258). -/
def actionAt (b : Bytes) (w : Nat) : Action :=
  let x := wordAt b (w + 1)
  let y := wordAt b (w + 2)
  { dest := wordAt b w + 2 ^ 32 * (x % 2 ^ 16), toSe0 := tbit x 16, toSe1 := tbit x 17, toRing := tbit x 18
    queue := bits x 23 20, colour := bits x 25 24, paths := bits x 31 28, keySlot := y % 2 ^ 11
    auth := bits y 14 12, authDrop := tbit y 15, ring := bits y 26 16
    flow := BitVec.ofNat 32 (wordAt b (w + 3)) }

/-- Reserved bits and ranges of an action (R258). -/
def actionOk (b : Bytes) (w : Nat) : Bool :=
  let x := wordAt b (w + 1)
  let y := wordAt b (w + 2)
  !tbit x 19 && decide (bits x 23 20 ≤ 8) && bits x 27 26 == 0 && !tbit y 11 && decide (bits y 14 12 ≤ 5) &&
    bits y 31 27 == 0

/-! ### The exact-match table (R252 to R255) -/

/-- The key as R252 packs it, after its seed. -/
def keyBytes (k : LKey) : Bytes := toBe 6 k.da ++ toBe 2 k.vid ++ toBe 2 k.etype ++ toBe 2 k.appid

/-- The bucket of a key in a bank (R252). -/
def bucketOf (bank : Nat) (k : LKey) (s : State) : Nat :=
  let seed := if bank = 0 then s.sw.seed else ~~~s.sw.seed
  crc32c (toLe 4 seed.toNat ++ keyBytes k) % 2048

/-- The entries in a bucket. -/
def inBucket (bank bucket : Nat) (s : State) : List (Nat × Exact) :=
  s.sw.exact.filter fun e => e.2.bank == bank && e.2.bucket == bucket

/-- The lowest free place of a bucket of 4. -/
def freePlace (bank bucket : Nat) (s : State) : Option Nat :=
  [0, 1, 2, 3].find? fun p => !((inBucket bank bucket s).any fun e => e.2.pos == p)

/-- The alternate bucket of an entry. -/
def otherBucket (x : Exact) (s : State) : Nat × Nat := (1 - x.bank, bucketOf (1 - x.bank) x.key s)

/-- The chains of exactly `n` displacements that free a place in a bucket, as the handles displaced. -/
def chains (s : State) : Nat → Nat × Nat → List (List Nat)
  | 0, p => if (freePlace p.1 p.2 s).isSome then [[]] else []
  | n + 1, p => (inBucket p.1 p.2 s).flatMap fun e => (chains s n (otherBucket e.2 s)).map (e.1 :: ·)

/-- The shortest chains of at most 4 displacements for a new key, each with its first bucket (R253). -/
def shortest (k : LKey) (s : State) : List ((Nat × Nat) × List Nat) :=
  let two := [(0, bucketOf 0 k s), (1, bucketOf 1 k s)]
  let of (n : Nat) := two.flatMap fun p => (chains s n p).map fun c => (p, c)
  (((List.range 5).map of).find? fun l => !l.isEmpty).getD []

/-- Perform the displacements of a chain, the last first (R253); handles stay. -/
def displace : List Nat → State → State
  | [], s => s
  | h :: hs, s =>
    let s1 := displace hs s
    match look s1.sw.exact h with
    | some x =>
      let p := otherBucket x s1
      { s1 with sw := { s1.sw with exact := put s1.sw.exact h { x with
          bank := p.1, bucket := p.2, pos := (freePlace p.1 p.2 s1).getD 0 } } }
    | none => s1

/-- The lowest key of 16,384 that is not listed. -/
def lowestFree {α : Type} : Tbl α → Nat → Nat
  | [], k => k
  | e :: r, k => if e.1 = k then lowestFree r (k + 1) else k

/-- The counters of an entry start at 0 (R254, R256). -/
def clearEntry (e : Nat) (s : State) : State :=
  { s with sw := { s.sw with cnt := s.sw.cnt.filter fun c => c.1 < e * 4 || e * 4 + 4 ≤ c.1 } }

/-- The epoch of an entry increases, modulo 16 (R255). -/
def nextEpoch (e : Nat) (s : State) : State :=
  { s with sw := { s.sw with epochs := put s.sw.epochs e ((lookD s.sw.epochs e 0 + 1) % 16) } }

def judgeSwExactAdd (c : Cmd) (s : State) : Nat :=
  let b := c.block
  let k := keyAt b 0
  let old := s.sw.exact.any fun e => e.2.key == k
  judged c s [(inputBlock c 32 s && wordAt b 1 / 2 ^ 28 == 0 && (hasAppid k.etype || k.appid == 0) &&
      actionOk b 3 && wordAt b 7 == 0, stBadArg),
    (old || !(shortest k s).isEmpty, stNoResource)]

/-- A new key takes the lowest free handle; which of several shortest chains is performed is a free
value (R253, R254). -/
def addExact (k : LKey) (a : Action) (s : State) : Res :=
  let cs := shortest k s
  let d := if cs.length = 1 then (0, s) else fresh s
  let c := cs.getD (d.1 % cs.length) ((0, 0), [])
  let h := lowestFree s.sw.exact 0
  let s1 := clearEntry h (displace c.2 d.2)
  let x : Exact := { key := k, act := a, bank := c.1.1, bucket := c.1.2, pos := (freePlace c.1.1 c.1.2 s1).getD 0 }
  resOk { s1 with sw := { s1.sw with exact := put s1.sw.exact h x } } h

/-- An existing key has its action replaced in one step, and keeps its handle and counters (R254). -/
def effSwExactAdd (c : Cmd) (s : State) : Res :=
  let k := keyAt c.block 0
  let a := actionAt c.block 3
  match s.sw.exact.find? fun e => e.2.key == k with
  | some e => resOk { s with sw := { s.sw with exact := put s.sw.exact e.1 { e.2 with act := a } } } e.1
  | none => addExact k a s

/-- SW_EXACT_ADD (R253, R254, R258). -/
def execSwExactAdd (c : Cmd) (s : State) : Out := runNow 0x0410 judgeSwExactAdd effSwExactAdd c s

def judgeSwExactDel (c : Cmd) (s : State) : Nat :=
  judged c s [(decide (arg0 c.desc < 16384), stBadArg), (noBlock c, stBadArg),
    ((look s.sw.exact (arg0 c.desc)).isSome, stNotFound)]

def effSwExactDel (c : Cmd) (s : State) : Res :=
  let h := arg0 c.desc
  res (nextEpoch h { s with sw := { s.sw with exact := del s.sw.exact h } }) stOk

/-- SW_EXACT_DEL (R255). -/
def execSwExactDel (c : Cmd) (s : State) : Out := runNow 0x0411 judgeSwExactDel effSwExactDel c s

/-! ### The wildcard table (R256) -/

def judgeSwWildSet (c : Cmd) (s : State) : Nat :=
  let b := c.block
  judged c s [(decide (arg0 c.desc < 256), stBadArg),
    (inputBlock c 48 s && wordAt b 1 / 2 ^ 28 == 0 && wordAt b 4 / 2 ^ 28 == 0 &&
      (hasAppid (keyAt b 0).etype || (keyAt b 0).appid == 0) && wordAt b 7 / 2 ^ 18 == 0 && actionOk b 8, stBadArg)]

/-- An index in use ends its old entry; the new entry's counters start at 0 (R256). -/
def effSwWildSet (c : Cmd) (s : State) : Res :=
  let i := arg0 c.desc
  let b := c.block
  let s1 := if (look s.sw.wild i).isSome then nextEpoch (16384 + i) s else s
  let s2 := clearEntry (16384 + i) s1
  let x : Wild := { key := keyAt b 0, mask := keyAt b 3, inports := wordAt b 6 + 2 ^ 32 * wordAt b 7, act := actionAt b 8 }
  res { s2 with sw := { s2.sw with wild := put s2.sw.wild i x } } stOk

/-- SW_WILD_SET (R256). -/
def execSwWildSet (c : Cmd) (s : State) : Out := runNow 0x0412 judgeSwWildSet effSwWildSet c s

def judgeSwWildDel (c : Cmd) (s : State) : Nat :=
  judged c s [(decide (arg0 c.desc < 256), stBadArg), (noBlock c, stBadArg),
    ((look s.sw.wild (arg0 c.desc)).isSome, stNotFound)]

def effSwWildDel (c : Cmd) (s : State) : Res :=
  let i := arg0 c.desc
  res (nextEpoch (16384 + i) { s with sw := { s.sw with wild := del s.sw.wild i } }) stOk

/-- SW_WILD_DEL (R256). -/
def execSwWildDel (c : Cmd) (s : State) : Out := runNow 0x0413 judgeSwWildDel effSwWildDel c s

/-! ### Queues, profiles, path groups, instances (R266, R267, R270, R280) -/

/-- The queue of `SW_QUEUE`, port-major. -/
def argQueue (c : Cmd) : Nat := arg0 c.desc * 8 + arg1 c.desc

def judgeSwQueue (c : Cmd) (s : State) : Nat :=
  let b := c.block
  let mn := wordAt b 0
  judged c s [(decide (arg0 c.desc < 48) && decide (arg1 c.desc < 8), stBadArg),
    (inputBlock c 16 s && decide (mn ≤ 98304) && decide (mn ≤ wordAt b 1) && decide (wordAt b 1 ≤ 196608) &&
      bits (wordAt b 2) 7 3 == 0 && wordAt b 2 / 2 ^ 9 == 0 && wordAt b 3 == 0, stBadArg),
    (decide (minSum s - (queueAt (argQueue c) s).min + mn ≤ 98304), stNoResource)]

def effSwQueue (c : Cmd) (s : State) : Res :=
  let b := c.block
  let x := queueAt (argQueue c) s
  res (noteLow (setQueue (argQueue c) { x with
    min := wordAt b 0, max := wordAt b 1, profile := wordAt b 2 % 8, redEn := tbit (wordAt b 2) 8 } s)) stOk

/-- SW_QUEUE (R266). -/
def execSwQueue (c : Cmd) (s : State) : Out := runNow 0x0420 judgeSwQueue effSwQueue c s

/-- The profile of colour `i` in a block (R267). -/
def profAt (b : Bytes) (i : Nat) : RedProf :=
  { minTh := wordAt b (2 * i) % 2 ^ 18, maxTh := wordAt b (2 * i + 1) % 2 ^ 18, pMax := wordAt b (2 * i + 1) / 2 ^ 24 }

def judgeSwRed (c : Cmd) (s : State) : Nat :=
  let ok := (List.range 3).all fun i => wordAt c.block (2 * i) / 2 ^ 18 == 0 &&
    bits (wordAt c.block (2 * i + 1)) 23 18 == 0 && decide ((profAt c.block i).minTh < (profAt c.block i).maxTh)
  judged c s [(decide (arg0 c.desc < 8), stBadArg), (inputBlock c 24 s && ok, stBadArg)]

def effSwRed (c : Cmd) (s : State) : Res :=
  let n := arg0 c.desc * 3
  let t := put (put (put s.sw.red n (profAt c.block 0)) (n + 1) (profAt c.block 1)) (n + 2) (profAt c.block 2)
  res { s with sw := { s.sw with red := t } } stOk

/-- SW_RED (R267). -/
def execSwRed (c : Cmd) (s : State) : Out := runNow 0x0421 judgeSwRed effSwRed c s

/-- The members that a block names (R270). -/
def membersOf (b : Bytes) : List Nat := (List.range (wordAt b 0 % 8)).map fun i => leAt b (4 + i) 1

/-- `COUNT` is 0 to 8 in bits [2:0] and the code 8 does not fit; every member is a port, named once,
in no other group and no instance (R270, R280). The members that the group has and those it gets are OFF (R160). A
group that does not exist is removed with OK (DESIGN CHOICE, log entry 112). -/
def judgeSwPaths (c : Cmd) (s : State) : Nat :=
  let b := c.block
  let ms := membersOf b
  let g := arg0 c.desc
  let clear := ms.all fun n => decide (n < 48) && (instOf n s).isNone &&
    !(s.sw.redun.any fun e => e.2.interlink == n) && (match groupOf n s with
      | some x => x.1 == g
      | none => true)
  judged c s [(decide (1 ≤ g) && decide (g ≤ 15), stBadArg),
    (inputBlock c 16 s && bits (wordAt b 0) 7 3 == 0 && wordAt b 0 / 2 ^ 14 == 0 && wordAt b 3 == 0 &&
      decide ms.Nodup && clear, stBadArg),
    ((((look s.sw.paths g).map fun x => x.members).getD [] ++ ms).all fun n => (portOf n s).en == .off, stWrongState)]

/-- `COUNT` 0 removes the group; bucket b starts at member b mod `COUNT` (R270, R271). -/
def effSwPaths (c : Cmd) (s : State) : Res :=
  let ms := membersOf c.block
  let x : PathGrp :=
    { members := ms, ret := bits (wordAt c.block 0) 13 8
      buckets := (List.range 64).map (· % ms.length), upAt := ms.map fun _ => none }
  let t := if ms.isEmpty then del s.sw.paths (arg0 c.desc) else put s.sw.paths (arg0 c.desc) x
  res { s with sw := { s.sw with paths := t } } stOk

/-- SW_PATHS (R270). -/
def execSwPaths (c : Cmd) (s : State) : Out := runNow 0x0431 judgeSwPaths effSwPaths c s

/-- The instance that a block describes (R280). -/
def redunOf (b : Bytes) (now : Nat) : Redun :=
  let w := wordAt b 0
  { mode := bits w 6 4, portA := bits w 13 8, portB := bits w 21 16, interlink := bits w 29 24
    prpLan := tbit w 30, node := beAt b 4 6, lifeMs := wordAt b 3 % 2 ^ 14, supLast := bits (wordAt b 3) 23 16
    supVid := wordAt b 4 % 2 ^ 12, supPcp := bits (wordAt b 4) 14 12, fwdQ := bits (wordAt b 4) 18 16
    supAt := now + wordAt b 3 % 2 ^ 14 * 1000000 }

/-- The ports that an instance names. -/
def redunPorts (r : Redun) : List Nat := [r.portA, r.portB] ++ if r.interlink = 63 then [] else [r.interlink]

/-- Reserved bits of `SW_REDUN` (R280). -/
def redunClean (b : Bytes) : Bool :=
  let w := wordAt b 0
  bits w 15 14 == 0 && !tbit w 7 && bits w 23 22 == 0 && !tbit w 31 && wordAt b 2 / 2 ^ 16 == 0 &&
    bits (wordAt b 3) 15 14 == 0 && wordAt b 3 / 2 ^ 24 == 0 && !tbit (wordAt b 4) 15 &&
    wordAt b 4 / 2 ^ 19 == 0 && bits w 3 0 < 12 && decide (bits w 6 4 ≤ 5) && wordAt b 5 == 0

/-- The instance's fields lie in range and its ports are named nowhere else (R279, R280). -/
def redunOk (i : Nat) (r : Redun) (s : State) : Bool :=
  (redunPorts r).all (fun n => decide (n < 48) && (groupOf n s).isNone &&
    s.sw.redun.all fun e => e.1 == i || !(redunPorts e.2).contains n) && decide (redunPorts r).Nodup &&
    (r.interlink == 63 || 3 ≤ r.mode) && decide (100 ≤ r.lifeMs) && decide (r.lifeMs ≤ 10000)

def judgeSwRedun (c : Cmd) (s : State) : Nat :=
  let b := c.block
  let i := wordAt b 0 % 16
  let r := redunOf b s.clk.frc
  let old := match look s.sw.redun i with
    | some x => redunPorts x
    | none => []
  let boxes := (s.sw.redun.filter fun e => e.1 != i && decide (3 ≤ e.2.mode)).length
  judged c s [(inputBlock c 24 s && redunClean b && (r.mode == 0 || redunOk i r s), stBadArg),
    ((old ++ if r.mode = 0 then [] else redunPorts r).all fun n => (portOf n s).en == .off, stWrongState),
    (r.mode < 3 || decide (boxes < Config.proxyTables), stNoResource)]

/-- `MODE` 0 removes the instance and its nodes; a change keeps its counter and proxy table (R280). One that does not
exist is removed with OK (DESIGN CHOICE, log entry 112). -/
def effSwRedun (c : Cmd) (s : State) : Res :=
  let i := wordAt c.block 0 % 16
  let r := redunOf c.block s.clk.frc
  if r.mode = 0 then
    res { s with sw := { s.sw with redun := del s.sw.redun i, nodes := s.sw.nodes.filter fun e => e.2.inst != i } } stOk
  else
    let y := match look s.sw.redun i with
      | some x => { r with counter := x.counter, supSeq := x.supSeq, proxy := x.proxy }
      | none => r
    res { s with sw := { s.sw with redun := put s.sw.redun i y } } stOk

/-- SW_REDUN (R280). -/
def execSwRedun (c : Cmd) (s : State) : Out := runNow 0x0430 judgeSwRedun effSwRedun c s

/-! ### Redundancy ingress (R282, R283) -/

/-- What the window says of a sequence number (R282). -/
inductive Dup where
  | new | again | resync
deriving DecidableEq, Repr

/-- The window after a sequence number, and its verdict (R282). -/
def winStep (w : Win) (seq : Nat) : Win × Dup :=
  match w.highest with
  | none => ({ highest := some seq, seen := [seq] }, .new)
  | some h =>
    let d := signed 16 ((seq + 65536 - h) % 65536)
    if 0 < d then
      ({ highest := some seq
         seen := seq :: w.seen.filter fun x => decide ((seq + 65536 - x) % 65536 < 512) }, .new)
    else if -512 < d then
      if w.seen.contains seq then (w, .again) else ({ w with seen := seq :: w.seen }, .new)
    else ({ highest := some seq, seen := [seq] }, .resync)

/-- The node-table entry of a source, made where there is room (R279, R282). -/
def nodeFor (inst sa : Nat) (s : State) : Option (Nat × Node) :=
  match s.sw.nodes.find? fun e => e.2.inst == inst && e.2.sa == sa with
  | some e => some e
  | none => if s.sw.nodes.length < 4096 then some (lowestFree s.sw.nodes 0, { inst := inst, sa := sa }) else none

/-- Set a node-table entry, updated now. -/
def setNode (k : Nat) (x : Node) (s : State) : State :=
  { s with sw := { s.sw with nodes := put s.sw.nodes k { x with updated := s.clk.frc } } }

/-- The node table is full (R282, R286). -/
def tableFull (s : State) : State := raise { src := 7, code := 0x0413 } (latchSw 3 (countSw 0 s))

/-- Local duplicate discard (R282): the frame is kept or discarded. -/
def discard (inst side sa seq : Nat) (s : State) : Bool × State :=
  match nodeFor inst sa s with
  | none => (true, tableFull s)
  | some e =>
    let w := winStep e.2.win seq
    let s1 := setNode e.1 { e.2 with win := w.1 } s
    match w.2 with
    | .again => (false, countRed inst side 2 s1)
    | .new => (true, countRed inst side 1 s1)
    | .resync => (true, countRed inst side 4 (countRed inst side 1 s1))

/-- The window of a direction has not yet forwarded the frame (R283). -/
def passOn (inst side sa seq : Nat) (s : State) : Bool × State :=
  match nodeFor inst sa s with
  | none => (true, s)
  | some e =>
    let w := winStep (if side = 0 then e.2.fwdA else e.2.fwdB) seq
    (w.2 != .again, setNode e.1 (if side = 0 then { e.2 with fwdA := w.1 } else { e.2 with fwdB := w.1 }) s)

/-- A wrong-LAN frame is counted, with event 0412h at most once per second and port (R282). -/
def wrongLan (inst side port : Nat) (s : State) : State :=
  let p := portOf port s
  let recent := match p.wrongLanAt with
    | some t => decide (s.clk.frc < t + 1000000000)
    | none => false
  let s1 := countRed inst side 3 s
  if recent then s1
  else raise { src := 7, code := 0x0412, kind := 5, index := port } (setPort port { p with wrongLanAt := some s.clk.frc } s1)

/-- A received supervision frame refreshes the node table (R284). -/
def refreshNode (inst : Nat) (f : Frame) (s : State) : State :=
  match f.body with
  | .supervision x =>
    match s.sw.nodes.find? fun e => e.2.inst == inst && e.2.sa == x.node with
    | some e => setNode e.1 e.2 s
    | none => s
  | _ => s

/-- The transparent clock in P2P mode does not forward the message to ports (R277): peer-delay messages,
and Delay_Req, which is counted. -/
def tcBlocks (f : Frame) (s : State) : Bool × State :=
  let tc := s.sw.tc.toNat
  if tbit tc 0 && tbit tc 1 then
    match ptpOf f (tbit tc 2) with
    | some m =>
      if m.kind = .delayReq then (true, countSw 2 s)
      else (m.kind == .pdelayReq || m.kind == .pdelayResp, s)
    | none => (false, s)
  else (false, s)

/-- The RCT of a frame is valid: its LanId is Ah or Bh, and its LSDUsize is that of the frame (R282; PRESUMED, IEC
62439-3, log entry 95). -/
def rctValid (f : Frame) : Bool :=
  f.rct.any fun t => (t.lan == 10 || t.lan == 11) && t.size == lsduSize f f.len

/-- A frame without a valid RCT is a SAN's: what stands in the RCT's place is its payload (R282). -/
def asSan (f : Frame) : Frame :=
  { f with rct := none, payload := if f.payload.isEmpty then [] else f.payload ++ (f.rct.map rctBytes).getD [] }

/-- A PRP frame at port A or B (R282). -/
def prpIn (i side : Nat) (h : Held) (s : State) : Option Held × State :=
  match h.frame.rct.filter fun _ => rctValid h.frame with
  | none => (some { h with frame := asSan h.frame }, s)
  | some t =>
    let s1 := if t.lan = 10 + side then s else wrongLan i side h.info.src s
    let d := discard i side h.frame.sa t.seq s1
    let y : Held :=
      { frame := { h.frame with rct := none, len := h.frame.len - 6 }
        info := { h.info with ringSeq := some (i, t.seq), lanB := side == 1, cut := 6 } }
    (if d.1 then some y else none, d.2)

/-- A frame from the interlink of RedBox HSR–PRP `i`: its RCT is read and removed, and its sequence number kept
(R279). -/
def linkIn (i : Nat) (r : Redun) (h : Held) : Held :=
  match h.frame.rct with
  | none => h
  | some t =>
    { frame := { h.frame with rct := none, len := h.frame.len - 6 }
      info := { h.info with ringSeq := some (12 + i, t.seq), lanB := r.prpLan, cut := 6 } }

/-- The copy for the other ring port (R283); a frame without an HSR tag has no window. -/
def hsrForward (i side : Nat) (r : Redun) (h : Held) (seq : Option Nat) (s : State) : State :=
  if h.frame.da = r.node then s
  else
    let d := match seq with
      | some q => passOn i side h.frame.sa q s
      | none => (true, s)
    let b := tcBlocks h.frame d.2
    if d.1 && !b.1 then
      let out := if side = 0 then r.portB else r.portA
      enqueue { h with info := { src := h.info.src, ts := h.info.ts, tsLost := h.info.tsLost } } (out * 8 + r.fwdQ) 0
        (countRed i side 6 b.2)
    else if d.1 then b.2 else d.2

/-- A frame at an HSR ring port (R282, R283): forwarded, and, but for duplicates, classified; one of `NODE` itself is
removed. -/
def hsrIn (i side : Nat) (r : Redun) (h : Held) (s : State) : Option Held × State :=
  if h.frame.sa = r.node then (none, countRed i side 5 s)
  else
    let s1 := hsrForward i side r h (h.frame.hsr.map fun t => t.seq) s
    match h.frame.hsr with
    | none => (some h, s1)
    | some t =>
      let d := discard i side h.frame.sa t.seq s1
      let y : Held :=
        { frame := { h.frame with hsr := none, len := h.frame.len - 6 }
          info := { h.info with ringSeq := some (i, t.seq), cut := 6 } }
      (if d.1 then some y else none, d.2)

/-- The redundancy ingress of R249. -/
def redIngress (h : Held) (s : State) : Option Held × State :=
  if 48 ≤ h.info.src then (some h, s)
  else
    match instOf h.info.src s with
    | none => (some (((linkOf h.info.src s).map fun e => linkIn e.1 e.2 h).getD h), s)
    | some (i, r) =>
      let side := if h.info.src = r.portA then 0 else 1
      let s1 := countRed i side 0 (refreshNode i h.frame s)
      if isHsr r then hsrIn i side r h s1 else prpIn i side h s1

/-! ### Lookup (R251, R257) -/

/-- The lookup key of a frame, from its bytes (R251). -/
def lookupKey (h : Held) (s : State) : LKey := keyOfBytes (hsrPort h.info.src s) (frameBytes h.frame)

/-- A key matches under a mask. -/
def masked (k m x : LKey) : Bool :=
  (k.da ^^^ x.da) &&& m.da == 0 && (k.vid ^^^ x.vid) &&& m.vid == 0 && (k.etype ^^^ x.etype) &&& m.etype == 0 &&
    (k.appid ^^^ x.appid) &&& m.appid == 0

/-- The action that a frame of source `src` gets, with its entry (R257): the exact match, else the
wildcard entry of lowest index. An entry in error is passed over (R494). -/
def lookup (k : LKey) (src : Nat) (s : State) : Option (Nat × Action) :=
  match s.sw.exact.find? fun e => e.2.key == k && decide (e.2.deadUntil ≤ s.clk.frc) with
  | some e => some (e.1, e.2.act)
  | none =>
    (s.sw.wild.find? fun e => masked e.2.key e.2.mask k && (e.2.inports == 0 || tbit e.2.inports src) &&
      decide (e.2.deadUntil ≤ s.clk.frc)).map fun e => (16384 + e.1, e.2.act)

/-- The action names a destination (R273). -/
def namesDest (a : Action) : Bool := a.dest != 0 || a.toSe0 || a.toSe1 || a.toRing || a.paths != 0

/-! ### Destinations (R259, R271, R281) -/

/-- The flow hash (R271). -/
def flowHash (f : Frame) (k : LKey) (s : State) : Nat :=
  crc32c (toLe 4 s.sw.seed.toNat ++ toBe 6 f.sa ++ keyBytes k) % 64

/-- The member port of a path group that a frame takes (R271). -/
def pathPort (g : Nat) (f : Frame) (k : LKey) (s : State) : List Nat :=
  match look s.sw.paths g with
  | none => []
  | some x =>
    if (upMembers x).isEmpty then (x.members[0]?).toList
    else (x.members[x.buckets.getD (flowHash f k s) 0]?).toList

/-- Both ports of an instance stand for either (R281). -/
def withTwins (l : List Nat) (s : State) : List Nat :=
  l ++ l.flatMap fun n => match instOf n s with
    | some e => [e.2.portA, e.2.portB]
    | none => []

/-- The egress ports of a frame, ascending: `DEST`, the path member, both ports of an instance, never
the port of arrival (R259, R271, R281). -/
def destPorts (a : Action) (h : Held) (k : LKey) (s : State) : List Nat :=
  let members := match look s.sw.paths a.paths with
    | some x => if a.paths = 0 then [] else x.members
    | none => []
  let base := (List.range 48).filter fun n => tbit a.dest n && !members.contains n
  let all := withTwins (base ++ if a.paths = 0 then [] else pathPort a.paths h.frame k s) s
  (List.range 48).filter fun n => all.contains n && n != h.info.src

/-- A frame that leaves through instances is named, so that its copies take one sequence number of each (R281). -/
def nameCopies (ports : List Nat) (h : Held) (s : State) : Held × State :=
  if ports.any fun n => (leavesBy n s).isSome then
    let u := s.sw.uids + 1
    ({ h with info := { h.info with uid := u } }, { s with sw := { s.sw with uids := u } })
  else (h, s)

/-- The egress queue and colour of a frame (R258). -/
def queueOf (a : Action) (f : Frame) : Nat :=
  if a.queue = 8 then (f.vlan.map fun v => v.pcp).getD 0 else a.queue
def colourOf (a : Action) (f : Frame) : Nat :=
  if a.colour = 3 then b2n ((f.vlan.map fun v => v.dei).getD false) else a.colour

/-- Admission at each port in ascending order (R265): the frame as it is stored. -/
def admitPorts (a : Action) (h : Held) : List Nat → State → State
  | [], s => s
  | n :: ns, s => admitPorts a h ns (enqueue h (n * 8 + queueOf a h.frame) (colourOf a h.frame) s)

/-! ### SEND bookkeeping (R273) -/

/-- The destinations of a frame are known. -/
def setLeft (m : FMeta) (n : Nat) (s : State) : State :=
  { s with
    sw := { s.sw with sends := s.sw.sends.map fun o => if isSend m o then { o with left := n } else o }
    gse := { s.gse with pubs := match m.pub with
      | some e => alter s.gse.pubs e fun x => { x with inFlight := x.inFlight + n - 1 }
      | none => s.gse.pubs } }

/-- The frame ends before it has a destination: its SEND completes with a status and a result of 0. -/
def endSend (m : FMeta) (status : Nat) (s : State) : State :=
  let s1 := setLeft m 0 s
  match m.op with
  | some (r, g, q) =>
    finishOp r g q status (some 0) false
      { s1 with sw := { s1.sw with sends := s1.sw.sends.filter fun o => !isSend m o } }
  | none => s1

/-- The frame is discarded for a reason to which R273 gives no status: that status is a free value. -/
def endSendFree (m : FMeta) (s : State) : State :=
  if m.op.isSome then endSend m ((fresh s).1 % 65536) (fresh s).2 else endSend m 0 s

/-! ### The action (R258 to R262, R276) -/

/-- The internal destinations of an action. -/
def toInside (a : Action) (h : Held) (s : State) : State :=
  let s1 := if a.toSe0 then toSe0 h s else s
  let s2 := if a.toSe1 then toSe1 h s1 else s1
  if a.toRing then toRing h a.ring s2 else s2

/-- The frame acts on its snapshot: counted, admitted to its ports, delivered inside (R259, R260). -/
def applyAction (a : Action) (h : Held) (s : State) : State :=
  let s1 := countEntry h.info 1 h.frame.len (countEntry h.info 0 1 s)
  let b := if h.info.src < 48 then tcBlocks h.frame s1 else (false, s1)
  let ports := if b.1 then [] else destPorts a h (lookupKey h b.2) b.2
  let n := ports.length + b2n a.toSe0 + b2n a.toSe1 + b2n a.toRing
  if n = 0 then (if namesDest a then endSendFree h.info b.2 else endSend h.info stNotFound b.2)
  else
    let q := nameCopies ports h b.2
    toInside a h (admitPorts a q.1 ports (setLeft h.info n q.2))

/-- A frame that names an algorithm waits for verification, at most 1,024 of them (R439); any other acts
at once. A frame in the packet buffer that an error struck is discarded (R494). -/
def classified (a : Action) (h : Held) (s : State) : State :=
  if a.auth = 0 then applyAction a h s
  else if 1024 ≤ s.sw.wait.length then
    endSendFree h.info (noteSet 0x1604 4 { s with key := { s.key with store := bump s.key.store 0, evt := latch s.key.evt 4 } })
  else fillLanes { s with sw := { s.sw with wait := s.sw.wait ++ [(h, a)] } }

/-- A miss in both tables (R257). -/
def missed (h : Held) (s : State) : State :=
  endSend h.info stNotFound (latchSw 1 { s with sw := { s.sw with ingress := bump s.sw.ingress h.info.src } })

/-- Parse, lookup and the snapshot (R251 to R260). -/
def classify (h : Held) (s : State) : State :=
  match lookup (lookupKey h s) h.info.src s with
  | none => missed h s
  | some (e, a) =>
    classified a { h with info := { h.info with
      entry := e, epoch := lookD s.sw.epochs e 0, flow := a.flow } } s

/-! ### SWITCH_INGRESS (R249, R250, R311, R313) -/

/-- The frame is committed to the packet buffer: its timestamp comes with it, if its entry is still
there, and the entry is released (R313). -/
def commitTs (h : Held) (s : State) : Held × State :=
  if h.info.src < 48 then
    let has := match h.info.rxIdx with
      | some i => (portOf h.info.src s).tsq.contains i
      | none => false
    ({ h with info := { h.info with ts := if has then h.info.ts else none } }, releaseTs h.info.src h.info.rxIdx s)
  else (h, s)

/-- The copy of a PTP message for the time-base engine, which parses past one VLAN tag and no HSR tag (R311). -/
def copyPtp (h : Held) (s : State) : State :=
  if h.info.src < 48 && h.frame.hsr.isNone then
    match h.frame.body with
    | .ptp m => takeCopy { port := h.info.src, ts := h.info.ts, msg := m } s
    | .udp4 p _ (some m) =>
      if p = 319 || p = 320 then takeCopy { port := h.info.src, ts := h.info.ts, udp4 := true, msg := m } s else s
    | _ => s
  else s

/-- The stages after the grant. -/
def ingress (h : Held) (s : State) : State :=
  match h.info.direct with
  | some (p, q) => enqueue h (p * 8 + q) 0 s
  | none =>
    let d := commitTs h s
    match redIngress d.1 (copyPtp d.1 d.2) with
    | (some y, t) => classify y t
    | (none, t) => t

/-- A source requests a slot: it holds a whole frame (R250). -/
def requests (s : State) (n : Nat) : Bool := !(lookD s.sw.store n []).isEmpty

/-- The closed gate stops the frame: a publication's, or that of a SEND of a partition other than P0 (R453). -/
def gated (h : Held) (s : State) : Bool :=
  !gateOpen s && (h.info.pub.isSome || (h.info.op.map fun o => decide (8 ≤ o.1)).getD false)

/-- SWITCH_INGRESS: the oldest frame of the source that R35 grants, the first from the pointer that requests (R35,
R250). The switch core is held in WARM reset. A frame that the gate stops is discarded before its grant (R453). -/
def execSwitchIngress (source : Nat) (s : State) : Out :=
  named (decide (source < 50))
    (match lookD s.sw.store source [] with
     | [] => .next s
     | h :: hs =>
       if gated h s then
         act (s.rst.phase == .started) s
           (endSend h.info stWrongState { s with sw := { s.sw with store := put s.sw.store source hs } })
       else
       act (s.rst.phase == .started && comesFirst 50 s.sw.ptr ((List.range 50).filter (requests s)) source) s
         (ingress h { s with sw := { s.sw with
           fifo := (noteFifo source s).sw.fifo, store := put s.sw.store source hs, ptr := (source + 1) % 50 } }))

/-! ### SEND and RECV (R272 to R274) -/

/-- Fields of `ARG0` of a SEND (R273). -/
def sendDirect (d : Desc) : Bool := tbit (arg0 d) 6
def sendAuth (d : Desc) : Nat := bits (arg0 d) 25 23

/-- Ranges and reserved fields of a SEND descriptor (R273). -/
def sendRanges (d : Desc) : Bool :=
  let a := arg0 d
  decide (14 ≤ lenOf d) && decide (lenOf d ≤ 9212) && (!sendDirect d || decide (a % 64 < 48)) &&
    !tbit a 7 && a / 2 ^ 26 == 0 && decide (sendAuth d ≤ 5)

/-- A direct SEND has `DIRECT_OK` (R272, R273). -/
def directOk (r : Nat) (d : Desc) (s : State) : Bool :=
  !sendDirect d || ((look s.rng.rings r).map fun x => tbit x.barg.toNat 0).getD false

/-- The checks of SEND that its descriptor alone decides (R107, R273). -/
def sendFixed (r : Nat) (d : Desc) (s : State) : Nat :=
  checks [(sendRanges d, stBadArg), (directOk r d s, stDenied)]

/-- The check of SEND that needs its frame (R438): only a GOOSE or SV frame takes a tag. -/
def sendTypeOk (d : Desc) (f : Frame) : Bool := sendAuth d == 0 || f.etype == 0x88B8 || f.etype == 0x88BA

/-- The frame of a SEND waits for its ingress grant, or first for a tag (R249, R437). -/
def submit (h : Held) (slot auth owner : Nat) (s : State) : State :=
  if auth = 0 then { s with sw := { s.sw with store := put s.sw.store 49 (lookD s.sw.store 49 [] ++ [h]) } }
  else
    fillLanes { s with key := { s.key with
      tags := s.key.tags ++ [{ held := h, slot := slot, auth := auth, owner := owner }] } }

/-- SEND, whose other checks passed when it was consumed (R107), takes effect (R273, R453). -/
def sendEff (r : Nat) (seq : Word) (f : Frame) (s : State) : State :=
  match entryOf r seq s with
  | none => s
  | some e =>
    let a := arg0 e.desc
    if !sendTypeOk e.desc f then finishNow r seq stBadArg (some 0) s
    else if !gateOpen s && 8 ≤ r then finishNow r seq stWrongState (some 0) s
    else
      let h : Held :=
        { frame := { f with len := lenOf e.desc + 4 }
          info := { src := 49, op := some (r, e.gen, seq)
                    direct := if sendDirect e.desc then some (a % 64, bits a 10 8) else none } }
      let o : SendOp := { ring := r, gen := e.gen, seq := seq, left := 1, tsWanted := tbit a 11 }
      submit h (bits a 22 12) (sendAuth e.desc) (r / 8) { s with sw := { s.sw with sends := s.sw.sends ++ [o] } }

/-- A row of SEND (R273). -/
def sendRow (ring : Nat) (seq : Word) (frame : Frame) (s : State) : Out :=
  emitRow 1 1 ring seq (some (.frame frame)) s (sendEff ring seq frame)

/-- Alignment and length of a RECV (R274). -/
def recvChecks (d : Desc) : Nat :=
  checks [(iovaOf d % 64 == 0 && decide (64 ≤ lenOf d) && decide (lenOf d ≤ 16384), stBadArg)]

/-- RECV, whose checks passed when it was consumed (R107), posts its buffer, which a waiting frame fills at once; on a
ring that is not ON it completes unfilled (R274). -/
def recvEff (r : Nat) (seq : Word) (s : State) : State :=
  match entryOf r seq s with
  | none => s
  | some e =>
    if ((look s.rng.rings r).map fun x => x.st == .on).getD false then fillRecv r (markStarted r seq s)
    else finishOp r e.gen seq stOk (some 0) true s

/-- RECV (R274). -/
def execRecv (ring : Nat) (seq : Word) (s : State) : Out :=
  named (decide (ring < 2048)) (act (opReady 2 1 ring seq s) s (recvEff ring seq s))

/-! ### Ageing and supervision (R282, R284) -/

/-- ENTRY_FORGET (R282): after 400 ms without an update the windows are cleared. -/
def execEntryForget (node : Nat) (s : State) : Out :=
  named (decide (node < 4096))
    (match look s.sw.nodes node with
     | none => .next s
     | some x =>
       act (decide (x.updated + 400000000 ≤ s.clk.frc)) s
         { s with sw := { s.sw with nodes := put s.sw.nodes node { x with win := {}, fwdA := {}, fwdB := {} } } })

/-- NODE_FORGET (R282): after 60,000 ms the entry is removed, event 0411h. -/
def execNodeForget (node : Nat) (s : State) : Out :=
  named (decide (node < 4096))
    (match look s.sw.nodes node with
     | none => .next s
     | some x =>
       act (decide (x.updated + 60000000000 ≤ s.clk.frc)) s
         (raise { src := 7, code := 0x0411, index := x.inst } { s with sw := { s.sw with nodes := del s.sw.nodes node } }))

/-- The supervision frame of an instance with sequence number `seq` for one node (R280, R284): the first TLV is of type
20 for PRP and 23 for HSR, and a proxied node's frame names the RedBox (PRESUMED, IEC 62439-3, log entry 95). -/
def supFrame (r : Redun) (seq node : Nat) : Frame :=
  { da := 0x01154E000100 + r.supLast, sa := r.node, etype := 0x88FB
    body := .supervision { tlv := if isHsr r then 23 else 20, node := node, seq := seq
                           redBox := if node = r.node then none else some r.node }
    vlan := if r.supVid = 0 then none else some { vid := r.supVid, pcp := r.supPcp }
    len := if r.supVid = 0 then 64 else 68 }

/-- One supervision frame leaves on both ports of instance `i`, green, in the queue of its priority
(R281, R284). -/
def sendSup (i : Nat) (f : Frame) (s : State) : State :=
  match look s.sw.redun i with
  | none => s
  | some r =>
    let q := nameCopies [r.portA, r.portB] { frame := f, info := { src := 51 } } s
    let one (n side : Nat) (t : State) : State := countRed i side 7 (enqueue q.1 (n * 8 + r.supPcp) 0 t)
    one r.portB 1 (one r.portA 0 q.2)

/-- SUPERVISION_TX (R284): for the node, and at a RedBox for each proxied node. -/
def execSupervisionTx (inst : Nat) (s : State) : Out :=
  named (decide (inst < 12))
    (match look s.sw.redun inst with
     | none => .next s
     | some r =>
       let all := [r.node] ++ if 3 ≤ r.mode then r.proxy else []
       let r' := { r with supAt := s.clk.frc + r.lifeMs * 1000000, supSeq := (r.supSeq + all.length) % 65536 }
       act (decide (r.supAt ≤ s.clk.frc) && s.rst.phase == .started) s
         (all.zipIdx.foldl (fun t n => sendSup inst (supFrame r ((r.supSeq + n.2) % 65536) n.1) t)
           { s with sw := { s.sw with redun := put s.sw.redun inst r' } }))

end Sys2Proof.Machine
end

