-- ==== Sys2Proof/Machine/Auth.lean ====
section
/-! DEFINITION. Crypto lanes: verification and tagging (R433, R436 to R442). -/

namespace Sys2Proof.Machine

open Sys2Proof

/-- Counter `i` of slot `k` (R446). -/
def countSlot (k i : Nat) (s : State) : State := { s with key := { s.key with cnt := bump s.key.cnt (k * 7 + i) } }

/-- The bytes of the MAC of `AUTH` (R438). -/
def macLen (auth : Nat) : Nat := if auth = 1 then 8 else if auth = 2 then 16 else if auth = 3 then 10 else if auth = 4 then 16 else 32

/-- The MAC of a frame under a key (R438): GMAC over the covered span with a 96-bit initialisation vector, or
HMAC-SHA256, which has none; the first bytes of either. -/
def macOf (auth : Nat) (key : Bytes) (f : Frame) (iv : Nat) : Nat :=
  let span := Config.coveredSpan (frameBytes { f with auth := none })
  let m := if auth ≤ 2 then gcmTag (roundKeys key) (toBe 12 iv) span [] else hmac key span
  beAt m 0 (macLen auth)

/-- The verdict of a lane on a frame under its working key, as the counter of its reason: 0 is pass (R439). -/
def verdictOf (auth fault : Nat) (key : KSlot) (f : Frame) : Nat :=
  if fault ≠ 0 then fault
  else match f.auth with
    | none => 3
    | some e => if macOf auth (keyOf key) f e.iv = e.mac then 0 else 1

/-- The verdict on a frame whose reference reaches slot `k`, as the counter of its reason (R436, R439). -/
def verify (k auth : Nat) (f : Frame) (s : State) : Nat :=
  let w := verifyKey k auth f s
  verdictOf auth w.1 w.2 f

/-- The frame's fate after its verdict (R259, R262). -/
def afterVerdict (h : Held) (a : Action) (pass : Bool) (s : State) : State :=
  let y := { h with info := { h.info with verdict := if pass then 1 else 2 } }
  if pass then applyAction a y s
  else
    let s1 := countEntry h.info 2 1 s
    if a.authDrop then endSendFree h.info (countEntry h.info 1 h.frame.len (countEntry h.info 0 1 s1))
    else applyAction a y s1

/-- VERIFICATION_VERDICT (R436, R437, R439): the lane returns its verdict on the frame that it holds, and is free for
the next. -/
def execVerificationVerdict (lane : Nat) (s : State) : Out :=
  named (decide (lane < 4))
    (match look s.key.lanes lane with
     | none => .next s
     | some j =>
       match j.ver with
       | none => .next s
       | some (h, a) =>
         let v := verdictOf a.auth j.fault j.work h.frame
         .next (fillLanes (afterVerdict h a (v == 0) (countSlot j.slot v (freeLane lane s)))))

/-! ### Tagging (R440, R441) -/

/-- The tag count after one IV; where it wraps the epoch advances and is written to MRAM (R440). -/
def nextIv (s : State) : State :=
  let n := s.key.tagCount + 1
  if n < 2 ^ 40 then { s with key := { s.key with tagCount := n } }
  else
    { s with
      key := { s.key with tagCount := 0 }
      mram := savePstate { s.mram with epoch := min (s.mram.epoch + 1) 0xFFFFFF } }

/-- The initialisation vector (R440): the fused prefix, the epoch and the tag count. -/
def ivNow (s : State) : Nat := Config.ivPrefix.toNat * 2 ^ 64 + s.mram.epoch * 2 ^ 40 + s.key.tagCount

/-- The frame with its tag under a slot (R440). -/
def tagged (f : Frame) (x : KSlot) (auth : Nat) (s : State) : Frame :=
  let iv := if auth ≤ 2 then ivNow s else 0
  { f with auth := some { keyId := x.keyId, iv := iv, mac := macOf auth (keyOf x) f iv } }

/-- A refused tag: counted, event 0606h at most once per second and slot (R441, R448). -/
def refuseTag (k : Nat) (s : State) : State :=
  let recent := match look s.key.refusedAt k with
    | some t => decide (s.clk.frc < t + 1000000000)
    | none => false
  let s1 := countSlot k 6 (latchKey 3 k s)
  if recent then s1
  else keyEvent 0x0606 k (some 3) none { s1 with key := { s1.key with refusedAt := put s1.key.refusedAt k s.clk.frc } }

/-- The PUBLISH that waits for a frame completes with a status (R353, R441). -/
def finishPub (t : TagReq) (status : Nat) (s : State) : State :=
  match t.op with
  | some o => finishOp o.1 o.2.1 o.2.2 status (some (BitVec.ofNat 32 t.result)) false s
  | none => s

/-- A publication frame reaches SE0 (R353, R358). -/
def toSe0Tx (e : Nat) (h : Held) (s : State) : State :=
  { s with
    sw := { s.sw with store := put s.sw.store 48 (lookD s.sw.store 48 [] ++ [h]) }
    gse := { s.gse with
      pubs := alter s.gse.pubs e fun p => { p with inFlight := p.inFlight + 1 }
      pubCnt := bump s.gse.pubCnt (e * 3 + 2) } }

/-- A tagged frame goes on: a SEND to its grant, a publication to SE0, which discards it while the gate is closed (R276,
R353, R453). -/
def sendTagged (t : TagReq) (f : Frame) (s : State) : State :=
  let h := { t.held with frame := f }
  match t.pub with
  | none => submit h 0 0 t.owner s
  | some e => finishPub t stOk (if gateOpen s then toSe0Tx e h s else s)

/-- TAG (R436, R437, R440, R441): the lane tags the frame that it holds under its working key, or refuses, and is free
for the next. -/
def execTag (lane : Nat) (s : State) : Out :=
  named (decide (lane < 4))
    (match look s.key.lanes lane with
     | none => .next s
     | some j =>
       match j.tag with
       | none => .next s
       | some t =>
         let s1 := freeLane lane s
         .next (fillLanes (if j.fault = stOk then
             sendTagged t (tagged t.held.frame j.work t.auth s1) (countSlot j.slot 5 (if t.auth ≤ 2 then nextIv s1 else s1))
           else
             let s2 := refuseTag j.slot s1
             match t.pub with
             | some _ => finishPub t j.fault s2
             | none => endSend t.held.info j.fault s2)))

end Sys2Proof.Machine
end

