-- ==== Sys2Proof/Machine/FltOps.lean ====
section
/-! DEFINITION. The arithmetic of the filter chain (R362 to R386): rounding points, FIR, resampler, sliding
DFT, frequency tracking, detectors, and the words of a channel record (R381). -/

namespace Sys2Proof.Machine

open Sys2Proof

/-! ### Rounding and functions (R364, R365) -/

/-- Narrow to `n` bits, signed: the value, and whether it saturated (R364). -/
def nar (n : Nat) (x : Int) : Int × Bool :=
  if x < -2 ^ (n - 1) then (-2 ^ (n - 1), true)
  else if 2 ^ (n - 1) ≤ x then (2 ^ (n - 1) - 1, true)
  else (x, false)

/-- One bit of an integer square root: keep bit `i` if the square still fits. -/
def sqrtBit (n : Nat) (r i : Nat) : Nat := if (r + 2 ^ i) * (r + 2 ^ i) ≤ n then r + 2 ^ i else r

/-- The floor of the square root of a number below 2⁸⁰. -/
def isqrt (n : Nat) : Nat := (List.range 40).foldl (fun r i => sqrtBit n r (39 - i)) 0

/-- rnd(√n); no result is halfway (R365). -/
def rsqrt (n : Nat) : Nat :=
  let r := isqrt n
  if r * r + r < n then r + 1 else r

/-- rnd(2¹⁶ × cos(2πk ⁄ 128)) for k from 0 to 32 (N4 of R365). -/
def cosTable : List Int :=
  [65536, 65457, 65220, 64827, 64277, 63572, 62714, 61705, 60547, 59244, 57798, 56212, 54491, 52639,
   50660, 48559, 46341, 44011, 41576, 39040, 36410, 33692, 30893, 28020, 25080, 22078, 19024, 15924,
   12785, 9616, 6424, 3216, 0]

/-- N4 of the cosine of k ⁄ 128 turn. -/
def cosN4 (k : Nat) : Int :=
  let j := min (k % 128) (128 - k % 128)
  if j ≤ 32 then cosTable.getD j 0 else -cosTable.getD (64 - j) 0

/-- Twiddle k: N4(cos) and −N4(sin) (R373). -/
def twiddle (k : Nat) : Int × Int := (cosN4 k, -cosN4 (k + 96))

/-- A number of 512 bits or fewer: a larger one loses low bits of both parts alike. -/
def scaleDown (z : Int × Int) : Int × Int :=
  let m := max z.1.natAbs z.2.natAbs
  if m < 2 ^ 256 then z
  else
    let k := Nat.log2 m - 255
    (z.1 / 2 ^ k, z.2 / 2 ^ k)

/-- Binary digits of the angle of a complex number, in turns, most significant first: doubling the angle
squares the number. Numbers are kept to 256 bits. -/
def angleBits : Nat → Int × Int → Nat → Nat
  | 0, _, x => x
  | n + 1, z, x =>
    let top := z.2 < 0 || (z.2 == 0 && z.1 < 0)
    angleBits n (scaleDown (z.1 * z.1 - z.2 * z.2, 2 * z.1 * z.2)) (2 * x + b2n top)

/-- N9: the angle rounded to 2⁻¹⁶ turn, 16 bits, signed (R365). The angle of 0 is a free value. -/
def angleN9 (z : Int × Int) (free : Nat) : Int :=
  if z = (0, 0) then signed 16 (free % 65536)
  else signed 16 ((angleBits 17 z 0 + 1) / 2 % 65536)

/-- The interpolation weights at `m` ⁄ 2¹⁶ of an output, for j = −1 to 2 (N2, R372). -/
def weights (m : Nat) : List Int :=
  let x : Int := m
  let o : Int := 65536
  [roundDiv (-(x * (x - o) * (x - 2 * o))) (6 * 2 ^ 32), roundDiv ((x + o) * (x - o) * (x - 2 * o)) (2 * 2 ^ 32),
   roundDiv (-((x + o) * x * (x - 2 * o))) (2 * 2 ^ 32), roundDiv ((x + o) * x * (x - o)) (6 * 2 ^ 32)]

/-! ### Bins (R373, R374) -/

/-- N7: scaling by √2. -/
def rootTwo (v : Int) : Int × Bool := nar 32 (roundDiv (v * 92682) 65536)

/-- The RMS magnitude of a bin's sum: N5, N8, N7 (R374). -/
def magOf (z : Int × Int) : Int × Bool :=
  let a := nar 36 (roundDiv z.1 524288)
  let b := nar 36 (roundDiv z.2 524288)
  let m := nar 36 (rsqrt (a.1 * a.1 + b.1 * b.1).toNat)
  let x := rootTwo m.1
  (x.1, a.2 || b.2 || m.2 || x.2)

/-- The RMS phasor of a bin at twiddle `k`: N5, N6, N7 (R374). -/
def phasorOf (z : Int × Int) (k : Nat) : (Int × Int) × Bool :=
  let a := nar 36 (roundDiv z.1 524288)
  let b := nar 36 (roundDiv z.2 524288)
  let t := twiddle k
  let re := nar 36 (roundDiv (a.1 * t.1 + b.1 * t.2) 65536)
  let im := nar 36 (roundDiv (b.1 * t.1 - a.1 * t.2) 65536)
  let x := rootTwo re.1
  let y := rootTwo im.1
  ((x.1, y.1), a.2 || b.2 || re.2 || im.2 || x.2 || y.2)

/-- The sum of bin `h` of a channel. -/
def sumOf (h : Nat) (c : FCh) : Int × Int := lookD c.sums h (0, 0)

/-- The computed bins of a channel: the fundamental and each harmonic of `HARM` (R373). -/
def binsOf (c : FCh) : List Nat := 1 :: (List.range 16).filter fun h => decide (2 ≤ h) && tbit c.harm h

/-! ### One channel through one slot -/

/-- What a channel's stages take beside its own state: its stream and number, the stream's rate, K and
coefficients of R362 and R366, its leader's F, and a free value. -/
structure FPar where
  stream : Nat
  ch : Nat
  fs : Nat
  k : Nat
  coeff : List Int
  leadF : Nat
  free : Nat

/-- A channel on its way through a slot: whether a narrowing saturated and F met a limit, the changes of
its detectors, and the cycle entries it made. -/
structure FRun where
  c : FCh
  sat : Bool := false
  lim : Bool := false
  evs : List DetEv := []
  chg : List Change := []
  cycs : List Cyc := []

/-- Account for a saturation (R364). -/
def FRun.satBy (r : FRun) (b : Bool) : FRun := if b then { r with sat := true, c := { r.c with sat := true } } else r

/-- A rational time in 2⁻¹⁶ ns (R395; denominators of `FCh`). -/
def fracTime (fs : Nat) (t : Int) : Nat := (roundDiv t (2 * fs)).toNat

/-- N11: a rational time in whole ns. -/
def wholeNs (fs : Nat) (t : Int) : Nat := (roundDiv t (fs * 131072)).toNat

/-- The value a detector judges; `y` is the FIR output (R382). -/
def detValue (d : Det) (y : Int) (c : FCh) : Int × Bool :=
  match d.src with
  | 0 => magOf (sumOf 1 c)
  | 1 => magOf (sumOf d.hnum c)
  | 2 => (c.freq, false)
  | _ => (y.natAbs, false)

/-- One evaluation of a detector: its new state and whether it changed (R383). -/
def detStep (d : Det) (v : Int) (blocked : Bool) : Det × Bool :=
  if d.state then
    if (if d.under then decide (d.dropout < v) else decide (v < d.dropout)) then
      if d.doN ≤ d.doC + 1 then ({ d with state := false, pu := 0, doC := 0 }, true)
      else ({ d with doC := d.doC + 1 }, false)
    else ({ d with doC := 0 }, false)
  else
    if (if d.under then decide (v ≤ d.pickup) else decide (d.pickup ≤ v)) && !blocked then
      if d.puN ≤ d.pu + 1 then ({ d with state := true, pu := 0, doC := 0 }, true)
      else ({ d with pu := d.pu + 1 }, false)
    else ({ d with pu := 0 }, false)

/-- The word that names a detector (R384, R390). -/
def detName (stream ch det : Nat) : Nat := stream + 2 ^ 12 * ch + 2 ^ 20 * det

/-- Evaluate detector `n`, if its source is the FIR output as `fir` says (R383, R384). -/
def evalDet (p : FPar) (fir : Bool) (y t : Int) (r : FRun) (n : Nat) : FRun :=
  match look r.c.dets n with
  | none => r
  | some d =>
    if !d.en || (d.src == 3) != fir then r
    else
      let v := detValue d y r.c
      let x := detStep d v.1 (d.qblock && r.c.quest.isSome)
      let r1 := ({ r with c := { r.c with dets := put r.c.dets n x.1 } } : FRun).satBy v.2
      if x.2 then
        let up := x.1.state
        let ev : DetEv := { ch := p.ch, det := n, up := up, evt := d.evt, wake := if up then d.wakePu else d.wakeDo }
        let cg : Change := { type := 1, src := BitVec.ofNat 32 (detName p.stream p.ch n), level := up, time := fracTime p.fs t }
        { r1 with
          c := { r1.c with detChg := r1.c.detChg ||| 2 ^ n }
          evs := r1.evs ++ [ev], chg := r1.chg ++ [cg] }
      else r1

/-- The magnitude of a detector's harmonic is formed at every resampled sample, whether or not it is judged (R374). -/
def formMag (r : FRun) (e : Nat × Det) : FRun :=
  if e.2.en && e.2.src == 1 then r.satBy (magOf (sumOf e.2.hnum r.c)).2 else r

/-- Evaluate the detectors of one kind of source; a settling channel evaluates none (R379, R383), but forms their
magnitudes. -/
def evalDets (p : FPar) (fir : Bool) (y t : Int) (r : FRun) : FRun :=
  if r.c.settling then (if fir then r else r.c.dets.foldl formMag r) else (List.range 4).foldl (evalDet p fir y t) r

/-- Own tracking at the last sample of a cycle (R377). -/
def trackOwn (p : FPar) (n : Nat) (r : FRun) : FRun :=
  let a := angleN9 (sumOf 1 r.c) p.free
  let m := magOf (sumOf 1 r.c)
  let r1 := r.satBy m.2
  let c := { r1.c with angle := a }
  if n < 255 then { r1 with c := c }
  else if r.c.settling || m.1 < r.c.trkMin then { r1 with c := { c with hold := true } }
  else
    let f := (r.c.freq : Int) + roundDiv (r.c.freq * signed 16 (unsigned 16 (a - r.c.angle))) (2 ^ (16 + r.c.trkShift))
    let g := max 2949120 (min 4259840 f)
    { r1 with c := { c with freq := g.toNat }, lim := r1.lim || g == 2949120 || g == 4259840 }

/-- The cycle entry at the last sample of a cycle (R405). -/
def cycleOf (p : FPar) (n : Nat) (c : FCh) : Cyc :=
  let q := (c.ring.foldl (fun a x => a + x * x) 0).toNat
  let rms := rsqrt (2 * q)
  let ph := phasorOf (sumOf 1 c) (n % 128)
  let s := ph.2 || decide (2 ^ 32 ≤ rms)
  { ch := p.ch, freq := c.freq, time := wholeNs p.fs c.tau, rms := min rms (2 ^ 32 - 1), re := ph.1.1, im := ph.1.2
    flags := b2n c.quest.isSome + 2 * b2n c.test.isSome + 4 * b2n s }

/-- A mark counts one more resampled sample once its first FIR output `k` is later than the one that the
marked slot fed last, and ends at 128 (R380). -/
def markStep (k : Nat) (m : Option (Nat × Nat)) : Option (Nat × Nat) :=
  match m with
  | none => none
  | some (last, n) => if last < k then (if 128 ≤ n + 1 then none else some (last, n + 1)) else some (last, n)

/-- Sample `x` with time `t` enters the ring and the sums (R373). -/
def dftStep (x t : Int) (c : FCh) : FCh :=
  let d := x - if c.ring.length < 128 then 0 else c.ring.getD 127 0
  { c with
    ring := (x :: c.ring).take 128
    sums := (binsOf c).map fun h =>
      let z := sumOf h c
      let w := twiddle (h * c.r % 128)
      (h, z.1 + d * w.1, z.2 + d * w.2)
    r := c.r + 1, tau := t, made := true }

/-- One resampled sample and what it feeds: DFT, marks, tracking, detectors, a cycle entry, and the step
(R372 to R377, R383, R405). -/
def resampleOne (p : FPar) (r : FRun) : FRun :=
  let k := r.c.pos / 2 ^ 32
  let m := r.c.pos / 65536 % 65536
  let w := weights m
  let y (i : Nat) : Int × Int := r.c.outs.getD i (0, 0)
  let x := nar 32 (roundDiv (w.getD 0 0 * (y 3).1 + w.getD 1 0 * (y 2).1 + w.getD 2 0 * (y 1).1 + w.getD 3 0 * (y 0).1) 65536)
  let n := r.c.r
  let c1 := dftStep x.1 ((y 2).2 + 2 * (m * p.k * 1000000000)) r.c
  let c2 := { c1 with quest := markStep (k - 1) c1.quest, test := markStep (k - 1) c1.test }
  let r1 := ({ r with c := c2 } : FRun).satBy x.2
  let last := n % 128 == 127
  let r2 := if r1.c.track == 1 && last then trackOwn p n r1 else r1
  let r3 := evalDets p false 0 r2.c.tau (r2.satBy (magOf (sumOf 1 r2.c)).2)
  let r4 := if last && !r3.c.settling then { r3 with cycs := r3.cycs ++ [cycleOf p n r3.c] } else r3
  let f := if r4.c.track == 2 && r4.c.leaderOk then p.leadF else r4.c.freq
  { r4 with c := { r4.c with freq := f, pos := r4.c.pos + (roundDiv (p.fs / p.k * 2 ^ 41 : Nat) f).toNat } }

/-- Every resampled sample that the newest FIR output allows (R372): at most three, since a step is at
least 0.48 of an output. -/
def resample (p : FPar) : Nat → FRun → FRun
  | 0, r => r
  | n + 1, r => if r.c.pos / 2 ^ 32 + 2 < r.c.outN then resample p n (resampleOne p r) else r

/-- The FIR sum: pairs folded, oldest with newest; `x` is newest first (R370). -/
def firSum (coeff x : List Int) : Int :=
  (coeff.zipIdx.map fun e => e.1 * (x.getD e.2 0 + x.getD (2 * coeff.length - 1 - e.2) 0)).foldl (· + ·) 0

/-- One value into the channel: marks, FIR, resampler (R370, R372, R380). -/
def feed (p : FPar) (t : Nat) (v : Int) (q tst : Bool) (r : FRun) : FRun :=
  let taps := 2 * p.coeff.length
  let got := r.c.got + 1
  let mark (old : Option (Nat × Nat)) (b : Bool) : Option (Nat × Nat) := if b then some ((got - 1) / p.k, 0) else old
  let c := { r.c with hist := (v :: r.c.hist).take taps, got := got, quest := mark r.c.quest q, test := mark r.c.test tst }
  let r1 := { r with c := c }
  if got < taps || (got - taps) % p.k != 0 then r1
  else
    let y := nar 32 (roundDiv (firSum p.coeff c.hist) 131072)
    let ti : Int := (t * p.fs * 131072 : Nat) - (taps - 1 : Nat) * 1000000000 * 65536
    let c2 := { c with outs := ((y.1, ti) :: c.outs).take 4, outN := c.outN + 1, lastFir := y.1 }
    resample p 4 (evalDets p true y.1 ti (({ r1 with c := c2 } : FRun).satBy y.2))

/-- The nominal F (R377). -/
def nominalF (c : FCh) : Nat := if c.fnom then 3932160 else 3276800

/-- A restart at a slot of nominal time `at_`; F is kept (R378). -/
def restartCh (at_ : Nat) (c : FCh) : FCh :=
  { c with
    hist := [], got := 0, outs := [], outN := 0, pos := 2 ^ 32, r := 0, ring := [], sums := [], angle := 0
    settling := true, quest := none, test := none, restarted := true, restartNs := at_ }

/-- One slot of a channel: value and marks of R339 (R378, R380). -/
def slotCh (p : FPar) (t : Nat) (v : Int) (marks : Nat) (c : FCh) : FRun :=
  if tbit marks 0 || tbit marks 1 then { c := restartCh t c }
  else feed p t v (tbit marks 2) (tbit marks 3) { c := c }

/-! ### The words of a record (R374, R379, R381) -/

/-- Settling ends at the close that follows sample 127, with every count at 0 (R379). -/
def settleCh (c : FCh) : FCh :=
  if c.settling && decide (128 ≤ c.r) then
    { c with settling := false, dets := c.dets.map fun e => (e.1, { e.2 with pu := 0, doC := 0 }) }
  else c

/-- The bits of `DET`. -/
def detBits (c : FCh) : Nat := (c.dets.map fun e => b2n e.2.state * 2 ^ e.1).foldl (· + ·) 0

/-- The words from 8 of a channel record as the channel stands, whether a narrowing saturated, and the
channel with the flags of the tick cleared (R381). A tick that made no sample forms no phasor and repeats those of the
previous record; a settling channel forms them and does not show them (R374, R379). -/
def recordWords (fs : Nat) (c0 : FCh) : List Nat × Bool × FCh :=
  if !c0.en then ([], false, c0)
  else
    let c := settleCh c0
    let mag := magOf (sumOf 1 c)
    let phs := (binsOf c).map fun h => phasorOf (sumOf h c) (h * (c.r - 1) % 128)
    let sat := c.made && (mag.2 || phs.any fun x => x.2)
    let u (x : Int) : Nat := unsigned 32 x
    let pt := wholeNs fs c.tau
    let w8 := b2n c.settling + 2 * b2n c.quest.isSome + 4 * b2n c.test.isSome + 8 * b2n (c.sat || sat) +
      16 * b2n c.hold + 32 * b2n c.made + 64 * b2n c.restarted + 2 ^ 8 * detBits c + 2 ^ 12 * c.detChg
    let rest := if c.settling then []
      else [pt % 2 ^ 32, pt / 2 ^ 32 % 2 ^ 32, u c.lastFir, u mag.1] ++ phs.flatMap fun x => [u x.1.1, u x.1.2]
    let c1 := { c with sat := false, hold := false, made := false, restarted := false, detChg := 0 }
    ([w8, c.freq] ++ rest, sat, c1)

/-! ### Cost (R386) -/

/-- c of one channel-sample: `taps`, K, B, M, f_s and f_b (R386). -/
def costOf (taps k b m fs fb : Nat) : Nat :=
  (taps * fs + 2 * k * ((4 + 2 * b + 3 * m) * 8320 + 6 * b * fb) + 2 * k * fs - 1) / (2 * k * fs)

/-- The distinct harmonics that enabled detectors name (R386). -/
def detHarms (c : FCh) : Nat := ((c.dets.filter fun e => e.2.en && e.2.src == 1).map fun e => e.2.hnum).dedup.length

/-! ### Slots on the time line (R336) -/

/-- f_s of a `RATE` code (R333). -/
def rateHz (code : Nat) : Nat := [4000, 4800, 12800, 14400, 15360].getD code 4000

/-- K of a `RATE` code (R362). -/
def rateK (code : Nat) : Nat := [1, 1, 2, 3, 3].getD code 1

/-- The nominal time of slot `j`, counted from the start of the time line, in linear ns. -/
def slotNs (fs j : Nat) : Nat := j / fs * 1000000000 + j % fs * 1000000000 / fs

/-- The first slot of tick `k`, both counted from the start of the time line: ceil(t_k × f_s ⁄ 10⁹). -/
def firstSlotOf (fs f k : Nat) : Nat := k / f * fs + (tickStartNs f (k % f) * fs + 999999999) / 1000000000

/-- The first slot whose nominal time is after `ns`. -/
def slotAfter (fs ns : Nat) : Nat :=
  let j := ns / 1000000000 * fs + ns % 1000000000 * fs / 1000000000
  if slotNs fs j ≤ ns then (if slotNs fs (j + 1) ≤ ns then j + 2 else j + 1) else j

end Sys2Proof.Machine
end

