-- ==== Sys2Proof/Machine/AcqOps.lean ====
section
/-! DEFINITION. The recorders: space, blindness, triggers, opening, rows, the rate-reduction ladder, and the
export form of a record (R394 to R412, R415). -/

namespace Sys2Proof.Machine

open Sys2Proof

/-- Recorder `n`. -/
def recOf (n : Nat) (s : State) : Rec := lookD s.acq.recs n {}

/-- Set recorder `n`. -/
def setRec (n : Nat) (x : Rec) (s : State) : State := { s with acq := { s.acq with recs := put s.acq.recs n x } }

/-- Counter `i` of a recorder's bank: `RECORDS`, `TRIG_LOST`, `TRIG_IGNORED`, `EXT_REFUSED`, `LADDER_STEPS`,
`OVERWRITTEN`, `EXPORT_BYTES`, `BLIND_NS`, `GOOSE_TYPE` (R419). -/
def countRec (n i k : Nat) (s : State) : State :=
  { s with acq := { s.acq with cnt := bumpBy s.acq.cnt (n * 9 + i) k } }

/-- Set a bit of `ACQ_EVT` (R421). -/
def latchRec (n bit : Nat) (s : State) : State :=
  { noteSet 0x1540 bit s with acq := { s.acq with evt := latch s.acq.evt bit, lastRec := n } }

/-- An acquisition event (R418). -/
def acqEvent (code n : Nat) (s : State) : State := raise { src := 6, code := code, kind := 7, index := n } s

/-! ### Space (R401, R403) -/

/-- ROW (R403). -/
def rowBytes (nch : Nat) : Nat := (8 + 4 * nch + 4 * ((nch + 7) / 8) + 7) / 8 * 8

/-- The commitment (R401). -/
def commitment (x : Rec) : Nat :=
  let fs := rateHz x.rate
  up64 (256 + 72 * x.nch + 4096) + up64 ((x.maxLen + x.envN - 1) / x.envN * (8 + 8 * x.nch)) +
    up64 (((x.maxLen * 65 + fs - 1) / fs + 2) * 32 * x.nch) + up64 (x.pre * rowBytes x.nch)

/-- The bytes that a record needs to open (R401). -/
def needBytes (x : Rec) : Nat := commitment x + (1 + (x.post - 1) / 32) * rowBytes x.nch

/-- What a stored record occupies (R407). -/
def recSize (r : SRec) : Nat := up64 r.data.length

/-- No EXPORT of the record is running (R414). -/
def isIdle (r : SRec) : Bool := r.running == 0

/-- The space test, with every record that `OVERWRITE` may release (R394, R401, R414). -/
def spaceOk (x : Rec) : Bool :=
  decide (needBytes x ≤ x.freeB + if x.overwrite then ((x.stored.filter isIdle).map recSize).foldl (· + ·) 0 else 0)

/-- The records that the recorder holds: a released one whose EXPORT still runs keeps its space only (R414). -/
def heldRecs (x : Rec) : List SRec := x.stored.filter fun r => !r.released

/-- A write of the engine to lane memory: requester `i` is granted, in a cycle of its own (R35, R417; log entry 75). -/
def acqAsk (i : Nat) (s : State) : State := { s with acq := { s.acq with ptr := (arbitrate 17 1 s.acq.ptr (· == i)).2 } }

/-- The recorder is blind (R394). -/
def isBlind (x : Rec) : Bool :=
  x.en == .on && (x.cap == .closing || (x.cap == .waiting && !spaceOk x))

/-- The status line (R415). -/
def statusBytes (x : Rec) : Bytes :=
  let cap := if x.en == .off then 3 else match x.cap with
    | .waiting => 0
    | .capturing => 1
    | .closing => 2
  let oldest := match heldRecs x with
    | [] => 0
    | r :: _ => r.num
  padTo 64 (toLe 4 x.lastStored ++ toLe 4 oldest ++ toLe 4 (cap + 4 * b2n (isBlind x)) ++ toLe 4 0 ++ toLe 8 x.lastOsn)

/-- Write the status line while `OWNER` exists (R415). -/
def writeStatus (n : Nat) (s : State) : State :=
  let x := recOf n s
  match partOf x.owner s with
  | some p => if isMapped p x.status then visWrite x.owner x.status (statusBytes x) s else s
  | none => s

/-- The recorder after a change of its state or space: a blind interval begins or ends, and the status
line is written (R394, R415). -/
def reblind (n : Nat) (s : State) : State :=
  let x := recOf n s
  writeStatus n
    (match x.blindSince, isBlind x with
     | none, true => setRec n { x with blindSince := some s.clk.frc } s
     | some t, false =>
       countRec n 7 (s.clk.frc - t) (setRec n { x with blindSince := none, deadNs := x.deadNs + (s.clk.frc - t) } s)
     | _, _ => s)

/-! ### Markers, envelope and peaks (R404, R410, R412) -/

/-- Add a marker; beyond 255 the record carries `MARK_FULL`. -/
def addMark (m : Marker) (r : Record) : Record :=
  if r.marks.length < 255 then { r with marks := r.marks ++ [m] } else { r with flags := r.flags ||| 32 }

/-- The pair of an empty channel (R404). -/
def emptyPair : Int × Int := (2147483647, -2147483648)

/-- A sample that carries neither M nor I. -/
def sound (v : Int × Nat) : Bool := !tbit v.2 0 && !tbit v.2 1

/-- One more slot in an envelope block. -/
def growPair (p : Int × Int) (v : Int × Nat) : Int × Int := if sound v then (min p.1 v.1, max p.2 v.1) else p

/-- The envelope after slot `ofs` (R404). -/
def growEnv (envN nch ofs : Nat) (vals : List (Int × Nat)) (env : List EnvBlk) : List EnvBlk :=
  let b := ofs / envN
  let env1 := if env.length ≤ b then
      env ++ (List.range (b + 1 - env.length)).map fun i =>
        { ofs := (env.length + i) * envN, pairs := List.replicate nch emptyPair }
    else env
  env1.zipIdx.map fun e => if e.2 = b then { e.1 with pairs := List.zipWith growPair e.1.pairs vals } else e.1

/-- The value of greatest magnitude, the first on a tie (R410). -/
def growPeak (ofs : Nat) (p : Option (Int × Nat)) (v : Int × Nat) : Option (Int × Nat) :=
  if !sound v then p
  else match p with
    | none => some (v.1, ofs)
    | some q => if q.1.natAbs < v.1.natAbs then some (v.1, ofs) else p

/-- The slot number of `j` = 0 of a record. -/
def recBase (fs : Nat) (r : Record) : Nat := r.second / 1000000000 * fs

/-- A slot's number in the record's second (R399). -/
def relSlot (fs slot : Nat) (r : Record) : Int := (slot : Int) - recBase fs r

/-- Envelope and peaks at full rate. -/
def measRow (x : Rec) (ofs : Nat) (row : Row) (r : Record) : Record :=
  { r with env := growEnv x.envN x.nch ofs row.vals r.env, peaks := List.zipWith (growPeak ofs) r.peaks row.vals }

/-! ### The ladder (R406) -/

/-- The loop of R406: steps up until the rest of the record can be completed at the next level. -/
def ladderUp (row free rem : Nat) (j : Int) : Nat → Record → Nat → Record × Nat
  | 0, r, k => (r, k)
  | n + 1, r, k =>
    let l := r.ladder
    let nxt := if 2 ^ l ≤ rem then 1 + (rem - 2 ^ l) / 2 ^ (l + 1) else 0
    if 5 ≤ l || (1 + nxt) * row ≤ free then (r, k)
    else
      ladderUp row free rem j n
        (addMark { type := 1, ofs := j - r.j0, value := (l + 1 : Nat) } { r with ladder := l + 1, jL := j }) (k + 1)

/-- Ladder steps are counted and flagged, and a record's first raises event 0703h (R418, R421). -/
def noteSteps (n k : Nat) (first : Bool) (s : State) : State :=
  if k = 0 then s
  else
    let s1 := latchRec n 1 (countRec n 4 k s)
    if first then acqEvent 0x0703 n s1 else s1

/-- A row of the record's span: measured, and stored by the ladder rule; at j_end the record is CLOSING
(R403, R406, R407). -/
def recordRow (n : Nat) (row : Row) (s : State) : State :=
  let x := recOf n s
  match x.cur with
  | none => s
  | some r =>
    let j := relSlot (rateHz x.rate) row.slot r
    if x.cap != .capturing || j < r.j0 || r.jEnd < j then s
    else
      let ofs := (j - r.j0).toNat
      let r1 := measRow x ofs row r
      let done := j == r.jEnd
      let cap := if done then Cap.closing else Cap.capturing
      let s1 :=
        if j ≤ r.jT then setRec n { x with cap := cap, cur := some { r1 with rows := r1.rows ++ [row] } } s
        else if r.ladder ≠ 0 ∧ (j - r.jL) % 2 ^ r.ladder ≠ 0 then setRec n { x with cap := cap, cur := some r1 } s
        else
          let w := rowBytes x.nch
          let u := ladderUp w x.freeB (r.jEnd - j).toNat j 5 r1 0
          let r2 := { u.1 with rows := u.1.rows ++ [row], commit := u.1.commit + w }
          noteSteps n u.2 (r.ladder == 0) (setRec n { x with cap := cap, cur := some r2, freeB := x.freeB - w } s)
      if done then reblind n s1 else s1

/-- `recordRow` for each row. -/
def recordRows (n : Nat) : List Row → State → State
  | [], s => s
  | r :: rs, s => recordRows n rs (recordRow n r s)

/-! ### Triggers (R394, R399 to R402) -/

/-- Second, trigger slot and fraction of a time in 2⁻¹⁶ ns (R399). -/
def placeTrig (fs t : Nat) : Nat × Int × Nat :=
  let sec := t / 65536 / 1000000000 * 1000000000
  let num := (t - sec * 65536) * fs
  let den := 1000000000 * 65536
  let phi := (roundDiv (num % den * 256 : Nat) den).toNat
  if phi = 256 then (sec, (num / den + 1 : Nat), 0) else (sec, (num / den : Nat), phi)

/-- A trigger that finds the recorder blind is lost (R394). -/
def loseTrig (n : Nat) (s : State) : State :=
  let x := recOf n s
  let recent := match x.lostAt with
    | some t => decide (s.clk.frc < t + 1000000000)
    | none => false
  let s1 := latchRec n 0 (countRec n 1 1 (setRec n { x with
    lost := x.lost + 1, lostAt := if recent then x.lostAt else some s.clk.frc } s))
  if recent then s1 else acqEvent 0x0704 n s1

/-- The oldest stored record that has no EXPORT running is overwritten (R414). -/
def overwriteOne (n : Nat) (s : State) : State :=
  let x := recOf n s
  match x.stored.find? isIdle with
  | none => s
  | some r =>
    acqEvent 0x0705 n (latchRec n 2 (countRec n 5 1
      (setRec n { x with stored := x.stored.erase r, freeB := x.freeB + recSize r } s)))

/-- Release stored records until a record can open or none is left (R401). -/
def makeRoom (n : Nat) : Nat → State → State
  | 0, s => s
  | k + 1, s =>
    let x := recOf n s
    if needBytes x ≤ x.freeB || !x.overwrite then s else makeRoom n k (overwriteOne n s)

/-- The filter-chain `EN` of a channel. -/
def chanEn (e : Nat × Nat) (s : State) : Bool :=
  match look s.sv.streams e.1 with
  | some st => (lookD st.chans e.2 {}).en
  | none => false

/-- What triggered: group, entry, `TYPE`, time in 2⁻¹⁶ ns, and whether it was substituted (R412). -/
structure Fire where
  group : Nat
  entry : Nat
  type : Nat
  time : Nat
  subst : Bool

/-- The record as it opens (R399, R400, R401, R412). -/
def newRecord (n : Nat) (f : Fire) (s : State) : Record :=
  let x := recOf n s
  let fs := rateHz x.rate
  let p := placeTrig fs f.time
  let base := p.1 / 1000000000 * fs
  let want : Int := p.2.1 + 1 - x.pre
  let oldest : Int := (match x.hist with
    | [] => (x.nextRow : Int)
    | r :: _ => (r.slot : Int)) - base
  { num := x.nextNum, second := p.1, phi := p.2.2, jT := p.2.1, j0 := max want oldest, jEnd := p.2.1 + x.post
    trigTime := f.time, trigEntry := f.entry, trigGroup := f.group, trigType := f.type
    flags := b2n (decide (want < oldest)) + 4 * b2n (decide (4 ≤ f.type)) + 8 * b2n (!tbAcquired (tbOf s.cnp.tb s)) +
      128 * b2n f.subst
    cycs := x.histCyc, peaks := List.replicate x.nch none, enAtOpen := x.chans.map fun e => chanEn e s
    lostTrig := x.lost, deadNs := x.deadNs, openOsn := nextOsn s, commit := commitment x }

/-- A record opens (R401): event 0701h, and the rows that the history holds. -/
def openRecord (n : Nat) (f : Fire) (s : State) : State :=
  let x := recOf n s
  let r := newRecord n f s
  let y := { x with
    cap := .capturing, cur := some r, freeB := x.freeB - r.commit, nextNum := (x.nextNum + 1) % 2 ^ 32
    lost := 0, deadNs := 0 }
  reblind n (recordRows n x.hist (acqEvent 0x0701 n (setRec n y s)))

/-- A trigger during capture (R402). -/
def reTrig (n : Nat) (f : Fire) (r : Record) (s : State) : State :=
  let x := recOf n s
  let fs := rateHz x.rate
  let p := placeTrig fs f.time
  let j : Int := p.2.1 + (p.1 / 1000000000 * fs : Nat) - recBase fs r
  let put' (q : Record) : State := setRec n { x with cur := some q } s
  if f.time < r.trigTime then put' (addMark { type := 4, ofs := j - r.j0, value := f.entry } r)
  else if !x.retrig then countRec n 2 1 s
  else
    let jEnd := min (j + x.post) (r.j0 + x.maxLen - 1)
    let rem := (jEnd - relSlot fs x.nextRow r + 1).toNat
    if (1 + rem / 32) * rowBytes x.nch ≤ x.freeB then
      put' (addMark { type := 2, ofs := j - r.j0, value := jEnd - r.j0 + 1 }
        { r with jEnd := jEnd, flags := r.flags ||| 256 })
    else
      latchRec n 3 (countRec n 3 1 (put' (addMark { type := 3, ofs := j - r.j0, value := f.entry }
        { r with flags := r.flags ||| 64 })))

/-- A group triggers (R394, R396, R401, R402). -/
def fireTrig (n : Nat) (f : Fire) (s : State) : State :=
  let x := recOf n s
  if x.en != .on then s
  else match x.cap, x.cur with
    | .waiting, _ =>
      let s1 := makeRoom n x.stored.length s
      if needBytes (recOf n s1) ≤ (recOf n s1).freeB then openRecord n f s1 else loseTrig n s1
    | .capturing, some r => reTrig n f r s
    | _, _ => loseTrig n s

/-! ### Levels and groups (R395, R396) -/

/-- The source of an entry exists and is enabled (R395). -/
def srcAlive (t : Trig) (s : State) : Bool :=
  let w := t.src.toNat
  match t.type with
  | 1 =>
    match look s.sv.streams (bits w 11 0) with
    | some st =>
      let c := lookD st.chans (bits w 16 12) {}
      st.en != .off && c.en && (lookD c.dets (bits w 21 20) {}).en
    | none => false
  | 2 => (binOf (w % 32) s).en != .off
  | 3 => true
  | _ => false

/-- The entry names the source of a change (R390). -/
def names (c : Change) (t : Trig) : Bool :=
  let w := t.src.toNat
  t.type == c.type &&
    (match c.type with
     | 1 => detName (bits w 11 0) (bits w 16 12) (bits w 21 20) == c.src.toNat
     | 2 => w % 32 == c.src.toNat
     | _ => false)

/-- The level of an entry's source as the changes processed so far leave it: before the first change of it
that still waits, else as the source stands. A GOOSE level persists (R397). -/
def seenLevel (s : State) (t : Trig) : Bool :=
  match s.acq.changes.find? fun c => names c t with
  | some c => !c.level
  | none =>
    let w := t.src.toNat
    match t.type with
    | 1 =>
      match look s.sv.streams (bits w 11 0) with
      | some st => (lookD (lookD st.chans (bits w 16 12) {}).dets (bits w 21 20) {}).state
      | none => false
    | 2 => (binOf (w % 32) s).state
    | _ => t.level

/-- The level of an entry (R395). -/
def levelOf (s : State) (t : Trig) : Bool := (srcAlive t s && seenLevel s t) != t.pol

/-- The entries of a group. -/
def groupOfTrigs (g : Nat) (l : List Trig) : List Trig := l.filter fun t => t.type != 0 && t.group == g

/-- The AND of a group's levels; an empty group, and a group with a time entry, is never true (R396). -/
def groupTrue (g : Nat) (l : List Trig) (s : State) : Bool :=
  let es := groupOfTrigs g l
  !es.isEmpty && es.all fun t => t.type != 4 && levelOf s t

/-- The value of each group now. -/
def truthNow (l : List Trig) (s : State) : List Bool := (List.range 4).map fun g => groupTrue g l s

/-- The entry of a group whose change triggered: the first that `hit` names, else the first of the group. -/
def hitEntry (hit : Trig → Bool) (g : Nat) (l : List Trig) : Nat × Nat :=
  let mine := l.zipIdx.filter fun e => e.1.type != 0 && e.1.group == g
  match mine.find? fun e => hit e.1 with
  | some e => (e.2, e.1.type)
  | none => ((mine.head?.map fun e => (e.2, e.1.type)).getD (15, 5))

/-- The end of the fault: the first change that makes the triggering group false (R409). -/
def endFault (g time : Nat) (r : Record) : Record :=
  if r.trigGroup = g ∧ r.faultAt.isNone ∧ r.trigTime ≤ time ∧ r.trigType ≤ 3 then { r with faultAt := some time } else r

/-- Groups of recorder `n` after a change at `time`: a group that becomes false may end a fault, and each
that becomes true triggers, in order of group number (R396). -/
def stepGroups (n time : Nat) (subst : Bool) (hit : Trig → Bool) (s : State) : State :=
  let x := recOf n s
  let now := truthNow x.trigs s
  let fell := (List.range 4).filter fun g => x.truth.getD g false && !now.getD g false
  let rose := (List.range 4).filter fun g => !x.truth.getD g false && now.getD g false
  let s1 := setRec n { x with truth := now, cur := x.cur.map fun r => fell.foldl (fun q g => endFault g time q) r } s
  rose.foldl (fun t g =>
    let e := hitEntry hit g x.trigs
    fireTrig n { group := g, entry := e.1, type := e.2, time := time, subst := subst } t) s1

/-- `stepGroups` for each recorder of a list. -/
def stepAll (time : Nat) (subst : Bool) (hit : Trig → Bool) : List Nat → State → State
  | [], s => s
  | n :: ns, s => stepAll time subst hit ns (stepGroups n time subst hit s)

/-- Detector changes of a recorder's channels (R409, R410). -/
def logDet (c : Change) (s : State) : State :=
  if c.type != 1 then s
  else
    let w := c.src.toNat
    let mine (x : Rec) : List DetLog :=
      (x.chans.zipIdx.filter fun q => q.1 == (bits w 11 0, bits w 16 12)).map fun q =>
        { ch := q.2, det := bits w 21 20, up := c.level, time := c.time }
    { s with acq := { s.acq with recs := s.acq.recs.map fun e =>
        (e.1, { e.2 with detLog := e.2.detLog ++ mine e.2 }) } }

/-- A time entry fires (R395, R396). -/
def fireTime (n e : Nat) (c : Change) (s : State) : State :=
  let x := recOf n s
  match x.trigs[e]? with
  | none => s
  | some t =>
    if t.type != 4 || t.fired || t.cancelled then s
    else
      fireTrig n { group := t.group, entry := e, type := 4, time := c.time, subst := false }
        (setRec n { x with trigs := x.trigs.zipIdx.map fun q => if q.2 = e then { q.1 with fired := true } else q.1 } s)

/-! ### GOOSE elements (R397) -/

/-- A length of BER: its value and what follows. -/
def berHead (b : Bytes) : Option (Nat × Bytes) :=
  match b with
  | [] => none
  | l :: r =>
    if l.toNat < 128 then some (l.toNat, r)
    else
      let k := l.toNat % 128
      if r.length < k then none else some (beAt r 0 k, r.drop k)

/-- The first element of a BER sequence: its tag, content, and what follows. The tags of the types of allData
take one octet. -/
def berNext (b : Bytes) : Option (Nat × Bytes × Bytes) :=
  match b with
  | [] => none
  | t :: r => (berHead r).bind fun l => if l.2.length < l.1 then none else some (t.toNat, l.2.take l.1, l.2.drop l.1)

/-- Element `e` of a sequence. -/
def berElem : Nat → Bytes → Option (Nat × Bytes)
  | 0, b => (berNext b).map fun x => (x.1, x.2.1)
  | e + 1, b => (berNext b).bind fun x => berElem e x.2.2

/-- The value of element `e` of allData, if it is a BOOLEAN (R397). -/
def boolElem (e : Nat) (b : Bytes) : Option Bool :=
  match berElem e b with
  | some (0x83, [v]) => some (v != 0)
  | _ => none

/-- The entry is of `TYPE` 3 and names this tag. -/
def hasTag (tag : Nat) (t : Trig) : Bool := t.type == 3 && t.src.toNat % 65536 == tag

/-- The entry takes part in the evaluation: with `AUTH_REQ` only a frame that passed (R397). -/
def takesPart (tag verdict : Nat) (t : Trig) : Bool := hasTag tag t && (!tbit t.src.toNat 24 || verdict == 1)

/-- The element of an entry. -/
def elemOf (t : Trig) : Nat := bits t.src.toNat 23 16

/-- A GOOSE frame with a new stNum is evaluated: `GOOSE_TYPE`, levels, groups; one without a timestamp takes the time of
its processing less 2,000 ns (R396, R397). -/
def evalGoose (tag verdict : Nat) (data : Bytes) (c : Change) (s : State) : State :=
  let on := takesPart tag verdict
  let val (t : Trig) : Bool := (boolElem (elemOf t) data).getD false
  let changed := s.acq.recs.flatMap fun e => (e.2.trigs.filter fun t => on t && t.level != val t).map fun t => t.src
  let bad := (s.acq.recs.filter fun e => e.2.trigs.any fun t => on t && (boolElem (elemOf t) data).isNone).map Prod.fst
  let s1 := bad.foldl (fun u n => countRec n 8 1 u) s
  let s2 := { s1 with acq := { s1.acq with recs := s1.acq.recs.map fun e =>
      (e.1, { e.2 with trigs := e.2.trigs.map fun t => if on t then { t with level := val t } else t }) } }
  let time := if c.subst then lineFrac s (frcNow s) - 2000 * 65536 else c.time
  stepAll time c.subst (fun t => t.type == 3 && changed.contains t.src) (s2.acq.recs.map Prod.fst) s2

/-- One change is processed (R396). -/
def takeChange (c : Change) (s : State) : State :=
  match c.recs, c.goose with
  | some (n, e), _ => fireTime n e c s
  | none, some (tag, verdict, data) => evalGoose tag verdict data c s
  | none, none => stepAll c.time c.subst (names c) (s.acq.recs.map Prod.fst) (logDet c s)

/-! ### Rows (R403) -/

/-- The streams of a recorder's channels that are ON. -/
def onStreams (x : Rec) (s : State) : List Strm :=
  (s.sv.streams.filter fun e => e.2.en == .on && x.chans.any fun c => c.1 == e.1).map Prod.snd

/-- The next row of a recorder may form (R403): every stream that is ON has closed its tick. Where none is ON, it forms
when its tick has ended (log entry 59). -/
def rowReady (x : Rec) (s : State) : Bool :=
  let f := baseRate s.cnp.rate
  let k := tickAbs f (slotNs (rateHz x.rate) x.nextRow)
  let on := onStreams x s
  if on.isEmpty then decide (tickAbsStart f (k + 1) ≤ lineNow s)
  else on.all fun st => decide (k < st.nextTick) && !(st.ticks.any fun t => t.rephase.isSome)

/-- The value and marks of channel `c`; a channel whose stream is not ON or has another rate is missing
(R403). -/
def chanValue (x : Rec) (c : (Nat × Nat) × Nat) (s : State) : Int × Nat :=
  match look s.sv.streams c.1.1 with
  | some st =>
    if st.en == .on && st.rate == x.rate then
      match (lookD x.wait x.nextRow []).find? fun e => e.1 == c.2 with
      | some e => e.2
      | none => (0, 1)
    else (0, 1)
  | none => (0, 1)

/-- The inputs at the slot's nominal time (R403). -/
def binsAt (ns : Nat) (s : State) : Nat :=
  ((List.range 32).map fun b => 2 ^ b * b2n ((binOf b s).en != .off && binAt b (ns * 65536) s)).foldl (· + ·) 0

/-- The next row (R403). -/
def nextRowOf (x : Rec) (s : State) : Row :=
  { slot := x.nextRow, bins := binsAt (slotNs (rateHz x.rate) x.nextRow) s
    vals := x.chans.zipIdx.map fun c => chanValue x c s }

/-- The history holds `PRE` + ceil(0.05 × f_s) slots (R400). -/
def histLen (x : Rec) : Nat := x.pre + (rateHz x.rate + 19) / 20

/-- Cycle entries and detector changes older than the history leave it. -/
def trimHist (x : Rec) : Rec :=
  let h := lastN (histLen x) x.hist
  match h with
  | [] => { x with hist := h }
  | r :: _ =>
    let t := slotNs (rateHz x.rate) r.slot
    { x with
      hist := h
      histCyc := x.histCyc.filter fun c => t ≤ c.time
      detLog := if x.cur.isSome then x.detLog else x.detLog.filter fun d => t * 65536 ≤ d.time }

/-- One row forms: it enters the history and the open record, with a write of its recorder (R417). -/
def formRow (n : Nat) (s : State) : State :=
  let x := recOf n s
  let row := nextRowOf x s
  recordRow n row (acqAsk n <| setRec n (trimHist { x with
    hist := x.hist ++ [row], nextRow := x.nextRow + 1, wait := del x.wait x.nextRow }) s)

/-- Rows form up to slot `last`. -/
def formRows (n : Nat) : Nat → State → State
  | 0, s => s
  | k + 1, s => formRows n k (formRow n s)

/-- The slots of a closed tick reach the recorders of their channels; a missing one has the value 0 (R403, R494). -/
def acqTick (n : Nat) (st : Strm) (t : OpenTick) (s : State) : State :=
  let base := t.start / 1000000000 * rateHz st.rate
  let vals (x : Rec) (q : SlotSt) : List (Nat × Int × Nat) :=
    (x.chans.zipIdx.filter fun c => c.1.1 == n).map fun c =>
      let m := q.marks.getD c.1.2 1
      (c.2, (if tbit m 0 then 0 else (q.samples.getD c.1.2 (0, 0)).1, m))
  let add (x : Rec) (w : Tbl (List (Nat × Int × Nat))) (q : SlotSt) : Tbl (List (Nat × Int × Nat)) :=
    let j := base + q.slot
    if j < x.nextRow then w else put w j (lookD w j [] ++ vals x q)
  let take (x : Rec) : Rec := { x with wait := t.slots.foldl (add x) x.wait }
  let off (x : Rec) : Bool := x.en == .off || x.rate != st.rate || !(x.chans.any fun c => c.1 == n)
  { s with acq := { s.acq with recs := s.acq.recs.map fun e => if off e.2 then e else (e.1, take e.2) } }

/-- Cycle entries of a channel reach the recorders (R405). -/
def acqCycles (stream ch : Nat) (l : List Cyc) (s : State) : State :=
  if l.isEmpty then s
  else
    let mine (x : Rec) : List Cyc :=
      (x.chans.zipIdx.filter fun c => c.1 == (stream, ch)).flatMap fun c => l.map fun y => { y with ch := c.2 }
    let add (x : Rec) : Rec :=
      { x with histCyc := x.histCyc ++ mine x, cur := x.cur.map fun r => { r with cycs := r.cycs ++ mine x } }
    { s with acq := { s.acq with recs := s.acq.recs.map fun e => if e.2.en == .off then e else (e.1, add e.2) } }

/-- A source switch marks the open records of its stream (R408). -/
def markSwitch (stream : Nat) (s : State) : State :=
  let mark (x : Rec) (r : Record) : Record :=
    addMark { type := 5, ofs := relSlot (rateHz x.rate) x.nextRow r - r.j0, value := stream } r
  let hit (x : Rec) : Bool := x.cap == .capturing && x.chans.any fun c => c.1 == stream
  let marked (x : Rec) : Rec := { x with cur := x.cur.map (mark x) }
  { s with acq := { s.acq with recs := s.acq.recs.map fun e => if hit e.2 then (e.1, marked e.2) else e } }

/-- The rows of the old time line that have not formed: those of the slots that lie before its end, and of any that
came (R408). -/
def rowsLeft (x : Rec) (s : State) : Nat :=
  let last := match x.wait.getLast? with
    | some e => e.1 + 1
    | none => 0
  max last (if s.sv.oldEnd = 0 then 0 else slotAfter (rateHz x.rate) (s.sv.oldEnd - 1)) - x.nextRow

/-- A recorder passes to a new time line whose first slot is `first` (R408). -/
def recRephase (first : Nat → Nat) (n : Nat) (s : State) : State :=
  let x0 := recOf n s
  if x0.en == .off then s
  else
    let s1 := formRows n (rowsLeft x0 s) s
    let x := recOf n s1
    let y := { x with hist := [], histCyc := [], wait := [], nextRow := first (rateHz x.rate) }
    match x.cap, x.cur with
    | .capturing, some r =>
      let j := relSlot (rateHz x.rate) x.nextRow r - 1
      let r1 := addMark { type := 6, ofs := j - r.j0, value := 0 } { r with jEnd := j, flags := r.flags ||| 16 }
      latchRec n 4 (reblind n (setRec n { y with cap := .closing, cur := some r1 } s1))
    | .closing, some r => setRec n { y with cur := some { r with rephased := true } } s1
    | _, _ => setRec n { y with detLog := [] } s1

/-- `recRephase` for each recorder. -/
def recsRephase (first : Nat → Nat) : List Nat → State → State
  | [], s => s
  | n :: ns, s => recsRephase first ns (recRephase first n s)

/-! ### Measurements (R409, R410) -/

/-- A slot's exact instant, times f_s × 2¹⁶ (R399). -/
def recInst (fs : Nat) (r : Record) (j : Int) : Int := ((r.second * fs : Nat) + j * 1000000000) * 65536

/-- The difference of two such instants in whole ns. -/
def nsBetween (fs : Nat) (a b : Int) : Nat := (roundDiv (b - a) (fs * 65536)).toNat

/-- The detector changes within a record (R409). -/
def changesIn (fs : Nat) (r : Record) (l : List DetLog) : List DetLog :=
  l.filter fun d => decide (recInst fs r r.j0 ≤ (d.time * fs : Nat)) && decide (((d.time * fs : Nat) : Int) ≤ recInst fs r r.jEnd)

/-- The earlier of two changes; ties go to the lowest channel and detector (R409). -/
def firstDet (a b : DetLog) : DetLog :=
  if b.time < a.time || (b.time == a.time && (b.ch < a.ch || (b.ch == a.ch && b.det < a.det))) then b else a

/-- The first change of a list. -/
def firstChange (l : List DetLog) : Option DetLog :=
  match l with
  | [] => none
  | d :: ds => some (ds.foldl firstDet d)

/-- Whole ns of a time in 2⁻¹⁶ ns (R364). -/
def roundNs (t : Nat) : Nat := (roundDiv t 65536).toNat

/-- `FAULT_NS`, `FAULT_OPEN` (R409). -/
def faultOf (fs : Nat) (r : Record) : Nat × Bool :=
  if 4 ≤ r.trigType then (0, false)
  else match r.faultAt with
    | some t =>
      if ((t * fs : Nat) : Int) ≤ recInst fs r r.jEnd then (roundNs (t - r.trigTime), false)
      else (nsBetween fs (r.trigTime * fs : Nat) (recInst fs r r.jEnd), true)
    | none => (nsBetween fs (r.trigTime * fs : Nat) (recInst fs r r.jEnd), true)

/-- Detector `d` of a channel was picked up at instant `t`: by the last change up to it, else by the
next, else as `now` it stands. -/
def upAt (fs : Nat) (l : List DetLog) (t : Int) (now : Bool) : Bool :=
  match (l.filter fun d => decide (((d.time * fs : Nat) : Int) ≤ t)).getLast? with
  | some d => d.up
  | none => match l with
    | d :: _ => !d.up
    | [] => now

/-- The state of detector `d` of a channel. -/
def detNow (e : Nat × Nat) (d : Nat) (s : State) : Bool :=
  match look s.sv.streams e.1 with
  | some st => (lookD (lookD st.chans e.2 {}).dets d {}).state
  | none => false

/-- `FD_VALID`, `FD_START`, `FD_OPEN` and `FD_NS` (R410). -/
def fdOf (fs : Nat) (r : Record) (l : List DetLog) (now : Bool) : Bool × Bool × Bool × Nat :=
  let a := recInst fs r r.j0
  let b := recInst fs r r.jEnd
  let start := upAt fs l a now
  let stop := upAt fs l b now
  let inside := l.filter fun d => decide (a < (d.time * fs : Nat)) && decide (((d.time * fs : Nat) : Int) ≤ b)
  let t0 := if start then some a else (inside.find? fun d => d.up).map fun d => ((d.time * fs : Nat) : Int)
  match t0 with
  | none => (false, false, false, 0)
  | some x =>
    let t1 := match inside.find? fun d => !d.up && decide (x < (d.time * fs : Nat)) with
      | some d => ((d.time * fs : Nat) : Int)
      | none => b
    (true, start, stop, nsBetween fs x t1)

/-- The last of a list of cycle entries that satisfies a condition. -/
def lastCyc (l : List Cyc) (p : Cyc → Bool) : Option Cyc := (l.filter p).getLast?

/-- The measurement entry of channel `c` (R410). -/
def measBytes (x : Rec) (r : Record) (cycs : List Cyc) (c : (Nat × Nat) × Nat) (s : State) : Bytes :=
  let fs := rateHz x.rate
  let peak := r.peaks.getD c.2 none
  let mine := cycs.filter fun y => y.ch == c.2
  let pre := lastCyc mine fun y => y.time * 65536 ≤ r.trigTime
  let top := mine.foldl (fun (a : Option Cyc) y => match a with
    | none => some y
    | some z => if z.rms < y.rms then some y else a) none
  let log := x.detLog.filter fun d => d.ch == c.2
  let fd := if x.fdet < 4 then fdOf fs r (log.filter fun d => d.det == x.fdet) (detNow c.1 x.fdet s) else (false, false, false, 0)
  let xi := firstChange (changesIn fs r log)
  let w0 := b2n peak.isSome + 2 * b2n (!mine.isEmpty) + 4 * b2n fd.1 + 8 * b2n fd.2.1 + 16 * b2n fd.2.2.1 +
    32 * b2n xi.isSome + (match xi with
      | some d => 2 ^ 8 * d.det + 2 ^ 10 * b2n (!d.up)
      | none => 0)
  padTo 64 (toLe 4 w0 ++ toLe 4 (unsigned 32 ((peak.map Prod.fst).getD 0)) ++ toLe 4 ((peak.map Prod.snd).getD 0) ++
    toLe 4 ((pre.map fun y => y.rms).getD 0) ++ toLe 4 ((top.map fun y => y.rms).getD 0) ++
    toLe 4 ((pre.map fun y => y.freq).getD 0) ++ toLe 8 ((top.map fun y => y.time).getD 0) ++ toLe 8 fd.2.2.2 ++
    toLe 8 ((xi.map fun d => roundNs d.time).getD 0))

/-! ### The export form (R411, R412) -/

/-- A raw row (R403). -/
def rowForm (x : Rec) (r : Record) (row : Row) : Bytes :=
  let words := (x.nch + 7) / 8
  let mark (w : Nat) : Nat :=
    ((List.range 8).map fun i => (row.vals.getD (8 * w + i) (0, 0)).2 % 16 * 2 ^ (4 * i)).foldl (· + ·) 0
  padTo (rowBytes x.nch) (toLe 4 (unsigned 32 (relSlot (rateHz x.rate) row.slot r - r.j0)) ++ toLe 4 row.bins ++
    (row.vals.flatMap fun v => toLe 4 (unsigned 32 v.1)) ++ (List.range words).flatMap fun w => toLe 4 (mark w))

/-- An envelope block (R404). -/
def envForm (e : EnvBlk) : Bytes :=
  toLe 4 e.ofs ++ toLe 4 0 ++ e.pairs.flatMap fun p => toLe 4 (unsigned 32 p.1) ++ toLe 4 (unsigned 32 p.2)

/-- A cycle entry (R405). -/
def cycForm (c : Cyc) : Bytes :=
  toLe 4 (c.ch + 2 ^ 16 * c.flags) ++ toLe 4 c.freq ++ toLe 8 c.time ++ toLe 4 c.rms ++ toLe 4 (unsigned 32 c.re) ++
    toLe 4 (unsigned 32 c.im) ++ toLe 4 0

/-- A marker (R412). -/
def markForm (m : Marker) : Bytes := toLe 4 m.type ++ toLe 4 (unsigned 32 m.ofs) ++ toLe 8 (unsigned 64 m.value)

/-- Entry `c` takes its place by `TIME`, and by `CH` on a tie (R405). -/
def insertCyc (c : Cyc) : List Cyc → List Cyc
  | [] => [c]
  | d :: ds => if c.time < d.time || (c.time == d.time && c.ch < d.ch) then c :: d :: ds else d :: insertCyc c ds

/-- The cycle entries from t(j_0) to t(j_end), in order (R405). -/
def cycsOf (fs : Nat) (r : Record) : List Cyc :=
  (r.cycs.filter fun c => decide (recInst fs r r.j0 ≤ (c.time * fs * 65536 : Nat)) &&
    decide (((c.time * fs * 65536 : Nat) : Int) ≤ recInst fs r r.jEnd)).foldl (fun l c => insertCyc c l) []

/-- The export form of a record that is stored with `osn` (R411, R412). -/
def exportForm (n : Nat) (x : Rec) (r : Record) (osn : Nat) (s : State) : Bytes :=
  let fs := rateHz x.rate
  let cycs := cycsOf fs r
  let table := (List.zip x.chans r.enAtOpen).flatMap fun c => toLe 4 (c.1.1 + 2 ^ 12 * c.1.2) ++ toLe 4 (b2n c.2)
  let meas := x.chans.zipIdx.flatMap fun c => measBytes x r cycs c s
  let marks := r.marks.flatMap markForm
  let rows := r.rows.flatMap (rowForm x r)
  let env := r.env.flatMap envForm
  let cyc := cycs.flatMap cycForm
  let o1 := 256 + up64 table.length
  let o2 := o1 + up64 meas.length
  let o3 := o2 + up64 marks.length
  let o4 := o3 + up64 rows.length
  let o5 := o4 + up64 env.length
  let fault := faultOf fs r
  let xi := firstChange (changesIn fs r x.detLog)
  let w4 (l : List Nat) : Bytes := l.flatMap (toLe 4)
  let head := w4 [0x4F544B52, 1 + 2 ^ 16 * n + 2 ^ 20 * x.rate, r.num, x.nch + 2 ^ 16 * x.envN,
      r.flags + 2 * b2n fault.2, r.ladder + 2 ^ 8 * r.marks.length, 256, o1, o2, o3, o4, o5, o5 + cyc.length,
      r.rows.length, r.env.length, cycs.length] ++
    toLe 8 r.second ++ w4 [unsigned 32 r.j0, unsigned 32 (r.jEnd - r.j0 + 1), unsigned 32 (r.jT - r.j0),
      r.phi + 2 ^ 8 * r.trigEntry + 2 ^ 12 * r.trigGroup + 2 ^ 16 * r.trigType] ++
    toLe 8 (r.trigTime / 65536) ++ w4 [r.trigTime % 65536, r.lostTrig] ++ toLe 8 r.deadNs ++ toLe 8 fault.1 ++
    w4 [match xi with
      | some d => d.ch + 2 ^ 12 * d.det + 2 ^ 14 * b2n (!d.up) + 2 ^ 15
      | none => 0, 0] ++
    toLe 8 ((xi.map fun d => roundNs d.time).getD 0) ++ toLe 8 r.openOsn ++ toLe 8 osn ++ toLe 8 Config.serial.toNat
  padTo 256 head ++ pad64 table ++ pad64 meas ++ pad64 marks ++ pad64 rows ++ pad64 env ++ cyc

/-- Channel `e` has passed t(j_end) or restarted since (R407). A channel whose stream is OFF makes no more
samples. -/
def chanPast (fs : Nat) (r : Record) (e : Nat × Nat) (s : State) : Bool :=
  match look s.sv.streams e.1 with
  | none => true
  | some st =>
    let c := lookD st.chans e.2 {}
    st.en == .off || !c.en || (c.r != 0 && decide (recInst fs r r.jEnd < (wholeNs (rateHz st.rate) c.tau * fs * 65536 : Nat))) ||
      decide (recInst fs r r.jEnd < (c.restartNs * fs * 65536 : Nat))

/-- A CLOSING record may be stored (R407); after a step that ends the record, or meets it CLOSING, every channel has
restarted (R378, R408). -/
def recDone (x : Rec) (r : Record) (s : State) : Bool :=
  x.cap == .closing && (tbit r.flags 4 || r.rephased || x.chans.all fun e => chanPast (rateHz x.rate) r e s)

/-- The record is stored (R407): event 0702h, the status line, wakes of type 5, and WAITING or OFF. -/
def storeRecord (n : Nat) (r : Record) (s : State) : State :=
  let x := recOf n s
  let osn := nextOsn s
  let rec' : SRec := { num := r.num, data := exportForm n x r osn s }
  let stop := x.en == .stopping
  let y := { x with
    cap := .waiting, cur := none, stored := x.stored ++ [rec'], freeB := x.freeB + r.commit - recSize rec'
    lastStored := r.num, lastOsn := osn
    en := if stop then .off else x.en }
  reblind n (fireBinds 5 (fun w => w % 16 == n) (countRec n 0 1 (acqEvent 0x0702 n (acqAsk n (setRec n y s)))))

end Sys2Proof.Machine
end

