-- ==== Sys2Proof/Machine/Streams.lean ====
section
/-! DEFINITION. Sampled-value streams: subscription, decoding, alignment, ticks and their close, delivery,
source switching and re-phasing (R331 to R347), with the filter chain's work on each slot (R363). -/

namespace Sys2Proof.Machine

open Sys2Proof

/-- Stream `n`. -/
def strmOf (n : Nat) (s : State) : Strm := lookD s.sv.streams n {}

/-- Set stream `n`. -/
def setStrm (n : Nat) (x : Strm) (s : State) : State :=
  { s with sv := { s.sv with streams := put s.sv.streams n x } }

/-- Counter `i` of a stream's bank: `FRAMES`, `ASDU_USED`, `STANDBY_RX`, `AUTH_REJ`, `SIM_REJ`, `BAD_FORMAT`,
`ID_MISMATCH`, `LATE`, `DUP`, `MISSING`, `SYNC_LOW`, `TS_SUBST`, `SWITCHES`, `DEST_SKIP` (R358). -/
def countSv (n i k : Nat) (s : State) : State := { s with sv := { s.sv with cnt := bumpBy s.sv.cnt (n * 14 + i) k } }

/-- Set a bit of `SV_EVT` (R361). -/
def latchSv (bit n : Nat) (s : State) : State :=
  { noteSet 0x1308 bit s with sv := { s.sv with evt := latch s.sv.evt bit, lastIndex := n } }

/-- A stream event (R357). -/
def svEvent (code n : Nat) (s : State) : State := raise { src := 4, code := code, kind := 3, index := n } s

/-- A table without the keys of an instance's bank of `w` counters. -/
def clearBank (t : Tbl Nat) (n w : Nat) : Tbl Nat := t.filter fun e => e.1 < n * w || n * w + w ≤ e.1

/-! ### Destinations (R333, R342, R349) -/

/-- The destination of six words from word `w` of a block, if it is `VALID`. -/
def destAt (b : Bytes) (w : Nat) : Option Dest :=
  if tbit (wordAt b w) 8 then
    some { part := wordAt b w % 256, area := dwordAt b (w + 2), ready := dwordAt b (w + 4) }
  else none

/-- The four destinations from word `w`. -/
def destsAt (b : Bytes) (w : Nat) : List Dest := (List.range 4).filterMap fun i => destAt b (w + 6 * i)

/-- Reserved bits of the four destinations are 0. -/
def destsClean (b : Bytes) (w : Nat) : Bool :=
  (List.range 4).all fun i => decide (wordAt b (w + 6 * i) < 512) && wordAt b (w + 6 * i + 1) == 0

/-- Alignment, ready lines outside the areas, and distinct partitions; `size` is that of an area. -/
def destsShape (l : List Dest) (size : Nat) : Bool :=
  !l.isEmpty &&
    (l.all fun d => d.area % 64 == 0 && d.ready % 64 == 0 && (decide (d.area + size ≤ d.ready) || decide (d.ready + 64 ≤ d.area))) &&
    decide ((l.map fun d => d.part).Nodup)

/-- Every page of `n` bytes from `iova` is mapped. -/
def rangeMapped (x : Part) (iova n : Nat) : Bool :=
  (List.range ((iova % 4096 + n + 4095) / 4096)).all fun i => isMapped x ((iova / 4096 + i) * 4096)

/-- The partitions exist, and then the pages are mapped (R146, R333). -/
def destsHeld (l : List Dest) (size : Nat) (s : State) : List (Bool × Nat) :=
  [(l.all fun d => partExists d.part s, stNotFound),
   (l.all fun d => match partOf d.part s with
      | some x => rangeMapped x d.area size && rangeMapped x d.ready 64
      | none => false, stBadArg)]

/-- D of a `DEPTH` (R333). -/
def depthOf (code : Nat) : Nat := 2 ^ (code + 1)

/-- The bytes of a stream's record (R342). -/
def recordLen (x : Strm) : Nat := 64 + x.channels * if x.reclen then 256 else 128

/-- The 64 bytes of a ready line (R345). -/
def readyBytes (rseq time osn : Nat) : Bytes :=
  padTo 64 (toLe 4 (rseq % 2 ^ 32) ++ toLe 4 0 ++ toLe 8 time ++ toLe 8 osn)

/-- The partition of a destination is MIGRATING (R347). -/
def destSkips (d : Dest) (s : State) : Bool := stateOf d.part s == some .migrating

/-- Delivery `rseq` + 1 to one destination: its record at its place in the area; `SEQ` is its first word
(R342, R346). `LAST_ARR` or `ARR`, words 6 and 7, is module-local (R475). -/
def deliverRec (depth len : Nat) (body : Bytes) (d : Dest) (s : State) : State :=
  let at_ := d.area + d.rseq % depth * len
  deliver d.part at_ (toLe 4 ((d.rseq + 1) % 2 ^ 32) ++ body) (noteLocal d.part (at_ + 24) 8 s)

/-- The ready line of one destination after the advance (R345). -/
def deliverReady (time osn : Nat) (d : Dest) (s : State) : State :=
  visWrite d.part d.ready (readyBytes (d.rseq + 1) time osn) (noteLocal d.part (d.ready + 8) 16 s)

/-- A delivery among the inputs of its partition: `LAST_ARR` or `ARR`, words 6 and 7, and the OSN and `TIME` of the
ready line count as zero (R343, R345, R351, R475). -/
def noteDelivery (kind obj : Nat) (body : Bytes) (d : Dest) (s : State) : State :=
  noteInput d.part kind obj (d.rseq + 1)
    (toLe 4 ((d.rseq + 1) % 2 ^ 32) ++ patch body 20 (List.replicate 8 0) ++ readyBytes (d.rseq + 1) 0 0) s

/-- Write to each destination of a list. -/
def eachDest (f : Dest → State → State) : List Dest → State → State
  | [], s => s
  | d :: ds, s => eachDest f ds (f d s)

/-- The destinations after a delivery. -/
def destsAfter (l : List Dest) (s : State) : List Dest := l.map fun d => if destSkips d s then d else { d with rseq := d.rseq + 1 }

/-- A delivery to every destination: the records, the advance with its OSN, the ready lines (R21, R345,
R346). A MIGRATING partition's is skipped (R347). -/
def deliverAll (l : List Dest) (depth len time kind index : Nat) (body : Bytes) (s : State) : State :=
  let live := l.filter fun d => !destSkips d s
  let noted := eachDest (noteDelivery (if kind = 3 then 0 else 1) index body) live s
  let s1 := eachDest (deliverRec depth len body) live noted
  let osn := nextOsn s1
  eachDest (deliverReady time osn) live (recordOnly { src := 4, code := 0, kind := kind, index := index } s1)

/-! ### SV_SUBSCRIBE, SV_REMOVE (R333, R335, R347) -/

/-- Source `i` of the block. -/
def sourceAt (b : Bytes) (i : Nat) : SvSrc :=
  let w := 4 + 20 * i
  { appid := wordAt b w % 65536, valid := tbit (wordAt b w) 16, confRev := wordAt b (w + 1)
    smpRate := wordAt b (w + 2) % 65536, smpMod := bits (wordAt b (w + 2)) 23 16
    svId := (b.drop (16 + 80 * i + 16)).take (bits (wordAt b w) 31 24) }

/-- Octets of a string beyond its length are 0 (R333, R349). -/
def zeroBeyond (b : Bytes) (at_ len : Nat) : Bool := ((b.drop (at_ + len)).take (64 - len)).all fun o => o == 0

/-- A source's reserved bits, and where it is `VALID` its length and string (R333). -/
def sourceOk (b : Bytes) (i : Nat) : Bool :=
  let w := 4 + 20 * i
  let len := bits (wordAt b w) 31 24
  wordAt b w &&& 0x00FE0000 == 0 && decide (wordAt b (w + 2) < 2 ^ 24) && wordAt b (w + 3) == 0 &&
    (!tbit (wordAt b w) 16 || (decide (1 ≤ len) && decide (len ≤ 64) && zeroBeyond b (16 + 80 * i + 16) len))

/-- The stream of a block (R333). -/
def streamAt (b : Bytes) : Strm :=
  let w0 := wordAt b 0
  let w2 := wordAt b 2
  { channels := w0 % 32, noasdu := bits w0 11 8, rate := bits w0 14 12, reclen := tbit w0 16, sim := tbit w0 17
    authReq := tbit w0 18, chkRate := tbit w0 19, syncMin := bits w0 21 20, reorder := bits w0 25 24
    hold := wordAt b 1, lossN := w2 % 256, autoN := bits w2 15 8, depth := bits w2 17 16, srcInit := bits w2 24 24
    srcs := [sourceAt b 0, sourceAt b 1], dests := destsAt b 44 }

/-- The ranges and reserved bits of words 0 to 3 (R333). -/
def streamRanges (b : Bytes) : Bool :=
  let x := streamAt b
  wordAt b 0 &&& 0xFCC080E0 == 0 && wordAt b 2 &&& 0xFEFC0000 == 0 && wordAt b 3 == 0 &&
    decide (1 ≤ x.channels) && decide (x.channels ≤ 24) && decide (1 ≤ x.noasdu) && decide (x.noasdu ≤ 8) &&
    decide (x.rate ≤ 4) && decide (x.syncMin ≤ 2) && decide (x.hold ≤ 500000) && decide (1 ≤ x.lossN)

/-- `SV_LOAD_ASDU` (R335, R359). -/
def asduLoad (s : State) : Nat := (s.sv.streams.map fun e => rateHz e.2.rate).foldl (· + ·) 0

/-- `SV_LOAD_CHS` (R335, R360). -/
def chsLoad (s : State) : Nat := (s.sv.streams.map fun e => rateHz e.2.rate * e.2.channels).foldl (· + ·) 0

/-- `SV_SUBSCRIBE` (R333, R335). -/
def judgeSvSubscribe (c : Cmd) (s : State) : Nat :=
  let b := c.block
  let x := streamAt b
  let size := depthOf x.depth * recordLen x
  judged c s ([(inputBlock c 272 s && streamRanges b && sourceOk b 0 && sourceOk b 1 && destsClean b 44 &&
      (x.srcs.any fun q => q.valid) && (x.srcs.getD x.srcInit {}).valid && destsShape x.dests size, stBadArg)] ++
    destsHeld x.dests size s ++
    [(decide (s.sv.streams.length < 4096) && decide (asduLoad s + rateHz x.rate ≤ 19660800) &&
      decide (chsLoad s + rateHz x.rate * x.channels ≤ 160000000), stNoResource)])

/-- The stream takes the lowest free number; its counters restart (R333, R358). -/
def effSvSubscribe (c : Cmd) (s : State) : Res :=
  let n := lowestFree s.sv.streams 0
  resOk (setStrm n (streamAt c.block) { s with sv := { s.sv with cnt := clearBank s.sv.cnt n 14 } }) n

/-- SV_SUBSCRIBE (R333). -/
def execSvSubscribe (c : Cmd) (s : State) : Out := runNow 0x0301 judgeSvSubscribe effSvSubscribe c s

/-- The checks of a row that names a stream. -/
def streamArg (c : Cmd) (s : State) : List (Bool × Nat) :=
  [(decide (arg0 c.desc < 4096) && noBlock c, stBadArg), ((look s.sv.streams (arg0 c.desc)).isSome, stNotFound)]

/-! ### SV_ENABLE, SV_DISABLE, SV_SOURCE (R338, R341, R369) -/

/-- The leader of a follower is valid: `EN` 1 and `TRACK` 1 (R369). -/
def leaderValid (l : Tbl FCh) (c : FCh) : Bool :=
  let d := lookD l c.trkCh {}
  c.track == 2 && d.en && d.track == 1

/-- A restart that no slot of a tick caused: no record shows it as `RESTART` (R378, R381). -/
def restartQuiet (now : Nat) (c : FCh) : FCh := { restartCh now c with restarted := false }

/-- The channels at the enable of their stream: nominal F and a restart (R377, R378). -/
def startChans (now : Nat) (l : Tbl FCh) : Tbl FCh :=
  l.map fun e => (e.1, { restartQuiet now e.2 with
    freq := nominalF e.2, leaderOk := leaderValid l e.2, sat := false, hold := false, made := false, detChg := 0 })

/-- Every channel restarts at a source switch, with nominal F (R377, R378). -/
def restartAll (at_ : Nat) (x : Strm) : Strm :=
  { x with chans := x.chans.map fun e => (e.1, { restartCh at_ e.2 with freq := nominalF e.2 }) }

/-- A stream becomes ON: its first delivered tick is the first that starts after the enable (R338). -/
def startStrm (x : Strm) (s : State) : Strm :=
  { x with
    en := .on, held := false, active := x.srcInit, prev := x.srcInit, firstTick := comingTick s
    nextTick := comingTick s, ticks := [], loss := 0, lost := false, noAct := 0, stby := [], lastClosed := none
    switchTick := 0, swDue := false, older := [], evs := [], chans := startChans (lineNow s) x.chans }

def judgeSvEnable (c : Cmd) (s : State) : Nat := judged c s (streamArg c s)

def effSvEnable (c : Cmd) (s : State) : Res :=
  let n := arg0 c.desc
  let x := strmOf n s
  let r := enableRule x.en x.held
  res (if x.en == .off then levelChange 0 0 false (setStrm n (startStrm x s) s)
       else setStrm n { x with en := r.1, held := r.2.1 } s) r.2.2

/-- SV_ENABLE (R149, R338). -/
def execSvEnable (c : Cmd) (s : State) : Out := runNow 0x0302 judgeSvEnable effSvEnable c s

def judgeSvDisable (c : Cmd) (s : State) : Nat := judged c s (streamArg c s)

def effSvDisable (c : Cmd) (s : State) : Res :=
  let x := strmOf (arg0 c.desc) s
  let r := disableRule x.en x.held
  res (setStrm (arg0 c.desc) { x with en := r.1, held := r.2 } s) stOk

/-- SV_DISABLE (R149, R338). -/
def execSvDisable (c : Cmd) (s : State) : Out := runNow 0x0303 judgeSvDisable effSvDisable c s

/-- A STOPPING stream may reach OFF: every tick that holds a present slot has closed (R150, R338). -/
def streamStops (n : Nat) (s : State) : Bool :=
  let x := strmOf n s
  x.en == .stopping && !(x.ticks.any fun t => t.rephase.isSome || t.slots.any fun q => q.present)

/-- A STOPPING stream reaches OFF (R149). -/
def stopStream (n : Nat) (s : State) : State :=
  let x := strmOf n s
  let off := { x with en := .off, held := false, ticks := [], evs := [], lost := false }
  let s1 := { s with flt := { s.flt with work := s.flt.work.filter fun w => w.stream != n } }
  levelChange 0 0 false (offEvents 3 n x.held (setStrm n (if x.held then startStrm off s else off) s1))

def judgeSvRemove (c : Cmd) (s : State) : Nat :=
  judged c s (streamArg c s ++ [((strmOf (arg0 c.desc) s).en == .off, stWrongState)])

/-- The stream goes, with an event for each destination (R347). -/
def effSvRemove (c : Cmd) (s : State) : Res :=
  let n := arg0 c.desc
  let k := (strmOf n s).dests.length
  res (destsGone false (List.replicate k n) { s with sv := { s.sv with streams := del s.sv.streams n } }) stOk

/-- SV_REMOVE (R347). -/
def execSvRemove (c : Cmd) (s : State) : Out := runNow 0x0304 judgeSvRemove effSvRemove c s

/-- `SV_SOURCE` (R146, R159): a source that the stream holds with `VALID` 1, judged at step 5. -/
def judgeSvSource (c : Cmd) (s : State) : Nat :=
  let x := strmOf (arg0 c.desc) s
  judged c s ([(decide (arg0 c.desc < 4096) && decide (arg1 c.desc < 2) && noBlock c, stBadArg),
    ((look s.sv.streams (arg0 c.desc)).isSome, stNotFound), ((x.srcs.getD (arg1 c.desc) {}).valid, stBadArg),
    (x.en == .on, stWrongState)])

/-- The active source changes with the tick that the boundary begins: event 0303h, counter, and a marker in
open records (R341, R408). Where slots of that tick have already passed the filter chain its channels restart at once
(R378). -/
def switchSource (n src : Nat) (s : State) : State :=
  let x := strmOf n s
  if x.active = src then s
  else
    let k := comingTick s
    let old := ((x.switchTick, x.prev, x.swDue) :: x.older).filter fun e => decide (x.nextTick ≤ e.1)
    let z := { x with
      prev := x.active, active := src, switchTick := k, swDue := true, older := old, noAct := 0, stby := [] }
    let y := match x.ticks.find? fun t => t.rephase.isNone && t.k == k && t.slots.any fun q => q.filtered with
      | some t => restartAll t.start z
      | none => z
    markSwitch n (svEvent 0x0303 n (latchSv 3 n (countSv n 12 1 (setStrm n y s))))

/-- The switch at its boundary (R341). -/
def effSvSource (c : Cmd) (s : State) : Res :=
  res (if (strmOf (arg0 c.desc) s).en == .on then switchSource (arg0 c.desc) (arg1 c.desc) s else s) stOk

/-- SV_SOURCE (R341): waits for its tick boundary. -/
def execSvSource (c : Cmd) (s : State) : Out := runAtTick 0x0305 judgeSvSource c s

/-- A waiting `SV_SOURCE` of stream `n` takes effect at the boundary that has come (R153, R341). -/
def sourceCommand (n : Nat) (s : State) : Bool :=
  match s.hw.tWait with
  | some (c, t) => opOf c.desc == 0x0305 && arg0 c.desc == n && decide (t + 20000 ≤ s.clk.now)
  | none => false

/-- AUTOMATIC_SOURCE_SWITCH (R341): at the instant of the next boundary; a command's choice stands. -/
def execAutomaticSourceSwitch (stream : Nat) (s : State) : Out :=
  named (decide (stream < 4096))
    (let x := strmOf stream s
     let other := 1 - x.active
     act (x.en == .on && x.autoN != 0 && decide (x.autoN ≤ x.noAct) && (x.srcs.getD other {}).valid &&
         (match x.lastClosed with
          | some k => x.stby.contains k
          | none => false) &&
         decide (s.cnp.tickEnd ≤ lineNow s) && !sourceCommand stream s) s
       (switchSource stream other s))

/-! ### Ticks and slots (R336, R337) -/

/-- Tick `k` of a stream of rate `fs`, at base rate `f`; a second's last tick without a slot begins at slot f_s (R336). -/
def newTickOf (fs f k : Nat) : OpenTick :=
  let j := firstSlotOf fs f k
  { k := k, start := tickAbsStart f k, first := j - k / f * fs
    slots := (List.range (firstSlotOf fs f (k + 1) - j)).map fun i => { slot := j % fs + i } }

/-- The ticks of a stream up to tick `k`, each opened if it is not. -/
def extendTicks (f k : Nat) (x : Strm) : Strm :=
  let lo := (x.ticks.filter fun t => t.rephase.isNone).foldl (fun m t => max m (t.k + 1)) x.nextTick
  { x with ticks := x.ticks ++ (List.range (k + 1 - lo)).map fun i => newTickOf (rateHz x.rate) f (lo + i) }

/-- The tick that a boundary begins opens in every stream that is ON or STOPPING (R338). -/
def openTicks (s : State) : State :=
  let f := baseRate s.cnp.rate
  let k := tickAbs f s.cnp.tickStart
  { s with sv := { s.sv with streams := s.sv.streams.map fun e =>
      if e.2.en == .off || k < e.2.firstTick then e else (e.1, extendTicks f k e.2) } }

/-- A slot's number on the time line. -/
def slotAbs (fs : Nat) (t : OpenTick) (q : SlotSt) : Nat := t.start / 1000000000 * fs + q.slot

/-- The latest slot of the present time line that holds a sample. -/
def lastSample (fs : Nat) (l : List OpenTick) : Nat :=
  (l.filter fun t => t.rephase.isNone).foldl (fun m t => t.slots.foldl (fun m q => if q.present then max m (slotAbs fs t q) else m) m) 0

/-- The slots of one tick in order (R337): whether every slot so far is resolved, the slots, those that
pass, and how many are missing. `lim` is the latest slot with a sample; `dead` says that the deadline has
passed. -/
def passIn (fs reorder lim : Nat) (dead : Bool) (t : OpenTick) :
    Bool → List SlotSt → Bool × List SlotSt × List SlotSt × Nat
  | ok, [] => (ok, [], [], 0)
  | false, q :: qs => (false, q :: qs, [], 0)
  | true, q :: qs =>
    if q.passed then
      let r := passIn fs reorder lim dead t true qs
      (r.1, q :: r.2.1, r.2.2.1, r.2.2.2)
    else if q.present then
      let r := passIn fs reorder lim dead t true qs
      let p := { q with passed := true }
      (r.1, p :: r.2.1, p :: r.2.2.1, r.2.2.2)
    else if dead || slotAbs fs t q + reorder + 1 ≤ lim then
      let r := passIn fs reorder lim dead t true qs
      let p := { q with passed := true, missing := true }
      (r.1, p :: r.2.1, p :: r.2.2.1, r.2.2.2 + 1)
    else (false, q :: qs, [], 0)

/-- `passIn` over the ticks of a stream: `dead` by tick. -/
def passTicks (fs reorder lim : Nat) (dead : OpenTick → Bool) :
    Bool → List OpenTick → List OpenTick × List (OpenTick × SlotSt) × Nat
  | _, [] => ([], [], 0)
  | ok, t :: ts =>
    let a := passIn fs reorder lim (dead t) t ok t.slots
    let b := passTicks fs reorder lim dead a.1 ts
    ({ t with slots := a.2.1 } :: b.1, (a.2.2.1.map fun q => (t, q)) ++ b.2.1, a.2.2.2 + b.2.2)

/-- The coefficients of a set; the set after a reset is 8 taps of 16,384 (R366, R367). -/
def coeffOf (n : Nat) (s : State) : List Int := lookD s.flt.coeff n (List.replicate 4 16384)

/-- c of a channel of a stream (R386). -/
def chCost (x : Strm) (c : FCh) (s : State) : Nat :=
  costOf (2 * (coeffOf c.cset s).length) (rateK x.rate) (binsOf c).length (1 + detHarms c) (rateHz x.rate)
    (baseRate s.cnp.rate)

/-- The MAC operations of a slot: c of each enabled channel that is fed a value (R386). -/
def slotCost (x : Strm) (q : SlotSt) (s : State) : Nat :=
  if q.missing then 0
  else ((x.chans.filter fun e => e.2.en && !tbit (q.marks.getD e.1 0) 1).map fun e => chCost x e.2 s).foldl (· + ·) 0

/-- Slots join the filter chain's queue: `PEAK` and the allowance of R39 (R363, R388, R389). -/
def queueWork (l : List Work) (n : Nat) (s : State) : State :=
  if l.isEmpty then s
  else
    let work := s.flt.work ++ l
    let sum : Nat := (work.map fun w => w.cost).foldl (· + ·) 0
    let full := decide (460800 < sum)
    { (if full then noteSet 0x1408 1 s else s) with flt := { s.flt with
        work := work
        peak := max s.flt.peak (min sum 0xFFFFFF)
        evt := if full then latch s.flt.evt 1 else s.flt.evt
        lastStream := if full then n else s.flt.lastStream
        lastCh := if full then 0 else s.flt.lastCh } }

/-- Pass what may pass of stream `n`; unresolved slots of ticks that `dead` names become missing (R337,
R338). -/
def advance (n : Nat) (dead : OpenTick → Bool) (s : State) : State :=
  let x := strmOf n s
  let fs := rateHz x.rate
  let r := passTicks fs x.reorder (lastSample fs x.ticks) dead true x.ticks
  let work := r.2.1.map fun e =>
    ({ stream := n, tick := e.1.k, slot := e.2.slot, cost := slotCost x e.2 s } : Work)
  queueWork work n (countSv n 9 r.2.2 (setStrm n { x with ticks := r.1 } s))

/-! ### SV_FRAME_RX (R331, R332, R337, R339) -/

/-- a of R337, and whether it was substituted. -/
def arrivalOf (h : Held) (s : State) : Nat × Bool :=
  match h.info.ts with
  | some f => (lineAt s f, false)
  | none => (lineNow s - 2000, true)

/-- τ of R337 for `smpCnt` `j`; none before the start of the time line. -/
def nominalOf (fs a j : Nat) : Option Nat :=
  let t := a / 1000000000 * 1000000000 + j * 1000000000 / fs
  if t ≤ a + 250000 then some t else if 1000000000 ≤ t then some (t - 1000000000) else none

/-- smpSynch is below `SYNC_MIN` (R331). -/
def syncLow (x : Strm) (v : Nat) : Bool := x.syncMin != 0 && (decide (2 < v) || decide (v < x.syncMin))

/-- The marks of one value (R339): validity in bits [1:0] and test in bit 11 of the quality. -/
def marksOf (low fail : Bool) (q : Word) : Nat :=
  let v := q.toNat % 4
  2 * b2n (v == 1 || v == 2) + 4 * b2n (v == 3 || low || fail) + 8 * b2n (tbit q.toNat 11)

/-- Put a sample into its slot. -/
def fillSlot (k slot : Nat) (f : SlotSt → SlotSt) (l : List OpenTick) : List OpenTick :=
  l.map fun t => if t.rephase.isNone && t.k = k then
    { t with slots := t.slots.map fun q => if q.slot = slot then f q else q } else t

/-- The slot of tick `k` is already resolved (R337). -/
def slotTaken (k slot : Nat) (l : List OpenTick) : Bool :=
  l.any fun t => t.rephase.isNone && t.k == k && t.slots.any fun q => q.slot == slot && (q.present || q.missing)

/-- One ASDU of source `src` (R337). An ASDU of a tick in which the other source is active goes no further (R341). -/
def placeAsdu (n src : Nat) (h : Held) (d : Asdu) (s : State) : State :=
  let x := strmOf n s
  let fs := rateHz x.rate
  let f := baseRate s.cnp.rate
  let a := arrivalOf h s
  let s1 := if a.2 then countSv n 11 1 s else s
  match nominalOf fs a.1 d.smpCnt with
  | none => countSv n 7 1 s1
  | some tau =>
    let k := tickAbs f tau
    if sourceIn x k ≠ src then s
    else if k < x.nextTick then
      let s2 := countSv n 7 1 s1
      if k < x.firstTick then s2 else latchSv 0 n s2
    else
      let y := extendTicks f k x
      if slotTaken k d.smpCnt y.ticks then countSv n 8 1 (setStrm n y s1)
      else
        let low := syncLow x d.smpSynch
        let marks := d.samples.map fun v => marksOf low (h.info.verdict == 2) v.2
        let fill (q : SlotSt) : SlotSt := { q with present := true, samples := d.samples, marks := marks, arr := a.1 }
        let s2 := setStrm n { y with ticks := fillSlot k d.smpCnt fill y.ticks } s1
        advance n (fun _ => false) (countSv n 10 (b2n low) (countSv n 1 1 s2))

/-- Each ASDU in the order in which it appears (R332). -/
def placeAsdus (n src : Nat) (h : Held) : List Asdu → State → State
  | [], s => s
  | d :: ds, s => placeAsdus n src h ds (placeAsdu n src h d s)

/-- The identity of one ASDU (R332): its seqData holds 8 octets for each channel and no more. -/
def asduMatches (x : Strm) (q : SvSrc) (d : Asdu) : Bool :=
  d.svId == q.svId && d.confRev == q.confRev && d.samples.length == x.channels && d.rest == 0 &&
    (!x.chkRate || ((match d.smpRate with
        | some v => v == q.smpRate
        | none => true) &&
      (match d.smpMod with
        | some v => v == q.smpMod && q.smpMod != 255
        | none => true)))

/-- The sampled-value part of a frame. -/
def svOf (f : Frame) : SvApdu :=
  match f.body with
  | .sv a => a
  | _ => { wellFormed := false }

/-- An identity mismatch: its event at most once per second (R332). -/
def idMismatch (n : Nat) (s : State) : State :=
  let x := strmOf n s
  let recent := match x.idAt with
    | some t => decide (s.clk.frc < t + 1000000000)
    | none => false
  let s1 := latchSv 1 n (countSv n 6 1 s)
  if recent then s1 else svEvent 0x0304 n (setStrm n { x with idAt := some s.clk.frc } s1)

/-- `FLOW` names no stream that is ON with that source, or has another form (R332, R334). -/
def noSub (flow : Nat) (s : State) : State :=
  latchSv 4 (flow % 4096) { s with sv := { s.sv with noSub := (s.sv.noSub + 1) % 2 ^ 64 } }

/-- A frame whose first smpCnt names a tick in which the other source is active counts as standby and marks its source
present for that tick (R332 step 6). -/
def noteStandby (n src : Nat) (h : Held) (a : SvApdu) (s : State) : State :=
  let x := strmOf n s
  let tau := (a.asdus.head?.map fun d => d.smpCnt).bind (nominalOf (rateHz x.rate) (arrivalOf h s).1)
  match tau.map (tickAbs (baseRate s.cnp.rate)) with
  | some t => if sourceIn x t ≠ src then countSv n 2 1 (setStrm n { x with stby := x.stby ++ [t] } s) else s
  | none => s

/-- The ASDUs of a frame that passes the checks: those of ticks in which the source is active are aligned (R332, R341). -/
def useFrame (n src : Nat) (h : Held) (a : SvApdu) (s : State) : State :=
  placeAsdus n src h a.asdus (noteStandby n src h a s)

/-- The checks of R332 in order. -/
def takeSv (h : Held) (s : State) : State :=
  let flow := h.info.flow.toNat
  let n := flow % 4096
  let src := bits flow 12 12
  let x := strmOf n s
  let q := x.srcs.getD src {}
  let a := svOf h.frame
  if bits flow 31 30 ≠ 1 ∨ bits flow 29 13 ≠ 0 ∨ x.en ≠ .on ∨ !q.valid then noSub flow s
  else
    let s1 := countSv n 0 1 s
    if x.authReq && h.info.verdict != 1 then countSv n 3 1 s1
    else if a.sBit != x.sim then countSv n 4 1 s1
    else if !a.wellFormed || a.asdus.any fun d => decide (rateHz x.rate ≤ d.smpCnt) then countSv n 5 1 s1
    else if h.frame.appid != q.appid || a.asdus.length != x.noasdu || a.asdus.any fun d => !asduMatches x q d then
      idMismatch n s1
    else useFrame n src h a s1

/-- SV_FRAME_RX (R332, R334): the oldest frame of SE0, unless its `FLOW` says GOOSE. -/
def execSvFrameRx (s : State) : Out :=
  match s.sw.se0 with
  | [] => .next s
  | h :: rest =>
    act (bits h.info.flow.toNat 31 30 != 2) s (takeSv h { s with sw := { s.sw with se0 := rest } })

/-- SV_TICK_DEADLINE (R338): the start of tick k + 1 plus `HOLD` has come; slots of tick k that are still
unresolved become missing. -/
def execSvTickDeadline (stream tick : Nat) (s : State) : Out :=
  named (decide (stream < 4096))
    (let x := strmOf stream s
     act (x.en != .off && decide (tickAbsStart (baseRate s.cnp.rate) (tick + 1) + x.hold ≤ lineNow s) &&
         x.ticks.any fun t => t.k == tick) s
       (advance stream (fun t => t.rephase.isSome || decide (t.k ≤ tick)) s))

/-! ### FILTER_SLOT (R363, R374, R378) -/

/-- Bits of `FLT_EVT` for a channel: `SAT` and `FREQ_LIMIT` (R389). -/
def latchFlt (n ch : Nat) (sat lim : Bool) (s : State) : State :=
  if !sat && !lim then s
  else
    let e1 := if sat then latch s.flt.evt 0 else s.flt.evt
    let s1 := if sat then noteSet 0x1408 0 s else s
    { (if lim then noteSet 0x1408 2 s1 else s1) with flt := { s.flt with evt := if lim then latch e1 2 else e1, lastStream := n, lastCh := ch } }

/-- `latchFlt` for each channel that saturated. -/
def latchSats (n : Nat) : List Nat → State → State
  | [], s => s
  | c :: cs, s => latchSats n cs (latchFlt n c true false s)

/-- The record words of each channel as they stand (R374). -/
def wordsOf (x : Strm) : List (Nat × List Nat × Bool × FCh) :=
  (List.range x.channels).map fun c => (c, recordWords (rateHz x.rate) (lookD x.chans c {}))

/-- Take the outputs of the first tick that has none, which is `t`: its record shows the channels as they
stand now (R374, R381). A tick with no slot that carries `SWITCHED` restarts them first. -/
def snapTick (n : Nat) (t : OpenTick) (s : State) : State :=
  let x0 := strmOf n s
  let x := if t.slots.isEmpty && carriesSwitch x0 t then restartAll t.start x0 else x0
  let w := wordsOf x
  let snap := (w.map fun e => e.2.1, x.evs)
  let ticks := x.ticks.map fun u => if u.k = t.k ∧ u.rephase = t.rephase ∧ u.snap.isNone then { u with snap := some snap } else u
  let chans := x.chans.map fun e => (e.1, ((w.find? fun v => v.1 == e.1).map fun v => v.2.2.2).getD e.2)
  latchSats n ((w.filter fun e => e.2.2.1).map Prod.fst) (setStrm n { x with ticks := ticks, chans := chans, evs := [] } s)

/-- `snapTick` for each tick of a list. -/
def snapTicks (n : Nat) : List OpenTick → State → State
  | [], s => s
  | t :: ts, s => snapTicks n ts (snapTick n t s)

/-- The channels of a stream in the order of their work: leaders first (R363). -/
def chanOrder (x : Strm) : List Nat :=
  let on := (x.chans.filter fun e => e.2.en).map Prod.fst
  let leads := (x.chans.filter fun e => e.2.en && e.2.track == 2 && e.2.leaderOk).map fun e => e.2.trkCh
  (on.filter fun c => leads.contains c) ++ on.filter fun c => !leads.contains c

/-- One channel of a slot (R363). -/
def filterCh (n t : Nat) (q : SlotSt) (s : State) (ch : Nat) : State :=
  let x := strmOf n s
  let c := lookD x.chans ch {}
  let p : FPar := { stream := n, ch := ch, fs := rateHz x.rate, k := rateK x.rate, coeff := coeffOf c.cset s
                    leadF := (lookD x.chans c.trkCh {}).freq, free := Config.freeValue (s.free + ch) }
  let r := slotCh p t (q.samples.getD ch (0, 0)).1 (if q.missing then 1 else q.marks.getD ch 1) c
  let s1 := setStrm n { x with chans := put x.chans ch r.c, evs := x.evs ++ r.evs } s
  latchFlt n ch r.sat r.lim (acqCycles n ch r.cycs { s1 with acq := { s1.acq with changes := s1.acq.changes ++ r.chg } })

/-- The tick that holds a slot of the queue. -/
def tickOfWork (w : Work) (x : Strm) : Option OpenTick :=
  x.ticks.find? fun t => t.k == w.tick && t.slots.any fun q => q.slot == w.slot && q.passed && !q.filtered

/-- The slot is finished (R363). -/
def markFiltered (t : OpenTick) (slot : Nat) (x : Strm) : Strm :=
  { x with ticks := x.ticks.map fun u => if u.k = t.k ∧ u.rephase = t.rephase then
      { u with slots := u.slots.map fun q => if q.slot = slot then { q with filtered := true } else q } else u }

/-- The ticks before `t` whose outputs are not yet taken. -/
def unsnapped (t : OpenTick) (x : Strm) : List OpenTick :=
  (x.ticks.takeWhile fun u => !(u.k == t.k && u.rephase == t.rephase)).filter fun u => u.snap.isNone

/-- The work of one slot: outputs of earlier ticks, a restart of the tick, each channel, and the tick's
outputs after its last slot. -/
def filterWork (w : Work) (s : State) : State :=
  let x := strmOf w.stream s
  match tickOfWork w x with
  | none => s
  | some t =>
    match t.slots.find? fun q => q.slot == w.slot with
    | none => s
    | some q =>
      let n := w.stream
      let s1 := snapTicks n (unsnapped t x) s
      let x1 := strmOf n s1
      let begun := t.slots.any fun u => u.filtered
      let s2 := if carriesSwitch x1 t && !begun then setStrm n (restartAll t.start x1) s1 else s1
      let fs := rateHz x.rate
      let at_ := slotNs fs (slotAbs fs t q)
      let s3 := (chanOrder (strmOf n s2)).foldl (filterCh n at_ q) s2
      let s4 := setStrm n (markFiltered t w.slot (strmOf n s3)) { s3 with free := s3.free + 24 }
      if t.slots.all fun u => u.filtered || u.slot == w.slot then snapTick n t s4 else s4

/-- FILTER_SLOT (R363): the slot at the head of the queue. -/
def execFilterSlot (s : State) : Out :=
  match s.flt.work with
  | [] => .next s
  | w :: rest => .next (filterWork w { s with flt := { s.flt with work := rest } })

/-! ### The close of a tick (R338, R343 to R346, R384) -/

/-- The marks word and values of a channel (R344). -/
def chanHead (t : OpenTick) (c : Nat) : Bytes :=
  let marks := (t.slots.zipIdx.map fun e =>
    (if e.1.missing then 1 else e.1.marks.getD c 0) * 2 ^ (4 * e.2)).foldl (· + ·) 0
  let vals := (List.range 4).flatMap fun i =>
    toLe 4 (unsigned 32 (((t.slots.getD i { slot := 0 }).samples.getD c (0, 0)).1))
  let qual := match (t.slots.filter fun q => q.present).getLast? with
    | some q => (q.samples.getD c (0, 0)).2.toNat
    | none => 0
  toLe 4 marks ++ vals ++ toLe 4 qual ++ toLe 8 0

/-- The record after its first word (R343, R344, R381). -/
def recordBody (n : Nat) (x : Strm) (t : OpenTick) (s : State) : Bytes :=
  let src := match t.rephase with
    | some r => r.1
    | none => sourceIn x t.k
  let holes := (t.slots.filter fun q => q.missing).length
  let arr := (t.slots.filter fun q => q.present).foldl (fun m q => max m q.arr) 0
  let w1 := n + 2 ^ 12 * src + 2 ^ 13 * b2n (carriesSwitch x t) + 2 ^ 14 * b2n t.rephase.isSome +
    2 ^ 15 * b2n (!tbAcquired (tbOf s.cnp.tb s)) + 2 ^ 16 * t.slots.length + 2 ^ 20 * holes
  let outs := (t.snap.getD ([], [])).1
  let head := toLe 4 w1 ++ toLe 4 t.first ++ toLe 4 0 ++ toLe 8 t.start ++ toLe 8 arr
  padTo 60 head ++ (List.range x.channels).flatMap fun c =>
    padTo (if x.reclen then 256 else 128) (chanHead t c ++ (outs.getD c []).flatMap (toLe 4))

/-- A detector change is raised at the close, after the close's OSN (R384). -/
def raiseDet (n : Nat) (e : DetEv) (s : State) : State :=
  let name := detName n e.ch e.det
  let s1 := raise { src := 5, code := if e.up then 0x0320 else 0x0321, kind := 3, index := name, toP0 := e.evt, toHost := e.evt } s
  if e.wake then fireBinds 1 (fun w => detName (bits w 11 0) (bits w 16 12) (bits w 23 20) == name) s1 else s1

/-- `raiseDet` in order of evaluation. -/
def raiseDets (n : Nat) : List DetEv → State → State
  | [], s => s
  | e :: es, s => raiseDets n es (raiseDet n e s)

/-- What the close of a tick means for loss and for the automatic switch (R340, R341). -/
def closeCounts (t : OpenTick) (x : Strm) : Strm :=
  let some_ := t.slots.any fun q => q.present
  let mine := sourceIn x t.k == x.active
  { x with
    ticks := x.ticks.drop 1
    nextTick := if t.rephase.isSome then x.nextTick else t.k + 1
    loss := if some_ then 0 else x.loss + 1
    noAct := if some_ then 0 else if mine then x.noAct + 1 else x.noAct
    lost := x.lost && !some_
    lastClosed := if t.rephase.isSome then x.lastClosed else some t.k
    stby := if t.rephase.isSome then x.stby else x.stby.filter fun k => decide (t.k ≤ k)
    swDue := x.swDue && !(t.rephase.isNone && t.k == x.switchTick)
    older := if t.rephase.isSome then x.older else x.older.filter fun e => decide (t.k < e.1) }

/-- The first open tick of stream `n` closes: outputs, record, ready lines, wakes of type 2, the events
of its detectors, and event 0302h where a lost stream is regained (R338, R340, R345, R384). -/
def closeTick (n : Nat) (t0 : OpenTick) (s : State) : State :=
  let s0 := if t0.snap.isNone then snapTick n t0 s else s
  let x := strmOf n s0
  match x.ticks with
  | [] => s0
  | t :: _ =>
    let y := closeCounts t x
    let skips := (x.dests.filter fun d => destSkips d s0).length
    let s1 := deliverAll x.dests (depthOf x.depth) (recordLen x) t.start 3 n (recordBody n x t s0) s0
    let s2 := fireBinds 2 (fun w => w % 4096 == n) s1
    let s3 := acqTick n x t (countSv n 13 skips (setStrm n { y with dests := destsAfter x.dests s0 } s2))
    let s4 := raiseDets n (t.snap.getD ([], [])).2 s3
    if x.lost && t.slots.any fun q => q.present then svEvent 0x0302 n s4 else s4

/-- The first open tick may close (R338): it has started, every slot has passed or is missing, and the
filter chain has finished each. -/
def mayClose (x : Strm) (s : State) : Option OpenTick :=
  match x.ticks with
  | [] => none
  | t :: _ =>
    if x.en != .off && t.rephase.isNone && t.k == x.nextTick &&
        decide (tickAbsStart (baseRate s.cnp.rate) t.k ≤ lineNow s) && t.slots.all fun q => q.filtered then some t
    else none

/-- SV_TICK_CLOSE (R338). -/
def execSvTickClose (stream : Nat) (s : State) : Out :=
  named (decide (stream < 4096))
    (match mayClose (strmOf stream s) s with
     | none => .next s
     | some t => .next (closeTick stream t s))

/-- STREAM_LOST (R340): after `LOSS_N` closed ticks with no present slot. -/
def execStreamLost (stream : Nat) (s : State) : Out :=
  named (decide (stream < 4096))
    (let x := strmOf stream s
     act (x.en != .off && !x.lost && decide (x.lossN ≤ x.loss)) s
       (svEvent 0x0301 stream (latchSv 2 stream (setStrm stream { x with lost := true } s))))

/-! ### REPHASE (R340, R378, R408) -/

/-- The slots of the old time line that are unresolved become missing, in each stream. -/
def resolveOld : List Nat → State → State
  | [], s => s
  | n :: ns, s => resolveOld ns (advance n (fun t => t.rephase.isSome) s)

/-- The queued work of the filter chain, done in order. -/
def drainWork : List Work → State → State
  | [], s => s
  | w :: ws, s => drainWork ws (filterWork w s)

/-- Close each tick of the old time line of stream `n`. -/
def closeOld (n : Nat) : List OpenTick → State → State
  | [], s => s
  | _ :: ts, s =>
    match (strmOf n s).ticks with
    | [] => s
    | t :: _ => closeOld n ts (closeTick n t s)

/-- A record that carries `REPHASE` restarts the channels, which keep F (R378). -/
def restartKeep (now : Nat) (x : Strm) : Strm := { x with chans := x.chans.map fun e => (e.1, restartQuiet now e.2) }

/-- Close the old ticks of each stream and restart its channels. -/
def closeOlds : List Nat → State → State
  | [], s => s
  | n :: ns, s =>
    let olds := (strmOf n s).ticks.filter fun t => t.rephase.isSome
    let s1 := closeOld n olds s
    closeOlds ns (if olds.isEmpty then s1 else setStrm n (restartKeep (lineNow s1) (strmOf n s1)) s1)

/-- REPHASE (R340): every open tick of the old time line closes at once, and open records end (R408). -/
def execRephase (s : State) : Out :=
  act s.sv.rephase s
    (let ns := s.sv.streams.map Prod.fst
     let s1 := resolveOld ns s
     let s2 := drainWork s1.flt.work { s1 with flt := { s1.flt with work := [] } }
     let s3 := closeOlds ns s2
     let first (fs : Nat) : Nat := firstSlotOf fs (baseRate s3.cnp.rate) (comingTick s3)
     let s4 := recsRephase first (s3.acq.recs.map Prod.fst) s3
     { s4 with sv := { s4.sv with rephase := false } })

end Sys2Proof.Machine
end

