-- ==== Sys2Proof/Machine/Goose.lean ====
section
/-! DEFINITION. GOOSE subscription and publication (R348 to R356). -/

namespace Sys2Proof.Machine

open Sys2Proof

/-! ### Subscription (R348, R349) -/

/-- Subscription `n`. -/
def subOf (n : Nat) (s : State) : GSub := lookD s.gse.subs n {}

/-- Set subscription `n`. -/
def setSub (n : Nat) (x : GSub) (s : State) : State := { s with gse := { s.gse with subs := put s.gse.subs n x } }

/-- Counter `i` of a subscription's bank: `FRAMES`, `CHANGES`, `RETRANS`, `DUP`, `STALE_DROP`, `RESTARTS`,
`AUTH_REJ`, `SIM_REJ`, `BAD_FORMAT`, `ID_MISMATCH`, `TAL_EXPIRED` (R358). -/
def countSub (n i : Nat) (s : State) : State := { s with gse := { s.gse with cnt := bump s.gse.cnt (n * 11 + i) } }

/-- A GOOSE event (R357). -/
def subEvent (code n : Nat) (s : State) : State := raise { src := 4, code := code, index := n } s

/-- The subscription of a block (R349). -/
def subAt (b : Bytes) : GSub :=
  let w0 := wordAt b 0
  { maxData := w0 % 8192, sim := tbit w0 16, authReq := tbit w0 17, chkRev := tbit w0 18, depth := bits w0 21 20
    confRev := wordAt b 1, appid := wordAt b 2 % 65536, ref := (b.drop 16).take (bits (wordAt b 2) 31 24)
    dests := destsAt b 20 }

/-- The bytes of an image (R349). -/
def imageLen (x : GSub) : Nat := 64 + up64 x.maxData

/-- The ranges and reserved bits of words 0 to 19 (R349). -/
def subRanges (b : Bytes) : Bool :=
  let len := bits (wordAt b 2) 31 24
  let max := wordAt b 0 % 8192
  wordAt b 0 &&& 0xFFC8E000 == 0 && wordAt b 2 &&& 0x00FF0000 == 0 && wordAt b 3 == 0 && decide (1 ≤ max) &&
    decide (max ≤ 4032) && decide (1 ≤ len) && decide (len ≤ 64) && zeroBeyond b 16 len

/-- `GOOSE_SUBSCRIBE` (R349). -/
def judgeGooseSubscribe (c : Cmd) (s : State) : Nat :=
  let x := subAt c.block
  let size := depthOf x.depth * imageLen x
  judged c s ([(inputBlock c 176 s && subRanges c.block && destsClean c.block 20 && destsShape x.dests size, stBadArg)] ++
    destsHeld x.dests size s ++ [(decide (s.gse.subs.length < 2048), stNoResource)])

/-- The subscription takes the lowest free number. -/
def effGooseSubscribe (c : Cmd) (s : State) : Res :=
  let n := lowestFree s.gse.subs 0
  resOk (setSub n (subAt c.block) s) n

/-- GOOSE_SUBSCRIBE (R349). -/
def execGooseSubscribe (c : Cmd) (s : State) : Out := runNow 0x0310 judgeGooseSubscribe effGooseSubscribe c s

def judgeGooseUnsubscribe (c : Cmd) (s : State) : Nat :=
  judged c s [(decide (arg0 c.desc < 2048) && noBlock c, stBadArg), ((look s.gse.subs (arg0 c.desc)).isSome, stNotFound)]

/-- The subscription goes, with an event for each destination (R349). -/
def effGooseUnsubscribe (c : Cmd) (s : State) : Res :=
  let n := arg0 c.desc
  let k := (subOf n s).dests.length
  res (destsGone true (List.replicate k n) { s with gse := { s.gse with subs := del s.gse.subs n } }) stOk

/-- GOOSE_UNSUBSCRIBE (R349). -/
def execGooseUnsubscribe (c : Cmd) (s : State) : Out := runNow 0x0311 judgeGooseUnsubscribe effGooseUnsubscribe c s

/-! ### GOOSE_FRAME_RX (R350, R351) -/

/-- An image after its first word (R351). -/
def imageBody (n : Nat) (x : GSub) (g : GoosePdu) (arr flags : Nat) : Bytes :=
  let head := toLe 4 (n + flags) ++ toLe 4 g.stNum.toNat ++ toLe 4 g.sqNum.toNat ++ padTo 8 g.t ++ toLe 8 arr ++
    toLe 4 g.tal ++ toLe 4 g.allData.length ++ toLe 4 g.numEntries ++ toLe 4 g.confRev
  padTo (imageLen x - 4) (padTo 60 head ++ g.allData)

/-- A delivery: images, ready lines, wakes of type 3 (R346, R351). -/
def deliverImage (n : Nat) (g : GoosePdu) (arr flags : Nat) (s : State) : State :=
  let x := subOf n s
  let s1 := deliverAll x.dests (depthOf x.depth) (imageLen x) arr 0 n (imageBody n x g arr flags) s
  fireBinds 3 (fun w => w % 65536 == n) (setSub n { x with dests := destsAfter x.dests s, last := some (g, arr, flags) } s1)

/-- The flags of word 1 that a message gives (R351). -/
def imageFlags (g : GoosePdu) (restart vfail : Bool) : Nat :=
  2 ^ 17 * b2n restart + 2 ^ 18 * b2n g.simulation + 2 ^ 19 * b2n g.ndsCom + 2 ^ 20 * b2n vfail

/-- An accepted message (R350, R351): the expiry, `STALE` cleared with event 0311h, and its delivery. -/
def acceptGoose (n : Nat) (h : Held) (g : GoosePdu) (deliver_ restart : Bool) (s : State) : State :=
  let x := subOf n s
  let y := { x with any := true, stNum := g.stNum, sqNum := g.sqNum, stale := false, expiry := s.clk.frc + g.tal * 1000000 }
  let s1 := setSub n y s
  let s2 := if deliver_ || x.stale then
      deliverImage n g (arrivalOf h s).1 (imageFlags g restart (h.info.verdict == 2)) s1 else s1
  if x.stale then subEvent 0x0311 n s2 else s2

/-- The judgement against the last accepted stNum and sqNum (R350). -/
def judgeGoose (n : Nat) (h : Held) (g : GoosePdu) (s : State) : State :=
  let x := subOf n s
  let ds := (g.stNum - x.stNum).toInt
  let dq := (g.sqNum - x.sqNum).toInt
  if !x.any || 0 < ds then acceptGoose n h g true false (countSub n 1 s)
  else if ds = 0 then
    if 0 < dq then acceptGoose n h g false false (countSub n 2 s) else countSub n 3 s
  else if g.stNum = 1 ∧ g.sqNum = 0 then subEvent 0x0312 n (acceptGoose n h g true true (countSub n 5 s))
  else countSub n 4 s

/-- An identity mismatch: its event at most once per second (R350). -/
def subMismatch (n : Nat) (s : State) : State :=
  let x := subOf n s
  let recent := match x.idAt with
    | some t => decide (s.clk.frc < t + 1000000000)
    | none => false
  let s1 := latchSv 1 n (countSub n 9 s)
  if recent then s1 else subEvent 0x0313 n (setSub n { x with idAt := some s.clk.frc } s1)

/-- The GOOSE part of a frame. -/
def gooseOf (f : Frame) : GoosePdu :=
  match f.body with
  | .goose g => g
  | _ => { wellFormed := false }

/-- The checks of R350 in the order of R332. -/
def takeGoose (h : Held) (s : State) : State :=
  let flow := h.info.flow.toNat
  let n := flow % 2048
  let x := subOf n s
  let g := gooseOf h.frame
  if bits flow 29 11 ≠ 0 ∨ (look s.gse.subs n).isNone then noSub flow s
  else
    let s1 := countSub n 0 s
    if x.authReq && h.info.verdict != 1 then countSub n 6 s1
    else if g.sBit != x.sim then countSub n 7 s1
    else if !g.wellFormed || decide (x.maxData < g.allData.length) then countSub n 8 s1
    else if h.frame.appid != x.appid || g.gocbRef != x.ref || (x.chkRev && g.confRev != x.confRev) then subMismatch n s1
    else judgeGoose n h g s1

/-- GOOSE_FRAME_RX (R334, R350): the oldest frame of SE0, where its `FLOW` says GOOSE. -/
def execGooseFrameRx (s : State) : Out :=
  match s.sw.se0 with
  | [] => .next s
  | h :: rest =>
    act (bits h.info.flow.toNat 31 30 == 2) s (takeGoose h { s with sw := { s.sw with se0 := rest } })

/-- The last image again, with `STALE` (R351). -/
def staleImage (n : Nat) (s : State) : State :=
  let x := subOf n s
  match x.last with
  | some (g, arr, flags) =>
    let s1 := deliverAll x.dests (depthOf x.depth) (imageLen x) arr 0 n (imageBody n x g arr (flags + 65536)) s
    fireBinds 3 (fun w => w % 65536 == n) (setSub n { x with dests := destsAfter x.dests s } s1)
  | none => s

/-- TAL_EXPIRY (R351): the FRC has passed the expiry. -/
def execTalExpiry (sub : Nat) (s : State) : Out :=
  named (decide (sub < 2048))
    (let x := subOf sub s
     act ((look s.gse.subs sub).isSome && x.any && !x.stale && decide (x.expiry < s.clk.frc)) s
       (subEvent 0x0310 sub (latchSv 6 sub (countSub sub 10 (staleImage sub (setSub sub { x with stale := true } s))))))

/-! ### Publication set-up (R352, R356, R433) -/

/-- Publication entry `n`. -/
def pubOf (n : Nat) (s : State) : GPub := lookD s.gse.pubs n {}

/-- Set publication entry `n`. -/
def setPub (n : Nat) (x : GPub) (s : State) : State := { s with gse := { s.gse with pubs := put s.gse.pubs n x } }

/-- Counter `i` of an entry's bank: `CHANGES`, `UNCHANGED`, `FRAMES_TX` (R358). -/
def countPub (n i : Nat) (s : State) : State := { s with gse := { s.gse with pubCnt := bump s.gse.pubCnt (n * 3 + i) } }

/-- Visible characters. -/
def visible (b : Byte) : Bool := decide (0x20 ≤ b.toNat) && decide (b.toNat ≤ 0x7E)

/-- The 64 bytes of a string from word `w`. -/
def textField (b : Bytes) (w : Nat) : Bytes := (b.drop (4 * w)).take 64

/-- The characters of a zero-padded string. -/
def textOf (l : Bytes) : Bytes := l.takeWhile fun o => o != 0

/-- 1 to 64 visible characters, zero-padded (R352). -/
def textOk (l : Bytes) : Bool :=
  let t := textOf l
  !t.isEmpty && t.all visible && (l.drop t.length).all fun o => o == 0

/-- The ranges and reserved bits of the block (R352). -/
def pubRanges (b : Bytes) : Bool :=
  let w4 := wordAt b 4
  let t1 := w4 % 65536
  let t0 := wordAt b 5
  decide (wordAt b 2 < 2 ^ 19) && decide (500 ≤ t1) && decide (1 ≤ bits w4 19 16) && decide (bits w4 19 16 ≤ 8) &&
    decide (2 ≤ bits w4 22 20) && decide (bits w4 22 20 ≤ 4) && w4 / 2 ^ 23 == 0 && decide (100 ≤ t0) &&
    decide (t0 ≤ 60000) && decide (t1 ≤ t0 * 1000) && wordAt b 6 &&& 0xF8008800 == 0 &&
    decide (bits (wordAt b 6) 14 12 ≤ 5) && decide (1 ≤ wordAt b 7) && decide (wordAt b 7 ≤ 4032) &&
    textOk (textField b 8) && textOk (textField b 24) && (!tbit (wordAt b 2) 18 || textOk (textField b 40)) &&
    decide (wordAt b 57 < 65536)

/-- The key of an entry may be used: DENIED where the slot is usable but breaks its row (R433); one whose check fails is
BAD and not usable (R427). -/
def pubKeyOk (b : Bytes) (s : State) : Bool :=
  let w := wordAt b 6
  let x := slotOf (w % 2048) s
  bits w 14 12 == 0 || !usable x || !checkHolds s.mram.root x || (leafFor x 1 (bits w 14 12) && mayTag x (bits w 26 16 / 8))

/-- `GOOSE_PUB_SET` (R352, R433). -/
def judgeGoosePubSet (c : Cmd) (s : State) : Nat :=
  judged c s [(decide (arg0 c.desc < 1024) && inputBlock c 232 s && pubRanges c.block, stBadArg),
    (pubKeyOk c.block s, stDenied), ((pubOf (arg0 c.desc) s).en == .off, stWrongState)]

/-- The entry takes its block; a slot that it names is tested (R352, R427). -/
def effGoosePubSet (c : Cmd) (s : State) : Res :=
  let t := if bits (wordAt c.block 6) 14 12 = 0 then s else testSlot (wordAt c.block 6 % 2048) s
  res (setPub (arg0 c.desc) { pubOf (arg0 c.desc) t with cfg := some (blockWords c.block 58) } t) stOk

/-- GOOSE_PUB_SET (R352). -/
def execGoosePubSet (c : Cmd) (s : State) : Out := runNow 0x0320 judgeGoosePubSet effGoosePubSet c s

def pubArg (c : Cmd) : List (Bool × Nat) := [(decide (arg0 c.desc < 1024) && noBlock c, stBadArg)]

/-- An entry becomes ON with nothing sent (R356). -/
def startPub (p : GPub) : GPub := { p with en := .on, held := false, published := false }

def judgeGoosePubEnable (c : Cmd) (s : State) : Nat :=
  judged c s (pubArg c ++ [((pubOf (arg0 c.desc) s).cfg.isSome, stWrongState)])

def effGoosePubEnable (c : Cmd) (s : State) : Res :=
  let p := pubOf (arg0 c.desc) s
  let r := enableRule p.en p.held
  res (setPub (arg0 c.desc) (if p.en == .off then startPub p else { p with en := r.1, held := r.2.1 }) s) r.2.2

/-- GOOSE_PUB_ENABLE (R149, R356). -/
def execGoosePubEnable (c : Cmd) (s : State) : Out := runNow 0x0321 judgeGoosePubEnable effGoosePubEnable c s

def judgeGoosePubDisable (c : Cmd) (s : State) : Nat := judged c s (pubArg c)

/-- Frames of the entry that have not been handed to SE0 are not sent; a PUBLISH that waits for one
completes (R150, R356). -/
def dropTags (e : Nat) (s : State) : State :=
  let mine (t : TagReq) : Bool := t.pub == some e
  let held (j : LaneJob) : Bool := (j.tag.map mine).getD false
  let gone := s.key.tags.filter mine ++ (s.key.lanes.filter fun l => held l.2).filterMap fun l => l.2.tag
  fillLanes (gone.foldl (fun u t => finishPub t stOk u)
    { s with key := { s.key with
      tags := s.key.tags.filter fun t => !mine t, lanes := s.key.lanes.filter fun l => !held l.2 } })

def effGoosePubDisable (c : Cmd) (s : State) : Res :=
  let n := arg0 c.desc
  let p := pubOf n s
  let r := disableRule p.en p.held
  let s1 := setPub n { p with en := r.1, held := r.2 } s
  res (if p.en == .on then dropTags n s1 else s1) stOk

/-- GOOSE_PUB_DISABLE (R149, R356). -/
def execGoosePubDisable (c : Cmd) (s : State) : Out := runNow 0x0322 judgeGoosePubDisable effGoosePubDisable c s

/-- A STOPPING entry may reach OFF: every frame handed to SE0 has left (R150). -/
def pubStops (n : Nat) (s : State) : Bool := (pubOf n s).en == .stopping && (pubOf n s).inFlight == 0

/-- A STOPPING entry reaches OFF (R149). -/
def stopPub (n : Nat) (s : State) : State :=
  let p := pubOf n s
  offEvents 4 n p.held (setPub n (if p.held then startPub p else { p with en := .off }) s)

/-! ### Publication frames (R354, R355) -/

def pWord (p : GPub) (i : Nat) : Nat := cfgWord p.cfg i
def pubAuth (p : GPub) : Nat := bits (pWord p 6) 14 12
def pubRing (p : GPub) : Nat := bits (pWord p 6) 26 16

/-- A string of the set-up, from word `w`. -/
def pubText (p : GPub) (w : Nat) : Bytes :=
  textOf ((List.range 16).flatMap fun i => toLe 4 (pWord p (w + i)))

/-- A 48-bit address from word `w`, whose bytes stand in network order (R352). -/
def pubAddr (p : GPub) (w : Nat) : Nat := beAt (toLe 4 (pWord p w) ++ toLe 4 (pWord p (w + 1))) 0 6

/-- g_i in ns (R354). -/
def pubGap (p : GPub) (i : Nat) : Nat :=
  let t1 := pWord p 4 % 65536 * 1000
  let t0 := pWord p 5 % 2 ^ 20 * 1000000
  let n := bits (pWord p 4) 19 16
  if i ≤ n then t1 else if 20 ≤ i - n then t0 else min (t1 * 2 ^ (i - n)) t0

/-- timeAllowedtoLive for the interval to the next frame (R354). -/
def pubTal (p : GPub) (gap : Nat) : Nat := (bits (pWord p 4) 22 20 * gap + 999999) / 1000000

/-- The `UTC` word of a time base: of its set-up, or of the selected master's Announce (R296, R323). -/
def utcWord (b : TBase) : Nat :=
  if tbSource b = 1 then
    match b.foreign.find? fun f => b.master == some (masterName f) with
    | some f => f.ann.utc
    | none => 0
  else cfgWord b.cfg 10

/-- t of a change at linear ns `at_`: seconds, fraction, TimeQuality (R355). -/
def pubTime (at_ : Nat) (s : State) : Bytes :=
  let b := tbOf s.cnp.tb s
  let u := utcWord b
  let known := tbit u 16
  let sec : Int := (at_ / 1000000000 : Nat) - if known then signed 16 (u % 65536) else 0
  let locked := b.en != .off && b.acq == .locked
  let q := 128 * b2n known + 64 * b2n (b.en != .on) + 32 * b2n (!locked) + if locked then 20 else 31
  toBe 4 (unsigned 32 sec) ++ toBe 3 (at_ % 1000000000 * 2 ^ 24 / 1000000000) ++ toBe 1 q

/-- The goosePdu of an entry with its present values (R355). -/
def pubPdu (p : GPub) (gap : Nat) (s : State) : GoosePdu :=
  let v := p.vals
  { sBit := tbit (pWord p 2) 16, gocbRef := pubText p 8, tal := pubTal p gap, datSet := pubText p 24
    goId := if tbit (pWord p 2) 18 then some (pubText p 40) else none
    t := pubTime v.changeAt s, stNum := BitVec.ofNat 32 v.stNum, sqNum := BitVec.ofNat 32 v.sqNum
    simulation := tbit (pWord p 2) 16, confRev := pWord p 3, ndsCom := tbit (pWord p 2) 17
    numEntries := v.numEntries, allData := v.data }

/-- The bytes of a BER length (R355: minimal and definite). -/
def berLen (n : Nat) : Nat := if n < 128 then 1 else if n < 256 then 2 else 3

/-- The bytes of an element with `n` content bytes. -/
def berSize (n : Nat) : Nat := 1 + berLen n + n

/-- The content bytes of a non-negative INTEGER. -/
def berIntLen (n : Nat) : Nat := Nat.log2 n / 8 + 1 + if Nat.log2 n % 8 = 7 then 1 else 0

/-- The bytes of a goosePdu. -/
def pduLen (g : GoosePdu) : Nat :=
  let ints := [g.tal, g.stNum.toNat, g.sqNum.toNat, g.confRev, g.numEntries].map fun n => berSize (berIntLen n)
  berSize (berSize g.gocbRef.length + berSize g.datSet.length + (match g.goId with
    | some i => berSize i.length
    | none => 0) + berSize 8 + 3 + 3 + ints.foldl (· + ·) 0 + berSize g.allData.length)

/-- The frame of an entry (R355). -/
def pubFrame (p : GPub) (gap : Nat) (s : State) : Frame :=
  let w := pWord p 0
  let g := pubPdu p gap s
  let tag := tbit w 16
  { da := pubAddr p 1, sa := pubAddr p 56, vlan := if tag then some { vid := w / 2 ^ 20, pcp := bits w 19 17 } else none
    etype := 0x88B8, appid := w % 65536, len := 14 + (if tag then 4 else 0) + 8 + pduLen g + 4, body := .goose g }

/-- A frame of entry `e` is built; with the gate closed it is discarded at SE0, and with `AUTH` it waits for
its tag (R355, R437, R453). -/
def sendPub (e gap : Nat) (op : Option (Nat × Nat × Word)) (s : State) : State :=
  let p := pubOf e s
  let h : Held := { frame := pubFrame p gap s, info := { src := 48, pub := some e } }
  let t : TagReq := { held := h, slot := pWord p 6 % 2048, auth := pubAuth p, owner := pubRing p / 8, pub := some e
                      op := op, result := p.vals.stNum }
  if !gateOpen s then finishPub t stOk s
  else if pubAuth p = 0 then finishPub t stOk (toSe0Tx e h s)
  else fillLanes { s with key := { s.key with tags := s.key.tags ++ [t] } }

/-- After 4,294,967,295, stNum and sqNum become 1 (R354). -/
def numNext (n : Nat) : Nat := if n + 1 = 2 ^ 32 then 1 else n + 1

/-! ### PUBLISH (R353, R354) -/

/-- A change takes effect: values, time and schedule (R354). -/
def pubChange (p : GPub) (data : Bytes) (n : Nat) (s : State) : GPub :=
  { p with
    published := true
    vals := { stNum := if p.published then numNext p.vals.stNum else 1, sqNum := 0, data := data, numEntries := n
              changeAt := lineNow s, step := 1, nextAt := s.clk.frc + pubGap p 1 } }

/-- The checks of PUBLISH (R353). -/
def pubChecks (r : Nat) (d : Desc) (s : State) : Nat :=
  let p := pubOf (arg0 d % 1024) s
  checks [(decide (arg0 d < 1024) && decide (1 ≤ lenOf d) && decide (lenOf d ≤ 4032) &&
      (p.cfg.isNone || decide (lenOf d ≤ pWord p 7)), stBadArg),
    (p.cfg.isNone || pubRing p == r, stDenied), (p.en == .on, stWrongState)]

/-- PUBLISH, whose checks passed when it was consumed (R107), takes effect (R353). One whose entry has left ON since hands
no frame to SE0 any more (R150) and ends with WRONG_STATE (DESIGN CHOICE, log entry 23). -/
def publishEff (r : Nat) (seq : Word) (data : Bytes) (s : State) : State :=
  match entryOf r seq s with
  | none => s
  | some e =>
    let n := arg0 e.desc % 1024
    let p := pubOf n s
    let b := padTo (lenOf e.desc) data
    if p.en ≠ .on then finishNow r seq stWrongState none s
    else if p.published && p.vals.data == b && p.vals.numEntries == arg1 e.desc then
      finishNow r seq stOk (some (BitVec.ofNat 32 p.vals.stNum)) (countPub n 1 s)
    else
      let q := pubChange p b (arg1 e.desc) s
      sendPub n (pubGap q 1) (some (r, e.gen, seq)) (countPub n 0 (setPub n q s))

/-- A row of PUBLISH (R353). -/
def publishRow (ring : Nat) (seq : Word) (data : Bytes) (s : State) : Out :=
  emitRow 3 1 ring seq (some (.bytes data)) s (publishEff ring seq data)

/-- GOOSE_RETRANSMISSION (R354): the scheduled instant has come. -/
def execGooseRetransmission (entry : Nat) (s : State) : Out :=
  named (decide (entry < 1024))
    (let p := pubOf entry s
     let v := p.vals
     act (p.en == .on && p.published && decide (v.nextAt ≤ s.clk.frc)) s
       (let gap := pubGap p (v.step + 1)
        let q := { p with vals := { v with sqNum := numNext v.sqNum, step := v.step + 1, nextAt := v.nextAt + gap } }
        sendPub entry gap none (setPub entry q s)))

end Sys2Proof.Machine
end

