-- ==== Sys2Proof/Machine/Filter.lean ====
section
/-! DEFINITION. The set-up commands of the filter chain (R366 to R369, R382, R385) and its load (R387). -/

namespace Sys2Proof.Machine

open Sys2Proof

/-- The filter state of channel `ch` of stream `n`. -/
def chanOf (n ch : Nat) (s : State) : FCh := lookD (strmOf n s).chans ch {}

/-- Set it. -/
def setChan (n ch : Nat) (c : FCh) (s : State) : State :=
  setStrm n { strmOf n s with chans := put (strmOf n s).chans ch c } s

/-! ### FLT_COEFF (R366) -/

/-- A stream that is ON or STOPPING has an enabled channel that uses the set. -/
def coeffBusy (n : Nat) (s : State) : Bool :=
  s.sv.streams.any fun e => e.2.en != .off && e.2.chans.any fun c => c.2.en && c.2.cset == n

/-- N of the block. -/
def tapsOf (c : Cmd) : Nat := wordAt c.block 0

/-- The word is a sign-extended 18-bit value. -/
def isCoeff (w : Nat) : Bool := decide (w < 2 ^ 17) || (decide (2 ^ 32 - 2 ^ 17 ≤ w) && decide (w < 2 ^ 32))

/-- The N ⁄ 2 coefficients of the block. -/
def coeffsIn (c : Cmd) : List Int := (List.range (tapsOf c / 2)).map fun i => signed 32 (wordAt c.block (1 + i))

def judgeFltCoeff (c : Cmd) (s : State) : Nat :=
  let n := tapsOf c
  judged c s
    [(decide (arg0 c.desc < 64) && (n == 8 || n == 16 || n == 32 || n == 48) && inputBlock c (4 + 2 * n) s &&
        (List.range (n / 2)).all fun i => isCoeff (wordAt c.block (1 + i)), stBadArg),
     (!coeffBusy (arg0 c.desc) s, stWrongState)]

def effFltCoeff (c : Cmd) (s : State) : Res :=
  res { s with flt := { s.flt with coeff := put s.flt.coeff (arg0 c.desc) (coeffsIn c) } } stOk

/-- FLT_COEFF (R366). -/
def execFltCoeff (c : Cmd) (s : State) : Out := runNow 0x0332 judgeFltCoeff effFltCoeff c s

/-! ### FLT_CHANNEL (R368, R369) -/

/-- H: the harmonics set in word 1. -/
def harmCount (w : Nat) : Nat := ((List.range 16).filter fun h => tbit w h).length

/-- The checks on the block alone (R369). -/
def channelShape (c : Cmd) : Bool :=
  let w0 := wordAt c.block 0
  decide (w0 < 2 ^ 18) && wordAt c.block 1 &&& 0xFFFF0003 == 0 &&
    ((List.range 5).all fun i => wordAt c.block (3 + i) == 0) && bits w0 3 2 != 3 && decide (bits w0 11 9 ≤ 4) &&
    (bits w0 3 2 != 2 || bits w0 8 4 != arg1 c.desc)

/-- The checks against the stream (R369). -/
def channelFits (c : Cmd) (x : Strm) : Bool :=
  let w0 := wordAt c.block 0
  decide (arg1 c.desc < x.channels) && (bits w0 3 2 != 2 || decide (bits w0 8 4 < x.channels)) &&
    decide (16 + 2 * harmCount (wordAt c.block 1) ≤ if x.reclen then 64 else 32)

def judgeFltChannel (c : Cmd) (s : State) : Nat :=
  let x := strmOf (arg0 c.desc) s
  judged c s
    [(decide (arg0 c.desc < 4096) && decide (arg1 c.desc < 24) && inputBlock c 32 s && channelShape c, stBadArg),
     ((look s.sv.streams (arg0 c.desc)).isSome, stNotFound), (channelFits c x, stBadArg),
     (x.en == .off, stWrongState)]

/-- A detector whose `EN` becomes 0 is dropped without an event (R369, R385). -/
def stopDet (d : Det) : Det := { d with en := false, state := false, pu := 0, doC := 0 }

/-- The detectors that a new `EN` and `HARM` leave enabled (R369). -/
def keepDets (en : Bool) (harm : Nat) (l : Tbl Det) : Tbl Det :=
  l.map fun e => if !en || (e.2.src == 1 && !tbit harm e.2.hnum) then (e.1, stopDet e.2) else e

/-- The set-up of a block (R368). -/
def setupOf (b : Bytes) (c : FCh) : FCh :=
  let w0 := wordAt b 0
  { c with
    en := tbit w0 0, fnom := tbit w0 1, track := bits w0 3 2, trkCh := bits w0 8 4, trkShift := bits w0 11 9
    cset := bits w0 17 12, harm := wordAt b 1, trkMin := wordAt b 2
    dets := keepDets (tbit w0 0) (wordAt b 1) c.dets }

/-- The set-up of a channel; the recorders see the level of a dropped detector as false (R368, R395). -/
def effFltChannel (c : Cmd) (s : State) : Res :=
  let n := arg0 c.desc
  let ch := arg1 c.desc
  let x := setupOf c.block (chanOf n ch s)
  res (levelChange 0 0 false (setChan n ch x s)) stOk

/-- FLT_CHANNEL (R368, R369). -/
def execFltChannel (c : Cmd) (s : State) : Out := runNow 0x0330 judgeFltChannel effFltChannel c s

/-! ### FLT_THRESHOLD (R382, R385) -/

/-- Channel and detector of `ARG1`. -/
def thrCh (c : Cmd) : Nat := bits (arg1 c.desc) 4 0
def thrDet (c : Cmd) : Nat := bits (arg1 c.desc) 11 8

/-- The detector of a block. -/
def detIn (b : Bytes) : Det :=
  let w := wordAt b 0
  { en := tbit w 9, src := bits w 1 0, hnum := bits w 7 4, under := tbit w 8, wakePu := tbit w 10, wakeDo := tbit w 11
    evt := tbit w 12, qblock := tbit w 13, puN := bits w 23 16, doN := bits w 31 24
    pickup := signed 32 (wordAt b 1), dropout := signed 32 (wordAt b 2) }

/-- The checks on the block alone (R382). -/
def thresholdShape (c : Cmd) : Bool :=
  let d := detIn c.block
  arg1 c.desc &&& 0xFFFFF0E0 == 0 && decide (thrDet c ≤ 3) && wordAt c.block 0 &&& 0xC00C == 0 && wordAt c.block 3 == 0 &&
    decide (1 ≤ d.puN) && decide (1 ≤ d.doN) && (d.src != 1 || decide (2 ≤ d.hnum)) &&
    (if d.under then decide (d.pickup ≤ d.dropout) else decide (d.dropout ≤ d.pickup))

def judgeFltThreshold (c : Cmd) (s : State) : Nat :=
  let n := arg0 c.desc
  let x := chanOf n (thrCh c) s
  let d := detIn c.block
  judged c s
    [(decide (n < 4096) && inputBlock c 16 s && thresholdShape c, stBadArg),
     ((look s.sv.streams n).isSome, stNotFound),
     (decide (thrCh c < (strmOf n s).channels) && x.en && (d.src != 1 || tbit x.harm d.hnum), stBadArg)]

/-- At its boundary the set-up applies; the state is kept and the counts return to 0 (R385); the recorders see whether it is
enabled (R395). -/
def effFltThreshold (c : Cmd) (s : State) : Res :=
  let n := arg0 c.desc
  let ch := thrCh c
  let x := chanOf n ch s
  let d := detIn c.block
  let old := lookD x.dets (thrDet c) {}
  let new := { d with state := d.en && old.state }
  let y := { x with dets := put x.dets (thrDet c) new }
  res (levelChange 0 0 false (setChan n ch y s)) stOk

/-- FLT_THRESHOLD (R382): waits for its tick boundary. -/
def execFltThreshold (c : Cmd) (s : State) : Out := runAtTick 0x0331 judgeFltThreshold c s

/-! ### FLT_LOAD (R387) -/

/-- Σ c × f_s of a stream. -/
def streamLoad (x : Strm) (s : State) : Nat :=
  if x.en == .off then 0
  else ((x.chans.filter fun e => e.2.en).map fun e => chCost x e.2 s * rateHz x.rate).foldl (· + ·) 0

/-- `FLT_LOAD.LOAD` (R387). -/
def fltLoad (s : State) : Nat :=
  ((s.sv.streams.map fun e => streamLoad e.2 s).foldl (· + ·) 0 + 999999) / 1000000

end Sys2Proof.Machine
end

