-- ==== Sys2Proof/Machine/Acq.lean ====
section
/-! DEFINITION. The acquisition engine's commands and rows: set-up, arm, trigger and release, level changes,
GOOSE elements, rows, stored records, and EXPORT (R390 to R414). -/

namespace Sys2Proof.Machine

open Sys2Proof

/-! ### ACQ_CONFIG (R390 to R392) -/

/-- Trigger entry `i` of a block (R390). -/
def trigAt (b : Bytes) (i : Nat) : Trig :=
  let w := 16 + 4 * i
  { type := bits (wordAt b w) 2 0, group := bits (wordAt b w) 5 4, pol := tbit (wordAt b w) 6
    src := BitVec.ofNat 32 (wordAt b (w + 1)), target := dwordAt b (w + 2) }

/-- The 16 trigger entries. -/
def trigsAt (b : Bytes) : List Trig := (List.range 16).map (trigAt b)

/-- The bits of `SRC` that a type lists (R390). -/
def srcMask (type : Nat) : Nat :=
  match type with
  | 1 => 0x31FFFF
  | 2 => 0x1F
  | 3 => 0x1FFFFFF
  | _ => 0

/-- Ranges and reserved bits of a trigger entry. -/
def trigClean (b : Bytes) (i : Nat) : Bool :=
  let t := trigAt b i
  wordAt b (16 + 4 * i) &&& 0xFFFFFF88 == 0 && decide (t.type ≤ 4) &&
    t.src.toNat &&& srcMask t.type == t.src.toNat && (if t.type = 4 then decide (t.target < 2 ^ 48) else t.target == 0)

/-- A group with an entry of `TYPE` 4 holds no other (R391). -/
def groupAlone (l : List Trig) (g : Nat) : Bool :=
  let es := groupOfTrigs g l
  !(es.any fun t => t.type == 4) || decide (es.length ≤ 1)

/-- The channel entries (R390). -/
def chansAt (b : Bytes) (nch : Nat) : List (Nat × Nat) :=
  (List.range nch).map fun i => (bits (wordAt b (80 + i)) 11 0, bits (wordAt b (80 + i)) 16 12)

/-- The recorder of a block (R390). -/
def recordAt (b : Bytes) : Rec :=
  let w0 := wordAt b 0
  { set := true, nch := bits w0 11 0, rate := bits w0 14 12, retrig := tbit w0 16, overwrite := tbit w0 17
    owner := wordAt b 1, bufMib := wordAt b 2, pre := wordAt b 3, post := wordAt b 4, maxLen := wordAt b 5
    envN := wordAt b 6, fdet := wordAt b 7, status := dwordAt b 8, trigs := trigsAt b
    chans := chansAt b (bits w0 11 0), freeB := wordAt b 2 * 2 ^ 20 }

/-- Ranges and reserved bits of a block (R390, R391). -/
def recordRanges (b : Bytes) : Bool :=
  let x := recordAt b
  wordAt b 0 &&& 0xFFFC8000 == 0 && decide (1 ≤ x.nch) && decide (x.nch ≤ 2048) && decide (x.rate ≤ 4) &&
    decide (x.owner < 256) && decide (4 ≤ x.bufMib) && decide (x.bufMib ≤ 2048) &&
    decide (1 ≤ x.pre) && decide (x.pre < 2 ^ 20) && decide (1 ≤ x.post) && decide (x.post < 2 ^ 24) &&
    decide (x.pre + x.post ≤ x.maxLen) && decide (x.maxLen < 2 ^ 24) && decide (2 ≤ x.envN) && decide (x.envN ≤ 256) &&
    decide (x.fdet ≤ 4) && x.status % 64 == 0 && ((List.range 6).all fun i => wordAt b (10 + i) == 0) &&
    ((List.range 16).all (trigClean b)) && ((List.range 4).all (groupAlone x.trigs)) &&
    (List.range x.nch).all fun i => decide (wordAt b (80 + i) < 2 ^ 17) && decide (bits (wordAt b (80 + i)) 16 12 < 24)

/-- The other recorders that are set up. -/
def otherRecs (n : Nat) (s : State) : List Rec := (s.acq.recs.filter fun e => e.1 != n && e.2.set).map Prod.snd

/-- Buffers in MiB, and NCH × f_s, of the other recorders (R391). -/
def otherMib (n : Nat) (s : State) : Nat := ((otherRecs n s).map fun x => x.bufMib).foldl (· + ·) 0
def otherRate (n : Nat) (s : State) : Nat := ((otherRecs n s).map fun x => x.nch * rateHz x.rate).foldl (· + ·) 0

def judgeAcqConfig (c : Cmd) (s : State) : Nat :=
  let n := arg0 c.desc
  let b := c.block
  let x := recordAt b
  judged c s
    [(decide (n < 16) && inputBlock c (320 + 4 * x.nch) s && recordRanges b, stBadArg),
     (partExists x.owner s, stNotFound),
     ((match partOf x.owner s with
       | some p => isMapped p x.status
       | none => false), stBadArg),
     ((recOf n s).en == .off, stWrongState),
     (decide (x.bufMib * 256 ≤ framesLeft s) && decide (otherMib n s + x.bufMib ≤ 8192) &&
        decide (otherRate n s + x.nch * rateHz x.rate ≤ 320000000), stNoResource)]

/-- The buffer's frames are taken, and the old buffer's go to the scrubber (R392). -/
def swapBuffer (old new : Nat) (s : State) : State :=
  let t := { s with pgk := takeFrames (new * 256) s.pgk }
  if old = 0 then t else freeFrames (old * 256) t

/-- EXPORTs of a list end with NOT_FOUND and the bytes that they have copied (R392). -/
def endExports (l : List XOp) (s : State) : State :=
  { l.foldl (fun t x => finishOp x.ring x.gen x.seq stNotFound (some (BitVec.ofNat 32 x.copied)) (decide (x.copied < x.len)) t) s with
    acq := { s.acq with exports := s.acq.exports.filter fun x => !l.contains x } }

/-- The new set-up: no record, record number 1, counters cleared, the status line written; an EXPORT of a discarded record
ends (R392, R419). -/
def effAcqConfig (c : Cmd) (s : State) : Res :=
  let n := arg0 c.desc
  let x := recordAt c.block
  let s0 := endExports (s.acq.exports.filter fun y => y.recNo == n) s
  let s1 := swapBuffer (recOf n s0).bufMib x.bufMib s0
  res (reblind n (setRec n x { s1 with acq := { s1.acq with cnt := clearBank s1.acq.cnt n 9 } })) stOk

/-- ACQ_CONFIG (R390 to R392). -/
def execAcqConfig (c : Cmd) (s : State) : Out := runNow 0x0701 judgeAcqConfig effAcqConfig c s

/-! ### ACQ_ARM, ACQ_DISARM (R393, R396) -/

/-- The compares of a recorder's time entries are armed (R315, R395); where the bound time base is not ON
they are cancelled at once (R398). -/
def armTimes (n : Nat) : List (Trig × Nat) → State → State
  | [], s => s
  | (t, e) :: r, s =>
    armTimes n r
      (if t.type ≠ 4 then s
       else if (tbOf s.cnp.tb s).en == .on then armCmp s.cnp.tb t.target (.trigger n e) s
       else cancelUse (.trigger n e) s)

/-- The recorder becomes ON and WAITING with an empty history; a group that is already true does not trigger
(R393, R396). -/
def startRec (n : Nat) (s : State) : State :=
  let x := recOf n s
  let trigs := x.trigs.map fun t => { t with level := seenLevel s t, fired := false, cancelled := false }
  let y := { x with
    en := .on, held := false, cap := .waiting, trigs := trigs, truth := truthNow trigs s
    hist := [], histCyc := [], detLog := [], wait := [], cur := none, nextRow := slotAfter (rateHz x.rate) (lineNow s)
    blindSince := none, deadNs := 0, lost := 0 }
  reblind n (armTimes n trigs.zipIdx (setRec n y s))

/-- The recorder reaches OFF, and a held enable takes effect (R149). -/
def offRec (n : Nat) (s : State) : State :=
  let x := recOf n s
  let mine (u : CmpUse) : Bool :=
    match u with
    | .trigger r _ => r == n
    | _ => false
  let s1 := reblind n (setRec n { x with en := .off, held := false, cap := .waiting } (cancelCmps mine s))
  let s2 := offEvents 7 n x.held s1
  if x.held then startRec n s2 else s2

/-- An entry of `TYPE` 4 needs the bound time base ON (R317, R393). -/
def armable (x : Rec) (s : State) : Bool :=
  x.set && (!(x.trigs.any fun t => t.type == 4) || (tbOf s.cnp.tb s).en == .on)

/-- The checks of a row that names a recorder. -/
def recArg (c : Cmd) : List (Bool × Nat) := [(decide (arg0 c.desc < 16) && noBlock c, stBadArg)]

def judgeAcqArm (c : Cmd) (s : State) : Nat :=
  judged c s (recArg c ++ [(armable (recOf (arg0 c.desc) s) s, stWrongState)])

def effAcqArm (c : Cmd) (s : State) : Res :=
  let n := arg0 c.desc
  let x := recOf n s
  let r := enableRule x.en x.held
  res (if x.en == .off then startRec n s else setRec n { x with en := r.1, held := r.2.1 } s) r.2.2

/-- ACQ_ARM (R149, R393). -/
def execAcqArm (c : Cmd) (s : State) : Out := runNow 0x0702 judgeAcqArm effAcqArm c s

def judgeAcqDisarm (c : Cmd) (s : State) : Nat := judged c s (recArg c)

/-- In WAITING the recorder is OFF at once; else it is STOPPING, and blind no longer (R393, R394). -/
def effAcqDisarm (c : Cmd) (s : State) : Res :=
  let n := arg0 c.desc
  let x := recOf n s
  let r := disableRule x.en x.held
  res (if x.en == .on && x.cap == .waiting then offRec n s else reblind n (setRec n { x with en := r.1, held := r.2 } s)) stOk

/-- ACQ_DISARM (R149, R393). -/
def execAcqDisarm (c : Cmd) (s : State) : Out := runNow 0x0703 judgeAcqDisarm effAcqDisarm c s

/-! ### ACQ_TRIGGER, ACQ_RELEASE (R396, R414) -/

def judgeAcqTrigger (c : Cmd) (s : State) : Nat :=
  judged c s (recArg c ++ [((recOf (arg0 c.desc) s).en == .on, stWrongState)])

/-- The number of the record that the trigger found or opened; for a lost trigger the spec gives none, so it is
a free value (log entry 2). -/
def effAcqTrigger (c : Cmd) (s : State) : Res :=
  let n := arg0 c.desc
  let s1 := fireTrig n { group := 0, entry := 15, type := 5, time := lineFrac s (frcNow s), subst := false } s
  match (recOf n s1).cap, (recOf n s1).cur with
  | .capturing, some r => resOk s1 r.num
  | _, _ =>
    let v := fresh s1
    resOk v.2 v.1

/-- ACQ_TRIGGER (R396). -/
def execAcqTrigger (c : Cmd) (s : State) : Out := runNow 0x0704 judgeAcqTrigger effAcqTrigger c s

/-- The recorder's open record has this number. -/
def isOpen (n num : Nat) (s : State) : Bool := ((recOf n s).cur.map fun r => r.num == num).getD false

/-- A record that the recorder holds, by its number. -/
def storedRec (n num : Nat) (s : State) : Option SRec := (heldRecs (recOf n s)).find? fun r => r.num == num

/-- A record of the buffer with its bytes, held or released while an EXPORT of it runs (R414). -/
def bufferRec (n num : Nat) (s : State) : Option SRec := (recOf n s).stored.find? fun r => r.num == num

/-- Record `num` changes in the buffer. -/
def modStored (n num : Nat) (f : SRec → SRec) (s : State) : State :=
  let x := recOf n s
  setRec n { x with stored := x.stored.map fun r => if r.num = num then f r else r } s

/-- A record leaves the buffer, and its space is free (R414). -/
def freeRec (n : Nat) (r : SRec) (s : State) : State :=
  let x := recOf n s
  setRec n { x with stored := x.stored.erase r, freeB := x.freeB + recSize r } s

def judgeAcqRelease (c : Cmd) (s : State) : Nat :=
  let n := arg0 c.desc
  let num := arg1 c.desc
  judged c s (recArg c ++ [((storedRec n num s).isSome || isOpen n num s, stNotFound), (!isOpen n num s, stWrongState)])

/-- The record is free, and its space with it, or once the last EXPORT of it has ended (R414). -/
def effAcqRelease (c : Cmd) (s : State) : Res :=
  let n := arg0 c.desc
  match storedRec n (arg1 c.desc) s with
  | none => res s stOk
  | some r => res (reblind n (if isIdle r then freeRec n r s else modStored n r.num (fun y => { y with released := true }) s)) stOk

/-- ACQ_RELEASE (R414). -/
def execAcqRelease (c : Cmd) (s : State) : Out := runNow 0x0705 judgeAcqRelease effAcqRelease c s

/-! ### Level changes and frames of SE1 (R395 to R397) -/

/-- TRIGGER_LEVEL_CHANGE (R396): the oldest change that has reached the engine. -/
def execTriggerLevelChange (s : State) : Out :=
  match s.acq.changes with
  | [] => .next s
  | c :: r => .next (takeChange c { s with acq := { s.acq with changes := r } })

/-- A frame that matches no entry (R397). -/
def se1Miss (s : State) : State := { s with acq := { s.acq with noMatch := (s.acq.noMatch + 1) % 2 ^ 64 } }

/-- The change that a GOOSE frame brings to the engine: a frame without a timestamp takes its time when it is processed. -/
def gooseChange (tag : Nat) (h : Held) (g : GoosePdu) (s : State) : Change :=
  { type := 3, src := BitVec.ofNat 32 tag, level := true, goose := some (tag, h.info.verdict, g.allData)
    time := (h.info.ts.map (lineFrac s)).getD 0, subst := h.info.ts.isNone }

/-- One frame from SE1 (R397): the last stNum of its tag is kept whether or not an entry names the tag, and a new one
reaches the engine behind the changes that wait there (R396). -/
def takeSe1 (h : Held) (s : State) : State :=
  let flow := h.info.flow.toNat
  let tag := flow % 65536
  match h.frame.body with
  | .goose g =>
    if bits flow 31 16 != 0xC000 || !g.wellFormed then se1Miss s
    else
      let hit := s.acq.recs.any fun e => e.2.trigs.any (hasTag tag)
      if look s.acq.stnums tag = some g.stNum.toNat then (if hit then s else se1Miss s)
      else
        let t := { s with acq := { s.acq with stnums := put s.acq.stnums tag g.stNum.toNat } }
        if hit then { t with acq := { t.acq with changes := t.acq.changes ++ [gooseChange tag h g s] } } else se1Miss t
  | _ => se1Miss s

/-- SE1_GOOSE_RX (R397): the oldest frame of SE1. -/
def execSe1GooseRx (s : State) : Out :=
  match s.sw.se1 with
  | [] => .next s
  | h :: r => .next (takeSe1 h { s with sw := { s.sw with se1 := r } })

/-! ### Rows and stored records (R403, R407) -/

/-- ROW_FORM (R403): the next row of the recorder. -/
def execRowForm (rec : Nat) (s : State) : Out :=
  named (decide (rec < 16)) (act ((recOf rec s).en != .off && rowReady (recOf rec s) s) s (formRow rec s))

/-- RECORD_STORED (R407): the closing record is stored; a STOPPING recorder reaches OFF. -/
def execRecordStored (rec : Nat) (s : State) : Out :=
  named (decide (rec < 16))
    (let x := recOf rec s
     match x.cur with
     | none => .next s
     | some r =>
       act (recDone x r s) s (if x.en == .stopping then offRec rec (storeRecord rec r s) else storeRecord rec r s))

/-! ### EXPORT (R413) -/

/-- The checks of EXPORT (R413). -/
def exportChecks (r : Nat) (d : Desc) (s : State) : Nat :=
  let n := arg0 d % 16
  checks
    [(bits (arg0 d) 7 4 == 0 && iovaOf d % 64 == 0 && lenOf d % 64 == 0 && decide (64 ≤ lenOf d) &&
        decide (lenOf d ≤ 16777216), stBadArg),
     ((recOf n s).set && (recOf n s).owner == r / 8 || !(recOf n s).set, stDenied),
     ((storedRec n (arg1 d) s).isSome || isOpen n (arg1 d) s, stNotFound), (!isOpen n (arg1 d) s, stWrongState)]

/-- The operation of this entry. -/
def isExport (r gen : Nat) (seq : Word) (x : XOp) : Bool := x.ring == r && x.gen == gen && x.seq == seq

/-- An EXPORT leaves the engine: the last one of a released record frees its space (R414). -/
def quitExport (x : XOp) (s : State) : State :=
  let t := modStored x.recNo x.num (fun r => { r with running := r.running - 1 })
    { s with acq := { s.acq with exports := s.acq.exports.erase x } }
  match bufferRec x.recNo x.num t with
  | some r => if r.released && isIdle r then reblind x.recNo (freeRec x.recNo r t) else t
  | none => t

/-- The bytes of an EXPORT that it has not copied (R413). -/
def exportLeft (x : XOp) (s : State) : Bytes :=
  ((((bufferRec x.recNo x.num s).map fun r => r.data).getD []).drop x.off |>.take x.len).drop x.copied

/-- An EXPORT ends with the bytes that it has copied (R413). -/
def endExport (st : Nat) (x : XOp) (s : State) : State :=
  finishOp x.ring x.gen x.seq st (if st = stOverQuota then none else some (BitVec.ofNat 32 x.copied))
    (decide (st = stOk ∧ x.copied < x.len)) (quitExport x s)

/-- EXPORT copies on, up to the next page of its buffer, at a request of the copier (R413, R417); it ends once every byte is
copied or a page cannot be mapped (R133). -/
def exportStep (x : XOp) (s : State) : State :=
  let left := exportLeft x s
  let at_ := x.iova + x.copied
  let chunk := left.take (4096 - at_ % 4096)
  let t := deliverOp (x.ring / 8) at_ chunk (acqAsk 16 s)
  let y := { x with copied := x.copied + chunk.length }
  if !t.2 then endExport stOverQuota x t.1
  else
    let u := countRec x.recNo 6 chunk.length { t.1 with acq := { t.1.acq with
      exports := t.1.acq.exports.map fun z => if z = x then y else z } }
    if chunk.length = left.length then endExport stOk y u else u

/-- EXPORT begins, whose checks passed when it was consumed (R107, R413): one whose record has been released, overwritten or
discarded since is not found. -/
def exportEff (r : Nat) (seq : Word) (s : State) : State :=
  match entryOf r seq s with
  | none => s
  | some e =>
    let d := e.desc
    let n := arg0 d % 16
    let t := (s.acq.exports.filter (isExport r e.gen seq)).foldl (fun u x => quitExport x u) s
    match storedRec n (arg1 d) t with
    | none => finishNow r seq stNotFound (some 0) t
    | some _ =>
      let x : XOp := { ring := r, gen := e.gen, seq := seq, recNo := n, num := arg1 d, iova := iovaOf d
                       off := arg0 d / 256 * 65536, len := lenOf d }
      exportStep x (modStored n (arg1 d) (fun y => { y with running := y.running + 1 })
        { t with acq := { t.acq with exports := t.acq.exports ++ [x] } })

/-- EXPORT (R413): a row begins it, and each further row copies on. -/
def execExportRec (ring : Nat) (seq : Word) (s : State) : Out :=
  if opReady 4 1 ring seq s then emitRow 4 1 ring seq none s (exportEff ring seq)
  else
    match s.acq.exports.find? fun x => x.ring == ring && x.seq == seq with
    | some x => named (decide (ring < 2048)) (.next (exportStep x s))
    | none => emitRow 4 1 ring seq none s (exportEff ring seq)

end Sys2Proof.Machine
end

