-- ==== Sys2Proof/Machine/GftOps.lean ====
section
/-! DEFINITION. What the rows of a Graft pair share: events, completeness, the mirror and its image, held
operations and their LOGs, re-seeds, and the switch-over (R451 to R487). -/

namespace Sys2Proof.Machine

open Sys2Proof

/-! ### Events, counters, the partner (R464, R487, R488) -/

/-- A Graft event: its bit of `GFT_EVT`, and a logbook record but for 0817h (R487, R493, R508). -/
def gftEvent (code kind index : Nat) (bit : Option Nat) (data : Bytes) (s : State) : State :=
  raise { src := 11, code := code, kind := kind, index := index, data := data, sev := if code = 0x0817 then none else some 2 }
    (match bit with
     | some b => { noteSet 0x170C b s with gft := { s.gft with evt := latch s.gft.evt b } }
     | none => s)

/-- Counter `i` of R488 plus `n`. -/
def countGft (i n : Nat) (s : State) : State := { s with gft := { s.gft with cnt := bumpBy s.gft.cnt i n } }

/-- A valid frame has arrived (R464). -/
def heardPeer (s : State) : State := { s with gft := { s.gft with lastRx := s.clk.now } }

/-- The module is a STANDBY that shadows or waits for its copy (R477). -/
def standbyLive (s : State) : Bool :=
  s.gft.role == .standby && (s.gft.phase == .syncing || s.gft.phase == .shadowing || s.gft.phase == .suspect)

/-- The partitions with a mirror list (R465). -/
def mirrored (s : State) : List (Nat × Part) := s.cnp.parts.filter fun e => !e.2.mirror.isEmpty

/-- Change every partition with a mirror list. -/
def modMirrored (f : Part → Part) (s : State) : State :=
  { s with cnp := { s.cnp with parts := s.cnp.parts.map fun e => if e.2.mirror.isEmpty then e else (e.1, f e.2) } }

/-- Change every partition with a mirror list, by its number. -/
def modMirrored' (f : Nat → Part → Part) (s : State) : State :=
  { s with cnp := { s.cnp with parts := s.cnp.parts.map fun e => if e.2.mirror.isEmpty then e else (e.1, f e.1 e.2) } }

/-- A shadow that is not in shadow execution. -/
def staled (x : Part) : Part := { x with current := false, stale := true }

/-! ### Redundancy (R5, R478) -/

/-- A triad in use (R5): T0, or one that carries a partition. -/
def triadUsed (t : Nat) (s : State) : Bool := t == 0 || s.cnp.parts.any fun e => e.2.triad == t

/-- The conditions of R5 and R478 that this module knows. -/
def redundant (s : State) : Bool :=
  activePaired s && s.gft.resignAt.isNone && s.gft.partnerOk && s.gft.lanes.length == 2 && !s.gft.late &&
    (s.cnp.parts.all fun e => e.1 == 0 || !(e.2.st == .ready || e.2.st == .running) || (!e.2.mirror.isEmpty && e.2.current)) &&
    (s.cnp.triads.all fun e => !triadUsed e.1 s || e.2.chans.length == 3) && s.cnp.lanes.length == 3 && s.cnp.spare != 0

/-- `COMPLETE` follows; it becomes 1 only after every fault has its record, and each change raises event 0811h
(R8, R478). -/
def noteComplete (s : State) : State :=
  let r := redundant s && (s.gft.complete || s.log.reqs.isEmpty)
  if r == s.gft.complete then s
  else gftEvent 0x0811 0 0 (some 1) [] { s with gft := { s.gft with complete := r } }

/-! ### The end of a pairing (R464, R470, R485) -/

/-- A forwarded command completes with its own status, and its executor is free (R470). -/
def endFwd (f : Fwd) (s : State) : State :=
  let t := finishCmd f.cmd f.status f.result s
  { t with hw := { t.hw with exec := if t.hw.exec == some f.cmd then none else t.hw.exec } }

/-- Every forwarded command that still waits completes (R470). -/
def endFwds : List Fwd → State → State
  | [], s => s
  | f :: fs, s => endFwds fs (endFwd f s)

/-- Nothing of the partner's copy of the module's state is known: what was sent, and the background copy (R467, R483). -/
def forgetSent (g : Gft) : Gft :=
  { g with
    mirrorRings := [], mirrorJrnl := [], mirrorCtx := [], mirrorPubs := [], mirrorRedun := [], mirrorChans := []
    queue := [], late := false, partnerOk := false, copying := false, toCopy := [], copied := [] }

/-- The pairing ends on this module; its role is the caller's to set. -/
def unpaired (s : State) : State :=
  let t := endFwds s.gft.waitAck { s with gft := { s.gft with waitAck := [] } }
  { t with gft := { forgetSent t.gft with
      phase := .unpaired, ownId := 0, peerId := 0, peer := none, switchDue := false, acks := []
      txWait := t.gft.txWait.filter fun q => gftClass (bodyType q.frame.body) != 2 } }

/-- EXPORTs of partition `p` leave the engine (R413). -/
def quitExports (p : Nat) (s : State) : State :=
  (s.acq.exports.filter fun x => x.ring / 8 == p).foldl (fun t x => quitExport x t) s

/-- Partition `p` goes with its rings (R485). -/
def destroyShadow (p : Nat) (s : State) : State :=
  let mine (r : Nat) : Bool := r < 2048 && r / 8 == p
  let t := quitExports p s
  destroyPart p { t with rng := { t.rng with
    rings := t.rng.rings.filter fun e => !mine e.1
    jrnl := t.rng.jrnl.filter fun e => !mine e.ring
    ghosts := t.rng.ghosts.filter fun g => !mine g.1 } }

/-- `destroyShadow` for each of a list. -/
def destroyShadows : List Nat → State → State
  | [], s => s
  | p :: ps, s => destroyShadows ps (destroyShadow p s)

/-- The mirror image and what belongs to it are discarded; its frames go to the scrubber (R468). -/
def dropImage (s : State) : State :=
  freeFrames s.gft.mirror.length { s with gft := { s.gft with
    mirror := [], mirrorRings := [], mirrorJrnl := [], mirrorCtx := [], mirrorPubs := [], mirrorRedun := []
    mirrorChans := [], confChans := [], staged := [], commits := [], fresh := [], held := [], logs := [], mark := 0
    markOsn := 0, synced := false, goodCommits := 0 } }

/-- A module unpairs (R485): ACTIVE stays ACTIVE; a STANDBY destroys its shadows and becomes IDLE. -/
def unpairNow (s : State) : State :=
  if s.gft.role == .standby then
    let t := destroyShadows ((s.cnp.parts.filter fun e => e.1 != 0).map Prod.fst) (dropImage (unpaired s))
    { t with gft := { t.gft with role := .idle, lost := false, watching := false } }
  else
    let t := unpaired s
    noteComplete { t with gft := { t.gft with watching := false } }

/-- A STANDBY becomes DETACHED: shadow execution stops (R477). While ACTIVE_N is high it claims the line instead. -/
def detach (s : State) : State :=
  if s.gft.line then s else
  let t := (mirrored s).foldl (fun u e => dropRun e.1 u) s
  modMirrored staled { t with gft := { t.gft with phase := .detached, held := [], logs := [] } }

/-! ### The mirror image (R467, R468, R563) -/

/-- The cells of a page of the image after lines are written into it. -/
def putLines : List (Nat × Bytes) → List Host.Cell → List Host.Cell
  | [], m => m
  | l :: ls, m => putLines ls (Memory.write m (l.1 % 64 * 64) (l.2.take 64))

/-- A page of the background copy enters the image; a new page takes a frame, charged to no quota (R468, R483). -/
def imagePage (p page : Nat) (data : Bytes) (s : State) : State :=
  let k := pageKey p page
  let t := if (look s.gft.mirror k).isSome then s else { s with pgk := takeFrames 1 s.pgk }
  { t with gft := { t.gft with mirror := put t.gft.mirror k (Memory.write [] 0 (data.take 4096)) } }

/-- Lines enter a page of the image (R468). A page whose copy has not come yet takes none: the copy brings them (R483). -/
def imageLines (p page : Nat) (lines : List (Nat × Bytes)) (s : State) : State :=
  match look s.gft.mirror (pageKey p page) with
  | some m => { s with gft := { s.gft with mirror := put s.gft.mirror (pageKey p page) (putLines lines m) } }
  | none => s

/-- The journal at M: the entries that it holds, without those that are done (R126, R131, R467). -/
def putEntries (l m : List JEntry) : List JEntry :=
  let same (a b : JEntry) : Bool := a.ring == b.ring && a.gen == b.gen && a.seq == b.seq
  (m.filter fun e => !l.any (same e)) ++ l.filter fun e => e.running || e.withdrawn || e.loose

/-- Put each pair of a list into a table. -/
def putAll {α : Type} (l : List (Nat × α)) (t : Tbl α) : Tbl α := l.foldl (fun u e => put u e.1 e.2) t

/-- An item of a STATE frame enters the record of M (R467). -/
def noteItem (g : Gft) : StateItem → Gft
  | .pub n v => { g with mirrorPubs := put g.mirrorPubs n v }
  | .chan n v => { g with mirrorChans := put g.mirrorChans n v }
  | .redun n v => { g with mirrorRedun := put g.mirrorRedun n v }

/-- One frame of the tick record is applied (R468). -/
def applyFrame (s : State) (f : MirrorFrame) : State :=
  match f with
  | .page p iova lines => imageLines p (iova / 4096) lines s
  | .context p ctx _ => { s with gft := { s.gft with mirrorCtx := put s.gft.mirrorCtx p ctx } }
  | .journal l => { s with gft := { s.gft with mirrorJrnl := putEntries l s.gft.mirrorJrnl } }
  | .ringMark l => { s with gft := { s.gft with mirrorRings := putAll l s.gft.mirrorRings } }
  | .state l => { s with gft := l.foldl noteItem s.gft }

/-- The place of an item: publications first, then channels, then PRP and HSR instances (R563). -/
def itemKey : StateItem → Nat
  | .pub n _ => n
  | .chan n _ => 2 ^ 16 + n
  | .redun n _ => 2 ^ 17 + n

/-- `TYPE` and first key of a frame: the order of R563. -/
def frameKey (f : MirrorFrame) : Nat × Nat :=
  match f with
  | .page p iova _ => (0x10, p * 2 ^ 48 + iova)
  | .context p _ _ => (0x11, p)
  | .journal l => (0x12, (l.head?.map fun e => e.ring * 2 ^ 32 + e.seq.toNat).getD 0)
  | .ringMark l => (0x13, (l.head?.map Prod.fst).getD 0)
  | .state l => (0x14, (l.head?.map itemKey).getD 0)

/-- A frame takes its place in the order of R563. -/
def insertFrame (f : MirrorFrame) : List MirrorFrame → List MirrorFrame
  | [] => [f]
  | g :: gs =>
    let a := frameKey f
    let b := frameKey g
    if a.1 < b.1 || (a.1 == b.1 && a.2 < b.2) then f :: g :: gs else g :: insertFrame f gs

/-- The payload of a PAGE frame: `PAGE_ADDR`, `LINES`, then the lines (R467). -/
def pagePayload (p iova : Nat) (lines : List (Nat × Bytes)) : Bytes :=
  toLe 8 (p * 2 ^ 48 + iova) ++ toLe 8 (lines.foldl (fun n l => n + 2 ^ (l.1 % 64)) 0) ++
    lines.flatMap fun l => padTo 64 l.2

/-- The payload of a frame (R464, R467); of the frames whose payload the spec does not lay out, an open value of the
frame's length (log entry 79). -/
def payloadOf (b : GBody) : Bytes :=
  match b with
  | .hello osn => toLe 8 osn
  | .mirror (.page p iova lines) => pagePayload p iova lines
  | _ => padTo (bodyLen b - 24) (Config.graftPayload b)

/-- A frame on the link: header, payload, and the trailer with its CRC-32C (R461). -/
def linkFrame (lseq : Nat) (f : GFrame) : Bytes :=
  let p := payloadOf f.body
  let b := toLe 1 (bodyType f.body) ++ toLe 1 0 ++ toLe 2 p.length ++ toLe 4 lseq ++ toLe 8 (f.mark % 2 ^ 48) ++ p
  b ++ toLe 4 (crc32c b) ++ toLe 4 0

/-- The CRC-64 over the payloads of a tick's frames (R563). -/
def recordCrc (l : List MirrorFrame) : Nat :=
  crc64 ((l.foldl (fun m f => insertFrame f m) []).flatMap fun f => payloadOf (.mirror f))

/-- The linear ns of a 48-bit mark that is not after the present. -/
def fullMark (m : Nat) (s : State) : Nat := lineNow s - (lineNow s + 2 ^ 48 - m % 2 ^ 48) % 2 ^ 48

/-! ### Values that the standby takes over (R354, R467, R474, R480) -/

/-- The first scheduled frame after `e` ns: its number and its time, from frame `i` whose predecessor was
handed over at `acc` (R354). -/
def schedFrom (p : GPub) (e : Nat) : Nat → Nat → Nat → Nat × Nat
  | 0, i, acc =>
    let g := max 1 (pubGap p i)
    let k := if e < acc then 0 else (e - acc) / g
    (i + k, acc + (k + 1) * g)
  | n + 1, i, acc =>
    let a := acc + pubGap p i
    if e < a then (i, a) else schedFrom p e n (i + 1) a

/-- An entry continues from the time of its change: the next frame is the first scheduled instant from now,
with the sqNum that the schedule gives it (R480). -/
def reschedule (s : State) (p : GPub) : GPub :=
  if !p.published then p
  else
    let e := lineNow s - p.vals.changeAt
    let r := schedFrom p e 40 1 0
    { p with vals := { p.vals with sqNum := (r.1 - 1) % 2 ^ 32, step := r.1, nextAt := s.clk.frc + (r.2 - e) } }

/-- The entry takes the active's change (R474). -/
def takePub (n : Nat) (v : PubValues) (s : State) : State :=
  let p := pubOf n s
  setPub n (reschedule s { p with published := true, vals := v }) s

/-- An item of a STATE frame enters the standby's own entries and channels, unless a LOG has given a newer one (R356, R467,
R480, R540). -/
def stateItem (from_ : Nat) (s : State) : StateItem → State
  | .pub n v =>
    let p := pubOf n s
    if p.published && decide (v.changeAt < p.vals.changeAt) then s else takePub n v s
  | .chan n v =>
    let c := outCh n s
    if from_ < lookD s.gft.confChans n 0 then s
    else setOut n { c with p := v.p, h := v.h, stP := v.stP, stH := v.stH } s
  | .redun _ _ => s

/-- The channels that an operation of binding 5 names. -/
def opChans (d : Desc) : List Nat :=
  match opOf d with
  | 1 => [arg0 d / 2 ^ 28]
  | 2 => maskChans (arg0 d)
  | _ => [arg0 d % 16]

/-- The effect of an operation of an emitting binding on its payload (R273, R353, R534). -/
def opEffect (b : Nat) (h : HeldOp) (d : Desc) (s : State) : State :=
  let bytes := match h.payload with
    | .bytes x => x
    | .frame _ => []
  let frame := match h.payload with
    | .frame f => f
    | .bytes _ => {}
  match b, opOf d with
  | 1, _ => sendEff h.ring h.seq frame s
  | 3, _ => publishEff h.ring h.seq bytes s
  | _, 1 => stageEff h.ring h.seq s
  | _, 2 => loadEff h.ring h.seq bytes s
  | _, _ => pulseEff h.ring h.seq s

/-- A held operation meets its LOG with an equal CRC: it completes with the active's status and result, and
its effect is applied inside the standby (R474). -/
def applyLog (h : HeldOp) (l : LogInfo) (d : Desc) (s : State) : State :=
  let s1 := countGft 8 1 (finishNow h.ring h.seq l.status (some l.result) s)
  if l.status ≠ stOk then s1
  else match bindingOf h.ring s with
    | 3 =>
      let n := arg0 d % 1024
      let data := padTo (lenOf d) (opBytes h.payload)
      if (pubOf n s).published && (pubOf n s).vals.stNum == l.result.toNat then s1
      else takePub n { stNum := l.result.toNat, data := data, numEntries := arg1 d, changeAt := l.changeAt } s1
    | 5 =>
      let s2 := opEffect 5 h d s1
      { s2 with gft := { s2.gft with
        confChans := (opChans d).foldl (fun t n => put t n s.cnp.tickStart) s2.gft.confChans } }
    | _ => s1

/-- A held operation and its LOG: with another CRC its partition becomes STALE (R474). An operation that failed a check
when it was consumed has a LOG without its payload (log entry 98). -/
def meetLog (h : HeldOp) (l : LogInfo) (s : State) : State :=
  let s1 := { s with gft := { s.gft with held := s.gft.held.erase h, logs := s.gft.logs.filter fun e => e.2 != l } }
  match entryOf h.ring h.seq s with
  | none => s1
  | some e =>
    if opCrc e.desc (some h.payload) == l.crc || (l.status != stOk && opCrc e.desc none == l.crc) then
      applyLog h l e.desc s1
    else markStale (h.ring / 8) s1

/-- Each held operation is matched with its LOG by ring and sequence (R474). -/
def matchLogs : List HeldOp → State → State
  | [], s => s
  | h :: hs, s =>
    matchLogs hs (match s.gft.logs.find? fun e => e.2.ring == h.ring && e.2.seq == h.seq with
      | some e => meetLog h e.2 s
      | none => s)

/-- Operations and LOGs of ticks before `from_` that are unmatched: counted, and their partitions are STALE
(R474). -/
def dropUnmatched (from_ : Nat) (s : State) : State :=
  let a := s.gft.held.filter fun h => decide (h.tick < from_)
  let b := s.gft.logs.filter fun e => decide (e.1 < from_)
  let s1 := { s with gft := { s.gft with
    held := s.gft.held.filter fun h => !decide (h.tick < from_)
    logs := s.gft.logs.filter fun e => !decide (e.1 < from_) } }
  let parts : List Nat := (a.map fun h => h.ring / 8) ++ (b.map fun e => e.2.ring / 8)
  parts.foldl (fun t p => countGft 9 1 (markStale p t)) s1

/-! ### Restore from the image (R131, R476, R479) -/

/-- One page of the image goes into its partition's memory; a page not yet mapped is mapped. -/
def pageBack (p : Nat) (s : State) (e : Nat × List Host.Cell) : State :=
  let page := e.1 % 2 ^ 36
  let base := partBase p + page * 4096
  let mem := Memory.fill (Memory.zero s.mem base 4096) (e.2.map fun c => (base + c.1, c.2))
  match partOf p s with
  | none => s
  | some x =>
    if isMapped x (page * 4096) then { s with mem := mem }
    else setPart p { x with pages := put x.pages page 1 } { s with mem := mem, pgk := takeFrames 1 s.pgk }

/-- A ring at its mirrored mark, with the `LAST_OSN` that its shadow line holds (R114, R131). -/
def ringBack (s : State) (r : Nat) (x : Ring) : Ring :=
  match look s.gft.mirrorRings r with
  | some m => ringFromShadow (r / 8) s.mem { x with a := m.a, c := m.c, k := m.k, gen := m.gen, mark := m }
  | none => x

/-- An entry of M (R131): a RUNNING one is re-executed from its first byte, and completes with REPLAYED where its
binding emits; a WITHDRAWN one has its completion written again, or waits as LOOSE for its descriptor (R130). -/
def entryBack (s : State) (e : JEntry) : JRec :=
  let b := bindingOf e.ring s
  let x : JRec := { ring := e.ring, gen := e.gen, seq := e.seq, desc := e.desc, rpl := true, afterMark := false,
                    loose := e.loose, saved := e.saved }
  if e.running then { x with replayed := b == 1 || b == 3 || b == 5 }
  else rewriteReady { x with
    withdrawn := true, stage := .finished, status := e.status, cflags := e.cflags, result := some e.result }

/-- The pre-images that a partition holds are gone (R206, R219). -/
def dropUndo (p : Nat) (s : State) : State :=
  let n := ((partOf p s).map fun x => x.stored.length).getD 0
  { s with pgk := { s.pgk with undo := s.pgk.undo - n } }

/-- Memory, context, rings and journal of partition `p` as they stood at M (R131, R476). -/
def imageBack (p : Nat) (s : State) : State :=
  let mine (r : Nat) : Bool := r < 2048 && r / 8 == p
  let s1 := (s.gft.mirror.filter fun e => e.1 / 2 ^ 36 == p).foldl (pageBack p) (quitExports p (dropUndo p (dropRun p s)))
  let s2 := modPart p (fun x =>
    let ctx := (look s.gft.mirrorCtx p).getD x.markCtx
    { x with
      ctx := ctx, markCtx := ctx, sig := sigOf ctx, heldWrites := [], pre := [], stored := [], lines := [], staged := []
      written := [], wrote := [], stale := false, current := false }) s1
  let jrnl := (s2.rng.jrnl.filter fun e => !mine e.ring) ++ (s.gft.mirrorJrnl.filter fun e => mine e.ring).map (entryBack s)
  { s2 with
    rng := { s2.rng with
      rings := s2.rng.rings.map fun e => if mine e.1 then (e.1, ringBack s2 e.1 e.2) else e
      jrnl := jrnl
      orphans := s2.rng.orphans.filter fun e => !mine e.ring
      peak := max s2.rng.peak jrnl.length }
    gft := { s2.gft with held := s2.gft.held.filter fun h => h.ring / 8 != p } }

/-- A re-seed (R476): the run ends, the image at M comes back, and a catch-up run follows. -/
def reseed (p : Nat) (s : State) : State :=
  let t := ((partOf p s).map fun x => x.triad).getD 0
  let s1 := countGft 7 1 (imageBack p s)
  let x := triadOf t s1
  setTriad t { x with catchup := x.catchup.erase p ++ [p] } s1

/-- `reseed` for each of a list. -/
def reseeds : List Nat → State → State
  | [], s => s
  | p :: ps, s => reseeds ps (reseed p s)

/-! ### Switch-over (R33, R131, R479, R480) -/

/-- The OSN with which the count resumes (R33). -/
def resumeOsn (s : State) : Nat := max (max (s.gft.markOsn + 2 ^ 24) (s.gft.helloOsn + 2 ^ 24)) (s.arb.osn + 1)

/-- A mirrored partition that is not CURRENT is restored at M and runs from the next boundary, with event 0813h
and the ticks skipped (R479). -/
def restoreOld (p : Nat) (s : State) : State :=
  let f := baseRate s.cnp.rate
  let n := tickAbs f s.cnp.tickEnd - tickAbs f (fullMark s.gft.mark s)
  let s1 := modPart p (fun x => { x with dirtyStop := true }) (imageBack p s)
  gftEvent 0x0813 1 p none (toLe 4 n) s1

/-- The pages of partition `p` that are mirrored: its regions and its ring regions, each once (R465). -/
def mirrorKeys (p : Nat) (x : Part) (s : State) : List Nat :=
  let regions := x.mirror.flatMap fun r => (List.range r.2).map (r.1 / 4096 + ·)
  (ringPages p s ++ regions).dedup.map (pageKey p)

/-- The image holds partition `p` as it stood at M: every page of it has come, none after M (R465, R468, R483). -/
def imageFull (p : Nat) (x : Part) (s : State) : Bool :=
  s.gft.synced && (mirrorKeys p x s).all fun k =>
    (look s.gft.mirror k).isSome && ((look s.gft.fresh k).map fun m => decide (fullMark m s < fullMark s.gft.mark s)).getD true

/-- Each partition other than P0 at a switch-over (R479). One whose first copy has not come whole was never mirrored. -/
def takePart (s : State) (e : Nat × Part) : State :=
  if e.1 = 0 || (!e.2.mirror.isEmpty && e.2.current) then s
  else if !e.2.mirror.isEmpty && imageFull e.1 e.2 s then restoreOld e.1 s
  else partitionReset e.1 s

/-- The operation's own checks, step 4 of R107, as far as the descriptor and the state decide them. -/
def opChecks (r b : Nat) (d : Desc) (s : State) : Nat :=
  match b, opOf d with
  | _, 0 => stOk
  | 1, _ => sendFixed r d s
  | 2, _ => recvChecks d
  | 3, _ => pubChecks r d s
  | 4, _ => exportChecks r d s
  | _, 1 => stageChecks r d s
  | _, 2 => loadChecks r d s
  | _, _ => pulseChecks r d s

/-- The result word of an operation that failed its checks: 0 of a SEND and of a LOAD (R273, R534). -/
def failResult (b op : Nat) : Option Word := if b = 1 ∨ (b = 5 ∧ op = 2) then some 0 else none

/-- A held operation is executed now, after the checks that it had not had as a shadow (R107, R479); one that ran at M completes with REPLAYED and `RPL` (R131). -/
def runHeld (s : State) (h : HeldOp) : State :=
  match entryOf h.ring h.seq s with
  | none => s
  | some e =>
    let ran := s.gft.mirrorJrnl.any fun j => j.ring == h.ring && j.gen == e.gen && j.seq == h.seq
    let s1 := modEntry h.ring e.gen h.seq (fun x => { x with replayed := ran, rpl := x.rpl || ran }) s
    let b := bindingOf h.ring s
    let st := opChecks h.ring b e.desc s1
    countGft 10 1 (if st = stOk then opEffect b h e.desc s1 else finishNow h.ring h.seq st (failResult b (opOf e.desc)) s1)

/-- A PRP or HSR counter resumes at its mirrored value plus 16,384 (R281). -/
def resumeCounter (g : Gft) (e : Nat × Redun) : Nat × Redun :=
  match look g.mirrorRedun e.1 with
  | some v => (e.1, { e.2 with counter := (v + 16384) % 65536 })
  | none => e

/-- Every PRP and HSR counter resumes (R281). -/
def resumeRedun (s : State) : State :=
  { s with sw := { s.sw with redun := s.sw.redun.map (resumeCounter s.gft) } }

/-- The roles of a STANDBY that becomes ACTIVE; the partner is marked LOST (R479). After a claim the module is unpaired; after
a handover its old active may become its STANDBY (R457, R464, R484). -/
def activeGft (handover : Bool) (g : Gft) : Gft :=
  { g with
    role := .active, phase := if handover then .active else .unpaired
    ownId := if handover then g.ownId else 0, peerId := if handover then g.peerId else 0
    peer := if handover then g.peer else none, acks := []
    driving := true, line := false, claimAt := none, lost := true, partnerOk := false, complete := false }

/-- The pages that the old active holds after a handover: every mirrored one, as it copies its own state (R484). -/
def peerPages (handover : Bool) (s : State) : Tbl Nat :=
  if handover then putAll ((mirrored s).flatMap fun e => (mirrorKeys e.1 e.2 s).map fun k => (k, 0)) [] else []

/-- A STANDBY becomes ACTIVE, by claim or by handover (R479); LOGs that have come are matched first (R480). -/
def switchOver (handover : Bool) (s : State) : State :=
  let osn := resumeOsn s
  let late := decide (s.gft.helloAt + 5000000 < s.clk.now)
  let s0 := matchLogs s.gft.held s
  let s1 := applyPins { s0 with arb := { s0.arb with osn := osn - 1 }, gft := activeGft handover s0.gft }
  let s2 := s1.cnp.parts.foldl takePart s1
  let s3 := resumeRedun { s2 with gse := { s2.gse with pubs := s2.gse.pubs.map fun e => (e.1, reschedule s2 e.2) } }
  let s4 := dropImage (s3.gft.held.foldl runHeld s3)
  let s5 := modMirrored (fun x => { x with current := false, stale := false })
    { s4 with gft := { forgetSent s4.gft with copied := peerPages handover s4 } }
  gftEvent 0x0812 0 0 (some 2) (toLe 8 osn ++ [BitVec.ofNat 8 (b2n late)]) (countGft 14 1 s5)

/-! ### The mirror of a tick on the active (R466, R467, R469) -/

/-- The number of distinct pages of a list of regions and of a partition's ring regions (R465). -/
def mirrorPages (p : Nat) (l : List (Nat × Nat)) (s : State) : Nat :=
  let own := (ringPages p s).dedup.filter fun k =>
    !l.any fun r => decide (r.1 / 4096 ≤ k) && decide (k < r.1 / 4096 + r.2)
  own.length + l.foldl (fun n r => n + r.2) 0

/-- The lines of a page that were written in the tick, with their bytes (R466). -/
def pageLines (p : Nat) (x : Part) (page : Nat) (s : State) : List (Nat × Bytes) :=
  ((List.range 64).filter fun i => x.written.contains (page * 64 + i)).map fun i =>
    (i, Memory.read s.mem (partBase p + page * 4096 + 64 * i) 64)

/-- The PAGE frames of a partition, and its CONTEXT if it was dispatched in the tick or the standby has none of it yet
(R466, R467). -/
def partMirror (s : State) (e : Nat × Part) : List MirrorFrame :=
  let keys := mirrorKeys e.1 e.2 s
  let pages := (e.2.written.map fun l => l / 64).dedup.filter fun k => keys.contains (pageKey e.1 k)
  (pages.map fun k => .page e.1 (k * 4096) (pageLines e.1 e.2 k s)) ++
    (if e.2.ran || (look s.gft.mirrorCtx e.1).isNone then [.context e.1 e.2.ctx (sigOf e.2.ctx)] else [])

/-- A list in pieces of at most `k`, from a bound `n` on their number. -/
def pieces {α : Type} (k : Nat) : Nat → List α → List (List α)
  | 0, _ => []
  | n + 1, l => if l.isEmpty then [] else l.take k :: pieces k n (l.drop k)

/-- A journal entry as the mirror carries it. -/
def mirrorEntry (e : JRec) : JEntry :=
  { ring := e.ring, gen := e.gen, seq := e.seq, desc := e.desc, running := running e
    withdrawn := e.withdrawn, loose := e.loose, saved := e.saved, status := e.status
    cflags := e.cflags, result := e.result.getD 0 }

/-- The ring belongs to a mirrored partition. -/
def ringMirrored (s : State) (r : Nat) : Bool := r < 2048 && (mirrored s).any fun e => e.1 == r / 8

/-- The journal of the mirrored partitions as it stands. -/
def jrnlNow (s : State) : List JEntry := (s.rng.jrnl.filter fun e => ringMirrored s e.ring && !e.done).map mirrorEntry

/-- An entry takes its place by ring and sequence (R563). -/
def insertEntry (e : JEntry) : List JEntry → List JEntry
  | [] => [e]
  | x :: xs =>
    if e.ring < x.ring || (e.ring == x.ring && decide (e.seq.toNat < x.seq.toNat)) then e :: x :: xs
    else x :: insertEntry e xs

/-- The entries created or changed since the last mirror, and those retired, which are in no state any more (R467). -/
def jrnlChanges (s : State) : List JEntry :=
  let now := jrnlNow s
  let there (e : JEntry) : Bool := now.any fun x => x.ring == e.ring && x.gen == e.gen && x.seq == e.seq
  let gone := (s.gft.mirrorJrnl.filter fun e => !there e).map fun e =>
    { e with running := false, withdrawn := false, loose := false }
  ((now.filter fun e => !s.gft.mirrorJrnl.contains e) ++ gone).foldl (fun l e => insertEntry e l) []

/-- The marks that a ring takes at this boundary (R127). -/
def markNow (x : Ring) : RingMark := { a := x.a, c := x.c, k := x.k, gen := x.gen }

/-- The values of a channel. -/
def chanValues (c : OutCh) : ChanValues := { p := c.p, h := c.h, stP := c.stP, stH := c.stH }

/-- The changed items of the STATE frames (R467). -/
def stateChanges (s : State) : List StateItem :=
  ((s.gse.pubs.filter fun e => look s.gft.mirrorPubs e.1 != some e.2.vals).map fun e => .pub e.1 e.2.vals) ++
    ((s.out.chans.filter fun e => look s.gft.mirrorChans e.1 != some (chanValues e.2)).map fun e => .chan e.1 (chanValues e.2)) ++
    ((s.sw.redun.filter fun e => look s.gft.mirrorRedun e.1 != some e.2.counter).map fun e => .redun e.1 e.2.counter)

/-- The rings of mirrored partitions whose mark changes (R467). -/
def markChanges (s : State) : List (Nat × RingMark) :=
  (s.rng.rings.filter fun e => ringMirrored s e.1 && look s.gft.mirrorRings e.1 != some (markNow e.2)).map fun e =>
    (e.1, markNow e.2)

/-- The frames of the mirror of the tick that ends (R466, R467). -/
def tickFrames (s : State) : List MirrorFrame :=
  let j := jrnlChanges s
  let m := markChanges s
  let c := stateChanges s
  (mirrored s).flatMap (partMirror s) ++ (pieces 40 j.length j).map .journal ++ (pieces 64 m.length m).map .ringMark ++
    (pieces 64 c.length c).map .state

/-- What the module has sent, after this mirror. -/
def noteSent (s : State) : Gft :=
  let g := (stateChanges s).foldl noteItem s.gft
  { g with
    mirrorRings := putAll (markChanges s) g.mirrorRings
    mirrorJrnl := jrnlNow s
    mirrorCtx := putAll ((mirrored s).map fun e => (e.1, e.2.ctx)) g.mirrorCtx }

/-- The COMMIT of the tick that ends (R467, R563). -/
def tickCommit (l : List MirrorFrame) (s : State) : CommitInfo :=
  { mark := s.cnp.tickStart % 2 ^ 48, count := l.length, crc := BitVec.ofNat 64 (recordCrc l), osn := s.arb.osn
    digests := lookD s.gft.digests (s.cnp.tickStart % 2 ^ 48) [] }

/-- Every page that is mirrored. -/
def allKeys (s : State) : List Nat := (mirrored s).flatMap fun e => mirrorKeys e.1 e.2 s

/-- The background copy begins: every mirrored and ring page (R469, R483 step 4). -/
def startCopy (s : State) : State :=
  { s with gft := { forgetSent s.gft with
    copying := true, toCopy := allKeys s
    txWait := s.gft.txWait.filter fun q => gftClass (bodyType q.frame.body) != 2 } }

/-- Pages newly mirrored wait for their copy; those no longer mirrored are forgotten (R465, R483). -/
def pagesToCopy (s : State) : State :=
  let all := allKeys s
  { s with gft := { s.gft with
    toCopy := (s.gft.toCopy.filter all.contains) ++
      all.filter fun k => !s.gft.toCopy.contains k && (look s.gft.copied k).isNone
    copied := s.gft.copied.filter fun e => all.contains e.1 } }

/-- The copy has reached a mark at which no page remains (R483 step 4). -/
def copyDone (s : State) : Bool := s.gft.toCopy.isEmpty && !(s.gft.copied.any fun e => writtenSince e s)

/-- A boundary before that: pages written since they were copied are copied again (R483 step 4). -/
def copyOn (s : State) : State :=
  let again := (s.gft.copied.filter fun e => writtenSince e s).map Prod.fst
  { s with gft := { s.gft with
    toCopy := s.gft.toCopy ++ again
    copied := (s.gft.copied.filter fun e => !again.contains e.1).map fun e => (e.1, 0) } }

/-- The mirror of the ended tick is queued; at 16 the queue is dropped, and the copy begins anew (R466, R469). A partner that
has never answered since a handover is no partner (log entry 114). -/
def sendMirror (s : State) : State :=
  let l := tickFrames s
  let bytes := (l.map frameLen).foldl (· + ·) 88
  let frames := l.map GBody.mirror ++ [.commit (tickCommit l s)]
  let q : List (Nat × Nat) := s.gft.queue ++ [(s.cnp.tickEnd % 2 ^ 48, bytes)]
  let pages := (l.filter fun f => bodyType (.mirror f) == 0x10).length
  let s1 := countGft 2 bytes (countGft 1 pages { s with gft := { noteSent s with queue := q } })
  if q.length < 16 then gftQueue (frames.map fun b => { frame := frameNow b s }) s1
  else if s.gft.lost then unpaired s1
  else startCopy (modMirrored (fun x => { x with current := false }) s1)

/-! ### Input digests (R475) -/

/-- The order of the deliveries: kind, object number, sequence. -/
def inputBefore (a b : Nat × Nat × Nat × Bytes) : Bool :=
  decide (a.1 < b.1) || (a.1 == b.1 && (decide (a.2.1 < b.2.1) || (a.2.1 == b.2.1 && decide (a.2.2.1 < b.2.2.1))))

/-- A delivery takes its place. -/
def insertInput (x : Nat × Nat × Nat × Bytes) : List (Nat × Nat × Nat × Bytes) → List (Nat × Nat × Nat × Bytes)
  | [] => [x]
  | y :: ys => if inputBefore x y then x :: y :: ys else y :: insertInput x ys

/-- The input digest of a partition: the CRC-64 over its deliveries in order (R475, R559). -/
def inputDigest (x : Part) : BitVec 64 :=
  BitVec.ofNat 64 (crc64 ((x.inputs.foldl (fun l e => insertInput e l) []).flatMap fun e => e.2.2.2))

/-- The digests of the tick that ends are kept under its start, those of the last 32 ticks with them, and new inputs
begin (R475). -/
def takeInputs (s : State) : State :=
  let all := (mirrored s).map fun e => (e.1, inputDigest e.2)
  let live := s.gft.digests.filter fun e => decide (lineNow s < fullMark e.1 s + 8000000)
  { s with
    gft := { s.gft with digests := if all.isEmpty then live else put live (s.cnp.tickStart % 2 ^ 48) all }
    cnp := { s.cnp with parts := s.cnp.parts.map fun e => (e.1, { e.2 with inputs := [] }) } }

/-- The digest that this module computed for a partition and a mark. -/
def ownDigest (mark p : Nat) (s : State) : Option (BitVec 64) := look (lookD s.gft.digests (mark % 2 ^ 48) []) p

/-- The tick boundary on the active: the mirror of the ended tick is queued, unless the background copy still runs; one that
has waited a whole tick is late (R466, R469, R478, R483). -/
def mirrorTick (s : State) : State :=
  if s.gft.role != .active || s.gft.phase != .active then s
  else
    let t := pagesToCopy s
    if t.gft.copying && !copyDone t then copyOn t
    else
      let late := !t.gft.queue.isEmpty
      let s1 := sendMirror { t with gft := { t.gft with copying := false, late := late } }
      if late then gftEvent 0x0814 0 0 (some 3) [] (countGft 3 1 s1) else s1

/-- The module's own journal and OSN at the boundary, for the comparison of R476 and the copy of R484. -/
def ownMark (s : State) : State :=
  if s.gft.phase == .unpaired then s
  else { s with gft := { s.gft with ownJrnl := jrnlNow s, ownOsn := s.arb.osn } }

/-- Partition `p` still waits for its catch-up run (R182). -/
def awaitsCatchup (p : Nat) (s : State) : Bool := s.cnp.triads.any fun t => t.2.catchup.contains p

/-- The tick boundary on the standby: a shadow whose catch-up run has ended is CURRENT; one that did not run is
STALE (R476 step 4). -/
def shadowTick (s : State) : State :=
  if !standbyLive s then s
  else { s with cnp := { s.cnp with parts := s.cnp.parts.map fun e =>
    if e.2.mirror.isEmpty || e.2.stale || e.2.current then e
    else (e.1, if awaitsCatchup e.1 s then staled e.2 else { e.2 with current := true }) } }

end Sys2Proof.Machine
end

