-- ==== Sys2Proof/Machine/Graft.lean ====
section
/-! DEFINITION. The commands of group 08xxh, the link, the interlock and the rows of a Graft pair (R451 to
R493). -/

namespace Sys2Proof.Machine

open Sys2Proof

/-! ### Registers of the pair (R489 to R492) -/

/-- Codes of R490. -/
def roleCode : Role → Nat
  | .standalone => 0
  | .idle => 1
  | .active => 2
  | .standby => 3

/-- Codes of `PHASE` (R490). -/
def phaseCode : GPhase → Nat
  | .unpaired => 0
  | .pairing => 1
  | .syncing => 2
  | .shadowing => 3
  | .suspect => 4
  | .detached => 5
  | .active => 6

/-- The module is paired. -/
def isPaired (s : State) : Bool := s.gft.phase != .unpaired && s.gft.phase != .pairing

/-- ACTIVE_N reads high after the filter of R455. -/
def lineHigh (s : State) : Bool :=
  s.gft.line && (s.gft.lineSince == 0 || decide (s.gft.lineSince + 500 ≤ s.clk.now))

/-- `GFT_STAT` (R490). -/
def gftStat (s : State) : Nat :=
  let g := s.gft
  2 ^ 31 * b2n g.complete + 2 ^ 30 * b2n (g.lanes.contains 1) + 2 ^ 29 * b2n (g.lanes.contains 0) +
    2 ^ 28 * b2n (lineHigh s) + 2 ^ 27 * b2n g.driving + 2 ^ 24 * roleCode g.role + 2 ^ 20 * phaseCode g.phase +
    2 ^ 15 * b2n g.posB + (if isPaired s then g.ownId % 4096 else 0)

/-- `GFT_PEER` (R491). -/
def gftPeer (s : State) : Nat := if isPaired s then s.gft.peerId % 4096 else 0

/-- `GFT_MIRROR` (R492). -/
def gftMirrorWord (s : State) : Nat := min s.gft.queue.length 16 * 2 ^ 22 + s.gft.bytes % 2 ^ 22

/-- The output block of `GFT_STATUS` (R489). -/
def gftBlock (s : State) : Bytes :=
  let g := s.gft
  let peer := g.peer.getD {}
  let paired := isPaired s
  let words := [gftStat s, gftPeer s, gftMirrorWord s, g.evt.toNat].flatMap (toLe 4)
  padTo 64 (words ++ toLe 8 (g.mark % 2 ^ 48) ++ toLe 2 (mirrored s).length ++
    toLe 2 ((mirrored s).filter fun e => e.2.current).length ++ toLe 4 g.fwdSeqP0.toNat ++
    toLe 8 (if paired then peer.serial else 0) ++ toLe 4 (if paired then peer.version.toNat else 0) ++
    toLe 4 g.fwdSeqHost.toNat)

/-! ### GFT_PAIR (R483) -/

/-- The module holds no partition other than P0. -/
def onlyP0 (s : State) : Bool := s.cnp.parts.all fun e => e.1 == 0

def judgeGftPair (c : Cmd) (s : State) : Nat :=
  let own := arg0 c.desc
  let peer := arg1 c.desc
  judged c s [(decide (own < 4096) && decide (peer < 4096) && own != peer, stBadArg), (noBlock c, stBadArg),
    (s.gft.role != .standalone && (s.gft.phase == .unpaired || s.gft.phase == .pairing), stWrongState),
    (s.gft.role == .active || onlyP0 s, stWrongState), (!kindBusy .pairing s, stBusy)]

/-- The Branch identity of R483: 8 bytes under the Branch's key. -/
def branchIdentity (x : KSlot) : Nat := leAt (kdf x.key Config.labelBranchId []) 0 8

/-- The VALID Branches: slot, owner, partition and identity (R483). -/
def branchList (s : State) : List (Nat × Nat × Nat × Nat) :=
  (s.key.slots.filter fun e => e.2.level == 1 && e.2.st == .valid).map fun e =>
    (e.1, e.2.owner, e.2.part, branchIdentity e.2)

/-- `MODREV` (R554). -/
def modRev : Nat := 0x00484230

/-- What the module's PAIR frame says (R483 step 1). -/
def ownPair (s : State) : PairInfo :=
  { serial := Config.serial.toNat, id := s.gft.ownId, peer := s.gft.peerId, pos := b2n s.gft.posB
    modrev := BitVec.ofNat 32 modRev, rom := Config.romVersion, version := s.boot.version
    active := s.gft.role == .active, idle := s.gft.role == .idle, onlyP0 := onlyP0 s
    grove := groveTag s, branches := branchList s }

/-- A PAIR frame leaves (R483 step 1). -/
def startPair (c : Cmd) (s : State) : State :=
  let t := { s with gft := { s.gft with phase := .pairing, ownId := arg0 c.desc, peerId := arg1 c.desc } }
  gftSendOne (.pair (ownPair t)) t

/-- GFT_PAIR (R164, R483): its completion is `CLASS_B_FINISH`. -/
def execGftPair (c : Cmd) (s : State) : Out := runBeside 0x0801 .pairing judgeGftPair startPair c s

/-- The identity checks of R483 step 2. -/
def pairIdentity (p : PairInfo) (s : State) : Bool :=
  p.id == s.gft.peerId && p.peer == s.gft.ownId && p.pos != b2n s.gft.posB &&
    p.modrev == BitVec.ofNat 32 modRev && p.rom == Config.romVersion && p.version == s.boot.version &&
    (groveTag s).isSome && p.grove == groveTag s && p.branches == branchList s

/-- Exactly one is ACTIVE; the other is IDLE with no partition other than P0 (R483). -/
def pairRoles (p : PairInfo) (s : State) : Bool :=
  (s.gft.role == .active && p.idle && !p.active && p.onlyP0) || (s.gft.role == .idle && p.active && !p.idle && onlyP0 s)

/-- The command is forwarded at a pairing: that of a Leaf that is still usable, a rollover that is still in effect, or any
other (R483 step 3). -/
def stillHolds (s : State) (e : ConfCmd) : Bool :=
  let x := lookD s.key.slots e.object {}
  let op := opOf e.cmd.desc
  if op == 0x0601 then x.level == 2 && usable x
  else if op == 0x0604 then x.st == .rollPending || x.st == .rollOverlap
  else true

/-- The place of a command at a pairing (R483 step 3): by group, rollovers after the keys, then by kind and number of its
object. -/
def confBefore (a b : ConfCmd) : Bool :=
  let key (e : ConfCmd) : Nat :=
    let op := opOf e.cmd.desc
    op / 256 * 2 ^ 48 + b2n (op == 0x0604) * 2 ^ 47 + confKind op * 2 ^ 32 + e.object
  decide (key a < key b)

/-- A command takes its place behind those that it does not come before. -/
def insertConf (e : ConfCmd) : List ConfCmd → List ConfCmd
  | [] => [e]
  | x :: xs => if confBefore e x then e :: x :: xs else x :: insertConf e xs

/-- The configuration in effect, in the order in which it is forwarded (R483 step 3). -/
def configNow (s : State) : List ConfCmd := (s.hw.config.filter (stillHolds s)).foldl (fun l e => insertConf e l) []

/-- Its CMD frames leave (R483 step 3). -/
def forwardConfig (s : State) : State :=
  let l := configNow s
  countGft 13 l.length (gftQueue (l.map fun e => { frame := frameNow (.cmd { cmd := e.cmd, status := e.status }) s }) s)

/-- The pairing stands (R483 steps 3 and 4). -/
def pairUp (s : State) : State :=
  let s1 := { s with gft := { s.gft with lost := false, watching := true, lastRx := s.clk.now } }
  if s.gft.role == .active then startCopy (forwardConfig { s1 with gft := { s1.gft with phase := .active } })
  else { s1 with gft := { s1.gft with
    role := .standby, phase := .syncing, synced := false, line := false, goodCommits := 0 } }

/-- A pairing that fails leaves the module unpaired. -/
def pairFailed (s : State) : State :=
  { s with gft := { s.gft with phase := .unpaired, ownId := 0, peerId := 0, peer := none } }

/-- GFT_PAIR may end: a PAIR frame has arrived or 9 s have passed (R483). -/
def pairMayEnd (b : BCmd) (s : State) : Bool :=
  s.gft.peer.isSome || decide (b.since + 9000000000 ≤ s.clk.now)

/-- The end of GFT_PAIR (R483). -/
def finishPair (_c : Cmd) (s : State) : Res :=
  match s.gft.peer with
  | none => res (pairFailed s) stNoPartner
  | some p =>
    if !pairIdentity p s then res (pairFailed s) stDenied
    else if !pairRoles p s then res (pairFailed s) stWrongState
    else res (pairUp s) stOk

/-! ### The other commands of group 08xxh -/

def judgeGftUnpair (c : Cmd) (s : State) : Nat :=
  judged c s [(noBlock c, stBadArg), (isPaired s, stWrongState)]

/-- UNPAIR leaves on every lane that is UP, and the module unpairs at once (R485). -/
def effGftUnpair (_c : Cmd) (s : State) : Res := res (unpairNow (gftSendAll .unpair s)) stOk

/-- GFT_UNPAIR (R485). -/
def execGftUnpair (c : Cmd) (s : State) : Out := runNow 0x0802 judgeGftUnpair effGftUnpair c s

/-- The region entries of `GFT_MIRROR` as base and pages (R465). -/
def regionList (b : Bytes) : List (Nat × Nat) :=
  (List.range (wordAt b 0 % 64)).map fun i => (dwordAt b (1 + 4 * i), wordAt b (3 + 4 * i))

/-- No two of a list of regions share a page. -/
def regionsApart : List (Nat × Nat) → Bool
  | [] => true
  | r :: rs => rs.all (fun q => r.1 + r.2 * 4096 ≤ q.1 || q.1 + q.2 * 4096 ≤ r.1) && regionsApart rs

/-- The block of `GFT_MIRROR` is well formed (R465). -/
def mirrorRanges (b : Bytes) : Bool :=
  let n := wordAt b 0
  decide (n ≤ 32) && regionsApart (regionList b) &&
    ((regionList b).all fun r => r.1 % 4096 == 0 && decide (r.1 + r.2 * 4096 ≤ 2 ^ 48)) &&
    (List.range n).all fun i => wordAt b (4 + 4 * i) == 0

/-- The static sum of R469, with the new list of partition `p` empty or not. -/
def mirrorSum (p : Nat) (empty : Bool) (s : State) : Nat :=
  let on := s.cnp.parts.filter fun e => if e.1 = p then !empty else !e.2.mirror.isEmpty
  on.foldl (fun n e => n + ((e.2.dirty + 2 * (ringsOf e.1 s).length) * 4136 + 664)) 8192

/-- C of R469 with both lanes UP, in bytes. -/
def linkBytes (s : State) : Nat := (if s.cnp.rate then 208333 else 250000) * 25 / 4 - 12500

def judgeGftMirror (c : Cmd) (s : State) : Nat :=
  let p := argPart c
  let n := wordAt c.block 0 % 64
  judged c s [(p != 0, stDenied), (decide (arg0 c.desc < 256), stBadArg), (inputBlock c (4 + 16 * n) s, stBadArg),
    (mirrorRanges c.block, stBadArg), (partExists p s, stNotFound),
    (decide (mirrorSum p (n == 0) s ≤ linkBytes s), stNoResource)]

/-- The standby's image loses the pages of partition `p` that are mirrored no more (R465, R468). -/
def trimImage (p : Nat) (s : State) : State :=
  let keys := ((partOf p s).map fun x => if x.mirror.isEmpty then [] else mirrorKeys p x s).getD []
  let gone := s.gft.mirror.filter fun e => e.1 / 2 ^ 36 == p && !keys.contains e.1
  freeFrames gone.length { s with gft := { s.gft with
    mirror := s.gft.mirror.filter fun e => !(e.1 / 2 ^ 36 == p && !keys.contains e.1) } }

/-- What the active has sent of partition `p` is sent anew with the next mirror (R465; log entry 114). -/
def sendAnew (p : Nat) (g : Gft) : Gft :=
  { g with
    mirrorCtx := del g.mirrorCtx p
    mirrorRings := g.mirrorRings.filter fun e => e.1 / 8 != p
    mirrorJrnl := g.mirrorJrnl.filter fun e => e.ring / 8 != p }

/-- The new list replaces p's at the boundary; until its new pages are copied, p is not CURRENT (R465). -/
def effGftMirror (c : Cmd) (s : State) : Res :=
  let p := argPart c
  let l := regionList c.block
  let standby := s.gft.role == .standby
  let u := modPart p (fun x => { x with mirror := l, current := false, stale := standby && !l.isEmpty }) s
  let t := if standby then trimImage p u
    else if activePaired s then pagesToCopy { u with gft := sendAnew p u.gft } else u
  resOk (noteComplete t) (if l.isEmpty then 0 else mirrorPages p l t)

/-- GFT_MIRROR (R465, R469). -/
def execGftMirror (c : Cmd) (s : State) : Out := runAtTick 0x0803 judgeGftMirror c s

def judgeGftSwitch (c : Cmd) (s : State) : Nat :=
  judged c s [(noBlock c, stBadArg), (s.gft.role == .active, stWrongState),
    (!(s.gft.phase == .active && s.gft.lost), stNoPartner), (s.gft.complete, stWrongState)]

/-- The active resigns at the boundary; the old active will be a STANDBY (R484). -/
def effGftSwitch (_c : Cmd) (s : State) : Res :=
  let t := resign s
  res { t with gft := { t.gft with switchDue := t.gft.resignAt.isSome } } stOk

/-- GFT_SWITCH (R484). -/
def execGftSwitch (c : Cmd) (s : State) : Out := runAtTick 0x0804 judgeGftSwitch c s

def judgeGftStatus (c : Cmd) (s : State) : Nat := judged c s [(outputBuffer c 64 s, stBadArg)]

def effGftStatus (c : Cmd) (s : State) : Res := resOut c (gftBlock s) none s

/-- GFT_STATUS (R489). -/
def execGftStatus (c : Cmd) (s : State) : Out := runNow 0x0805 judgeGftStatus effGftStatus c s

/-! ### Lanes and frames of the link (R460 to R464) -/

/-- A lane changed: event 0817h (R460, R487). -/
def laneEvent (lane : Nat) (s : State) : State := noteComplete (gftEvent 0x0817 0 lane (some 6) [] s)

/-- GRAFT_LANE_UP (R460). A COLD reset holds the link (R77). -/
def execGraftLaneUp (lane : Nat) (s : State) : Out :=
  named (decide (lane < 2))
    (act (!s.gft.lanes.contains lane && !coldHeld s) s
      (frameStarts (laneEvent lane (sdclkBack { s with gft := { s.gft with
        lanes := if lane = 0 then 0 :: s.gft.lanes else s.gft.lanes ++ [lane] } }))))

/-- A lane that goes DOWN (R462): what waited for it alone is dropped, and its unacknowledged frames are resent on the
other lane, if it is UP, each at a frame start of its class and with an `LSEQ` of that lane (R463). -/
def moveUnacked (lane : Nat) (s : State) : State :=
  let other := 1 - lane
  let l := lookD s.gft.unacked lane []
  let t := { s with gft := { s.gft with txWait := s.gft.txWait.filter fun q => q.lane != some lane } }
  if s.gft.lanes.contains other then
    countGft 12 l.length (gftQueue (l.map fun e => { lane := some other, frame := e.2 })
      { t with gft := { t.gft with unacked := del t.gft.unacked lane } })
  else t

/-- A lane goes DOWN (R460, R462). -/
def laneDown (lane : Nat) (s : State) : State :=
  if s.gft.lanes.contains lane then
    laneEvent lane (moveUnacked lane { s with gft := { s.gft with lanes := s.gft.lanes.filter fun l => l != lane } })
  else s

/-- GRAFT_LANE_DOWN (R460). -/
def execGraftLaneDown (lane : Nat) (s : State) : Out := named (decide (lane < 2)) (.next (laneDown lane s))

/-- R5's conditions on triads, lanes and the spare, on this module (R478). -/
def soundHere (s : State) : Bool :=
  (s.cnp.triads.all fun e => !triadUsed e.1 s || e.2.chans.length == 3) && s.cnp.lanes.length == 3 && s.cnp.spare != 0

/-- What an ACK of this module says, beside the `LSEQ`s (R462, R468, R478; log entry 114). -/
def ackInfo (mark : Option Nat) (s : State) : AckInfo :=
  { mark := mark, shadowing := s.gft.role == .standby && s.gft.phase == .shadowing, sound := soundHere s
    current := if s.gft.role == .standby then ((mirrored s).filter fun e => e.2.current).map Prod.fst else [] }

/-- An ACK leaves. -/
def sendAck (mark : Option Nat) (s : State) : State :=
  let t := { s with gft := { s.gft with rxSince := 0 } }
  gftSendOne (.ack 0 0 (ackInfo mark t)) t

/-- HELLOs on every lane that is UP and an ACK, every 2,000 ns (R462, R464). -/
def linkTimers (s : State) : State :=
  if s.gft.lanes.isEmpty || coldHeld s || s.clk.now < s.gft.helloDue then s
  else
    let t := { s with gft := { s.gft with helloDue := s.clk.now + 2000 } }
    sendAck none (gftSend (.hello 0) t.gft.lanes t)

/-- A lane takes the frame that it expected (R462); after every 16 frames an ACK leaves. -/
def tookFrame (lane : Nat) (s : State) : State :=
  let t := heardPeer { s with gft := { s.gft with
    laneRx := put s.gft.laneRx lane ((lookD s.gft.laneRx lane 0 + 1) % 2 ^ 32), rxSince := s.gft.rxSince + 1 } }
  if 16 ≤ t.gft.rxSince then sendAck none t else t

/-- The frame is the next one that its lane expects, and its CRC holds (R462). -/
def nextOnLane (l : GLink) (s : State) : Bool :=
  l.crcOk && l.lseq == BitVec.ofNat 32 (lookD s.gft.laneRx l.lane 0)

/-- A frame reaches a lane (R462): one that is not the next expected, or whose CRC fails, is discarded; a failing CRC is
counted (R488). -/
def onLane (l : GLink) (s : State) (f : State → State) : Out :=
  named (decide (l.lane < 2))
    (act (s.gft.lanes.contains l.lane && !coldHeld s) s
      (if nextOnLane l s then f (tookFrame l.lane s) else if l.crcOk then s else countGft 11 1 s))

/-- A frame that its sender sends on every lane (R452, R457, R485): each lane that is UP takes it (log entry 114). -/
def onLanes (s : State) (f : State → State) : State :=
  if s.gft.lanes.isEmpty || coldHeld s then s else f (s.gft.lanes.foldl (fun t l => tookFrame l t) s)

/-- HELLO (R464): the receiver keeps the OSN. -/
def execHello (lane : Nat) (lseq : Word) (osn : Option Nat) (s : State) : Out :=
  onLane { lane := lane, lseq := lseq, crcOk := osn.isSome } s fun t =>
    { t with gft := { t.gft with helloOsn := osn.getD 0, helloAt := t.clk.now } }

/-- The frames of a lane that an ACK leaves unacknowledged. -/
def keepUnacked (next : Word) (l : List (Nat × GFrame)) : List (Nat × GFrame) :=
  l.filter fun e => 0 ≤ (BitVec.ofNat 32 e.1 - next).toInt

/-- Unacknowledged frames of a lane that do not wait already: they are sent again, with their `LSEQ` (R462). -/
def resends (lane : Nat) (l : List (Nat × GFrame)) (s : State) : List TxReq :=
  (l.map fun e => { lane := some lane, seq := some e.1, frame := e.2 }).filter fun q => !s.gft.txWait.contains q

/-- The ACK's `LSEQ`s: what they leave is sent again from there (R462). -/
def takeAck (lane0 lane1 : Word) (s : State) : State :=
  let u0 := keepUnacked lane0 (lookD s.gft.unacked 0 [])
  let u1 := keepUnacked lane1 (lookD s.gft.unacked 1 [])
  let t := { s with gft := { s.gft with unacked := put (put s.gft.unacked 0 u0) 1 u1 } }
  let l := resends 0 u0 t ++ resends 1 u1 t
  countGft 12 l.length (gftQueue l t)

/-- The mirrors of a queue up to the one that a mark names, and the rest. -/
def commitQueue (mark : Nat) (q : List (Nat × Nat)) : Option (List (Nat × Nat) × List (Nat × Nat)) :=
  if q.any fun e => e.1 == mark then
    let k := (q.takeWhile fun e => e.1 != mark).length + 1
    some (q.take k, q.drop k)
  else none

/-- The active learns that a mirror has committed (R468, R469). -/
def mirrorDone (mark : Nat) (s : State) : State :=
  match commitQueue mark s.gft.queue with
  | none => s
  | some (gone, rest) => countGft 0 gone.length { s with gft := { s.gft with
      queue := rest, bytes := (gone.getLast?.map Prod.snd).getD 0, late := decide (2 ≤ rest.length), mark := mark } }

/-- The active learns of its standby: its phase, R5's conditions on it, and its CURRENT partitions (R478). After a handover
the first ACK shows that the partner is there. -/
def peerState (a : AckInfo) (s : State) : State :=
  modMirrored' (fun p x => { x with current := a.current.contains p })
    { s with gft := { s.gft with lost := false, partnerOk := a.shadowing && a.sound } }

/-- ACK (R462, R468, R478). -/
def execAck (lane0 lane1 : Word) (a : OnLink AckInfo) (s : State) : Out :=
  onLane a.link s fun t =>
    let u := takeAck lane0 lane1 t
    if u.gft.role != .active || u.gft.phase != .active then u
    else
      let v := match a.body.mark with
        | some m => mirrorDone (m % 2 ^ 48) u
        | none => u
      noteComplete (if a.body.mark.isSome || !u.gft.lost then peerState a.body v else v)

/-- A partner is watched: one that the module has paired with and whose loss it has not reported (R464). -/
def watches (s : State) : Bool := s.gft.watching

/-- PARTNER_LOST (R464): event 0810h; an ACTIVE continues unpaired, a STANDBY becomes DETACHED (R477). -/
def execPartnerLost (s : State) : Out :=
  act (watches s && decide (s.gft.lastRx + 20000 ≤ s.clk.now)) s
    (let t := gftEvent 0x0810 0 0 (some 0) [] { s with gft := { s.gft with lost := true, watching := false } }
     if s.gft.role == .standby then detach t else if isPaired s then noteComplete (unpaired t) else t)

/-! ### Handover and claims (R455 to R459) -/

/-- RESIGN (R457): the standby drives ACTIVE_N low, becomes ACTIVE and sends TAKEN. -/
def execResign (s : State) : Out :=
  .next (onLanes s fun t =>
    if t.gft.role == .standby && t.gft.claimAt.isNone then gftSendAll .taken (switchOver true t) else t)

/-- A page of partition `p` as it stood at the mark, page-relative. -/
def pageAtMark (p : Nat) (x : Part) (page : Nat) (s : State) : List Host.Cell :=
  let base := partBase p + page * 4096
  let l := match look x.staged page, look x.pre page with
    | some m, _ => m
    | none, some m => m
    | none, none => Memory.cells s.mem base 4096
  l.map fun c => (c.1 - base, c.2)

/-- The image pages of a partition from its own state (R484). -/
def ownPages (s : State) (e : Nat × Part) : List (Nat × List Host.Cell) :=
  (mirrorKeys e.1 e.2 s).map fun k => (k, pageAtMark e.1 e.2 (k % 2 ^ 36) s)

/-- The image filled by a local copy of the module's own state at the mark (R484). -/
def selfImage (s : State) : State :=
  let l := mirrored s
  let pages := l.flatMap (ownPages s)
  { s with
    pgk := takeFrames pages.length s.pgk
    gft := { s.gft with
      mirror := putAll pages []
      mirrorRings := (s.rng.rings.filter fun e => ringMirrored s e.1).map fun e => (e.1, e.2.mark)
      mirrorJrnl := s.gft.ownJrnl
      mirrorCtx := l.map fun e => (e.1, e.2.markCtx)
      mark := s.cnp.tickStart % 2 ^ 48, markOsn := s.gft.ownOsn, synced := true } }

/-- After `GFT_SWITCH` the old active is a STANDBY that starts at step 5 of R483 (R484). -/
def oldActive (s : State) : State :=
  let t := selfImage { s with gft := forgetSent s.gft }
  modMirrored staled { t with gft := { t.gft with
    role := .standby, phase := .syncing, switchDue := false, lost := false, goodCommits := 0 } }

/-- The module no longer drives ACTIVE_N. -/
def undrive (s : State) : State :=
  { s with gft := { s.gft with driving := false, resignAt := none, claimAt := none, lineSince := s.clk.now } }

/-- A module that has stopped being ACTIVE is IDLE and unpaired. -/
def toIdle (s : State) : State :=
  let t := unpaired s
  applyPins (noteComplete { t with gft := { t.gft with role := .idle, lost := false, watching := false } })

/-- TAKEN (R457): the resigning module stops driving; after `GFT_SWITCH` it becomes STANDBY (R484). -/
def execTaken (s : State) : Out :=
  .next (onLanes s fun u =>
    if u.gft.resignAt.isSome then
      let t := undrive u
      if u.gft.switchDue then applyPins (noteComplete (oldActive (endFwds t.gft.waitAck { t with gft := { t.gft with waitAck := [] } })))
      else toIdle t
    else u)

/-- TAKEN_TIMEOUT (R457): no TAKEN within 2,000 ns; not in a WARM reset. -/
def execTakenTimeout (s : State) : Out :=
  let due := (s.gft.resignAt.map fun t => decide (t + 2000 ≤ s.clk.now)).getD false
  act (due && s.rst.phase == .started) s
    (let t := undrive s
     toIdle { t with gft := { t.gft with line := true } })

/-- The wait time of a claim (R456); a DETACHED standby claims as an IDLE module (R477). -/
def claimWait (g : Gft) : Nat :=
  if g.posB && (g.role == .idle || g.phase == .detached) then 1500 else 500

/-- The row can be the end of the wait: a line that the module knows to be high has been so for that long. One that it knew
as low has risen, and the row says that it has waited (R456; log entry 70). -/
def waited (s : State) : Bool := !s.gft.line || s.gft.lineSince == 0 || decide (s.gft.lineSince + claimWait s.gft ≤ s.clk.now)

/-- ACTIVE_N_HIGH (R456): the line has been high for the wait time of the role and position, and the module
drives it low. -/
def execActiveNHigh (s : State) : Out :=
  act (s.rst.phase == .started && !s.boot.seedling && (s.gft.role == .idle || s.gft.role == .standby) &&
      !s.gft.driving && s.gft.claimAt.isNone && waited s) s
    { s with gft := { s.gft with driving := true, claimAt := some s.clk.now, line := false, lineSince := s.clk.now } }

/-- The claim stands: an IDLE module becomes ACTIVE, a STANDBY switches over (R456, R479). -/
def claimed (s : State) : State :=
  if s.gft.role == .standby then switchOver false s
  else applyPins { s with gft := { s.gft with role := .active, driving := true, line := false, claimAt := none } }

/-- CLAIM_CONFIRMATION (R456): the level read 200 ns after driving. -/
def execClaimConfirmation (low : Bool) (s : State) : Out :=
  let due := (s.gft.claimAt.map fun t => decide (t + 200 ≤ s.clk.now)).getD false
  act due s
    (if low then claimed s
     else
      let t := undrive s
      gftEvent 0x0818 0 0 (some 7) [] { t with gft := { t.gft with line := true } })

/-- A tick boundary is 4,000 ns overdue on the FRC (R458): the running tick began at the FRC time `tickFrc`. -/
def tickOverdue (s : State) : Bool :=
  decide (s.cnp.tickFrc + (s.cnp.tickEnd - s.cnp.tickStart) + 4000 ≤ s.clk.frc)

/-- KEEPALIVE_LAPSE (R458): a tick boundary is 4,000 ns overdue. -/
def execKeepaliveLapse (s : State) : Out :=
  act (s.gft.role == .active && s.gft.driving && s.rst.phase == .started && tickOverdue s) s
    (let t := undrive (if activePaired s && s.gft.resignAt.isNone then gftSendAll .resign s else s)
     toIdle { t with gft := { t.gft with line := true } })

/-! ### Forwarded commands (R470, R472) -/

/-- The submit sequence of the last command of each ring that was forwarded and executed (R472, R489). -/
def noteFwd (ring : Nat) (seq : Word) (s : State) : State :=
  { s with gft := { s.gft with
    fwdSeqP0 := if ring = Config.ringP0 then seq else s.gft.fwdSeqP0
    fwdSeqHost := if ring = Config.ringHost then seq else s.gft.fwdSeqHost } }

/-- The standby's status differs (R470): event 0815h. -/
def cmdDiffers (s : State) : State :=
  noteComplete (gftEvent 0x0815 0 0 (some 4) [] { s with gft := { s.gft with partnerOk := false } })

/-- CMDACK (R470): the command completes on the active with its own status; another status on the standby
raises event 0815h. -/
def execCmdack (ring : Nat) (seq : Word) (status : OnLink Nat) (s : State) : Out :=
  onLane status.link s fun t =>
    match t.gft.waitAck.find? fun f => f.cmd.ring == ring && f.cmd.desc.w1 == seq with
    | some f =>
      let s1 := { t with gft := { t.gft with waitAck := t.gft.waitAck.erase f } }
      let s2 := endFwd f (noteFwd ring seq s1)
      if f.status = status.body then s2 else cmdDiffers s2
    | none =>
      match t.hw.config.find? fun e => e.cmd.ring == ring && e.cmd.desc.w1 == seq with
      | some e => if e.status = status.body || !activePaired t then t else cmdDiffers t
      | none => t

/-! ### The standby: LOG, mirror and commits (R466 to R476) -/

/-- The LOG has come before (R462): it waits already, or its operation has been consumed and is held no more. -/
def logKnown (l : LogInfo) (s : State) : Bool :=
  (s.gft.logs.any fun e => e.2.ring == l.ring && e.2.seq == l.seq) ||
    (((look s.rng.rings l.ring).map fun x => decide ((l.seq - x.c).toInt < 0)).getD false &&
      !(s.gft.held.any fun h => h.ring == l.ring && h.seq == l.seq))

/-- LOG (R474): it waits for the held operation of its ring and sequence, or completes it. Its tick is that of its `MARK`. -/
def execLog (l : OnLink LogInfo) (s : State) : Out :=
  onLane l.link s fun t =>
    if !standbyLive t || logKnown l.body t then t
    else
      let u := { t with gft := { t.gft with logs := t.gft.logs ++ [(fullMark l.link.mark t, l.body)] } }
      matchLogs (u.gft.held.filter fun h => h.ring == l.body.ring && h.seq == l.body.seq) u

/-- A row of an operation of an emitting binding: on a shadow, the operation that is held meets a LOG that has come before it
(R474). -/
def matchHeld (ring : Nat) (seq : Word) (row : State → Out) (s : State) : Out :=
  if !shadowed ring s then row s
  else match row s with
  | .next t => .next (matchLogs (t.gft.held.filter fun h => h.ring == ring && h.seq == seq) t)
  | .fault e => .fault e
  | .refused e => .refused e

/-- The tick of a `MARK` has not been committed. -/
def notCommitted (mark : Nat) (s : State) : Bool := !s.gft.synced || decide (fullMark s.gft.mark s ≤ fullMark mark s)

/-- The partition's slot-end signature at the mark, where the active dispatched it (R185, R476). -/
def sigEqual (p : Nat) (x : Part) (frames : List MirrorFrame) : Bool :=
  frames.all fun f => match f with
    | .context q _ crc => q != p || crc == sigOf x.markCtx
    | .page _ _ _ | .journal _ | .ringMark _ | .state _ => true

/-- A page of partition `p` without its module-local bytes (R475; log entry 115). -/
def plainPage (x : Part) (page : Nat) (m : List Host.Cell) : List Host.Cell :=
  m.filter fun c =>
    let a := page * 4096 + c.1
    !x.locals.any fun e => decide (e.1 ≤ a) && decide (a < e.1 + e.2)

/-- The pages that the active wrote in the tick. -/
def framePages (p : Nat) (frames : List MirrorFrame) : List Nat :=
  frames.filterMap fun f => match f with
    | .page q iova _ => if q = p then some (iova / 4096) else none
    | .context _ _ _ | .journal _ | .ringMark _ | .state _ => none

/-- The pages that either module wrote in the tick are equal (R476). -/
def pagesEqual (p : Nat) (x : Part) (frames : List MirrorFrame) (s : State) : Bool :=
  (framePages p frames ++ x.wrote).all fun k =>
    match look s.gft.mirror (pageKey p k) with
    | some m => plainPage x k m == plainPage x k (pageAtMark p x k s)
    | none => true

/-- The ring marks and the journal entries of partition `p` are equal (R476). -/
def ringsEqual (p : Nat) (s : State) : Bool :=
  let own := s.gft.ownJrnl.filter fun e => e.ring / 8 == p
  let there := s.gft.mirrorJrnl.filter fun e => e.ring / 8 == p
  (s.rng.rings.all fun e => e.1 / 8 != p || (look s.gft.mirrorRings e.1).getD e.2.mark == e.2.mark) &&
    own.all there.contains && there.all own.contains

/-- The shadow of partition `p` equals the mirror (R476). -/
def shadowEqual (p : Nat) (x : Part) (frames : List MirrorFrame) (s : State) : Bool :=
  sigEqual p x frames && pagesEqual p x frames s && ringsEqual p s

/-- The comparison of one CURRENT partition at a commit (R476); the input digests are those of the COMMIT and the
module's own for its mark (R475). -/
def compareShadow (c : CommitInfo) (frames : List MirrorFrame) (s : State) (e : Nat × Part) : State :=
  if shadowEqual e.1 e.2 frames s then countGft 4 1 s
  else
    let t := markStale e.1 s
    if look c.digests e.1 ≠ ownDigest c.mark e.1 s then countGft 5 1 t
    else gftEvent 0x0816 1 e.1 (some 5) []
      (countGft 6 1 { t with gft := { t.gft with phase := .suspect, goodCommits := 0 } })

/-- The phase after a commit: `clean` says that every mirrored partition matched (R477). -/
def phaseAfter (clean : Bool) (g : Gft) : Gft :=
  if g.phase == .syncing then { g with phase := .shadowing }
  else if g.phase == .suspect && clean then
    if 99 ≤ g.goodCommits then { g with phase := .shadowing, goodCommits := 0 } else { g with goodCommits := g.goodCommits + 1 }
  else g

/-- The end of the tick that starts at `m`: the mark that its commit makes M (R468). -/
def markAfter (m : Nat) (s : State) : Nat := nextTickNs (baseRate s.cnp.rate) m

/-- The frames staged for a tick. -/
def stagedOf (mark : Nat) (s : State) : List MirrorFrame := (s.gft.staged.filter fun e => e.1 == mark % 2 ^ 48).map Prod.snd

/-- The STATE frames of a commit enter the standby's own entries and channels (R467, R480). -/
def applyState (from_ : Nat) (s : State) (f : MirrorFrame) : State :=
  match f with
  | .state l => l.foldl (stateItem from_) s
  | .page _ _ _ | .context _ _ _ | .journal _ | .ringMark _ => s

/-- The tick record of `c` enters the image and becomes M (R468). -/
def commitRecord (c : CommitInfo) (frames : List MirrorFrame) (s : State) : State :=
  let start := fullMark c.mark s
  let s1 := frames.foldl applyFrame { s with gft := { s.gft with
    staged := s.gft.staged.filter fun e => e.1 != c.mark % 2 ^ 48
    commits := s.gft.commits.filter fun x => x.mark % 2 ^ 48 != c.mark % 2 ^ 48 } }
  let pages := (frames.filter fun f => bodyType (.mirror f) == 0x10).length
  let bytes := (frames.map frameLen).foldl (· + ·) 88
  let s2 := countGft 0 1 (countGft 1 pages (countGft 2 bytes s1))
  frames.foldl (applyState start) { s2 with gft := { s2.gft with
    mark := markAfter start s % 2 ^ 48, markOsn := c.osn, bytes := bytes, synced := true
    fresh := s2.gft.fresh.filter fun e => decide (start < fullMark e.2 s) } }

/-- The partitions whose re-seed may begin: STALE ones of which the image is whole (R476, R483). -/
def reseedable (s : State) : List Nat := ((mirrored s).filter fun e => e.2.stale && imageFull e.1 e.2 s).map Prod.fst

/-- What the shadows undergo at a commit: LOGs, comparison, and re-seeds, or none of the latter two while the
mirror lags (R474, R476). -/
def commitShadows (c : CommitInfo) (frames : List MirrorFrame) (s : State) : State :=
  let start := fullMark c.mark s
  let late := decide (markAfter (markAfter start s) s ≤ s.cnp.tickStart)
  let s1 := matchLogs s.gft.held s
  let cur := (mirrored s1).filter fun e => e.2.current
  let clean := !late && (mirrored s1).all fun e => e.2.current && shadowEqual e.1 e.2 frames s1
  let s2 := if late then modMirrored (fun x => if x.current then staled x else x) s1
    else if s1.cnp.tickStart < markAfter start s then s1
    else cur.foldl (compareShadow c frames) s1
  let s3 := dropUnmatched start s2
  let s4 := if late then s3 else reseeds (reseedable s3) s3
  { s4 with gft := phaseAfter clean s4.gft }

/-- A tick commits: the record, the shadows, and the ACK that names the mark (R468). -/
def commitTick (c : CommitInfo) (s : State) : State :=
  let frames := stagedOf c.mark s
  let t := commitShadows c frames (commitRecord c frames s)
  sendAck (some t.gft.mark) t

/-- Every frame that a COMMIT counts has arrived, and its CRC-64 matches (R468, R563). -/
def recordWhole (c : CommitInfo) (s : State) : Bool :=
  let frames := stagedOf c.mark s
  frames.length == c.count && recordCrc frames == c.crc.toNat

/-- The earliest tick whose COMMIT has arrived. -/
def firstCommit (s : State) : Option CommitInfo :=
  s.gft.commits.find? fun c => s.gft.commits.all fun x => decide (fullMark c.mark s ≤ fullMark x.mark s)

/-- Ticks commit in order, as far as their frames have arrived (R468, R469); `n` bounds their number. -/
def commitWhole : Nat → State → State
  | 0, s => s
  | n + 1, s =>
    match firstCommit s with
    | none => s
    | some c => if standbyLive s && recordWhole c s then commitWhole n (commitTick c s) else s

/-- Whatever is whole commits. -/
def tryCommits (s : State) : State := commitWhole s.gft.commits.length s

/-- MIRROR_FRAME (R468): a frame is staged under the tick of its `MARK`; a copy changes nothing. -/
def execMirrorFrame (link : GLink) (f : MirrorFrame) (s : State) : Out :=
  onLane link s fun t =>
    let e := (link.mark % 2 ^ 48, f)
    if !standbyLive t || t.gft.staged.contains e || !notCommitted link.mark t then t
    else tryCommits { t with gft := { t.gft with staged := t.gft.staged ++ [e] } }

/-- COMMIT (R468, R476): the tick commits when every frame has arrived and the CRC-64 matches; until then its COMMIT is
kept. -/
def execCommit (link : GLink) (c : CommitInfo) (s : State) : Out :=
  onLane link s fun t =>
    if !standbyLive t || (t.gft.commits.any fun x => x.mark % 2 ^ 48 == c.mark % 2 ^ 48) || !notCommitted c.mark t then t
    else tryCommits { t with gft := { t.gft with commits := t.gft.commits ++ [c] } }

/-- The standby is SYNCING again: the active has dropped its queue (R469). -/
def syncAgain (s : State) : State :=
  modMirrored staled { s with gft := { s.gft with phase := .syncing, staged := [], commits := [] } }

/-- The page is a copy of one that has come (R462): of the same tick or an older one. -/
def syncKnown (key mark : Nat) (s : State) : Bool :=
  ((look s.gft.fresh key).map fun m => decide (fullMark mark s < fullMark m s) ||
    (s.gft.phase != .syncing && decide (fullMark mark s ≤ fullMark m s))).getD false || !notCommitted mark s

/-- SYNC (R483 step 4): a page of the background copy. A page that the standby holds, copied again outside SYNCING, says that
the active has dropped its queue (R469). -/
def execSync (part iova : Nat) (data : Bytes) (link : GLink) (s : State) : Out :=
  onLane link s fun t =>
    let key := pageKey part (iova / 4096)
    if !standbyLive t || syncKnown key link.mark t then t
    else
      let u := if t.gft.phase != .syncing && (look t.gft.mirror key).isSome then syncAgain t else t
      let v := imagePage part (iova / 4096) data u
      { v with gft := { v.gft with fresh := put v.gft.fresh key (link.mark % 2 ^ 48) } }

/-! ### Pairing frames (R483, R485) -/

/-- PAIR (R483): the partner's identity is kept while the module is not paired. A partner that is ACTIVE holds the line low
(R455). -/
def execPair (p : OnLink PairInfo) (s : State) : Out :=
  onLane p.link s fun t =>
    if isPaired t || t.gft.role == .standalone then t
    else { t with gft := { t.gft with
      peer := some p.body, line := t.gft.line && !p.body.active } }

/-- UNPAIR (R485). -/
def execUnpair (s : State) : Out := .next (onLanes s fun t => if isPaired t then unpairNow t else t)

/-! ### Operations of emitting bindings on a shadow (R474) -/

/-- SEND (R273). -/
def execSend (ring : Nat) (seq : Word) (frame : Frame) (s : State) : Out := matchHeld ring seq (sendRow ring seq frame) s

/-- PUBLISH (R353). -/
def execPublish (ring : Nat) (seq : Word) (data : Bytes) (s : State) : Out := matchHeld ring seq (publishRow ring seq data) s

/-- STAGE (R534). -/
def execStage (ring : Nat) (seq : Word) (s : State) : Out := matchHeld ring seq (stageRow ring seq) s

/-- LOAD (R534). -/
def execLoad (ring : Nat) (seq : Word) (block : Bytes) (s : State) : Out := matchHeld ring seq (loadRow ring seq block) s

/-- PULSE (R534). -/
def execPulse (ring : Nat) (seq : Word) (s : State) : Out := matchHeld ring seq (pulseRow ring seq) s

end Sys2Proof.Machine
end

