-- ==== Sys2Proof/Machine/Observe.lean ====
section
/-! DEFINITION. The trace port, the counter banks and the sensor list (R171, R546 to R552). -/

namespace Sys2Proof.Machine

open Sys2Proof

/-! ### OBS_TRACE (R548) -/

/-- Reserved bits of the trace set-up are 0 (R548). -/
def traceRanges (b : Bytes) : Bool :=
  decide (wordAt b 0 < 16) && wordAt b 1 % 2 == 0 && decide (wordAt b 1 < 128) && decide (wordAt b 2 < 65536) &&
    decide (wordAt b 3 < 512)

def judgeObsTrace (c : Cmd) (s : State) : Nat :=
  judged c s [(inputBlock c 16 s, stBadArg), (traceRanges c.block, stBadArg)]

/-- The trace lanes of a mask. -/
def lanesOf (m : Nat) : List Nat := (List.range 4).filter fun t => tbit m t

/-- The set-up applies from the next record; a lane that becomes enabled counts its units from 0 (R548,
R549). -/
def effObsTrace (c : Cmd) (s : State) : Res :=
  let w0 := wordAt c.block 0
  let w3 := wordAt c.block 3
  let new := (lanesOf w0).filter fun t => !tbit s.obs.lanes t
  let on := if s.pow.sdclk then new else []
  res { s with obs := { s.obs with
    lanes := w0, types := wordAt c.block 1, sources := wordAt c.block 2, part := w3 % 256, partEn := tbit w3 8
    lseq := s.obs.lseq.filter fun e => !new.contains e.1
    sending := (s.obs.sending.filter fun t => tbit w0 t) ++ on } } stOk

/-- OBS_TRACE (R548). -/
def execObsTrace (c : Cmd) (s : State) : Out := runNow 0x0B01 judgeObsTrace effObsTrace c s

/-! ### Records and units (R549, R550) -/

/-- Records that wait for a lane. -/
def laneQueue (t : Nat) (s : State) : List TrRec := lookD s.obs.queues t []

/-- The enabled lane with the fewest records waiting, ties to the lower lane (R550). -/
def leastLane (s : State) : List Nat → Option Nat
  | [] => none
  | t :: ts => match leastLane s ts with
    | none => some t
    | some u => if (laneQueue u s).length < (laneQueue t s).length then some u else some t

/-- A dropped record is counted, and marks the next record of each enabled lane (R550, R552). -/
def dropRecord (s : State) : State :=
  { s with obs := { s.obs with dropped := min (s.obs.dropped + 1) 65535, dropFlag := lanesOf s.obs.lanes } }

/-- A selected record joins the queue of the least loaded enabled lane, which holds 1,024 (R550). -/
def queueRecord (r : TrRec) (s : State) : State :=
  match leastLane s (lanesOf s.obs.lanes) with
  | none => dropRecord s
  | some t =>
    if 1024 ≤ (laneQueue t s).length then dropRecord s
    else { s with obs := { s.obs with queues := put s.obs.queues t (laneQueue t s ++ [r]) } }

/-- TRACE_RECORD (R550): the oldest selected record. -/
def execTraceRecord (s : State) : Out :=
  match s.obs.ready with
  | [] => .next s
  | r :: rs => .next (queueRecord r { s with obs := { s.obs with ready := rs } })

/-- The 32 bytes of a trace record (R547). -/
def trRecBytes (r : TrRec) : Bytes :=
  toLe 4 (r.type % 16 + 2 ^ 4 * (r.src % 16) + 2 ^ 8 * b2n r.dropped + 2 ^ 16 * (r.code % 65536)) ++
    toLe 4 r.index ++ toLe 8 r.osn ++ toLe 8 r.frc ++ toLe 8 r.data.toNat

/-- The 40 bytes of a unit between its start and its terminate: record, `LSEQ` and CRC-32C (R549, R559). -/
def unitBytes (r : TrRec) (lseq : Nat) : Bytes :=
  let b := trRecBytes r ++ toLe 4 lseq
  b ++ toLe 4 (crc32c b)

/-- An enabled lane sends record `r` as the unit `unitBytes` with its `LSEQ` (R549). -/
def sendUnit (t : Nat) (r : TrRec) (s : State) : State :=
  let n := lookD s.obs.lseq t 0
  { s with obs := { s.obs with
    lseq := put s.obs.lseq t ((n + 1) % 2 ^ 32)
    sent := s.obs.sent ++ [(t, { r with dropped := s.obs.dropFlag.contains t }, n)]
    dropFlag := s.obs.dropFlag.filter fun u => u != t } }

/-- TRACE_UNIT (R549). After a loss of SDCLK an enabled lane trains again and sends, which shows that SDCLK runs (R61;
log entry 97). -/
def execTraceUnit (lane : Nat) (s : State) : Out :=
  named (decide (lane < 4))
    (match laneQueue lane s with
     | [] => .next s
     | r :: rs => act (tbit s.obs.lanes lane) s
         (let t := sdclkBack s
          sendUnit lane r { t with obs := { t.obs with queues := put t.obs.queues lane rs } }))

/-- OBS_STAT_CLEAR (R552): FFFFh clears the drop count. -/
def execObsStatClear (value : Word) (s : State) : Out :=
  act (s.rst.pcieAt.isSome && value.toNat / 65536 == 65535) s { s with obs := { s.obs with dropped := 0 } }

/-- `OBS_STAT` (R552). -/
def obsStat (s : State) : Nat :=
  s.obs.dropped * 65536 + (s.obs.sending.foldl (fun n t => n + 2 ^ t) 0) % 16

/-! ### Counter banks (R551) -/

/-- `n` counters of a bank from number `from_`. -/
def bankWords (t : Tbl Nat) (from_ n : Nat) : List Nat := (List.range n).map fun i => lookD t (from_ + i) 0

/-- The five values of a time base's bank: the latest of each (R323). A grandmaster reports its own identity and the
`TTI` that it sends. -/
def tbValues (n : Nat) (s : State) : List Nat :=
  let b := tbOf n s
  let gm := if gmActive b then clockId n else b.gmId
  let tti := if gmActive b then cfgWord b.cfg 12 else b.tti
  [gm, unsigned 64 b.path, utcWord b, tti, b.ppsVal]

/-- `TX_PAUSED_NS`, word 28 of a port's bank, with the wait that still runs (R241). -/
def pauseSoFar (n : Nat) (s : State) (l : List Nat) : List Nat :=
  l.set 28 (l.getD 28 0 + ((portOf n s).pauseWait.map fun t => s.clk.frc - t).getD 0)

/-- `BLIND_NS`, word 7 of a recorder's bank, with the blind interval that still runs (R394, R419). -/
def blindSoFar (n : Nat) (s : State) (l : List Nat) : List Nat :=
  l.set 7 (l.getD 7 0 + ((recOf n s).blindSince.map fun t => s.clk.frc - t).getD 0)

/-- The words of an instance of a bank, as they stand at the read (R241, R301, R310, R323); none where the table names no such instance (R551). -/
def bank (kind i : Nat) (s : State) : Option (List Nat) :=
  let one (n : Nat) (l : List Nat) : Option (List Nat) := if i < n then some l else none
  match kind with
  | 1 => one 48 (pauseSoFar i s (bankWords s.prt.cnt (i * 38) 38))
  | 2 => one 16641 (bankWords s.sw.cnt (i * 4) 4)
  | 3 => one 384 (bankWords s.sw.cnt (70000 + i * 8) 8)
  | 4 => one 50 [lookD s.sw.ingress i 0]
  | 5 => one 12 (bankWords s.sw.cnt (80000 + i * 16) 16)
  | 6 => one 1 (bankWords s.sw.cnt 90000 4)
  | 7 => one 48 (bankWords (failPdelay i s).tim.tsCnt (i * 7) 7 ++ [unsigned 64 ((linkDelay i s).getD 0)])
  | 8 => one 4 (bankWords (leaveHold i (lapse i false s)).tim.cnt (i * 9) 9 ++ tbValues i s)
  | 9 => one 4096 (bankWords s.sv.cnt (i * 14) 14)
  | 10 => one 2048 (bankWords s.gse.cnt (i * 11) 11)
  | 11 => one 1024 (bankWords s.gse.pubCnt (i * 3) 3)
  | 12 => one 1 [s.sv.noSub]
  | 13 => one 16 (blindSoFar i s (bankWords s.acq.cnt (i * 9) 9))
  | 14 => one 1 [s.acq.noMatch]
  | 15 => one 2048 (bankWords s.key.cnt (i * 7) 7)
  | 16 => one 1 (bankWords s.key.store 0 4)
  | 17 => one 1 (bankWords s.gft.cnt 0 15)
  | 18 => one 32 (bankWords s.bin.cnt (i * 3) 3)
  | 19 => one 16 (bankWords s.out.cnt (i * 7) 7)
  | _ => none

/-- The bank that a command names. -/
def argBank (c : Cmd) (s : State) : Option (List Nat) := bank (arg0 c.desc / 65536) (arg0 c.desc % 65536) s

/-- The block of `OBS_SNAPSHOT`: the highest OSN, the FRC and the words (R551). -/
def snapBlock (l : List Nat) (s : State) : Bytes :=
  toLe 8 s.arb.osn ++ toLe 8 s.clk.frc ++ l.flatMap (toLe 8)

def judgeObsSnapshot (c : Cmd) (s : State) : Nat :=
  let n := (argBank c s).map fun l => 16 + 8 * l.length
  judged c s [(n.isSome, stBadArg), (outputBuffer c (n.getD 0) s, stBadArg)]

def effObsSnapshot (c : Cmd) (s : State) : Res :=
  let b := snapBlock ((argBank c s).getD []) s
  resOut c b (some (BitVec.ofNat 32 b.length)) s

/-- OBS_SNAPSHOT (R551). -/
def execObsSnapshot (c : Cmd) (s : State) : Out := runNow 0x0B02 judgeObsSnapshot effObsSnapshot c s

/-! ### The sensor bus (R171) -/

/-- Entry `i` of a poll list. -/
def pollAt (b : Bytes) (i : Nat) : Poll :=
  { addr := leAt b (8 * i) 1, reg := leAt b (8 * i + 1) 1, len := leAt b (8 * i + 2) 1, speed := leAt b (8 * i + 3) 1
    period := leAt b (8 * i + 4) 2 }

/-- An entry is unused or within R171. -/
def pollOk (b : Bytes) (i : Nat) : Bool :=
  let p := pollAt b i
  p.addr == 0 || (decide (p.addr < 128) && decide (1 ≤ p.len) && decide (p.len ≤ 2) && decide (p.speed ≤ 1) &&
    decide (10 ≤ p.period) && decide (p.period ≤ 60000) && leAt b (8 * i + 6) 2 == 0)

def judgeSnsConfig (c : Cmd) (s : State) : Nat :=
  judged c s [(inputBlock c 128 s, stBadArg), ((List.range 16).all (pollOk c.block), stBadArg)]

/-- The list replaces the old one (R171). -/
def effSnsConfig (c : Cmd) (s : State) : Res :=
  let l := (List.range 16).map fun i => (i, pollAt c.block i)
  res { s with hw := { s.hw with polls := l.filter fun e => e.2.addr != 0 } } stOk

/-- SNS_CONFIG (R171). -/
def execSnsConfig (c : Cmd) (s : State) : Out := runNow 0x0B03 judgeSnsConfig effSnsConfig c s

def judgeSnsRead (c : Cmd) (s : State) : Nat := judged c s [(outputBuffer c 128 s, stBadArg)]

/-- The 8 bytes of an entry; before its first read the value and the count are free values. -/
def pollBytes (s : State) (i : Nat) : Bytes :=
  match look s.hw.polls i with
  | some { readAt := some t, value := v, acked := a, .. } =>
    toLe 2 v.toNat ++ [BitVec.ofNat 8 (b2n a)] ++ toLe 5 ((s.clk.now - t) / 1000000)
  | _ => toLe 2 (Config.freeValue (s.free + 2 * i)) ++ [0] ++ toLe 5 (Config.freeValue (s.free + 2 * i + 1))

/-- The result is the number of devices answering (R170). -/
def effSnsRead (c : Cmd) (s : State) : Res :=
  let b := (List.range 16).flatMap (pollBytes s)
  let n := (s.hw.polls.filter fun e => e.2.acked).length
  resOut c b (some (BitVec.ofNat 32 n)) { s with free := s.free + 32 }

/-- SNS_READ (R171). -/
def execSnsRead (c : Cmd) (s : State) : Out := runNow 0x0B04 judgeSnsRead effSnsRead c s

/-- The entry is due: it was not read yet, or its period has passed. -/
def pollDue (p : Poll) (s : State) : Bool :=
  match p.readAt with
  | none => true
  | some t => decide (t + p.period * 1000000 ≤ s.clk.now)

/-- The value of an entry after a read that was not acknowledged: the last one read. Where none has been read yet R171
gives none, and it is a free value (log entry 22). -/
def unreadValue (p : Poll) (s : State) : BitVec 16 × State :=
  if p.readAt.isSome then (p.value, s) else (BitVec.ofNat 16 (fresh s).1, (fresh s).2)

/-- SENSOR_POLL (R171): the device acknowledges with a value, or does not. -/
def execSensorPoll (entry : Nat) (acked : Bool) (value : BitVec 16) (s : State) : Out :=
  named (decide (entry < 16))
    (match look s.hw.polls entry with
     | none => .next s
     | some p =>
       let d := if acked then (if p.len = 1 then value &&& 0xFF else value, s) else unreadValue p s
       act (s.rst.phase == .started && pollDue p s) s
         { d.2 with hw := { s.hw with polls := put s.hw.polls entry { p with
           value := d.1, acked := acked, readAt := some s.clk.now } } })

end Sys2Proof.Machine
end

