-- ==== Sys2Proof/Machine/Integrity.lean ====
section
/-! DEFINITION. Uncorrectable errors and the loss of SDCLK (R61, R494 to R504, R564). -/

namespace Sys2Proof.Machine

open Sys2Proof

/-- The channel of number 0, 1 or 2. -/
def chanOfNum (n : Nat) : Chan := [Chan.A, .B, .C].getD n .A

/-- One of `n` things, by the next free value. -/
def pick (n : Nat) (s : State) : Nat × State := let f := fresh s; (f.1 % max 1 n, f.2)

/-- Change the element `i` of a list. -/
def modAt {α : Type} (i : Nat) (f : α → α) (l : List α) : List α :=
  l.zipIdx.map fun e => if e.2 = i then f e.1 else e.1

/-! ### The action of each memory (R494) -/

/-- The operations that are replayed, whose payload vote is open, and of which a line lost on lane `c` leaves fewer than two
readable copies: those of a triad with no two other channels in service (R129 to R132). -/
def openReplays (c : Chan) (s : State) : List (Nat × Word) :=
  ((List.range 16).filter fun t => decide (((triadOf t s).chans.filter fun x => x != c && s.cnp.lanes.contains x).length < 2)).flatMap
    fun t => (openPayloads t s).filter fun o => ((entryOf o.1 o.2 s).map fun e => e.rpl).getD false

/-- A line of a payload that a replay reads is lost on a lane that leaves fewer than two readable copies (R132);
which replay it belongs to is a free value (log entry 66). -/
def payloadError (c : Chan) (s : State) : State :=
  let l := openReplays c s
  let f := pick l.length s
  match l[f.1]? with
  | none => s
  | some o =>
    let other (v : Vote) : Bool := v.passed.isSome || !(v.copies.any fun c => match c.2 with
      | .payload r n _ => (r, n) == o
      | _ => false)
    payloadLost o.1 o.2 { f.2 with cnp := { f.2.cnp with votes := f.2.cnp.votes.filter other } }

/-- An uncorrectable error of a lane: at its 8th, or in its check storage or controller, it leaves service; one
read by a channel isolates that channel; any other is served by another lane, but for a replay that this leaves with
fewer than two copies (R132, R494, R495); the word that the patrol reads takes an idle cycle (R498). -/
def laneError (m loc ue : Nat) (s : State) : State :=
  if 8 ≤ ue || tbit loc 34 || tbit loc 35 then laneLeaves (chanOfNum m) s
  else if bits loc 41 40 = 1 then isolate (bits loc 39 36) 3 (chanOfNum m) s
  else if bits loc 41 40 = 2 then payloadError (chanOfNum m) s
  else patrolAsk m s

/-- The key slot becomes BAD (R427, R494), whatever it holds. -/
def keyError (k : Nat) (s : State) : State := if (slotOf k s).st == .bad then s else foundBad k s

/-- The queued frames of the packet buffer, as queue and place. -/
def queuedFrames (s : State) : List (Nat × Nat) :=
  s.sw.queues.flatMap fun e => (List.range e.2.frames.length).map fun i => (e.1, i)

/-- The frame will be discarded at egress. -/
def dropHeld (h : Held) : Held := { h with info := { h.info with drop := true } }

/-- A frame of the packet buffer, queued or waiting for its verdict, will be discarded at egress (R494). Which one holds the
cell is a free value, and so is whether one does. -/
def bufferError (s : State) : State :=
  let l := queuedFrames s
  let f := pick (l.length + s.sw.wait.length + 1) s
  match l[f.1]? with
  | some (q, i) =>
    let x := queueAt q s
    setQueue q { x with frames := modAt i dropHeld x.frames } f.2
  | none => { f.2 with sw := { f.2.sw with wait := modAt (f.1 - l.length) (fun w => (dropHeld w.1, w.2)) f.2.sw.wait } }

/-- The entry stops matching until it is rewritten, within 100 µs (R494). -/
def tableError (entry : Nat) (s : State) : State :=
  let f := fresh s
  let till := s.clk.frc + 1 + f.1 % 100000
  { f.2 with sw := { s.sw with
    exact := if entry < 16384 then alter s.sw.exact entry fun x => { x with deadUntil := till } else s.sw.exact
    wild := if 16384 ≤ entry then alter s.sw.wild (entry - 16384) fun x => { x with deadUntil := till } else s.sw.wild } }

/-- A slot whose sample of channel `ch` is lost: it carries M (R378, R494). -/
def loseSample (ch : Nat) (q : SlotSt) : SlotSt :=
  { q with marks := modAt ch (fun m => if tbit m 0 then m else m + 1) q.marks }

/-- The slots of a stream that hold samples and wait for the filter chain, as tick and place. -/
def liveSlots (x : Strm) : List (Nat × Nat) :=
  x.ticks.zipIdx.flatMap fun t => (t.1.slots.zipIdx.filter fun q => q.1.present && !q.1.filtered).map fun q => (t.2, q.2)

/-- The affected slot of a channel is missing (R494); which slot it is is a free value. -/
def streamError (n ch : Nat) (s : State) : State :=
  let x := strmOf n s
  let l := liveSlots x
  let f := pick l.length s
  match l[f.1]? with
  | none => s
  | some (t, q) =>
    setStrm n { x with ticks := modAt t (fun k => { k with slots := modAt q (loseSample ch) k.slots }) x.ticks } f.2

/-- One raw value of a row reads 0 with mark M. -/
def loseValue (ch : Nat) (r : Row) : Row := { r with vals := modAt ch (fun _ => (0, 1)) r.vals }

/-- A raw value of a recorder reads 0 with mark M (R494); which one it is is a free value. -/
def recorderError (n : Nat) (s : State) : State :=
  match look s.acq.recs n with
  | none => s
  | some x =>
    let rows := match x.cur with
      | some c => c.rows
      | none => x.hist
    let f := pick rows.length s
    let g := pick x.nch f.2
    let new := modAt f.1 (loseValue g.1) rows
    let y := match x.cur with
      | some c => { x with cur := some { c with rows := new } }
      | none => { x with hist := new }
    { g.2 with acq := { s.acq with recs := put s.acq.recs n y } }

/-- A frame in a port's receive FIFO is discarded and counted in `RX_CODE_ERR` (R494): one whose timestamp waits in the
timestamp queue, where the error is there (R564). Which one it is is a free value, and so is whether the word held one. -/
def fifoError (n : Nat) (queue : Bool) (s : State) : State :=
  let l := lookD s.sw.store n []
  let at_ := (List.range l.length).filter fun i => !queue || ((l[i]?).map fun h => h.info.ts.isSome).getD false
  let f := pick (at_.length + 1) s
  match (at_[f.1]?).bind fun i => (l[i]?).map fun h => (i, h) with
  | none => f.2
  | some (i, h) =>
    countPort n 9 (releaseTs n h.info.rxIdx { f.2 with sw := { s.sw with store := put s.sw.store n (l.eraseIdx i) } })

/-- The record of this `NUM` in the volatile buffer fails its check (R494, R511). -/
def recordError (num : Nat) (s : State) : State :=
  { s with log := { s.log with buf := s.log.buf.map fun r => if r.num = num then { r with sound := false } else r } }

/-- An error at a byte of the MRAM: a copy of the persistent state, or a record of the ring, whose newest record
stands in the slot of the persistent state (R494, R505). -/
def mramError (a : Nat) (s : State) : State :=
  if a < 0x8000 then { s with mram := { s.mram with c0 := { s.mram.c0 with ok := false } } }
  else if a < 0x10000 then { s with mram := { s.mram with c1 := { s.mram.c1 with ok := false } } }
  else
    let slot := (a - 0x10000) / 64
    let back := (s.mram.slot + Config.logRingMax - slot % Config.logRingMax) % Config.logRingMax
    { s with log := { s.log with
      mram := modAt (s.log.mram.length - 1 - back)
        (fun r => if back < s.log.mram.length then { r with sound := false } else r) s.log.mram } }

/-- The action of an uncorrectable error of memory `m` (R494, R564). -/
def errorAction (m loc ue : Nat) (s : State) : State :=
  match m with
  | 0 | 1 | 2 => laneError m loc ue s
  | 3 | 4 | 5 => isolate (bits loc 59 56) 3 (chanOfNum (m - 3)) s
  | 6 | 8 => pulseSource .cmdWarm s
  | 7 => keyError (bits loc 10 0) s
  | 9 => bufferError s
  | 10 => tableError (bits loc 14 0) s
  | 11 => streamError (bits loc 11 0) (bits loc 16 12) s
  | 12 => recorderError (bits loc 3 0) s
  | 13 => fifoError (bits loc 5 0) (tbit loc 6) s
  | 14 => recordError (bits loc 43 12) s
  | _ => mramError (bits loc 22 0) s

/-- The account, bit 16 + m of `ECC_EVT`, and event 0931h with the location in its record (R496, R502, R564). -/
def noteError (m : Nat) (loc : BitVec 64) (s : State) : State :=
  let x := eccOf m s
  let last := loc ||| 0x8000000000000000
  let s1 := setEcc m { x with ue := (x.ue + 1) % 2 ^ 64, last := last } s
  eccEvent 0x0931 m (toLe 8 last.toNat) (some 2)
    { noteSet 0x1800 (16 + m) s1 with ecc := { s1.ecc with evt := latch s1.ecc.evt (16 + m) } }

/-- A location that fails again after it was rewritten is hard (R504); each is rewritten. -/
def hardError (m : Nat) (loc : BitVec 64) (s : State) : State :=
  let x := eccOf m s
  if x.ueLocs.contains loc then addRepair m loc s else setEcc m { x with ueLocs := loc :: x.ueLocs } s

/-- UNCORRECTABLE_ERROR (R494 to R496): memory and location, R564. -/
def execUncorrectableError (mem : Nat) (loc : BitVec 64) (s : State) : Out :=
  named (decide (mem < 16))
    (let l := loc &&& 0x7FFFFFFFFFFFFFFF
     let t := hardError mem l (noteError mem l s)
     act (!noReader mem l s) s (errorAction mem l.toNat (eccOf mem t).ue t))

/-! ### SDCLK (R61) -/

/-- Each port of a list loses its link, with cause SDCLK. -/
def portsGone : List Nat → State → State
  | [], s => s
  | n :: ns, s => portsGone ns (linkGone n 4 s)

/-- SDCLK_LOSS (R61, R460): every port, Graft lane and trace lane reports loss of link. -/
def execSdclkLoss (s : State) : Out :=
  let t := laneDown 1 (laneDown 0 (portsGone (List.range 48) s))
  .next { t with pow := { t.pow with sdclk := false }, obs := { t.obs with sending := [] } }

end Sys2Proof.Machine
end

