-- ==== Sys2Proof/Machine/Stopping.lean ====
section
/-! DEFINITION. The end of STOPPING, kind by kind (R149, R150). -/

namespace Sys2Proof.Machine

open Sys2Proof

/-- The rings of a partition are OFF (R150). -/
def ringsOff (p : Nat) (s : State) : Bool :=
  (ringsOf p s).all fun r => ((ringOf r s).map fun x => x.st == .off).getD true

/-- A STOPPING partition may reach OFF: its tick has ended and its rings are OFF (R150, R174). -/
def partStops (p : Nat) (s : State) : Bool :=
  match partOf p s with
  | some x => x.en == .stopping && x.st == .ready && x.lastTick && ringsOff p s
  | none => false

/-- The partition is CREATED, with event 0001h; with a held enable it is READY and ON, with event 0002h (R149,
R174). -/
def stopPart (p : Nat) (s : State) : State :=
  match partOf p s with
  | some x =>
    offEvents 1 p x.held (setPart p { x with
      en := afterOff x.held, held := false, st := if x.held then .ready else .created, lastTick := false } s)
  | none => s

/-- A STOPPING ring may reach OFF (R103, R150). -/
def ringStops (r : Nat) (s : State) : Bool :=
  match ringOf r s with
  | some x => x.st == .stopping && ringDrained r s
  | none => false

/-- The ring reaches OFF (R149). -/
def stopRing (r : Nat) (s : State) : State :=
  match ringOf r s with
  | some x => offEvents 2 r x.held (setRing r { x with st := afterOff x.held, held := false } s)
  | none => s

/-- A STOPPING recorder with no record in capture may reach OFF (R150). -/
def recStops (n : Nat) (s : State) : Bool :=
  match look s.acq.recs n with
  | some x => x.en == .stopping && x.cap == .waiting && x.cur.isNone
  | none => false

/-- STOPPING_END (R149, R150): an object of a kind of R148 reaches OFF. -/
def execStoppingEnd (kind index : Nat) (s : State) : Out :=
  match kind with
  | 1 => named (decide (index < 256)) (act (partStops index s) s (stopPart index s))
  | 2 => named (decide (index < 2048)) (act (ringStops index s) s (stopRing index s))
  | 3 => named (decide (index < 4096)) (act (streamStops index s) s (stopStream index s))
  | 4 => named (decide (index < 1024)) (act (pubStops index s) s (stopPub index s))
  | 5 => named (decide (index < 48)) (act (portStops index s) s (stopPort index s))
  | 6 => named (decide (index < 4)) (act (tbStops index s) s (stopTb index s))
  | 7 => named (decide (index < 16)) (act (recStops index s) s (offRec index s))
  | 8 => named (decide (index < 16)) (act (outStops index s) s (stopOut index s))
  | 9 => named (decide (index < 32)) (act (binStops index s) s (stopBin index s))
  | _ => .fault .noSuchObject

end Sys2Proof.Machine
end

