-- ==== Sys2Proof/Machine/Heartwood.lean ====
section
/-! DEFINITION. Heartwood: every command by its opcode, the consumption of descriptors, class B ends, Seedling
requests and forwarded commands (R106, R107, R126, R130, R141 to R156, R172, R470). -/

namespace Sys2Proof.Machine

open Sys2Proof

/-! ### Commands by opcode (R157 to R170) -/

/-- The checks of group 01xxh, 02xxh and 03xxh. -/
def judgeLow (c : Cmd) (s : State) : Option Nat :=
  match opOf c.desc with
  | 0x0101 => some (judgePartCreate c s)
  | 0x0102 => some (judgePartStart c s)
  | 0x0103 => some (judgePartStop c s)
  | 0x0104 => some (judgePartReset c s)
  | 0x0105 => some (judgePartDestroy c s)
  | 0x0106 => some (judgePartQuota c s)
  | 0x0107 => some (judgePartFreeze c s)
  | 0x0108 => some (judgePartSave c s)
  | 0x0109 => some (judgePartRestore c s)
  | 0x010A => some (judgePartThaw c s)
  | 0x0110 => some (judgeCnpSchedule c s)
  | 0x0111 => some (judgeCnpBudget c s)
  | 0x0112 => some (judgeCnpWake c s)
  | 0x0113 => some (judgeCnpSpare c s)
  | 0x0114 => some (judgeCnpTick c s)
  | 0x0120 => some (judgeTriadReset c s)
  | 0x0121 => some (judgeTriadRejoin c s)
  | 0x0130 => some (judgeModuleReset c s)
  | 0x0131 => some (judgeBootComplete c s)
  | 0x0201 => some (judgeRingCreate c s)
  | 0x0202 => some (judgeRingEnable c s)
  | 0x0203 => some (judgeRingDisable c s)
  | 0x0204 => some (judgeRingReset c s)
  | 0x0205 => some (judgeRingDestroy c s)
  | 0x0206 => some (judgeRingShare c s)
  | 0x0207 => some (judgeRingQuery c s)
  | 0x0301 => some (judgeSvSubscribe c s)
  | 0x0302 => some (judgeSvEnable c s)
  | 0x0303 => some (judgeSvDisable c s)
  | 0x0304 => some (judgeSvRemove c s)
  | 0x0305 => some (judgeSvSource c s)
  | 0x0310 => some (judgeGooseSubscribe c s)
  | 0x0311 => some (judgeGooseUnsubscribe c s)
  | 0x0320 => some (judgeGoosePubSet c s)
  | 0x0321 => some (judgeGoosePubEnable c s)
  | 0x0322 => some (judgeGoosePubDisable c s)
  | 0x0330 => some (judgeFltChannel c s)
  | 0x0331 => some (judgeFltThreshold c s)
  | 0x0332 => some (judgeFltCoeff c s)
  | _ => none

/-- The checks of groups 04xxh to 0Bxxh. -/
def judgeHigh (c : Cmd) (s : State) : Option Nat :=
  match opOf c.desc with
  | 0x0401 => some (judgePortConfig c s)
  | 0x0402 => some (judgePortEnable c s)
  | 0x0403 => some (judgePortDisable c s)
  | 0x0404 => some (judgePortReset c s)
  | 0x0405 => some (judgePortFilter c s)
  | 0x0410 => some (judgeSwExactAdd c s)
  | 0x0411 => some (judgeSwExactDel c s)
  | 0x0412 => some (judgeSwWildSet c s)
  | 0x0413 => some (judgeSwWildDel c s)
  | 0x0420 => some (judgeSwQueue c s)
  | 0x0421 => some (judgeSwRed c s)
  | 0x0430 => some (judgeSwRedun c s)
  | 0x0431 => some (judgeSwPaths c s)
  | 0x0501 => some (judgeTbConfig c s)
  | 0x0502 => some (judgeTbEnable c s)
  | 0x0503 => some (judgeTbDisable c s)
  | 0x0504 => some (judgeTbRearm c s)
  | 0x0505 => some (judgeTbPps c s)
  | 0x0601 => some (judgeKeyLoad c s)
  | 0x0602 => some (judgeKeyInvalidate c s)
  | 0x0603 => some (judgeKeyQuery c s)
  | 0x0604 => some (judgeKeyRollover c s)
  | 0x0701 => some (judgeAcqConfig c s)
  | 0x0702 => some (judgeAcqArm c s)
  | 0x0703 => some (judgeAcqDisarm c s)
  | 0x0704 => some (judgeAcqTrigger c s)
  | 0x0705 => some (judgeAcqRelease c s)
  | 0x0801 => some (judgeGftPair c s)
  | 0x0802 => some (judgeGftUnpair c s)
  | 0x0803 => some (judgeGftMirror c s)
  | 0x0804 => some (judgeGftSwitch c s)
  | 0x0805 => some (judgeGftStatus c s)
  | 0x0901 => some (judgeLogRead c s)
  | 0x0902 => some (judgeLogNote c s)
  | 0x0903 => some (judgeEccBucket c s)
  | 0x0904 => some (judgeEccQuery c s)
  | 0x0910 => some (judgeImgErase c s)
  | 0x0911 => some (judgeImgWrite c s)
  | 0x0912 => some (judgeImgCheck c s)
  | 0x0913 => some (judgeImgHostLoad c s)
  | 0x0914 => some (judgeImgHostStart c s)
  | 0x0915 => some (judgeImgFloor c s)
  | 0x0920 => some (judgeSeedlingExit c s)
  | 0x0A01 => some (judgeOutConfig c s)
  | 0x0A02 => some (judgeOutEnable c s)
  | 0x0A03 => some (judgeOutDisable c s)
  | 0x0A04 => some (judgeOutInhClear c s)
  | 0x0A10 => some (judgeBinConfig c s)
  | 0x0A11 => some (judgeBinEnable c s)
  | 0x0A12 => some (judgeBinDisable c s)
  | 0x0B01 => some (judgeObsTrace c s)
  | 0x0B02 => some (judgeObsSnapshot c s)
  | 0x0B03 => some (judgeSnsConfig c s)
  | 0x0B04 => some (judgeSnsRead c s)
  | 0x0B05 => some (judgeObsIdent c s)
  | _ => none

/-- The checks of a command; none where `OPCODE` is not defined (R107 step 3). NOP has no checks of its own and is
available in every mode (R146). -/
def judgeCmd (c : Cmd) (s : State) : Option Nat :=
  if opOf c.desc = 0 then some (if noBlock c then stOk else stBadArg) else (judgeLow c s).orElse fun _ => judgeHigh c s

/-- The effect of a command of class T at its boundary (R153). -/
def effAtTick (c : Cmd) (s : State) : Res :=
  match opOf c.desc with
  | 0x0107 => effPartFreeze c s
  | 0x010A => effPartThaw c s
  | 0x0110 => effCnpSchedule c s
  | 0x0111 => effCnpBudget c s
  | 0x0112 => effCnpWake c s
  | 0x0121 => effTriadRejoin c s
  | 0x0305 => effSvSource c s
  | 0x0331 => effFltThreshold c s
  | 0x0803 => effGftMirror c s
  | 0x0804 => effGftSwitch c s
  | _ => res s stOk

/-- The effect of a command that its active partner executed, at once whatever its class (R470, R472). -/
def effForwarded (c : Cmd) (s : State) : Res :=
  match opOf c.desc with
  | 0x0101 => effPartCreate c s
  | 0x0102 => effPartStart c s
  | 0x0103 => effPartStop c s
  | 0x0104 => effPartReset c s
  | 0x0105 => effPartDestroy c s
  | 0x0106 => effPartQuota c s
  | 0x0108 => finishSave c (startSave c s)
  | 0x0109 => finishRestore c (startRestore c s)
  | 0x0114 => effCnpTick c s
  | 0x0201 => effRingCreate c s
  | 0x0202 => effRingEnable c s
  | 0x0203 => effRingDisable c s
  | 0x0204 => effRingReset c s
  | 0x0205 => effRingDestroy c s
  | 0x0206 => effRingShare c s
  | 0x0207 => effRingQuery c s
  | 0x0301 => effSvSubscribe c s
  | 0x0302 => effSvEnable c s
  | 0x0303 => effSvDisable c s
  | 0x0304 => effSvRemove c s
  | 0x0310 => effGooseSubscribe c s
  | 0x0311 => effGooseUnsubscribe c s
  | 0x0320 => effGoosePubSet c s
  | 0x0321 => effGoosePubEnable c s
  | 0x0322 => effGoosePubDisable c s
  | 0x0330 => effFltChannel c s
  | 0x0332 => effFltCoeff c s
  | 0x0401 => effPortConfig c s
  | 0x0402 => effPortEnable c s
  | 0x0403 => effPortDisable c s
  | 0x0405 => effPortFilter c s
  | 0x0410 => effSwExactAdd c s
  | 0x0411 => effSwExactDel c s
  | 0x0412 => effSwWildSet c s
  | 0x0413 => effSwWildDel c s
  | 0x0420 => effSwQueue c s
  | 0x0421 => effSwRed c s
  | 0x0430 => effSwRedun c s
  | 0x0431 => effSwPaths c s
  | 0x0501 => effTbConfig c s
  | 0x0502 => effTbEnable c s
  | 0x0503 => effTbDisable c s
  | 0x0504 => effTbRearm c s
  | 0x0505 => effTbPps c s
  | 0x0601 => effKeyLoad c s
  | 0x0602 => effKeyInvalidate c s
  | 0x0603 => effKeyQuery c s
  | 0x0604 => effKeyRollover c s
  | 0x0701 => effAcqConfig c s
  | 0x0702 => effAcqArm c s
  | 0x0703 => effAcqDisarm c s
  | 0x0704 => effAcqTrigger c s
  | 0x0705 => effAcqRelease c s
  | 0x0A01 => effOutConfig c s
  | 0x0A02 => effOutEnable c s
  | 0x0A03 => effOutDisable c s
  | 0x0A04 => effOutInhClear c s
  | 0x0A10 => effBinConfig c s
  | 0x0A11 => effBinEnable c s
  | 0x0A12 => effBinDisable c s
  | _ => effAtTick c s

/-! ### DESCRIPTOR_CONSUME (R106, R107, R124, R126, R130, R142) -/

/-- The opcodes of a binding (R100). -/
def bindingOp (b op : Nat) : Bool := op == 0 || op == 1 || (b == 5 && decide (op ≤ 3))

/-- A new journal entry (R126). -/
def entryFor (r : Nat) (x : Ring) (d : Desc) : JRec := { ring := r, gen := x.gen, seq := x.c, desc := d }

/-- A ring past the descriptor consumed: one with nothing more to consume, or at its quota, has left the round (R123 to
R125). -/
def pastDesc (x : Ring) : Ring :=
  let y := { x with c := x.c + 1, used := x.used + 1 }
  { y with inRound := x.inRound && decide (0 < (y.a - y.c).toInt) && decide (occupancy y < x.quota) }

/-- The entry joins the journal, and C and the shadow line advance, in one step (R105, R114, R126). A journal
stall ends here, so that a later one raises its event again (R139; DESIGN CHOICE, log entry 108). -/
def consume (r : Nat) (x : Ring) (e : JRec) (s : State) : State :=
  let s1 := setRing r (pastDesc x) s
  let s2 := { s1 with rng := { s1.rng with jrnl := s1.rng.jrnl ++ [e] } }
  { s2 with rng := { s2.rng with peak := max s2.rng.peak (jrnlUsed s2), stall := false } }

/-- The status of steps 1 to 3 of R107. -/
def descChecks (x : Ring) (d : Desc) (defined : Bool) : Nat :=
  checks [(genField d == x.gen, stStaleGen), (d.w1 == x.c, stBadArg), (flagsOf d / 4 == 0 && defined, stBadArg)]

/-- A command that passed its checks enters the executor, with the moment of its consumption and the step that the time
base it names has pending (R142, R153, R306). -/
def startCmd (c : Cmd) (s : State) : State :=
  { s with hw := { s.hw with
    exec := some c, passed := true, since := s.clk.now, rearm := (tbOf (arg0 c.desc) s).pending } }

/-- A descriptor of a command ring is consumed (R107, R142, R146): one that fails completes at once. -/
def consumeCmd (r : Nat) (x : Ring) (d : Desc) (block : Bytes) (s : State) : State :=
  let c : Cmd := { ring := r, desc := d, block := block }
  let t := consume r x (entryFor r x d) s
  let own := judgeCmd c s
  let st0 := descChecks x d own.isSome
  let st := if st0 = stOk then own.getD stOk else st0
  if st = stOk then startCmd c t else finishOp r x.gen x.c st none false t

/-- Bindings 1, 3 and 5 emit (R100). -/
def emits (b : Nat) : Bool := b == 1 || b == 3 || b == 5

/-- A descriptor of an instance ring is consumed (R107); one that fails a check is not executed. A shadow holds an
operation of an emitting binding for its LOG without checks of its own (R474). -/
def consumeOp (r : Nat) (x : Ring) (d : Desc) (s : State) : State :=
  let b := x.binding
  let st0 := descChecks x d (bindingOp b (opOf d))
  let t := consume r x (entryFor r x d) s
  if st0 ≠ stOk then finishOp r x.gen x.c st0 none false t
  else
    let st := if shadowed r s && emits b then stOk else opChecks r b d s
    if st = stOk then t
    else
      finishOp r x.gen x.c st (failResult b (opOf d)) false (if emits b then noteCrc b r x.c none t else t)

/-- A descriptor at a sequence that a LOOSE entry holds (R130 step 3): an equal one is not executed again; a
different one completes with DIVERGED, and the entry is retired unmatched (R128), while its operation, if it has not
finished, goes on in its engine. -/
def matchLoose (r : Nat) (x : Ring) (e : JRec) (d : Desc) (s : State) : State :=
  if e.desc == d then
    modEntry r x.gen x.c (fun j => { j with loose := false, withdrawn := false, afterMark := true })
      (setRing r (pastDesc x) s)
  else
    let s1 := unmatched e { s with rng := { s.rng with jrnl := s.rng.jrnl.erase e } }
    let s2 := finishOp r x.gen x.c stDiverged none false (consume r x { entryFor r x d with rpl := true } s1)
    if e.stage == .finished then s2 else { s2 with rng := { s2.rng with orphans := s2.rng.orphans ++ [e] } }

/-- A full journal stalls every fetcher, with event 0211h once for each stall (R126, R139). -/
def stallJournal (s : State) : State :=
  if s.rng.stall then s else ringEvent 1 0x0211 0 0 [] none { s with rng := { s.rng with stall := true } }

/-- A descriptor waits on the ring (R124, R142, R144): weight and quota do not apply to the command rings. -/
def mayConsume (r : Nat) (x : Ring) (s : State) : Bool :=
  if r < 2048 then hasShare r x s
  else x.st == .on && decide (0 < (x.a - x.c).toInt) && s.hw.exec.isNone && s.rst.phase == .started

/-- The votes of a descriptor, and of the parameter block of a command of P0, have passed (R108, R185). -/
def fetchPassed (r : Nat) (x : Ring) (d : Desc) (block : Bytes) (s : State) : Bool :=
  !voted r || (hasPassed (.descriptor r x.c d) s &&
    (r < 2048 || block.isEmpty || hasPassed (.payload r x.c (.bytes block)) s))

/-- The passed copies are used. -/
def useFetch (r : Nat) (x : Ring) (d : Desc) (block : Bytes) (s : State) : State :=
  if voted r then usePassed (.payload r x.c (.bytes block)) (usePassed (.descriptor r x.c d) s) else s

/-- The ring in the service round of its engine. -/
def roundOf (r : Nat) (x : Ring) (s : State) : State := if r < 2048 then roundFor (engineOf x) s else s

/-- A ring waits for its fetcher: it may consume, and its next descriptor has passed its vote (R108, R124). -/
def asks (s : State) (r : Nat) : Bool :=
  match ringOf r s with
  | none => false
  | some x => mayConsume r x s && (!voted r || s.cnp.passed.any fun e => match e with
      | .descriptor q n _ => q == r && n == x.c
      | _ => false)

/-- The fetcher of ring `r` grants it: of the rings that wait, the first from the pointer (R35, R124, R142). -/
def granted (r : Nat) (x : Ring) (s : State) : Bool :=
  if r < 2048 then
    comesFirst 2050 (lookD s.rng.ptrs (engineOf x) 0)
      ((s.rng.rings.filter fun e => e.1 < 2048 && engineOf e.2 == engineOf x && asks s e.1).map Prod.fst) r
  else comesFirst 2 s.hw.ptr ([0, 1].filter fun i => asks s (2048 + i)) (r - 2048)

/-- The fetcher's pointer moves past the ring granted (R35). -/
def pastRing (r : Nat) (x : Ring) (s : State) : State :=
  if r < 2048 then { s with rng := { s.rng with ptrs := put s.rng.ptrs (engineOf x) ((r + 1) % 2050) } }
  else { s with hw := { s.hw with ptr := (r - 2047) % 2 } }

/-- Consume the next descriptor of ring `r` as it stands. -/
def takeDesc (r : Nat) (x : Ring) (d : Desc) (block : Bytes) (s : State) : State :=
  match findEntry r x.gen x.c s with
  | some e => if e.loose then matchLoose r x e d s else consumeOp r x d s
  | none => if 2048 ≤ r then consumeCmd r x d block s else consumeOp r x d s

/-- DESCRIPTOR_CONSUME (R107, R124, R126): the next descriptor of `ring`, which its fetcher grants; `block` is its input or data block as Heartwood
reads it, on a command ring. -/
def execDescriptorConsume (ring : Nat) (d : Desc) (block : Bytes) (s : State) : Out :=
  named (decide (ring < 2050))
    (match ringOf ring s with
     | none => .next s
     | some y =>
       let s1 := roundOf ring y s
       let x := (ringOf ring s1).getD y
       act (mayConsume ring x s1 && fetchPassed ring x d block s1 && granted ring x s1) s
         (if Config.journalMax ≤ jrnlUsed s then stallJournal s
          else takeDesc ring x d block (useFetch ring x d block (pastRing ring x s1))))

/-! ### CLASS_B_FINISH (R153 to R155) -/

/-- What a class B command answers at its end. -/
def finishB (b : BCmd) (r : BReply) (s : State) : Res :=
  match opOf b.cmd.desc with
  | 0x0108 => finishSave b.cmd s
  | 0x0109 => finishRestore b.cmd s
  | 0x0801 => finishPair b.cmd s
  | 0x0910 => finishImgErase b.cmd r s
  | 0x0911 => finishImgWrite b.cmd r s
  | 0x0912 => finishImgCheck b.cmd r s
  | 0x0914 => finishImgHostStart s
  | _ => finishImgFloor b.cmd s

/-- The command may end: a save waits for the operations in an engine (R210), a pairing for its PAIR frame or
9 s (R483). -/
def mayFinish (b : BCmd) (s : State) : Bool :=
  match opOf b.cmd.desc with
  | 0x0108 => !stillRunning (argPart b.cmd) s
  | 0x0801 => pairMayEnd b s
  | _ => true

/-- Event 0005h, only to the event ring of the issuing command ring (R147, R148). -/
def classBEvent (c : Cmd) (s : State) : State :=
  if fromRing c then
    raise { src := 0, code := 5, index := c.desc.w1.toNat, toP0 := c.ring == Config.ringP0, toHost := c.ring == Config.ringHost } s
  else s

/-- The class B command of a kind ends (R111, R153). -/
def endB (b : BCmd) (r : BReply) (s : State) : State :=
  let s1 := { s with hw := { s.hw with classB := s.hw.classB.filter fun x => x.kind != b.kind } }
  classBEvent b.cmd (complete b.cmd (finishB b r s1))

/-- CLASS_B_FINISH (R153, R154). -/
def execClassBFinish (kind : BKind) (reply : BReply) (s : State) : Out :=
  match s.hw.classB.find? fun b => b.kind == kind with
  | none => .next s
  | some b => act (mayFinish b s) s (endB b reply s)

/-! ### HEARTWOOD_START and Seedling requests (R91, R172) -/

/-- HEARTWOOD_START (R91). -/
def execHeartwoodStart (s : State) : Out := act (mayHeartwood s) s (heartwoodStart s)

/-- A request executes (R172): one that fails a check, and a NOP, answer at once. -/
def seedRun (f : Frame) (q : SeedReq) (s : State) : State :=
  let c := seedCmd q
  let t := { s with boot := { s.boot with seedXid := some q.xid, seedFrom := f.sa, seedReply := [] } }
  let own := judgeCmd c t
  let st0 := seedChecks q own.isSome
  let st := if st0 = stOk then own.getD stOk else st0
  if st = stOk ∧ opOf q.desc ≠ 0 then startCmd c t else seedRespond c st none t

/-- SEEDLING_FRAME_RX (R94, R172), over port 0: other frames are ignored, a retry is answered again, and a request that finds the
executor or another request busy is dropped. -/
def execSeedlingFrameRx (frame : Frame) (q : SeedReq) (s : State) : Out :=
  act (s.rst.phase == .started && s.boot.seedling && portUp 0 s && seedAccepts frame q) s
    (if seedBusy s then s
     else if seedRetry q s then { s with boot := { s.boot with seedOut := s.boot.seedOut ++ [s.boot.seedReply] } }
     else if s.hw.exec.isSome then s
     else seedRun frame q s)

/-! ### CMD (R470, R472) -/

/-- The forwarded command runs, and its CMDACK leaves; a status other than the active's leaves the standby
DETACHED (R470). -/
def runForwarded (w : FwdCmd) (s : State) : State :=
  let c := w.cmd
  let f := { c with ring := ringFwd }
  let st := (judgeCmd f s).getD stBadArg
  let r : Res := if st = stOk then effForwarded f s else res s st
  let t := gftSendOne (.cmdack c.ring c.desc.w1 r.2.1) (remember c r.2.1 r.2.2 { r.1 with gft := { r.1.gft with
    acks := r.1.gft.acks ++ [(c.ring, genField c.desc, c.desc.w1, r.2.1)] } })
  let u := if r.2.1 = stOk ∨ r.2.1 = stDeferred then noteFwd c.ring c.desc.w1 t else t
  if r.2.1 = w.status then u else detach u

/-- CMD (R470, R472): a copy of a command already executed is acknowledged only (R462). -/
def execCmd (c : OnLink FwdCmd) (s : State) : Out :=
  onLane c.link s fun t =>
    if t.gft.role != .standby || !isPaired t || !forwards c.body.cmd then t
    else
      match t.gft.acks.find? fun a =>
        a.1 == c.body.cmd.ring && a.2.1 == genField c.body.cmd.desc && a.2.2.1 == c.body.cmd.desc.w1 with
      | some a => gftSendOne (.cmdack c.body.cmd.ring c.body.cmd.desc.w1 a.2.2.2) t
      | none => runForwarded c.body t

end Sys2Proof.Machine
end

