-- ==== Sys2Proof/Machine/Tick.lean ====
section
/-! DEFINITION. The tick boundary (R17, R127, R153, R182, R192, R199, R466). -/

namespace Sys2Proof.Machine

open Sys2Proof

/-- The command of class T whose boundary this is: 20 µs or more after its consumption (R153). -/
def dueAtTick (s : State) : Option Cmd :=
  match s.hw.tWait with
  | some (c, t) => if t + 20000 ≤ s.clk.now then some c else none
  | none => none

/-- It takes effect and completes. -/
def tickCommand (s : State) : State :=
  match dueAtTick s with
  | some c => complete c (effAtTick c { s with hw := { s.hw with tWait := none } })
  | none => s

/-- Each input may raise one more event in the new tick (R527). -/
def inputsAtTick (s : State) : State :=
  { s with bin := { s.bin with ins := s.bin.ins.map fun e => (e.1, { e.2 with told := false }) } }

/-- What the boundary does, in order: the mirror of the ended tick, the marks, the command of class T, budgets and
stranded partitions, and the next tick. -/
def boundary (s : State) : State :=
  noteComplete (inputsAtTick (openTicks (nextTick (giveStranded (restoreBudgets (tickCommand (takeAllMarks
    (ownMark (shadowTick (mirrorTick (takeInputs s)))))))))))

/-- The next boundary of the bound time line has come (R17, R192). -/
def boundaryDue (s : State) : Bool :=
  s.rst.phase == .started && s.cnp.inTail && decide (s.cnp.tickEnd ≤ lineNow s)

/-- TICK_BOUNDARY (R127, R192, R199). -/
def execTickBoundary (s : State) : Out := act (boundaryDue s) s (boundary s)

end Sys2Proof.Machine
end

