-- ==== Sys2Proof/Machine/Regs.lean ====
section
/-! DEFINITION. The setup window: what each register reads, what a write does, `CFG_LOCK`, and P0's mirror of the
window (R12 to R15, R553 to R558). -/

namespace Sys2Proof.Machine

open Sys2Proof

/-! ### What each register reads (R553) -/

/-- The bits of a set of numbers, as a word. -/
def bitSet (n : Nat) (p : Nat → Bool) : Nat := (List.range n).foldl (fun m i => m + 2 ^ i * b2n (p i)) 0

/-- The low 16 bits of a temperature and the high ones (R69). -/
def regTj (s : State) : Nat := s.pow.tjSsd.toNat * 65536 + s.pow.tjCmp.toNat

/-- `CFG_TJALM` (R70). -/
def regTjAlm (s : State) : Nat := 2 ^ 31 * b2n s.pow.alm + s.pow.limit.toNat

/-- `RST_CAUSE` (R96). -/
def regCause (s : State) : Nat := s.rst.lastReach * 65536 + s.rst.cause.toNat

/-- `RST_STRAP` (R97). -/
def regStrap (s : State) : Nat :=
  let b := s.rst.strapBin
  2 ^ 31 * b2n s.rst.strapOk + 2 ^ 16 * strapMode b + 2 ^ 12 * strapImage b + 2 ^ 8 * (b % 16) + s.rst.strapCode % 64

/-- `RST_BOOT` (R98). -/
def regBoot (s : State) : Nat :=
  2 ^ 31 * b2n s.boot.done + 2 ^ 12 * statCode s + 2 ^ 8 * (s.rst.aborts % 8) + 2 ^ 4 * (s.boot.slot % 8) +
    8 * b2n (s.rst.strapOk && s.rst.strapBin == 0) + 4 * b2n s.boot.seedling + min s.mram.fails 3

/-- The three channels. -/
def allChans : List Chan := [.A, .B, .C]

/-- `CNP_TRIADn` (R189, R213). -/
def regTriad (n : Nat) (s : State) : Nat :=
  let x := triadOf n s
  let has (l : List Chan) (i : Nat) : Bool := l.contains (chanOfNum i)
  2 ^ 16 * ((partsOn n s).length % 256) + 2 ^ 8 * bitSet 3 (fun i => decide (3 ≤ x.isos.count (chanOfNum i))) +
    2 ^ 6 * b2n x.failed + 2 ^ 5 * b2n (!x.joining.isEmpty) + 2 ^ 4 * b2n (s.cnp.spare == n && n != 0) +
    bitSet 3 (has x.chans)

/-- `CNP_CFG` (R214). -/
def regCnpCfg (s : State) : Nat :=
  2 ^ 31 * b2n (tbGood (tbOf s.cnp.tb s)) + 2 ^ 8 * b2n s.cnp.rate + 2 ^ 4 * (s.cnp.tb % 4) + s.cnp.spare % 16

/-- `CNP_EVT` (R215). -/
def regCnpEvt (s : State) : Nat := s.cnp.lastTriad % 16 * 2 ^ 24 + s.cnp.lastPart % 256 * 2 ^ 16 + s.cnp.evt.toNat

/-- `RNG_JRNL` (R137). -/
def regJrnl (s : State) : Nat := s.rng.peak * 65536 + jrnlUsed s

/-- `RNG_EVT` (R138). -/
def regRngEvt (s : State) : Nat := s.rng.lastRing % 4096 * 65536 + s.rng.evt.toNat

/-- `RNG_MON` (R116, R140): the monitor of a ring is armed while it is not OFF. -/
def regMon (s : State) : Nat :=
  2 ^ 16 * bitSet 3 (fun i => s.cnp.lanes.contains (chanOfNum i)) +
    (s.rng.rings.filter fun e => e.2.st != .off).length

/-- Codes of `LINK` (R247). -/
def linkCode : Link → Nat
  | .down => 0
  | .training => 1
  | .hold => 2
  | .up => 3

/-- `PRT_STATn` (R247). -/
def regPort (n : Nat) (s : State) : Nat :=
  let p := portOf n s
  2 ^ 17 * (p.downCause % 8) + 2 ^ 16 * b2n p.anegRef + 2 ^ 15 * b2n p.paused + 2 ^ 13 * (p.verify % 4) +
    2 ^ 12 * b2n p.held + 2 ^ 10 * enCode p.en + 2 ^ 9 * b2n p.halfNow + 2 ^ 6 * (p.speedNow % 8) + linkCode p.link

/-- Codes of `ACQ` (R324). -/
def acqCode : Acq → Nat
  | .unacquired => 0
  | .locked => 1
  | .holdover => 2
  | .refused => 3

/-- clockClass of the selected master, or sent as grandmaster (R324). -/
def tbClass (b : TBase) : Nat :=
  match b.foreign.find? fun f => b.master == some (masterName f) with
  | some f => f.ann.cls
  | none => if gmActive b then gmClass b else 0

/-- `TB_STATn` (R324). -/
def regTb (n : Nat) (s : State) : Nat :=
  let b := tbOf n s
  let tx := gmActive b && (List.range 48).any fun p => onPort b p && portUp p s && !quietNow b p s
  2 ^ 16 * (tbClass b % 256) + 2 ^ 14 * b2n tx + 2 ^ 8 * ((b.master.map fun m => m.2.2 % 64).getD 63) +
    2 ^ 6 * tbSource b + 2 ^ 4 * acqCode b.acq + 2 ^ 3 * b2n b.armed + 2 ^ 2 * b2n b.held + enCode b.en

/-- `TB_EVT` (R325). -/
def regTbEvt (s : State) : Nat :=
  s.tim.lastTb % 4 * 2 ^ 24 + s.tim.lastPort % 64 * 2 ^ 16 + s.tim.evt.toNat

/-- The snapshot of time base `n` (R327). -/
def snapVal (n : Nat) (s : State) : Nat × Bool × Nat × Int := s.tim.snap.vals.getD n (0, false, 0, 0)

/-- `TB_SVALn` and `TB_SRATEn` by word (R327). -/
def regSnap (n w : Nat) (s : State) : Nat :=
  let v := snapVal n s
  match w with
  | 0 => v.1 / 65536 % 2 ^ 32
  | 1 => v.1 / 2 ^ 48
  | 2 => 2 ^ 31 * b2n v.2.1 + 2 ^ 16 * v.2.2.1 + v.1 % 65536
  | _ => unsigned 32 v.2.2.2

/-- `TB_MEASn` (R328). -/
def regMeas (n : Nat) (s : State) : Nat :=
  let t := (tbOf n s).theta / 256
  unsigned 32 (max (-2147483648) (min 2147483647 t))

/-- `SV_EVT`, `FLT_EVT`, `ACQ_EVT` and `KEY_EVT` (R361, R389, R421, R448). -/
def regSvEvt (s : State) : Nat := s.sv.lastIndex % 4096 * 65536 + s.sv.evt.toNat
def regFltEvt (s : State) : Nat :=
  s.flt.lastCh % 32 * 2 ^ 24 + s.flt.lastStream % 4096 * 2 ^ 12 + s.flt.evt.toNat
def regAcqEvt (s : State) : Nat := s.acq.lastRec % 16 * 65536 + s.acq.evt.toNat
def regKeyEvt (s : State) : Nat := s.key.lastSlot % 2048 * 65536 + s.key.evt.toNat

/-- Codes of `CAP` (R420). -/
def capCode : Cap → Nat
  | .waiting => 0
  | .capturing => 1
  | .closing => 2

/-- `ACQ_STATn` (R420). -/
def regAcq (n : Nat) (s : State) : Nat :=
  let x := lookD s.acq.recs n {}
  let level := (x.cur.map fun r => r.ladder % 8).getD 0
  2 ^ 16 * min (heldRecs x).length 255 + 2 ^ 8 * level + 2 ^ 6 * b2n x.blindSince.isSome + 2 ^ 4 * capCode x.cap +
    2 ^ 2 * b2n x.held + enCode x.en

/-- `ACQ_BUF` (R422). -/
def regAcqBuf (s : State) : Nat :=
  ((s.acq.recs.filter fun e => e.2.set).map fun e => e.2.bufMib).foldl (· + ·) 0

/-- `KEY_SLOTS` (R447). -/
def regKeys (s : State) : Nat :=
  2 ^ 31 * b2n (groveHeld s).isSome + 2 ^ 16 * (s.key.slots.filter fun e => e.2.st == .bad).length +
    min (s.key.slots.filter fun e => usable e.2).length 0xFFF

/-- `KEY_EPOCH` (R450). -/
def regEpoch (s : State) : Nat := 2 ^ 31 * b2n (s.mram.epoch % 2 ^ 24 == 0xFFFFFF) + s.mram.epoch % 2 ^ 24

/-- `ECC_REPAIR` (R518). -/
def regRepair (s : State) : Nat := 2 ^ 31 * b2n s.ecc.exhausted + s.mram.repairs.length % 128

/-- `ECC_LAPn` (R519). -/
def regLap (n : Nat) (s : State) : Nat := 2 ^ 31 * b2n (eccOf n s).late + (eccOf n s).lapMs % 2 ^ 31

/-- `LOG_STAT` (R520). -/
def regLog (s : State) : Nat := 2 ^ 31 * b2n s.log.flushing + 2 ^ 30 * b2n s.log.pstateBad + min s.log.lost 65535

/-- `OUT_INH` (R543). -/
def regInh (s : State) : Nat := 2 ^ 31 * b2n s.out.inh + 2 ^ 30 * b2n s.out.pinLow + b2n s.out.inhRefused

/-- `OUT_STATn` (R544). -/
def regOut (n : Nat) (s : State) : Nat :=
  let c := outCh n s
  2 ^ 12 * b2n c.pullIn + 2 ^ 11 * b2n c.pulse.isSome + 2 ^ 10 * b2n (pinRule c s == .safe) + 2 ^ 9 * b2n c.pinB +
    2 ^ 8 * b2n c.pinA + 2 ^ 4 * outMode c + 2 ^ 2 * b2n c.held + enCode c.en

/-- `BIN_STATE`, `BIN_RAW` and `BIN_ON` (R545). -/
def regBin (w : Nat) (s : State) : Nat :=
  bitSet 32 fun i =>
    let x := binOf i s
    match w with
    | 0 => x.state && x.en != .off
    | 1 => x.level
    | _ => x.en != .off

/-- The single registers of the CFG_, RST_, CNP_, PGK_ and RNG_ blocks. -/
def readLow (o : Nat) (s : State) : Nat :=
  match o with
  | 0x0000 => modRev
  | 0x0004 => b2n s.rst.cfgLock
  | 0x0040 => regTj s
  | 0x0044 => regTjAlm s
  | 0x0100 => regCause s
  | 0x0104 => regStrap s
  | 0x0108 => regBoot s
  | 0x0240 => regCnpCfg s
  | 0x0244 => regCnpEvt s
  | 0x0248 => min s.cnp.skew 65535
  | 0x0300 => s.pgk.free
  | 0x0304 => s.pgk.scrub
  | 0x0308 => s.pgk.undo
  | 0x0400 => regJrnl s
  | 0x0404 => regRngEvt s
  | 0x0408 => regMon s
  | _ => 0

/-- The single registers of the PRT_ to TB_ blocks. -/
def readNet (o : Nat) (s : State) : Nat :=
  match o with
  | 0x10C0 => s.prt.linkEvt.toNat % 2 ^ 32
  | 0x10C4 => s.prt.linkEvt.toNat / 2 ^ 32
  | 0x1100 => poolCells s - poolUse s
  | 0x1104 => s.sw.low
  | 0x1108 => s.sw.evt.toNat
  | 0x110C => s.sw.tc.toNat
  | 0x1110 => s.sw.seed.toNat
  | 0x1210 => regTbEvt s
  | 0x1218 => s.tim.tscls.toNat
  | 0x121C => s.tim.pdly.toNat
  | 0x1220 => s.tim.snap.frc / 65536 % 2 ^ 32
  | 0x1224 => s.tim.snap.frc / 2 ^ 48
  | 0x1228 => s.tim.snap.frc % 65536
  | _ => 0

/-- The single registers of the SV_ to OBS_ blocks. -/
def readHigh (o : Nat) (s : State) : Nat :=
  match o with
  | 0x1300 => asduLoad s
  | 0x1304 => chsLoad s
  | 0x1308 => regSvEvt s
  | 0x1400 => fltLoad s % 65536
  | 0x1404 => min s.flt.peak 0xFFFFFF
  | 0x1408 => regFltEvt s
  | 0x1540 => regAcqEvt s
  | 0x1544 => regAcqBuf s
  | 0x1600 => regKeys s
  | 0x1604 => regKeyEvt s
  | 0x1608 => (groveTag s).getD 0 % 2 ^ 32
  | 0x160C => (groveTag s).getD 0 / 2 ^ 32
  | 0x1610 => regEpoch s
  | 0x1700 => gftStat s
  | 0x1704 => gftPeer s
  | 0x1708 => gftMirrorWord s
  | 0x170C => s.gft.evt.toNat
  | 0x1800 => s.ecc.evt.toNat
  | 0x1804 => regRepair s
  | 0x1900 => regLog s
  | 0x1904 => if s.log.any then s.log.newest else 0
  | 0x1908 => s.log.flushed
  | 0x190C => oldestNum s
  | 0x1910 => s.log.sel.toNat
  | 0x1A00 => regInh s
  | 0x1B00 => regBin 0 s
  | 0x1B04 => regBin 1 s
  | 0x1B08 => regBin 2 s
  | 0x1C00 => obsStat s
  | _ => 0

/-- The value of the register at an aligned offset; an offset that no register occupies reads 0 (R553, R554). -/
def regAt (o : Nat) (s : State) : Nat :=
  let i (base : Nat) : Nat := (o - base) / 4
  let within (base n : Nat) : Bool := base ≤ o && decide (o < base + 4 * n)
  if within 0x0200 16 then regTriad (i 0x0200) s
  else if within 0x1000 48 then regPort (i 0x1000) s
  else if within 0x1200 4 then regTb (i 0x1200) s
  else if within 0x1240 16 then regSnap (i 0x1240 / 4) (i 0x1240 % 4) s
  else if within 0x1280 4 then regMeas (i 0x1280) s
  else if within 0x1500 16 then regAcq (i 0x1500) s
  else if within 0x1840 16 then regLap (i 0x1840) s
  else if within 0x1940 16 then logWindow (i 0x1940) s
  else if within 0x1A40 16 then regOut (i 0x1A40) s
  else if o < 0x1000 then readLow o s
  else if o < 0x1300 then readNet o s
  else readHigh o s

/-- A read of the setup window (R12): of another width or alignment, 0. -/
def readReg (offset width : Nat) (s : State) : Word :=
  if width = 4 ∧ offset % 4 = 0 then BitVec.ofNat 32 (regAt offset s) else 0

/-! ### What a write does (R12 to R15) -/

/-- The bits that a write clears in the W1C register at offset `o`: those it writes 1 to, but for those the module
sets at this instant (R13, R14). -/
def clears (o : Nat) (v : Word) (s : State) : Word :=
  s.sets.foldl (fun w e => if e.1 = o then w &&& ~~~(BitVec.ofNat 32 (2 ^ e.2)) else w) v

/-- A write of 1 locks (R555), except while a COLD or WARM reset holds the register (R77, R79, R561). -/
def writeLock (v : Word) (s : State) : State :=
  if tbit v.toNat 0 && !warmHeld s then { s with rst := { s.rst with cfgLock := true } } else s

/-- `CFG_TJALM` (R70). -/
def writeTjAlm (v : Word) (s : State) : State :=
  { s with pow := { s.pow with alm := s.pow.alm && !tbit (clears 0x0044 v s).toNat 31, limit := v.setWidth 16 } }

/-- `ANEG_REF` of a port (R247). -/
def writePort (n : Nat) (v : Word) (s : State) : State :=
  if tbit (clears (0x1000 + 4 * n) v s).toNat 16 && (portOf n s).anegRef then setPort n { portOf n s with anegRef := false } s else s

/-- `PRT_LINKEVT0` and `PRT_LINKEVT1` (R248). -/
def writeLink (hi : Bool) (v : Word) (s : State) : State :=
  let w := clears (if hi then 0x10C4 else 0x10C0) v s
  let clear : BitVec 48 := if hi then (w.setWidth 48 <<< 32) else w.setWidth 48
  { s with prt := { s.prt with linkEvt := s.prt.linkEvt &&& ~~~clear } }

/-- `SW_TC` (R290), which a COLD or WARM reset holds (R561). -/
def writeTc (v : Word) (s : State) : State :=
  if warmHeld s then s else { s with sw := { s.sw with tc := v.setWidth 3 } }

/-- `SW_HASH` (R291), which a COLD or WARM reset holds (R561). -/
def writeHash (v : Word) (s : State) : State :=
  if s.sw.exact.isEmpty && !s.rst.cfgLock && !warmHeld s then { s with sw := { s.sw with seed := v } } else s

/-- SW_HASH (R291): ignored while the exact-match table holds an entry or the window is locked. -/
def execSwHash (value : Word) (s : State) : Out := act s.rst.pcieAt.isSome s (writeHash value s)

/-- `TB_SNAP` (R326). -/
def writeSnap (v : Word) (s : State) : State :=
  if tbit v.toNat 0 then
    { s with tim := { s.tim with snap :=
      { frc := frcNow s, vals := (List.range 4).map fun n => snapOf (tbOf n s) (frcNow s) } } }
  else s

/-- `OBS_STAT` (R552): FFFFh clears the whole count. R14 speaks of bits, and leaves open whether a record dropped at
the instant of the write stays counted: it does not (DESIGN CHOICE, log entry 106). -/
def writeObs (v : Word) (s : State) : State :=
  if v.toNat / 65536 = 65535 then { s with obs := { s.obs with dropped := 0 } } else s

/-- A write of the register at an aligned offset; where no field can be written it is ignored (R13, R15, R554). -/
def writeAt (o : Nat) (v : Word) (s : State) : State :=
  let k := clears o v s
  match o with
  | 0x0004 => writeLock v s
  | 0x0044 => writeTjAlm v s
  | 0x0100 => { s with rst := { s.rst with cause := w1c s.rst.cause k } }
  | 0x0244 => { s with cnp := { s.cnp with evt := w1c s.cnp.evt k } }
  | 0x0404 => { s with rng := { s.rng with evt := w1c s.rng.evt k } }
  | 0x10C0 => writeLink false v s
  | 0x10C4 => writeLink true v s
  | 0x1108 => { s with sw := { s.sw with evt := w1c s.sw.evt k } }
  | 0x110C => writeTc v s
  | 0x1110 => writeHash v s
  | 0x1210 => { s with tim := { s.tim with evt := w1c s.tim.evt k } }
  | 0x1214 => writeSnap v s
  | 0x1218 => { s with tim := { s.tim with tscls := v.setWidth 5 ||| 1 } }
  | 0x121C => { s with tim := { s.tim with pdly := v &&& 0x00FFFF03 } }
  | 0x1308 => { s with sv := { s.sv with evt := w1c s.sv.evt k } }
  | 0x1408 => { s with flt := { s.flt with evt := w1c s.flt.evt k } }
  | 0x1540 => { s with acq := { s.acq with evt := w1c s.acq.evt k } }
  | 0x1604 => { s with key := { s.key with evt := w1c s.key.evt k } }
  | 0x170C => { s with gft := { s.gft with evt := w1c s.gft.evt k } }
  | 0x1800 => { s with ecc := { s.ecc with evt := w1c s.ecc.evt k } }
  | 0x1910 => { s with log := { s.log with sel := v } }
  | 0x1A00 => { s with out := { s.out with inhRefused := s.out.inhRefused && !tbit k.toNat 0 } }
  | 0x1C00 => writeObs v s
  | _ => s

/-- A write of the setup window; of another width or alignment it is ignored (R12). -/
def writeReg (offset width : Nat) (v : Word) (s : State) : State :=
  if width = 4 ∧ offset % 4 = 0 then
    if 0x1000 ≤ offset ∧ offset < 0x10C0 then writePort ((offset - 0x1000) / 4) v s else writeAt offset v s
  else s

/-- REGISTER_WRITE (R13): a write from the PCIe endpoint, which answers no access while COLD or PERST_N holds it
(R76, R91). -/
def execRegisterWrite (offset width : Nat) (value : Word) (s : State) : Out :=
  act s.rst.pcieAt.isSome s (writeReg offset width value s)

/-- CFG_LOCK (R555), from the PCIe endpoint. -/
def execCfgLock (value : Word) (s : State) : Out := act s.rst.pcieAt.isSome s (writeLock value s)

/-- P0_MIRROR_ACCESS (R556, R557): an access of P0 once its vote has passed; a read returns its one value to every
channel of the triad. -/
def execP0MirrorAccess (offset : Nat) (access : MirrorAccess) (s : State) : Out :=
  named (decide (offset < 0x10000))
    (act (p0Exists s && hasPassed (.mirror offset access) s) s
      (let t := usePassed (.mirror offset access) s
       match access.write with
       | some v => writeReg offset access.width v t
       | none => { t with cnp := { t.cnp with lastMirror := readReg offset access.width t } }))

end Sys2Proof.Machine
end

