-- ==== Sys2Proof/Machine/Dispatch.lean ====
section
/-! DEFINITION. exec: one arm per command, each a direct call of its meaning. -/

namespace Sys2Proof.Machine

open Sys2Proof

/-- The effect of a command on everything but the queue. -/
def exec (i : Instr) (s : State) : Host.Outcome State Fault Refusal :=
  match i with
  | .nop ring seq => Sys2Proof.Machine.execNop ring seq s
  | .partCreate c => Sys2Proof.Machine.execPartCreate c s
  | .partStart c => Sys2Proof.Machine.execPartStart c s
  | .partStop c => Sys2Proof.Machine.execPartStop c s
  | .partReset c => Sys2Proof.Machine.execPartReset c s
  | .partDestroy c => Sys2Proof.Machine.execPartDestroy c s
  | .partQuota c => Sys2Proof.Machine.execPartQuota c s
  | .partFreeze c => Sys2Proof.Machine.execPartFreeze c s
  | .partSave c => Sys2Proof.Machine.execPartSave c s
  | .partRestore c => Sys2Proof.Machine.execPartRestore c s
  | .partThaw c => Sys2Proof.Machine.execPartThaw c s
  | .cnpSchedule c => Sys2Proof.Machine.execCnpSchedule c s
  | .cnpBudget c => Sys2Proof.Machine.execCnpBudget c s
  | .cnpWake c => Sys2Proof.Machine.execCnpWake c s
  | .cnpSpare c => Sys2Proof.Machine.execCnpSpare c s
  | .cnpTick c => Sys2Proof.Machine.execCnpTick c s
  | .triadReset c => Sys2Proof.Machine.execTriadReset c s
  | .triadRejoin c => Sys2Proof.Machine.execTriadRejoin c s
  | .moduleReset c => Sys2Proof.Machine.execModuleReset c s
  | .bootComplete c => Sys2Proof.Machine.execBootComplete c s
  | .ringCreate c => Sys2Proof.Machine.execRingCreate c s
  | .ringEnable c => Sys2Proof.Machine.execRingEnable c s
  | .ringDisable c => Sys2Proof.Machine.execRingDisable c s
  | .ringReset c => Sys2Proof.Machine.execRingReset c s
  | .ringDestroy c => Sys2Proof.Machine.execRingDestroy c s
  | .ringShare c => Sys2Proof.Machine.execRingShare c s
  | .ringQuery c => Sys2Proof.Machine.execRingQuery c s
  | .svSubscribe c => Sys2Proof.Machine.execSvSubscribe c s
  | .svEnable c => Sys2Proof.Machine.execSvEnable c s
  | .svDisable c => Sys2Proof.Machine.execSvDisable c s
  | .svRemove c => Sys2Proof.Machine.execSvRemove c s
  | .svSource c => Sys2Proof.Machine.execSvSource c s
  | .gooseSubscribe c => Sys2Proof.Machine.execGooseSubscribe c s
  | .gooseUnsubscribe c => Sys2Proof.Machine.execGooseUnsubscribe c s
  | .goosePubSet c => Sys2Proof.Machine.execGoosePubSet c s
  | .goosePubEnable c => Sys2Proof.Machine.execGoosePubEnable c s
  | .goosePubDisable c => Sys2Proof.Machine.execGoosePubDisable c s
  | .fltChannel c => Sys2Proof.Machine.execFltChannel c s
  | .fltThreshold c => Sys2Proof.Machine.execFltThreshold c s
  | .fltCoeff c => Sys2Proof.Machine.execFltCoeff c s
  | .portConfig c => Sys2Proof.Machine.execPortConfig c s
  | .portEnable c => Sys2Proof.Machine.execPortEnable c s
  | .portDisable c => Sys2Proof.Machine.execPortDisable c s
  | .portReset c => Sys2Proof.Machine.execPortReset c s
  | .portFilter c => Sys2Proof.Machine.execPortFilter c s
  | .swExactAdd c => Sys2Proof.Machine.execSwExactAdd c s
  | .swExactDel c => Sys2Proof.Machine.execSwExactDel c s
  | .swWildSet c => Sys2Proof.Machine.execSwWildSet c s
  | .swWildDel c => Sys2Proof.Machine.execSwWildDel c s
  | .swQueue c => Sys2Proof.Machine.execSwQueue c s
  | .swRed c => Sys2Proof.Machine.execSwRed c s
  | .swRedun c => Sys2Proof.Machine.execSwRedun c s
  | .swPaths c => Sys2Proof.Machine.execSwPaths c s
  | .tbConfig c => Sys2Proof.Machine.execTbConfig c s
  | .tbEnable c => Sys2Proof.Machine.execTbEnable c s
  | .tbDisable c => Sys2Proof.Machine.execTbDisable c s
  | .tbRearm c => Sys2Proof.Machine.execTbRearm c s
  | .tbPps c => Sys2Proof.Machine.execTbPps c s
  | .keyLoad c => Sys2Proof.Machine.execKeyLoad c s
  | .keyInvalidate c => Sys2Proof.Machine.execKeyInvalidate c s
  | .keyQuery c => Sys2Proof.Machine.execKeyQuery c s
  | .keyRollover c => Sys2Proof.Machine.execKeyRollover c s
  | .acqConfig c => Sys2Proof.Machine.execAcqConfig c s
  | .acqArm c => Sys2Proof.Machine.execAcqArm c s
  | .acqDisarm c => Sys2Proof.Machine.execAcqDisarm c s
  | .acqTrigger c => Sys2Proof.Machine.execAcqTrigger c s
  | .acqRelease c => Sys2Proof.Machine.execAcqRelease c s
  | .gftPair c => Sys2Proof.Machine.execGftPair c s
  | .gftUnpair c => Sys2Proof.Machine.execGftUnpair c s
  | .gftMirror c => Sys2Proof.Machine.execGftMirror c s
  | .gftSwitch c => Sys2Proof.Machine.execGftSwitch c s
  | .gftStatus c => Sys2Proof.Machine.execGftStatus c s
  | .logRead c => Sys2Proof.Machine.execLogRead c s
  | .logNote c => Sys2Proof.Machine.execLogNote c s
  | .eccBucket c => Sys2Proof.Machine.execEccBucket c s
  | .eccQuery c => Sys2Proof.Machine.execEccQuery c s
  | .imgErase c => Sys2Proof.Machine.execImgErase c s
  | .imgWrite c => Sys2Proof.Machine.execImgWrite c s
  | .imgCheck c => Sys2Proof.Machine.execImgCheck c s
  | .imgHostLoad c => Sys2Proof.Machine.execImgHostLoad c s
  | .imgHostStart c => Sys2Proof.Machine.execImgHostStart c s
  | .imgFloor c => Sys2Proof.Machine.execImgFloor c s
  | .seedlingExit c => Sys2Proof.Machine.execSeedlingExit c s
  | .outConfig c => Sys2Proof.Machine.execOutConfig c s
  | .outEnable c => Sys2Proof.Machine.execOutEnable c s
  | .outDisable c => Sys2Proof.Machine.execOutDisable c s
  | .outInhClear c => Sys2Proof.Machine.execOutInhClear c s
  | .binConfig c => Sys2Proof.Machine.execBinConfig c s
  | .binEnable c => Sys2Proof.Machine.execBinEnable c s
  | .binDisable c => Sys2Proof.Machine.execBinDisable c s
  | .obsTrace c => Sys2Proof.Machine.execObsTrace c s
  | .obsSnapshot c => Sys2Proof.Machine.execObsSnapshot c s
  | .snsConfig c => Sys2Proof.Machine.execSnsConfig c s
  | .snsRead c => Sys2Proof.Machine.execSnsRead c s
  | .obsIdent c => Sys2Proof.Machine.execObsIdent c s
  | .classBFinish kind reply => Sys2Proof.Machine.execClassBFinish kind reply s
  | .send ring seq frame => Sys2Proof.Machine.execSend ring seq frame s
  | .recv ring seq => Sys2Proof.Machine.execRecv ring seq s
  | .publish ring seq data => Sys2Proof.Machine.execPublish ring seq data s
  | .exportRec ring seq => Sys2Proof.Machine.execExportRec ring seq s
  | .stage ring seq => Sys2Proof.Machine.execStage ring seq s
  | .load ring seq block => Sys2Proof.Machine.execLoad ring seq block s
  | .pulse ring seq => Sys2Proof.Machine.execPulse ring seq s
  | .doorbell ring prod ccons econs een => Sys2Proof.Machine.execDoorbell ring prod ccons econs een s
  | .descriptorConsume ring d block => Sys2Proof.Machine.execDescriptorConsume ring d block s
  | .completionWrite ring => Sys2Proof.Machine.execCompletionWrite ring s
  | .tickBoundary => Sys2Proof.Machine.execTickBoundary s
  | .tailStart saved => Sys2Proof.Machine.execTailStart saved s
  | .dispatch triad => Sys2Proof.Machine.execDispatch triad s
  | .runEnd triad why counts ctx => Sys2Proof.Machine.execRunEnd triad why counts ctx s
  | .wake => Sys2Proof.Machine.execWake s
  | .yield triad by_ ctx => Sys2Proof.Machine.execYield triad by_ ctx s
  | .pwakeClear part write => Sys2Proof.Machine.execPwakeClear part write s
  | .firstTouch part addr kind => Sys2Proof.Machine.execFirstTouch part addr kind s
  | .firstStore part iova data ctx => Sys2Proof.Machine.execFirstStore part iova data ctx s
  | .vote triad ch e => Sys2Proof.Machine.execVote triad ch e s
  | .voteToleranceEnd triad => Sys2Proof.Machine.execVoteToleranceEnd triad s
  | .rejoinComplete triad => Sys2Proof.Machine.execRejoinComplete triad s
  | .p0MirrorAccess offset access => Sys2Proof.Machine.execP0MirrorAccess offset access s
  | .registerWrite offset width value => Sys2Proof.Machine.execRegisterWrite offset width value s
  | .cfgLock value => Sys2Proof.Machine.execCfgLock value s
  | .swHash value => Sys2Proof.Machine.execSwHash value s
  | .capture value => Sys2Proof.Machine.execCapture value s
  | .obsStatClear value => Sys2Proof.Machine.execObsStatClear value s
  | .vauxRise => Sys2Proof.Machine.execVauxRise s
  | .railGood r => Sys2Proof.Machine.execRailGood r s
  | .porRelease => Sys2Proof.Machine.execPorRelease s
  | .railFault r => Sys2Proof.Machine.execRailFault r s
  | .refclkLoss => Sys2Proof.Machine.execRefclkLoss s
  | .refclkReturn => Sys2Proof.Machine.execRefclkReturn s
  | .sdclkLoss => Sys2Proof.Machine.execSdclkLoss s
  | .perstN high => Sys2Proof.Machine.execPerstN high s
  | .temperatureTrip => Sys2Proof.Machine.execTemperatureTrip s
  | .tjConversion ssd cmp => Sys2Proof.Machine.execTjConversion ssd cmp s
  | .pfailN ns => Sys2Proof.Machine.execPfailN ns s
  | .resetN high ns => Sys2Proof.Machine.execResetN high ns s
  | .wrstN high ns => Sys2Proof.Machine.execWrstN high ns s
  | .bootTimerExpiry => Sys2Proof.Machine.execBootTimerExpiry s
  | .watchdogExpiry => Sys2Proof.Machine.execWatchdogExpiry s
  | .resetRelease => Sys2Proof.Machine.execResetRelease s
  | .trimLoadEnd words crc => Sys2Proof.Machine.execTrimLoadEnd words crc s
  | .strapMeasurementEnd codes => Sys2Proof.Machine.execStrapMeasurementEnd codes s
  | .pllLock => Sys2Proof.Machine.execPllLock s
  | .lanesTrained noSpare => Sys2Proof.Machine.execLanesTrained noSpare s
  | .heartwoodStart => Sys2Proof.Machine.execHeartwoodStart s
  | .imageSourceDone seen => Sys2Proof.Machine.execImageSourceDone seen s
  | .hostWindowExpiry => Sys2Proof.Machine.execHostWindowExpiry s
  | .seedlingFrameRx frame q => Sys2Proof.Machine.execSeedlingFrameRx frame q s
  | .seedlingAnnounce => Sys2Proof.Machine.execSeedlingAnnounce s
  | .stoppingEnd kind index => Sys2Proof.Machine.execStoppingEnd kind index s
  | .signalDetect port => Sys2Proof.Machine.execSignalDetect port s
  | .pcsUp port => Sys2Proof.Machine.execPcsUp port s
  | .upHoldExpiry port => Sys2Proof.Machine.execUpHoldExpiry port s
  | .linkDown port cause => Sys2Proof.Machine.execLinkDown port cause s
  | .anegResult port speed full ok => Sys2Proof.Machine.execAnegResult port speed full ok s
  | .frameRx port f => Sys2Proof.Machine.execFrameRx port f s
  | .pauseTimerExpiry port => Sys2Proof.Machine.execPauseTimerExpiry port s
  | .frameTx port sfd meets => Sys2Proof.Machine.execFrameTx port sfd meets s
  | .collision port bits => Sys2Proof.Machine.execCollision port bits s
  | .backoffExpiry port => Sys2Proof.Machine.execBackoffExpiry port s
  | .verifyMpacketTimer port => Sys2Proof.Machine.execVerifyMpacketTimer port s
  | .respondMpacketRx port => Sys2Proof.Machine.execRespondMpacketRx port s
  | .switchIngress source => Sys2Proof.Machine.execSwitchIngress source s
  | .verificationVerdict lane => Sys2Proof.Machine.execVerificationVerdict lane s
  | .egress port => Sys2Proof.Machine.execEgress port s
  | .pathReturn group member => Sys2Proof.Machine.execPathReturn group member s
  | .entryForget node => Sys2Proof.Machine.execEntryForget node s
  | .nodeForget node => Sys2Proof.Machine.execNodeForget node s
  | .supervisionTx inst => Sys2Proof.Machine.execSupervisionTx inst s
  | .syncRx c => Sys2Proof.Machine.execSyncRx c s
  | .announceRx c => Sys2Proof.Machine.execAnnounceRx c s
  | .delayRespRx c => Sys2Proof.Machine.execDelayRespRx c s
  | .sourceLoss tb => Sys2Proof.Machine.execSourceLoss tb s
  | .delayReqTx tb => Sys2Proof.Machine.execDelayReqTx tb s
  | .gmAnnounceSyncTx tb port => Sys2Proof.Machine.execGmAnnounceSyncTx tb port s
  | .delayReqRx c => Sys2Proof.Machine.execDelayReqRx c s
  | .pdelayReqTx port => Sys2Proof.Machine.execPdelayReqTx port s
  | .pdelayReqRx c => Sys2Proof.Machine.execPdelayReqRx c s
  | .pdelayRespRx c => Sys2Proof.Machine.execPdelayRespRx c s
  | .compareFire id => Sys2Proof.Machine.execCompareFire id s
  | .ppsInEdge at_ => Sys2Proof.Machine.execPpsInEdge at_ s
  | .ppsOutFall => Sys2Proof.Machine.execPpsOutFall s
  | .svFrameRx => Sys2Proof.Machine.execSvFrameRx s
  | .svTickDeadline stream tick => Sys2Proof.Machine.execSvTickDeadline stream tick s
  | .svTickClose stream => Sys2Proof.Machine.execSvTickClose stream s
  | .streamLost stream => Sys2Proof.Machine.execStreamLost stream s
  | .automaticSourceSwitch stream => Sys2Proof.Machine.execAutomaticSourceSwitch stream s
  | .rephase => Sys2Proof.Machine.execRephase s
  | .gooseFrameRx => Sys2Proof.Machine.execGooseFrameRx s
  | .talExpiry sub => Sys2Proof.Machine.execTalExpiry sub s
  | .gooseRetransmission entry => Sys2Proof.Machine.execGooseRetransmission entry s
  | .filterSlot => Sys2Proof.Machine.execFilterSlot s
  | .triggerLevelChange => Sys2Proof.Machine.execTriggerLevelChange s
  | .se1GooseRx => Sys2Proof.Machine.execSe1GooseRx s
  | .rowForm rec => Sys2Proof.Machine.execRowForm rec s
  | .recordStored rec => Sys2Proof.Machine.execRecordStored rec s
  | .keySweep slot => Sys2Proof.Machine.execKeySweep slot s
  | .overlapEnd slot => Sys2Proof.Machine.execOverlapEnd slot s
  | .tag lane => Sys2Proof.Machine.execTag lane s
  | .graftLaneUp lane => Sys2Proof.Machine.execGraftLaneUp lane s
  | .graftLaneDown lane => Sys2Proof.Machine.execGraftLaneDown lane s
  | .hello lane lseq osn => Sys2Proof.Machine.execHello lane lseq osn s
  | .ack lane0 lane1 a => Sys2Proof.Machine.execAck lane0 lane1 a s
  | .partnerLost => Sys2Proof.Machine.execPartnerLost s
  | .resign => Sys2Proof.Machine.execResign s
  | .taken => Sys2Proof.Machine.execTaken s
  | .takenTimeout => Sys2Proof.Machine.execTakenTimeout s
  | .activeNHigh => Sys2Proof.Machine.execActiveNHigh s
  | .claimConfirmation low => Sys2Proof.Machine.execClaimConfirmation low s
  | .keepaliveLapse => Sys2Proof.Machine.execKeepaliveLapse s
  | .cmd c => Sys2Proof.Machine.execCmd c s
  | .cmdack ring seq status => Sys2Proof.Machine.execCmdack ring seq status s
  | .log l => Sys2Proof.Machine.execLog l s
  | .mirrorFrame link f => Sys2Proof.Machine.execMirrorFrame link f s
  | .commit link c => Sys2Proof.Machine.execCommit link c s
  | .pair p => Sys2Proof.Machine.execPair p s
  | .sync part iova data link => Sys2Proof.Machine.execSync part iova data link s
  | .unpair => Sys2Proof.Machine.execUnpair s
  | .correctableError mem loc => Sys2Proof.Machine.execCorrectableError mem loc s
  | .uncorrectableError mem loc => Sys2Proof.Machine.execUncorrectableError mem loc s
  | .scrubLapEnd mem ms => Sys2Proof.Machine.execScrubLapEnd mem ms s
  | .scrubLapLate mem => Sys2Proof.Machine.execScrubLapLate mem s
  | .bucketLeak => Sys2Proof.Machine.execBucketLeak s
  | .operatingSecond => Sys2Proof.Machine.execOperatingSecond s
  | .logbookRecord source => Sys2Proof.Machine.execLogbookRecord source s
  | .flushTimer => Sys2Proof.Machine.execFlushTimer s
  | .flushComplete => Sys2Proof.Machine.execFlushComplete s
  | .binTransition input level at_ => Sys2Proof.Machine.execBinTransition input level at_ s
  | .binFilterWindowEnd input => Sys2Proof.Machine.execBinFilterWindowEnd input s
  | .periodStart ch => Sys2Proof.Machine.execPeriodStart ch s
  | .phaseEnd ch => Sys2Proof.Machine.execPhaseEnd ch s
  | .deadTimeEnd ch => Sys2Proof.Machine.execDeadTimeEnd ch s
  | .pullInEnd ch => Sys2Proof.Machine.execPullInEnd ch s
  | .pulseEnd ch => Sys2Proof.Machine.execPulseEnd ch s
  | .outinhN high ns => Sys2Proof.Machine.execOutinhN high ns s
  | .sensorPoll entry acked value => Sys2Proof.Machine.execSensorPoll entry acked value s
  | .traceUnit lane => Sys2Proof.Machine.execTraceUnit lane s
  | .traceRecord => Sys2Proof.Machine.execTraceRecord s
  | .vauxFault => Sys2Proof.Machine.execVauxFault s
  | .pcsDrop port => Sys2Proof.Machine.execPcsDrop port s
  | .followUpRx c => Sys2Proof.Machine.execFollowUpRx c s
  | .verifyMpacketRx port => Sys2Proof.Machine.execVerifyMpacketRx port s
  | .frameScrubbed => Sys2Proof.Machine.execFrameScrubbed s

end Sys2Proof.Machine
end

