-- ==== Sys2Proof/Machine/Step.lean ====
section
/-! DEFINITION. The step: the command at the front of the queue, or the tick of the clocks. -/

namespace Sys2Proof.Machine

open Sys2Proof

/-- The step on an empty queue: 1 ns passes in the always-on island while VAUX is good, and on the
FRC once it counts (R75, R292; log entry 3). The W1C bits set in the cycle before it are settled (R14), HELLOs and an ACK
leave every 2,000 ns (R462, R464), and a Graft lane that has become free starts its next frame (R463). -/
def idle (s : State) : State :=
  frameStarts <| linkTimers { s with sets := [], clk := { s.clk with
      now := if s.pow.vaux then s.clk.now + 1 else s.clk.now
      frc := if s.clk.frcOn then (s.clk.frc + 1) % 2 ^ 64 else s.clk.frc } }

/-- Take the command at the front of the queue and run it with the queue's rest; on an empty queue
time passes. -/
def step (s : State) : Host.Outcome State Fault Refusal :=
  match s.pending with
  | [] => .next (idle s)
  | c :: rest => exec c { s with pending := rest }

/-- Put the command that a word spells in front of the queue; no word spells one (Decode.lean). -/
def State.withFetchWord (s : State) (nbits w : Nat) : State :=
  match Sys2Proof.decodeTableWord nbits w with
  | some c => { s with pending := c :: s.pending }
  | none => s

end Sys2Proof.Machine
end

