-- ==== Sys2Proof/WellFormed.lean ====
section
/-! DEFINITION. Well-formed commands: every operand lies in the range of the object it names (R18,
R99), and a Heartwood command carries its own opcode (R157 to R170). -/

namespace Sys2Proof

/-- The opcode of a Heartwood command row (R157 to R170). -/
def Instr.opcode? : Instr → Option Nat
  | .partCreate _ => some 0x0101
  | .partStart _ => some 0x0102
  | .partStop _ => some 0x0103
  | .partReset _ => some 0x0104
  | .partDestroy _ => some 0x0105
  | .partQuota _ => some 0x0106
  | .partFreeze _ => some 0x0107
  | .partSave _ => some 0x0108
  | .partRestore _ => some 0x0109
  | .partThaw _ => some 0x010A
  | .cnpSchedule _ => some 0x0110
  | .cnpBudget _ => some 0x0111
  | .cnpWake _ => some 0x0112
  | .cnpSpare _ => some 0x0113
  | .cnpTick _ => some 0x0114
  | .triadReset _ => some 0x0120
  | .triadRejoin _ => some 0x0121
  | .moduleReset _ => some 0x0130
  | .bootComplete _ => some 0x0131
  | .ringCreate _ => some 0x0201
  | .ringEnable _ => some 0x0202
  | .ringDisable _ => some 0x0203
  | .ringReset _ => some 0x0204
  | .ringDestroy _ => some 0x0205
  | .ringShare _ => some 0x0206
  | .ringQuery _ => some 0x0207
  | .svSubscribe _ => some 0x0301
  | .svEnable _ => some 0x0302
  | .svDisable _ => some 0x0303
  | .svRemove _ => some 0x0304
  | .svSource _ => some 0x0305
  | .gooseSubscribe _ => some 0x0310
  | .gooseUnsubscribe _ => some 0x0311
  | .goosePubSet _ => some 0x0320
  | .goosePubEnable _ => some 0x0321
  | .goosePubDisable _ => some 0x0322
  | .fltChannel _ => some 0x0330
  | .fltThreshold _ => some 0x0331
  | .fltCoeff _ => some 0x0332
  | .portConfig _ => some 0x0401
  | .portEnable _ => some 0x0402
  | .portDisable _ => some 0x0403
  | .portReset _ => some 0x0404
  | .portFilter _ => some 0x0405
  | .swExactAdd _ => some 0x0410
  | .swExactDel _ => some 0x0411
  | .swWildSet _ => some 0x0412
  | .swWildDel _ => some 0x0413
  | .swQueue _ => some 0x0420
  | .swRed _ => some 0x0421
  | .swRedun _ => some 0x0430
  | .swPaths _ => some 0x0431
  | .tbConfig _ => some 0x0501
  | .tbEnable _ => some 0x0502
  | .tbDisable _ => some 0x0503
  | .tbRearm _ => some 0x0504
  | .tbPps _ => some 0x0505
  | .keyLoad _ => some 0x0601
  | .keyInvalidate _ => some 0x0602
  | .keyQuery _ => some 0x0603
  | .keyRollover _ => some 0x0604
  | .acqConfig _ => some 0x0701
  | .acqArm _ => some 0x0702
  | .acqDisarm _ => some 0x0703
  | .acqTrigger _ => some 0x0704
  | .acqRelease _ => some 0x0705
  | .gftPair _ => some 0x0801
  | .gftUnpair _ => some 0x0802
  | .gftMirror _ => some 0x0803
  | .gftSwitch _ => some 0x0804
  | .gftStatus _ => some 0x0805
  | .logRead _ => some 0x0901
  | .logNote _ => some 0x0902
  | .eccBucket _ => some 0x0903
  | .eccQuery _ => some 0x0904
  | .imgErase _ => some 0x0910
  | .imgWrite _ => some 0x0911
  | .imgCheck _ => some 0x0912
  | .imgHostLoad _ => some 0x0913
  | .imgHostStart _ => some 0x0914
  | .imgFloor _ => some 0x0915
  | .seedlingExit _ => some 0x0920
  | .outConfig _ => some 0x0A01
  | .outEnable _ => some 0x0A02
  | .outDisable _ => some 0x0A03
  | .outInhClear _ => some 0x0A04
  | .binConfig _ => some 0x0A10
  | .binEnable _ => some 0x0A11
  | .binDisable _ => some 0x0A12
  | .obsTrace _ => some 0x0B01
  | .obsSnapshot _ => some 0x0B02
  | .snsConfig _ => some 0x0B03
  | .snsRead _ => some 0x0B04
  | .obsIdent _ => some 0x0B05
  | _ => none

/-- The command of a Heartwood command row. -/
def Instr.cmd? : Instr → Option Cmd
  | .partCreate c => some c
  | .partStart c => some c
  | .partStop c => some c
  | .partReset c => some c
  | .partDestroy c => some c
  | .partQuota c => some c
  | .partFreeze c => some c
  | .partSave c => some c
  | .partRestore c => some c
  | .partThaw c => some c
  | .cnpSchedule c => some c
  | .cnpBudget c => some c
  | .cnpWake c => some c
  | .cnpSpare c => some c
  | .cnpTick c => some c
  | .triadReset c => some c
  | .triadRejoin c => some c
  | .moduleReset c => some c
  | .bootComplete c => some c
  | .ringCreate c => some c
  | .ringEnable c => some c
  | .ringDisable c => some c
  | .ringReset c => some c
  | .ringDestroy c => some c
  | .ringShare c => some c
  | .ringQuery c => some c
  | .svSubscribe c => some c
  | .svEnable c => some c
  | .svDisable c => some c
  | .svRemove c => some c
  | .svSource c => some c
  | .gooseSubscribe c => some c
  | .gooseUnsubscribe c => some c
  | .goosePubSet c => some c
  | .goosePubEnable c => some c
  | .goosePubDisable c => some c
  | .fltChannel c => some c
  | .fltThreshold c => some c
  | .fltCoeff c => some c
  | .portConfig c => some c
  | .portEnable c => some c
  | .portDisable c => some c
  | .portReset c => some c
  | .portFilter c => some c
  | .swExactAdd c => some c
  | .swExactDel c => some c
  | .swWildSet c => some c
  | .swWildDel c => some c
  | .swQueue c => some c
  | .swRed c => some c
  | .swRedun c => some c
  | .swPaths c => some c
  | .tbConfig c => some c
  | .tbEnable c => some c
  | .tbDisable c => some c
  | .tbRearm c => some c
  | .tbPps c => some c
  | .keyLoad c => some c
  | .keyInvalidate c => some c
  | .keyQuery c => some c
  | .keyRollover c => some c
  | .acqConfig c => some c
  | .acqArm c => some c
  | .acqDisarm c => some c
  | .acqTrigger c => some c
  | .acqRelease c => some c
  | .gftPair c => some c
  | .gftUnpair c => some c
  | .gftMirror c => some c
  | .gftSwitch c => some c
  | .gftStatus c => some c
  | .logRead c => some c
  | .logNote c => some c
  | .eccBucket c => some c
  | .eccQuery c => some c
  | .imgErase c => some c
  | .imgWrite c => some c
  | .imgCheck c => some c
  | .imgHostLoad c => some c
  | .imgHostStart c => some c
  | .imgFloor c => some c
  | .seedlingExit c => some c
  | .outConfig c => some c
  | .outEnable c => some c
  | .outDisable c => some c
  | .outInhClear c => some c
  | .binConfig c => some c
  | .binEnable c => some c
  | .binDisable c => some c
  | .obsTrace c => some c
  | .obsSnapshot c => some c
  | .snsConfig c => some c
  | .snsRead c => some c
  | .obsIdent c => some c
  | _ => none

/-- The command rings (R99), the virtual ring of Seedling frames (R172) and that of forwarded
commands (R470) that a command may come from. -/
def cmdRing (r : Nat) : Bool := decide (2048 ≤ r) && decide (r < 2052)

/-- A Heartwood command row: its ring, and the opcode of its descriptor. -/
def cmdWf (op : Nat) (c : Cmd) : Bool := cmdRing c.ring && c.desc.w0.toNat % 65536 == op

/-- The ranges of R18 and R99 and of the tables that number objects. -/
def ringNo (r : Nat) : Bool := decide (r < 2050)
def instRing (r : Nat) : Bool := decide (r < 2048)
def triadNo (t : Nat) : Bool := decide (t < 16)
def partNo (p : Nat) : Bool := decide (p < 256)
def portNo (p : Nat) : Bool := decide (p < 48)
def tbNo (t : Nat) : Bool := decide (t < 4)
def recNo (r : Nat) : Bool := decide (r < 16)
def chanNo (c : Nat) : Bool := decide (c < 16)
def inputNo (i : Nat) : Bool := decide (i < 32)
def slotNo (k : Nat) : Bool := decide (k < 2048)
def streamNo (n : Nat) : Bool := decide (n < 4096)
def subNo (n : Nat) : Bool := decide (n < 2048)
def pubNo (n : Nat) : Bool := decide (n < 1024)
def memNo (m : Nat) : Bool := decide (m < 16)
def sourceNo (n : Nat) : Bool := decide (n < 16)
def lane4 (l : Nat) : Bool := decide (l < 4)
def lane2 (l : Nat) : Bool := decide (l < 2)

/-- Well-formed commands of the block. -/
def Instr.wf : Instr → Bool
  | .nop ring _ => ringNo ring
  | .partCreate c => cmdWf 0x0101 c
  | .partStart c => cmdWf 0x0102 c
  | .partStop c => cmdWf 0x0103 c
  | .partReset c => cmdWf 0x0104 c
  | .partDestroy c => cmdWf 0x0105 c
  | .partQuota c => cmdWf 0x0106 c
  | .partFreeze c => cmdWf 0x0107 c
  | .partSave c => cmdWf 0x0108 c
  | .partRestore c => cmdWf 0x0109 c
  | .partThaw c => cmdWf 0x010A c
  | .cnpSchedule c => cmdWf 0x0110 c
  | .cnpBudget c => cmdWf 0x0111 c
  | .cnpWake c => cmdWf 0x0112 c
  | .cnpSpare c => cmdWf 0x0113 c
  | .cnpTick c => cmdWf 0x0114 c
  | .triadReset c => cmdWf 0x0120 c
  | .triadRejoin c => cmdWf 0x0121 c
  | .moduleReset c => cmdWf 0x0130 c
  | .bootComplete c => cmdWf 0x0131 c
  | .ringCreate c => cmdWf 0x0201 c
  | .ringEnable c => cmdWf 0x0202 c
  | .ringDisable c => cmdWf 0x0203 c
  | .ringReset c => cmdWf 0x0204 c
  | .ringDestroy c => cmdWf 0x0205 c
  | .ringShare c => cmdWf 0x0206 c
  | .ringQuery c => cmdWf 0x0207 c
  | .svSubscribe c => cmdWf 0x0301 c
  | .svEnable c => cmdWf 0x0302 c
  | .svDisable c => cmdWf 0x0303 c
  | .svRemove c => cmdWf 0x0304 c
  | .svSource c => cmdWf 0x0305 c
  | .gooseSubscribe c => cmdWf 0x0310 c
  | .gooseUnsubscribe c => cmdWf 0x0311 c
  | .goosePubSet c => cmdWf 0x0320 c
  | .goosePubEnable c => cmdWf 0x0321 c
  | .goosePubDisable c => cmdWf 0x0322 c
  | .fltChannel c => cmdWf 0x0330 c
  | .fltThreshold c => cmdWf 0x0331 c
  | .fltCoeff c => cmdWf 0x0332 c
  | .portConfig c => cmdWf 0x0401 c
  | .portEnable c => cmdWf 0x0402 c
  | .portDisable c => cmdWf 0x0403 c
  | .portReset c => cmdWf 0x0404 c
  | .portFilter c => cmdWf 0x0405 c
  | .swExactAdd c => cmdWf 0x0410 c
  | .swExactDel c => cmdWf 0x0411 c
  | .swWildSet c => cmdWf 0x0412 c
  | .swWildDel c => cmdWf 0x0413 c
  | .swQueue c => cmdWf 0x0420 c
  | .swRed c => cmdWf 0x0421 c
  | .swRedun c => cmdWf 0x0430 c
  | .swPaths c => cmdWf 0x0431 c
  | .tbConfig c => cmdWf 0x0501 c
  | .tbEnable c => cmdWf 0x0502 c
  | .tbDisable c => cmdWf 0x0503 c
  | .tbRearm c => cmdWf 0x0504 c
  | .tbPps c => cmdWf 0x0505 c
  | .keyLoad c => cmdWf 0x0601 c
  | .keyInvalidate c => cmdWf 0x0602 c
  | .keyQuery c => cmdWf 0x0603 c
  | .keyRollover c => cmdWf 0x0604 c
  | .acqConfig c => cmdWf 0x0701 c
  | .acqArm c => cmdWf 0x0702 c
  | .acqDisarm c => cmdWf 0x0703 c
  | .acqTrigger c => cmdWf 0x0704 c
  | .acqRelease c => cmdWf 0x0705 c
  | .gftPair c => cmdWf 0x0801 c
  | .gftUnpair c => cmdWf 0x0802 c
  | .gftMirror c => cmdWf 0x0803 c
  | .gftSwitch c => cmdWf 0x0804 c
  | .gftStatus c => cmdWf 0x0805 c
  | .logRead c => cmdWf 0x0901 c
  | .logNote c => cmdWf 0x0902 c
  | .eccBucket c => cmdWf 0x0903 c
  | .eccQuery c => cmdWf 0x0904 c
  | .imgErase c => cmdWf 0x0910 c
  | .imgWrite c => cmdWf 0x0911 c
  | .imgCheck c => cmdWf 0x0912 c
  | .imgHostLoad c => cmdWf 0x0913 c
  | .imgHostStart c => cmdWf 0x0914 c
  | .imgFloor c => cmdWf 0x0915 c
  | .seedlingExit c => cmdWf 0x0920 c
  | .outConfig c => cmdWf 0x0A01 c
  | .outEnable c => cmdWf 0x0A02 c
  | .outDisable c => cmdWf 0x0A03 c
  | .outInhClear c => cmdWf 0x0A04 c
  | .binConfig c => cmdWf 0x0A10 c
  | .binEnable c => cmdWf 0x0A11 c
  | .binDisable c => cmdWf 0x0A12 c
  | .obsTrace c => cmdWf 0x0B01 c
  | .obsSnapshot c => cmdWf 0x0B02 c
  | .snsConfig c => cmdWf 0x0B03 c
  | .snsRead c => cmdWf 0x0B04 c
  | .obsIdent c => cmdWf 0x0B05 c
  | .classBFinish _ _ => true
  | .send ring _ _ => instRing ring
  | .recv ring _ => instRing ring
  | .publish ring _ _ => instRing ring
  | .exportRec ring _ => instRing ring
  | .stage ring _ => instRing ring
  | .load ring _ _ => instRing ring
  | .pulse ring _ => instRing ring
  | .doorbell ring _ _ _ _ => ringNo ring
  | .descriptorConsume ring _ _ => ringNo ring
  | .completionWrite ring => ringNo ring
  | .tickBoundary => true
  | .tailStart _ => true
  | .dispatch triad => triadNo triad
  | .runEnd triad _ _ ctx => triadNo triad && decide (ctx.length = 75)
  | .wake => true
  | .yield triad _ _ => triadNo triad
  | .pwakeClear part _ => partNo part
  | .firstTouch part _ _ => partNo part
  | .firstStore part _ _ _ => partNo part
  | .vote triad _ _ => triadNo triad
  | .voteToleranceEnd triad => triadNo triad
  | .rejoinComplete triad => triadNo triad
  | .p0MirrorAccess offset _ => decide (offset < 65536)
  | .registerWrite offset width _ => decide (offset < 65536) && decide (0 < width)
  | .cfgLock _ => true
  | .swHash _ => true
  | .capture _ => true
  | .obsStatClear _ => true
  | .vauxRise => true
  | .railGood _ => true
  | .porRelease => true
  | .railFault _ => true
  | .refclkLoss => true
  | .refclkReturn => true
  | .sdclkLoss => true
  | .perstN _ => true
  | .temperatureTrip => true
  | .tjConversion _ _ => true
  | .pfailN _ => true
  | .resetN _ _ => true
  | .wrstN _ _ => true
  | .bootTimerExpiry => true
  | .watchdogExpiry => true
  | .resetRelease => true
  | .trimLoadEnd words _ => words.length == 6144
  | .strapMeasurementEnd codes => decide (codes.length = 16) && codes.all fun x => decide (x < 64)
  | .pllLock => true
  | .lanesTrained _ => true
  | .heartwoodStart => true
  | .imageSourceDone _ => true
  | .hostWindowExpiry => true
  | .seedlingFrameRx _ _ => true
  | .seedlingAnnounce => true
  | .stoppingEnd kind _ => decide (1 ≤ kind) && decide (kind < 10)
  | .signalDetect port => portNo port
  | .pcsUp port => portNo port
  | .upHoldExpiry port => portNo port
  | .linkDown port _ => portNo port
  | .anegResult port speed _ _ => portNo port && decide (speed < 3)
  | .frameRx port _ => portNo port
  | .pauseTimerExpiry port => portNo port
  | .frameTx port _ _ => portNo port
  | .collision port _ => portNo port
  | .backoffExpiry port => portNo port
  | .verifyMpacketTimer port => portNo port
  | .respondMpacketRx port => portNo port
  | .switchIngress source => decide (source < 52)
  | .verificationVerdict lane => lane4 lane
  | .egress port => portNo port
  | .pathReturn group member => decide (1 ≤ group) && decide (group < 16) && decide (member < 8)
  | .entryForget node => decide (node < 4096)
  | .nodeForget node => decide (node < 4096)
  | .supervisionTx inst => decide (inst < 12)
  | .syncRx _ => true
  | .announceRx _ => true
  | .delayRespRx _ => true
  | .sourceLoss tb => tbNo tb
  | .delayReqTx tb => tbNo tb
  | .gmAnnounceSyncTx tb port => tbNo tb && portNo port
  | .delayReqRx _ => true
  | .pdelayReqTx port => portNo port
  | .pdelayReqRx _ => true
  | .pdelayRespRx _ => true
  | .compareFire _ => true
  | .ppsInEdge _ => true
  | .ppsOutFall => true
  | .svFrameRx => true
  | .svTickDeadline stream _ => streamNo stream
  | .svTickClose stream => streamNo stream
  | .streamLost stream => streamNo stream
  | .automaticSourceSwitch stream => streamNo stream
  | .rephase => true
  | .gooseFrameRx => true
  | .talExpiry sub => subNo sub
  | .gooseRetransmission entry => pubNo entry
  | .filterSlot => true
  | .triggerLevelChange => true
  | .se1GooseRx => true
  | .rowForm rec => recNo rec
  | .recordStored rec => recNo rec
  | .keySweep slot => slotNo slot
  | .overlapEnd slot => slotNo slot
  | .tag lane => lane4 lane
  | .graftLaneUp lane => lane2 lane
  | .graftLaneDown lane => lane2 lane
  | .hello lane _ _ => lane2 lane
  | .ack _ _ a => lane2 a.link.lane
  | .partnerLost => true
  | .resign => true
  | .taken => true
  | .takenTimeout => true
  | .activeNHigh => true
  | .claimConfirmation _ => true
  | .keepaliveLapse => true
  | .cmd c => cmdRing c.body.cmd.ring && lane2 c.link.lane
  | .cmdack ring _ a => cmdRing ring && lane2 a.link.lane
  | .log l => lane2 l.link.lane
  | .mirrorFrame l _ => lane2 l.lane
  | .commit l _ => lane2 l.lane
  | .pair p => lane2 p.link.lane
  | .sync part _ _ l => partNo part && lane2 l.lane
  | .unpair => true
  | .correctableError mem _ => memNo mem
  | .uncorrectableError mem _ => memNo mem
  | .scrubLapEnd mem _ => memNo mem
  | .scrubLapLate mem => memNo mem
  | .bucketLeak => true
  | .operatingSecond => true
  | .logbookRecord source => sourceNo source
  | .flushTimer => true
  | .flushComplete => true
  | .binTransition input _ _ => inputNo input
  | .binFilterWindowEnd input => inputNo input
  | .periodStart ch => chanNo ch
  | .phaseEnd ch => chanNo ch
  | .deadTimeEnd ch => chanNo ch
  | .pullInEnd ch => chanNo ch
  | .pulseEnd ch => chanNo ch
  | .outinhN _ _ => true
  | .sensorPoll entry _ _ => decide (entry < 16)
  | .traceUnit lane => lane4 lane
  | .traceRecord => true
  | .vauxFault => true
  | .pcsDrop port => portNo port
  | .followUpRx _ => true
  | .verifyMpacketRx port => portNo port
  | .frameScrubbed => true

end Sys2Proof
end

