-- ==== Sys2Proof/Safety.lean ====
section
/-! DEFINITION. What claims say of a state and of a step: when a Heartwood command is about to take
effect, when its checks fail, and the invariant of memory. -/

namespace Sys2Proof

open Sys2Proof.Machine

/-- The state in which the fetcher of ring `r` judges the descriptor it fetched: its pointer has moved past the ring
and the votes are used (R35, R108). -/
abbrev fetched (r : Nat) (x : Ring) (d : Desc) (b : Bytes) (s : State) : State :=
  useFetch r x d b (pastRing r x s)

/-- Command ring `r`, now `x`, offers Heartwood the descriptor `d` with the block `b`: the ring may consume and is
granted, the votes have passed, the journal has room, and the descriptor carries the ring's generation and sequence and
no reserved flag (R106, R107, R124, R126, R142). -/
abbrev offers (r : Nat) (x : Ring) (d : Desc) (b : Bytes) (s : State) : Prop :=
  (r = 2048 ∨ r = 2049) ∧ look s.rng.rings r = some x ∧ mayConsume r x s = true ∧ fetchPassed r x d b s = true ∧
    granted r x s = true ∧ s.rng.jrnl.length < 32768 ∧ findEntry r x.gen x.c s = none ∧ genField d = x.gen ∧
    d.w1 = x.c ∧ flagsOf d / 4 = 0

/-- The descriptor is consumed and completes at once with the status `st` and no other effect: its entry is finished,
the executor stays as it is, and the fetcher has moved on (R107, R142, R146). -/
abbrev failsAtOnce (r : Nat) (x : Ring) (d : Desc) (b : Bytes) (st : Nat) (s : State) : Prop :=
  ∃ t e, exec (.descriptorConsume r d b) s = .next t ∧ t.rng.jrnl = s.rng.jrnl ++ [e] ∧
    e = { ring := r, gen := x.gen, seq := x.c, desc := d, stage := .finished, status := st } ∧
    look t.rng.rings r = some (pastDesc x) ∧
    t.hw = { s.hw with ptr := t.hw.ptr } ∧
    (∀ y, y ≠ r → look t.rng.rings y = look s.rng.rings y) ∧
    t.prt = s.prt ∧ t.sw = s.sw ∧ t.tim = s.tim ∧ t.sv = s.sv ∧ t.gse = s.gse ∧ t.flt = s.flt ∧ t.acq = s.acq ∧
    t.key = s.key ∧ t.gft = s.gft ∧ t.ecc = s.ecc ∧ t.log = s.log ∧ t.mram = s.mram ∧ t.bin = s.bin ∧ t.out = s.out ∧
    t.obs = s.obs ∧ t.boot = s.boot ∧ t.rst = s.rst ∧ t.arb = s.arb

/-- The executor holds the command `c` of the row `i`, its fence has passed, no command of class T
waits, and its checks answer `st` (R107, R142, R146, R153). -/
abbrev judgedAs (i : Instr) (c : Cmd) (s : State) (st : Nat) : Prop :=
  i.cmd? = some c ∧ i.opcode? = some (opOf c.desc) ∧ s.hw.exec = some c ∧ fenceReady c s = true ∧
    s.hw.tWait = none ∧ judgeCmd c s = some st

/-- The executor holds the command `c` of the row `i`, and every check passes. -/
abbrev ready (i : Instr) (c : Cmd) (s : State) : Prop := judgedAs i c s stOk

/-- An operation of binding `b` and opcode `op` may start on instance ring `r` of a STANDALONE module: its
journal entry is `e` (R100, R106, R126). -/
abbrev opAt (b op r : Nat) (seq : Word) (e : JRec) (s : State) : Prop :=
  r < 2048 ∧ opReady b op r seq s = true ∧ findEntry r (genOf r s) seq s = some e ∧
    s.rng.orphans.any (isEntry r (genOf r s) seq) = false ∧ e.replayed = false ∧ s.gft.role = .standalone

/-- The operation has finished with this status and result word (R109, R126). -/
abbrev endedAs (r : Nat) (seq : Word) (st : Nat) (x : Option Word) (t : State) : Prop :=
  (entryOf r seq t).map (fun e => (e.stage, e.status, e.result)) = some (.finished, st, x)

/-- The operation has started in its engine (R106). -/
abbrev startedIn (r : Nat) (seq : Word) (t : State) : Prop :=
  (entryOf r seq t).map (fun e => e.stage) = some .started

/-- A command whose checks pass answers OK with the output block `b` and the result word `x`, or OVER_QUOTA where P0's
pages do not allow the block; from the host the block stands in memory afterwards (R145). -/
abbrev answersBlock (i : Instr) (c : Cmd) (b : Bytes) (x : Option Word) (s t : State) : Prop :=
  exec i s = .next (complete c (resOut c b x t)) ∧
    (c.ring = Config.ringHost →
      resOut c b x t = ({ t with mem := Memory.write t.mem (Config.bar2Base + iovaOf c.desc) b }, stOk, x))

/-- The lane of a Graft frame is UP, and no COLD reset holds the link (R77, R460). -/
abbrev linkUp (l : GLink) (s : State) : Prop := l.lane < 2 ∧ l.lane ∈ s.gft.lanes ∧ coldHeld s = false

/-- A Graft frame is the next one that its lane expects, and its CRC holds (R462). -/
abbrev linkReady (l : GLink) (s : State) : Prop := linkUp l s ∧ nextOnLane l s = true

/-- The rows that may change the clocks or the supplies, references and temperatures: the rows of supplies and
temperature, PLL_LOCK, those that may assert a source of COLD reach, the loss of SDCLK and the rows that see its
return, and the two that may write `CFG_TJALM` (R48 to R72, R74, R91, R93). -/
def Instr.islandRow : Instr → Bool
  | .vauxRise | .vauxFault | .railGood _ | .railFault _ | .refclkLoss | .refclkReturn => true
  | .temperatureTrip | .tjConversion _ _ | .resetN _ _ | .pllLock | .bootTimerExpiry => true
  | .heartwoodStart | .imageSourceDone _ | .hostWindowExpiry | .classBFinish _ _ => true
  | .sdclkLoss | .signalDetect _ | .graftLaneUp _ | .pcsUp _ | .traceUnit _ => true
  | .moduleReset _ | .seedlingExit _ | .registerWrite _ _ _ | .p0MirrorAccess _ _ => true
  | _ => false

/-- The memory keeps its canonical form (log entry 10). -/
abbrev memOk (s : State) : Prop := Memory.wf s.mem = true

/-- The keys of a table rise strictly, so that it lists each key once. -/
abbrev keysRise {α : Type} (t : Tbl α) : Prop := (t.map Prod.fst).Pairwise (· < ·)

end Sys2Proof
end

