-- ==== Sys2Proof/Certificates/Slice0/Obligations.lean ====
section
/-! DEFINITION. The statements for the provers. -/

open Sys2Proof Sys2Proof.Machine

/-! ### The queue, the commands in general, and memory -/

/-- The step takes the command at the front of the queue and runs it with the queue's rest. -/
def Obligations.StepRunsFrontCommand : Prop :=
  ∀ (i : Instr) (rest : List Instr) (s : State), s.pending = i :: rest →
    step s = exec i { s with pending := rest }

/-- Every command leaves the rest of the queue as it is: commands run first in, first out. -/
def Obligations.EveryCommandLeavesTheQueue : Prop :=
  ∀ (i : Instr) (s t : State), exec i s = .next t → t.pending = s.pending

/-- Every step keeps the canonical form of memory. -/
def Obligations.StepKeepsMemoryForm : Prop :=
  ∀ s t : State, memOk s → step s = .next t → memOk t

/-- Every step keeps the key store a table that lists each slot once, in rising order. -/
def Obligations.StepKeepsKeyOrder : Prop :=
  ∀ s t : State, keysRise s.key.slots → step s = .next t → keysRise t.key.slots

/-- The island frame, over every command: the clocks and the supplies, references and temperatures stay as they are,
but for the rows of supplies and temperature, those that may assert a source of COLD reach, PLL_LOCK, the rows that
lose SDCLK or see it return, and a write of the alarm register (R48, R53, R60, R61, R70, R74, R77, R91). -/
def Obligations.OnlyIslandRowsTouchTheIsland : Prop :=
  ∀ (i : Instr) (s t : State), i.islandRow = false → exec i s = .next t → t.clk = s.clk ∧ t.pow = s.pow

/-- A Heartwood command whose checks fail has no effect but its completion with the status of the first
check that fails, whichever of the 94 commands it is (R146): one that its ring's fetcher consumes completes there and
then, and a row that meets a command whose checks are still to be made completes it so. -/
def Obligations.FailedCommandHasNoEffect : Prop :=
  (∀ (r : Nat) (x : Ring) (d : Desc) (b : Bytes) (s : State) (st : Nat), offers r x d b s →
    judgeCmd { ring := r, desc := d, block := b } (fetched r x d b s) = some st → st ≠ stOk →
    failsAtOnce r x d b st s) ∧
  (∀ (i : Instr) (c : Cmd) (s : State) (st : Nat), s.hw.passed = false → judgedAs i c s st → st ≠ stOk →
    exec i s = .next (complete c (s, st, none)))

/-- In Seedling every Heartwood command that R94 does not list completes with WRONG_STATE and has no
other effect (R94, R146), where it is consumed and at the row of a command whose checks are still to be made. -/
def Obligations.SeedlingRefusesOtherCommands : Prop :=
  (∀ (r : Nat) (x : Ring) (d : Desc) (b : Bytes) (s : State), offers r x d b s → s.boot.seedling = true →
    opOf d ∉ [0, 0x0901, 0x0910, 0x0911, 0x0912, 0x0913, 0x0914, 0x0915, 0x0920] →
    judgeCmd { ring := r, desc := d, block := b } (fetched r x d b s) ≠ none →
    failsAtOnce r x d b 0x13 s) ∧
  (∀ (i : Instr) (c : Cmd) (s : State), i.cmd? = some c → i.opcode? = some (opOf c.desc) →
    s.hw.exec = some c → s.hw.passed = false → fenceReady c s = true → s.hw.tWait = none → s.boot.seedling = true →
    opOf c.desc ∉ [0x0901, 0x0910, 0x0911, 0x0912, 0x0913, 0x0914, 0x0915, 0x0920] →
    exec i s = .next (complete c (s, 0x13, none)))

/-- On a STANDBY a command of a command ring that R470 would forward completes with DENIED and has no other effect
(R471), where it is consumed and at the row of a command whose checks are still to be made. -/
def Obligations.StandbyDeniesForwardedCommands : Prop :=
  (∀ (r : Nat) (x : Ring) (d : Desc) (b : Bytes) (s : State), offers r x d b s → s.boot.seedling = false →
    opOf d ≠ 0x0920 → s.gft.role = .standby → forwards { ring := r, desc := d, block := b } = true →
    judgeCmd { ring := r, desc := d, block := b } (fetched r x d b s) ≠ none →
    failsAtOnce r x d b 0x14 s) ∧
  (∀ (i : Instr) (c : Cmd) (s : State), i.cmd? = some c → i.opcode? = some (opOf c.desc) →
    s.hw.exec = some c → s.hw.passed = false → fenceReady c s = true → s.hw.tWait = none → s.boot.seedling = false →
    s.gft.role = .standby → (c.ring = 2048 ∨ c.ring = 2049) → forwards c = true →
    exec i s = .next (complete c (s, 0x14, none)))

/-- What completing a command of a command ring means, where it is not forwarded: the journal entry of the generation
in which it was consumed holds the status and the result word, the executor is free, and nothing else changes but what a
later pairing forwards as the configuration in effect (R111, R120, R126, R142, R483). -/
def Obligations.CompletingACommand : Prop :=
  ∀ (c : Cmd) (s : State) (st : Nat) (x : Option Word) (e : JRec),
    activePaired s = false → (c.ring = 2048 ∨ c.ring = 2049) → s.hw.exec = some c →
    findEntry c.ring (genField c.desc) c.desc.w1 s = some e → e.stage ≠ .finished → e.replayed = false →
    findEntry c.ring (genField c.desc) c.desc.w1 (complete c (s, st, x)) =
        some { e with stage := .finished, status := st, result := x } ∧
      (complete c (s, st, x)).hw = { s.hw with exec := none, config := (complete c (s, st, x)).hw.config } ∧
      (st ≠ stOk → st ≠ stDeferred → (complete c (s, st, x)).hw.config = s.hw.config) ∧
      (complete c (s, st, x)).rng.rings = s.rng.rings ∧
      { complete c (s, st, x) with rng := s.rng, hw := s.hw } = s

/-! ### Rings (R99 to R126, R158) -/

/-- A passed doorbell value is ignored, accepted or refused (R117). The frame of a doorbell: registers, streams, ports
and the other engines stay as they are. -/
def Obligations.DoorbellJudgementAndFrame : Prop :=
  (∀ (r : Nat) (p q ec en : Word) (s : State) (x : Ring), r < 2050 → look s.rng.rings r = some x →
     x.st ≠ .off → (r = 2049 ∨ nextBell r s = some p) →
     ∃ t, exec (.doorbell r p q ec en) s = .next t ∧
       ((p - x.a).toInt ≤ 0 →
         look t.rng.rings r = some { x with q := q } ∧ t.rng.evt = s.rng.evt ∧ t.arb = s.arb) ∧
       (0 < (p - x.a).toInt → (p - q).toInt ≤ 2 ^ x.log2s →
         look t.rng.rings r = some { x with q := q, a := p } ∧ t.rng.evt = s.rng.evt ∧ t.arb = s.arb) ∧
       (0 < (p - x.a).toInt → 2 ^ x.log2s < (p - q).toInt →
         (∃ u, t = ringEvent 0 0x0210 2 r [] none u ∧ look u.rng.rings r = some { x with q := q }) ∧
           look t.rng.rings r = some { x with q := q } ∧ t.rng.evt = s.rng.evt ||| 1 ∧
           t.arb.osn = nextOsn s + (if arbHeld s then s.arb.osn else 0)) ∧
       (∀ r', r' ≠ r → look t.rng.rings r' = look s.rng.rings r') ∧ t.rng.jrnl = s.rng.jrnl) ∧
  (∀ (r : Nat) (p q ec en : Word) (s t : State), exec (.doorbell r p q ec en) s = .next t →
     t.clk = s.clk ∧ t.rst = s.rst ∧ t.prt = s.prt ∧ t.sw = s.sw ∧ t.tim = s.tim ∧ t.sv = s.sv ∧
       t.gse = s.gse ∧ t.flt = s.flt ∧ t.acq = s.acq ∧ t.key = s.key ∧ t.gft = s.gft ∧ t.ecc = s.ecc ∧
       t.mram = s.mram ∧ t.bin = s.bin ∧ t.out = s.out ∧ t.pgk = s.pgk)

/-- A NOP completes with OK and has no other effect (R100): on an instance ring its entry finishes; on a
command ring it also frees the executor. -/
def Obligations.NopCompletes : Prop :=
  (∀ (r : Nat) (q : Word) (s : State) (e : JRec), r < 2048 → entryOf r q s = some e → opOf e.desc = 0 →
    mayStart r q s = true → exec (.nop r q) s = .next (finishNow r q stOk none s)) ∧
  (∀ (r : Nat) (q : Word) (s : State) (e : JRec) (c : Cmd), (r = 2048 ∨ r = 2049) →
    entryOf r q s = some e → opOf e.desc = 0 → s.hw.exec = some c → c.ring = r → c.desc.w1 = q →
    opOf c.desc = 0 → genField c.desc = genOf r s → fenceReady c s = true →
    exec (.nop r q) s = .next { finishNow r q stOk none s with hw := { s.hw with exec := none } }) ∧
  (∀ (r : Nat) (q : Word) (s : State) (e : JRec), findEntry r (genOf r s) q s = some e → e.stage ≠ .finished →
    e.replayed = false →
    findEntry r (genOf r s) q (finishNow r q stOk none s) =
        some { e with stage := .finished, status := 0, result := none } ∧
      { finishNow r q stOk none s with rng := s.rng } = s ∧
      (finishNow r q stOk none s).rng.rings = s.rng.rings)

/-- The next completion of a ring takes one OSN (a second goes to the event of a DIVERGED or VOTE_LOST one), advances K and
`LAST_OSN`, and leaves every other ring; its entry is DONE with that OSN (R109, R111, R126, R138). On the host's ring
the completion's 16 bytes, its result word and the shadow line are what memory holds afterwards (R109, R111, R114). -/
def Obligations.CompletionWrites : Prop :=
  (∀ (r : Nat) (s : State) (x : Ring) (e : JRec), r < 2050 → look s.rng.rings r = some x →
     nextEntry r s = some e → arbHeld s = false →
     ∃ t, exec (.completionWrite r) s = .next t ∧
       look t.rng.rings r = some { x with k := x.k + 1, lastOsn := s.arb.osn + 1 } ∧
       (∀ r', r' ≠ r → look t.rng.rings r' = look s.rng.rings r') ∧
       t.arb.osn = s.arb.osn + (if e.status = 0x201 ∨ e.status = 0x60 then 2 else 1) ∧
       (∃ e', findEntry r x.gen x.k t = some e' ∧ e'.done = true ∧ e'.osn = s.arb.osn + 1 ∧
         e'.status = e.status ∧ e'.result = e.result) ∧
       t.rng.jrnl.length = s.rng.jrnl.length) ∧
  (∀ (s : State) (x : Ring) (e : JRec), look s.rng.rings 2049 = some x → nextEntry 2049 s = some e →
     e.status ≠ 0x201 → e.status ≠ 0x60 →
     ∃ t flags, exec (.completionWrite 2049) s = .next t ∧
       t.mem =
         (let slot := x.k.toNat % 2 ^ x.log2s
          let m0 := match e.result with
            | some w => Memory.write s.mem (Config.bar2Base + x.submit + 32 * slot + 28) (toLe 4 w.toNat)
            | none => s.mem
          Memory.write
            (Memory.write m0 (Config.bar2Base + (x.compl + 16 * slot))
              (toLe 4 (e.status % 65536 + 2 ^ 16 * (e.gen % 256) + 2 ^ 24 * flags) ++ toLe 4 e.seq.toNat ++
                toLe 8 (nextOsn s)))
            (Config.bar2Base + x.shadow) (shadowBytes { x with k := x.k + 1, lastOsn := nextOsn s })) ∧
       flags % 2 = b2n e.rpl)

/-- RING_ENABLE, RING_DISABLE, RING_SHARE and RING_QUERY have the effect that R149, R125 and R158 give them. RING_CREATE
leaves the ring OFF at generation 1 with its indices at 0 and answers 1; RING_RESET takes the next generation,
restarts the indices and discards the ring's entries; PART_RESET does the same to the indices of every ring of the
partition, ring 2,048 being P0's; RING_DESTROY removes the ring and its entries (R105, R119,
R120, R158). -/
def Obligations.RingCommandsAndGenerations : Prop :=
  (∀ (c : Cmd) (s : State) (x : Ring), look s.rng.rings (arg0 c.desc % 4096) = some x →
     (ready (.ringEnable c) c s →
       exec (.ringEnable c) s = .next (complete c
         (match x.st with
          | .off => (setRing (arg0 c.desc % 4096) { x with st := .on, held := false } s, stOk, none)
          | .stopping => (setRing (arg0 c.desc % 4096) { x with held := true } s, stDeferred, none)
          | .on => (setRing (arg0 c.desc % 4096) x s, stOk, none)))) ∧
     (ready (.ringDisable c) c s → ∃ u,
       exec (.ringDisable c) s = .next (complete c (u, stOk, none)) ∧
       look u.rng.rings (arg0 c.desc % 4096) = some (match x.st with
          | .off => x
          | .stopping => { x with held := false }
          | .on => { x with st := .stopping, held := false, inRound := false }) ∧
       ∀ r', r' ≠ arg0 c.desc % 4096 → look u.rng.rings r' = look s.rng.rings r') ∧
     (ready (.ringShare c) c s →
       exec (.ringShare c) s = .next (complete c
         (modRing (arg0 c.desc % 4096)
           (fun y => { y with weightNext := bits (arg0 c.desc) 22 16, quota := arg1 c.desc,
                              inRound := y.inRound && decide (occupancy y < arg1 c.desc) }) s, stOk, none))) ∧
     (ready (.ringQuery c) c s →
       exec (.ringQuery c) s = .next (complete c
         (s, stOk, some (BitVec.ofNat 32
           (x.gen + 2 ^ 8 * enCode x.st + 2 ^ 15 * (x.c - x.k).toNat)))))) ∧
  ((∀ (c : Cmd) (s : State), ready (.ringCreate c) c s → ∃ u x,
     exec (.ringCreate c) s = .next (complete c (u, stOk, some 1)) ∧
     look u.rng.rings (arg0 c.desc % 4096) = some x ∧ x.st = .off ∧ x.gen = 1 ∧ x.a = 0 ∧ x.c = 0 ∧ x.k = 0 ∧
     x.binding = wordAt c.block 0 % 16 ∧ x.log2s = bits (wordAt c.block 0) 11 8 ∧
     x.weight = bits (wordAt c.block 0) 22 16 ∧ x.quota = wordAt c.block 1 ∧ x.submit = dwordAt c.block 2 ∧
     x.compl = dwordAt c.block 4 ∧ x.doorbell = dwordAt c.block 6 ∧ x.shadow = dwordAt c.block 8 ∧
     ∀ r', r' ≠ arg0 c.desc % 4096 → look u.rng.rings r' = look s.rng.rings r') ∧
   (∀ (c : Cmd) (s : State) (x : Ring), look s.rng.rings (arg0 c.desc % 4096) = some x →
     ready (.ringReset c) c s → ∃ u,
     exec (.ringReset c) s = .next (complete c (u, stOk, some (BitVec.ofNat 32 (genAfter x.gen)))) ∧
     look u.rng.rings (arg0 c.desc % 4096) =
       some { x with gen := genAfter x.gen, a := 0, c := 0, k := 0, q := 0, lastOsn := 0, used := 0, inRound := false } ∧
     u.rng.jrnl = s.rng.jrnl.filter (fun e => e.ring != arg0 c.desc % 4096)) ∧
   (∀ (c : Cmd) (s : State), ready (.ringDestroy c) c s → ∃ u,
     exec (.ringDestroy c) s = .next (complete c (u, stOk, none)) ∧
     look u.rng.rings (arg0 c.desc % 4096) = none ∧
     u.rng.jrnl = s.rng.jrnl.filter (fun e => e.ring != arg0 c.desc % 4096)) ∧
   (∀ (c : Cmd) (s : State), ready (.partReset c) c s → keysRise s.rng.rings → ∃ u,
     exec (.partReset c) s = .next (complete c (u, stOk, none)) ∧
     ∀ (r : Nat) (y : Ring), (r < 2048 ∧ r / 8 = arg0 c.desc % 256 ∨ r = 2048 ∧ arg0 c.desc % 256 = 0) →
       look s.rng.rings r = some y →
       ∃ z, look u.rng.rings r = some z ∧ z.gen = genAfter y.gen ∧ z.a = 0 ∧ z.c = 0 ∧ z.k = 0))

/-- A descriptor that passes the checks enters the journal and C advances by 1; one with another generation, or
with another sequence, also does so, and completes with STALE_GEN or BAD_ARG without being executed; one that fails a
check of its binding completes with that check's status (R107, R126). The ring `x` is the one that its fetcher grants in
the service round (R124); a shadow's emitting operation has no checks of its own (R474). -/
def Obligations.DescriptorConsumption : Prop :=
  ∀ (r : Nat) (d : Desc) (b : Bytes) (s : State) (y x : Ring), r < 2048 → look s.rng.rings r = some y →
    look (roundOf r y s).rng.rings r = some x → mayConsume r x (roundOf r y s) = true →
    granted r x (roundOf r y s) = true → .descriptor r x.c d ∈ s.cnp.passed →
    s.rng.jrnl.length < 32768 → findEntry r x.gen x.c s = none →
    let z : Ring := { x with c := x.c + 1, used := x.used + 1 }
    ∃ t e, exec (.descriptorConsume r d b) s = .next t ∧
      t.rng.jrnl = s.rng.jrnl ++ [e] ∧ e.ring = r ∧ e.gen = x.gen ∧ e.seq = x.c ∧ e.desc = d ∧
      look t.rng.rings r = some { z with
        inRound := x.inRound && decide (0 < (z.a - z.c).toInt) && decide ((z.c - z.k).toNat < x.quota) } ∧
      (genField d ≠ x.gen → e.stage = .finished ∧ e.status = 0x40) ∧
      (genField d = x.gen → d.w1 ≠ x.c → e.stage = .finished ∧ e.status = 0x10) ∧
      (genField d = x.gen → d.w1 = x.c → (flagsOf d / 4 ≠ 0 ∨ bindingOp x.binding (opOf d) = false) →
        e.stage = .finished ∧ e.status = 0x10) ∧
      (genField d = x.gen → d.w1 = x.c → flagsOf d / 4 = 0 → bindingOp x.binding (opOf d) = true →
        shadowed r s = false →
        (opChecks r x.binding d (fetched r x d b (roundOf r y s)) = 0 → e.stage = .waiting) ∧
        (opChecks r x.binding d (fetched r x d b (roundOf r y s)) ≠ 0 → e.stage = .finished ∧
          e.status = opChecks r x.binding d (fetched r x d b (roundOf r y s)) ∧
          e.result = failResult x.binding (opOf d)))

/-! ### Partitions and Canopy (R173 to R210) -/

/-- PART_START and PART_STOP follow the enable rule, PART_QUOTA takes effect at once and answers the mapped pages (R149,
R174, R201). PART_CREATE makes a partition CREATED and OFF with the fields of its record and its load in memory;
PART_RESET counts the reset and sets the context to the entry state; PART_DESTROY removes the partition (R176 to
R178, R204). -/
def Obligations.PartitionCommandsTakeEffect : Prop :=
  (∀ (c : Cmd) (s : State) (x : Part), look s.cnp.parts (arg0 c.desc % 256) = some x →
     (ready (.partStart c) c s → exec (.partStart c) s = .next (complete c
       (match partEnable x with
        | .off => (setPart (arg0 c.desc % 256)
           { x with en := .on, held := false, st := if x.st = .created then .ready else x.st } s, stOk, none)
        | .stopping => (setPart (arg0 c.desc % 256)
           { x with en := .stopping, held := true, st := if x.st = .created then .ready else x.st } s,
             stDeferred, none)
        | .on => (setPart (arg0 c.desc % 256)
           { x with en := .on, st := if x.st = .created then .ready else x.st } s, stOk, none)))) ∧
     (ready (.partStop c) c s → (x.st = .frozen ∨ x.st = .migrating) → exec (.partStop c) s = .next (complete c
       (setPart (arg0 c.desc % 256) { x with resume := .off } s, stOk, none))) ∧
     (ready (.partStop c) c s → (x.st = .ready ∨ x.st = .running) → x.en = .on → ∃ u,
       exec (.partStop c) s = .next (complete c (u, stOk, none)) ∧
       ((look u.cnp.parts (arg0 c.desc % 256)).map fun y => (y.en, y.st)) = some (.stopping, x.st) ∧
       ∀ r y, r < 2048 → r / 8 = arg0 c.desc % 256 → look s.rng.rings r = some y → y.st = .on →
         ((look u.rng.rings r).map fun z => z.st) = some .stopping) ∧
     (ready (.partQuota c) c s → exec (.partQuota c) s = .next (complete c
       (setPart (arg0 c.desc % 256) { x with quota := arg1 c.desc } s, stOk,
         some (BitVec.ofNat 32 (mapped x)))))) ∧
  ((∀ (c : Cmd) (s : State), ready (.partCreate c) c s → ∃ u x,
     exec (.partCreate c) s = .next (complete c (u, stOk, none)) ∧
     look u.cnp.parts (arg0 c.desc % 256) = some x ∧ x.st = .created ∧ x.en = .off ∧ x.resets = 0 ∧
     x.triad = (readRec c.block).triad ∧ x.prio = (readRec c.block).prio ∧ x.quota = (readRec c.block).quota ∧
     x.dirty = (readRec c.block).dirty ∧ x.entry = (readRec c.block).entry ∧
     x.ctx = entryCtx (readRec c.block).entry (arg0 c.desc % 256) 0 ∧
     u.mem = Memory.write s.mem (partBase (arg0 c.desc % 256) + (readRec c.block).loadDst)
       (loadBytes c (readRec c.block) s) ∧
     (∀ p, p ≠ arg0 c.desc % 256 → look u.cnp.parts p = look s.cnp.parts p) ∧ u.rng = s.rng) ∧
   (∀ (c : Cmd) (s : State) (x : Part), ready (.partReset c) c s →
     look s.cnp.parts (arg0 c.desc % 256) = some x → ∃ u y,
     exec (.partReset c) s = .next (complete c (u, stOk, none)) ∧
     look u.cnp.parts (arg0 c.desc % 256) = some y ∧ y.resets = min (x.resets + 1) 255 ∧
     y.ctx = entryCtx x.entry (arg0 c.desc % 256) y.resets ∧ y.markCtx = y.ctx ∧ y.instret = 0 ∧
     y.pwake = 0 ∧ y.pfault = 0 ∧ y.quota = x.quota ∧ y.dirty = x.dirty ∧ y.triad = x.triad ∧ y.home = x.home) ∧
   (∀ (c : Cmd) (s : State), ready (.partDestroy c) c s → ∃ u,
     exec (.partDestroy c) s = .next (complete c (u, stOk, none)) ∧
     look u.cnp.parts (arg0 c.desc % 256) = none ∧
     (∀ e ∈ u.cnp.sched, e.part ≠ arg0 c.desc % 256) ∧ u.rng.jrnl = s.rng.jrnl))

/-- The spare, the tick binding and a TRIAD reset (R157, R190, R192). -/
def Obligations.TriadCommandsTakeEffect : Prop :=
  ∀ (c : Cmd) (s : State),
    (ready (.cnpSpare c) c s → exec (.cnpSpare c) s = .next (complete c
      ({ s with cnp := { s.cnp with spare := arg0 c.desc } }, stOk, none))) ∧
    (ready (.cnpTick c) c s → exec (.cnpTick c) s = .next (complete c
      ({ s with cnp := { s.cnp with nextBind := some (arg0 c.desc % 4, tbit (arg0 c.desc) 8) } }, stOk, none))) ∧
    (ready (.triadReset c) c s → ∃ u, exec (.triadReset c) s = .next (complete c (u, stOk, none)) ∧
      (triadOf (arg0 c.desc) u).failed = false ∧ (triadOf (arg0 c.desc) u).run = none ∧
      (triadOf (arg0 c.desc) u).chans = (triadOf (arg0 c.desc) s).chans ∧
      (∀ v ∈ u.cnp.votes, v.triad ≠ arg0 c.desc) ∧ u.cnp.spare = s.cnp.spare ∧ u.rng = s.rng)

/-- The ten commands of class T: each waits in the executor for its tick boundary, counted from its consumption, and
changes nothing before it (R153). -/
def Obligations.ClassTWaitsForItsBoundary : Prop :=
  ∀ (i : Instr) (c : Cmd) (s : State), ready i c s →
    i ∈ [.partFreeze c, .partThaw c, .cnpSchedule c, .cnpBudget c, .cnpWake c, .triadRejoin c, .svSource c,
      .fltThreshold c, .gftMirror c, .gftSwitch c] →
    exec i s = .next { s with hw := { s.hw with tWait := some (c, s.hw.since) } }

/-- What the commands of class T on partitions and Canopy do at their boundary, the first one 20 µs or more after their
consumption (R153, R174, R189, R193, R196, R197, R209, R210). At their tick boundary SV_SOURCE makes the named source
active from the tick that begins, and FLT_THRESHOLD applies its detector with its counts at 0 and its state kept
(R153, R341, R382, R385). -/
def Obligations.ClassTEffects : Prop :=
  (∀ (c : Cmd) (t : Nat) (s : State), s.hw.tWait = some (c, t) → t + 20000 ≤ s.clk.now →
     let v : State := { s with hw := { s.hw with tWait := none } }
     let p := arg0 c.desc % 256
     (opOf c.desc = 0x0107 → ∀ x, look s.cnp.parts p = some x → (x.st = .ready ∨ x.st = .created) → ∃ u,
       tickCommand s = complete c (u, stOk, none) ∧
       u.rng = { s.rng with rings := s.rng.rings.map fun e =>
         if e.1 < 2048 ∧ e.1 / 8 = p then (e.1, { e.2 with inRound := false }) else e } ∧
       look u.cnp.parts p = some { x with st := .frozen, resume := partEnable x }) ∧
     (opOf c.desc = 0x010A → ∀ x, look s.cnp.parts p = some x → x.st = .frozen → ∃ u,
       tickCommand s = complete c (u, stOk, none) ∧
       look u.cnp.parts p =
         some { x with st := if x.resume = .off then .created else .ready, en := x.resume, lastTick := false } ∧
       ∀ e ∈ u.rng.jrnl, e.saved = true → e.ring / 8 ≠ p ∨ 2048 ≤ e.ring) ∧
     (opOf c.desc = 0x0110 →
       tickCommand s = complete c ({ v with cnp := { v.cnp with sched := slotsOf c.block } }, stOk, none)) ∧
     (opOf c.desc = 0x0111 →
       tickCommand s = complete c (modPart p (fun x => { x with budget := arg1 c.desc }) v, stOk, none)) ∧
     (opOf c.desc = 0x0112 →
       tickCommand s = complete c (modPart p (fun x => { x with binds := bindsOf c }) v, stOk, none)) ∧
     (opOf c.desc = 0x0121 → ∀ x, triadOf (arg0 c.desc) s = x → argChan c ∈ s.cnp.lanes → argChan c ∉ x.chans →
       argChan c ∉ x.joining →
       tickCommand s = complete c
         (setTriad (arg0 c.desc) { x with joining := x.joining ++ [argChan c] } v, stOk, none))) ∧
  (∀ (c : Cmd) (t : Nat) (s : State), s.hw.tWait = some (c, t) → t + 20000 ≤ s.clk.now →
     let n := arg0 c.desc
     (opOf c.desc = 0x0305 → (strmOf n s).en = .on → (strmOf n s).active ≠ arg1 c.desc → ∃ u,
       tickCommand s = complete c (u, stOk, none) ∧ (strmOf n u).active = arg1 c.desc ∧
       (strmOf n u).prev = (strmOf n s).active ∧ (strmOf n u).switchTick = comingTick s ∧ (strmOf n u).swDue = true ∧
       lookD u.sv.cnt (n * 14 + 12) 0 = (lookD s.sv.cnt (n * 14 + 12) 0 + 1) % 2 ^ 64 ∧
       u.sv.evt.getLsbD 3 = true ∧ (arbHeld s = false → u.arb.osn = s.arb.osn + 1)) ∧
     (opOf c.desc = 0x0331 → ∃ u, tickCommand s = complete c (u, stOk, none) ∧
       lookD (chanOf n (thrCh c) u).dets (thrDet c) {} =
         { detIn c.block with
           state := (detIn c.block).en && (lookD (chanOf n (thrCh c) s).dets (thrDet c) {}).state } ∧
       (∀ d, d ≠ thrDet c → look (chanOf n (thrCh c) u).dets d = look (chanOf n (thrCh c) s).dets d) ∧
       ∀ k, k ≠ n → look u.sv.streams k = look s.sv.streams k))

/-- At a decision point the run that Canopy chooses starts: its partition is RUNNING with its wakes seen, at the cost of
one OSN and its external interrupt pending as `pwake` has it (R174, R180, R182, R195). A run ends by its slot, its budget, a preemption or a refresh, by a YIELD or WFI, or by
the tail: its partition is READY with the context aligned at the highest retired-instruction count; from VU-mode a write
of `YIELD` is an illegal-instruction exception and the run goes on (R174, R180, R182, R184, R195, R199). -/
def Obligations.DispatchAndRunEnd : Prop :=
  (∀ (t : Nat) (s : State) (r : Run) (x : Part), t < 16 → t ≠ 0 → s.rst.phase = .started → s.cnp.inTail = false →
     (triadOf t s).run = none → (triadOf t s).failed = false → nextRun t s = some r → r.grant ≠ 0 →
     look s.cnp.parts r.part = some x →
     ∃ u, exec (.dispatch t) s = .next u ∧ (triadOf t u).run = some r ∧
       (∃ y, look u.cnp.parts r.part = some y ∧ y.st = .running ∧ y.wakeHeld = [] ∧
         y.ctx = setVseip (y.pwake != 0) x.ctx) ∧
       u.arb.osn = s.arb.osn + 1 ∧ u.rng = s.rng ∧ u.mem = s.mem ∧ u.prt = s.prt) ∧
  ((∀ (t : Nat) (why : RunEnd) (counts : List Nat) (ctx : Ctx) (s : State) (r : Run) (x : Part), t < 16 →
     s.rst.phase = .started → s.cnp.inTail = false → (triadOf t s).run = some r → endsFor t r why s = true →
     look s.cnp.parts r.part = some x → x.st = .running → ∃ u,
     exec (.runEnd t why counts ctx) s = .next u ∧ (triadOf t u).run = none ∧
     ((look u.cnp.parts r.part).map fun y => (y.st, y.ctx, y.instret, y.heldWrites)) =
       some (.ready, ctx.take 74 ++ [counts.foldl max 0], counts.foldl max 0, [])) ∧
   (∀ (t n : Nat) (wfi : Bool) (ctx : Ctx) (s : State) (r : Run) (x : Part), t < 16 → s.rst.phase = .started →
     s.cnp.inTail = false → (triadOf t s).run = some r → look s.cnp.parts r.part = some x → x.st = .running → ∃ u,
     exec (.yield t ⟨wfi, false, n⟩ ctx) s = .next u ∧ (triadOf t u).run = none ∧
     ((look u.cnp.parts r.part).map fun y => (y.st, y.ctx)) =
       some (.ready, ctx.take 74 ++ [ctx.getD 74 0])) ∧
   (∀ (t n : Nat) (wfi : Bool) (ctx : Ctx) (s : State) (r : Run) (x : Part), t < 16 → s.rst.phase = .started →
     s.cnp.inTail = false → (triadOf t s).run = some r → look s.cnp.parts r.part = some x →
     exec (.yield t ⟨wfi, true, n⟩ ctx) s =
       .next (setPart r.part { x with trap := some (2, n), ctx := vsTrap true (2, n) ctx } s)) ∧
   (∀ (s : State), s.rst.phase = .started → s.cnp.inTail = false → s.cnp.tickEnd ≤ lineNow s + 4000 → ∃ u,
     exec (.tailStart []) s = .next u ∧ u.cnp.inTail = true ∧
     ∀ t x, look u.cnp.triads t = some x → x.run = none))

/-- The oldest wake reaches its partition, and a running partition clears its causes by writing 1 to them, but not from
VU-mode (R182, R196, R197). A first touch maps its page within the quota or raises the access fault of its kind, with the guest virtual
address; a first store takes the pre-image and
counts against the dirty limit; a freed frame rejoins the pool once it is scrubbed (R201, R202, R204, R205). -/
def Obligations.WakesAndPages : Prop :=
  ((∀ (s : State) (p cause entry : Nat) (rest : List (Nat × Nat × Nat)) (x : Part),
     s.cnp.wakes = (p, cause, entry) :: rest → look s.cnp.parts p = some x → ∃ u,
     exec .wake s = .next u ∧ u.cnp.wakes = rest ∧
     look u.cnp.parts p = some { x with wakeHeld := x.wakeHeld ++ [(cause, entry)] } ∧
     (∀ q, q ≠ p → look u.cnp.parts q = look s.cnp.parts q) ∧ { u with cnp := s.cnp } = s) ∧
   (∀ (p n : Nat) (b : Word) (ctx : Ctx) (s : State) (x : Part), p < 256 → look s.cnp.parts p = some x →
     x.st = .running →
     exec (.pwakeClear p ⟨b, true, n, ctx⟩) s =
       .next (setPart p { x with trap := some (2, n), ctx := vsTrap true (2, n) ctx } s) ∧ ∃ u,
     exec (.pwakeClear p ⟨b, false, n, ctx⟩) s = .next u ∧
     look u.cnp.parts p = some { x with
       pwake := x.pwake &&& (63 - b.toNat % 64)
       ctx := setVseip (x.pwake &&& (63 - b.toNat % 64) != 0) x.ctx } ∧
     (∀ q, q ≠ p → look u.cnp.parts q = look s.cnp.parts q) ∧ { u with cnp := s.cnp } = s)) ∧
  ((∀ (p a va : Nat) (vu : Bool) (ctx : Ctx) (k : Access) (s : State) (x : Part), p < 256 → look s.cnp.parts p = some x →
     (x.st = .running ∨ k = .engine) → a < 2 ^ 48 → inLarge x a = false → isMapped x a = false →
     mapped x + 1 ≤ x.quota → 1 ≤ framesLeft s → ∃ u, exec (.firstTouch p ⟨a, va, vu, ctx⟩ k) s = .next u ∧
     look u.cnp.parts p = some { x with pages := put x.pages (a / 4096) 1 } ∧ framesLeft u + 1 = framesLeft s ∧
     u.mem = s.mem) ∧
   (∀ (p a va : Nat) (vu : Bool) (ctx : Ctx) (k : Access) (s : State) (x : Part), p < 256 →
     look s.cnp.parts p = some x → x.st = .running → k ≠ .engine →
     let cause : Nat := if k = .fetch then 1 else if k = .load then 5 else 7
     let fault (n : Nat) : Out := .next (setPart p { x with
       pfault := n, trap := some (cause, va), ctx := vsTrap vu (cause, va) ctx } s)
     (2 ^ 48 ≤ a → exec (.firstTouch p ⟨a, va, vu, ctx⟩ k) s = fault 2) ∧
     (a < 2 ^ 48 → (k = .store ∨ k = .amo) → inLarge x a = true → exec (.firstTouch p ⟨a, va, vu, ctx⟩ k) s = fault 3) ∧
     (a < 2 ^ 48 → inLarge x a = false → isMapped x a = false → x.quota < mapped x + 1 →
       exec (.firstTouch p ⟨a, va, vu, ctx⟩ k) s = fault 1)) ∧
   (∀ (p a : Nat) (d : Bytes) (ctx : Ctx) (s : State) (x : Part), p < 256 → look s.cnp.parts p = some x →
     x.st = .running → a < 2 ^ 48 → inLarge x a = false → isMapped x a = true → a / 4096 ∉ x.stored →
     x.stored.length < x.dirty → look x.pre (a / 4096) = none → ∃ u, exec (.firstStore p a d ctx) s = .next u ∧
     look u.cnp.parts p = some { x with
       stored := x.stored ++ [a / 4096]
       pre := put x.pre (a / 4096) (Memory.cells s.mem (partBase p + a / 4096 * 4096) 4096) } ∧
     u.mem = Memory.write s.mem (partBase p + a) (d.take (4096 - a % 4096)) ∧ u.pgk.undo = s.pgk.undo + 1) ∧
   (∀ s : State, s.pgk.scrub ≠ 0 → ∃ u, exec .frameScrubbed s = .next u ∧
     u.pgk = { s.pgk with free := s.pgk.free + 1, scrub := s.pgk.scrub - 1 } ∧ { u with pgk := s.pgk, ecc := s.ecc } = s ∧
     u.ecc.mems = s.ecc.mems))

/-- A vote opens with its first copy and passes as soon as two copies agree, at the cost of one OSN; a copy that differs
neither passes nor closes it; a copy of a fetched item counts once its channel has brought the doorbell value (R185,
R186). At the end of the skew tolerance of a passed vote with three channels in
service, an absent channel is isolated with cause LATE and a differing one with MISMATCH, with event 0101h and its
bit (R186, R187, R215). Before Heartwood starts the voter is held (R77, R79). -/
def Obligations.VotesAndIsolation : Prop :=
  (∀ (t : Nat) (a b : Chan) (e f : Emission) (n : Nat) (s : State), t < 16 → (triadOf t s).failed = false →
     s.rst.phase = .started →
     b ∈ (triadOf t s).chans → a ≠ b → belongs t e s = true → belongs t f s = true → sameUnit f e = true →
     copyDue (triadOf t s) b e s = true →
     (s.cnp.votes = [] →
       exec (.vote t b e) s = .next { s with cnp := { (noteBell b e s).cnp with
         votes := [{ triad := t, copies := [(b, e)], since := s.clk.frc }] } }) ∧
     (s.cnp.votes = [{ triad := t, copies := [(a, e)], since := n }] → arbHeld s = false → ∃ u,
       exec (.vote t b e) s = .next u ∧ u.cnp.passed = s.cnp.passed ++ [e] ∧ u.arb.osn = s.arb.osn + 1 ∧
       (u.cnp.votes = [] ∨
         u.cnp.votes = [{ triad := t, copies := [(a, e), (b, e)], since := n, passed := some e }]) ∧
       u.cnp.parts = s.cnp.parts ∧ u.rng = s.rng ∧ u.mem = s.mem) ∧
     (s.cnp.votes = [{ triad := t, copies := [(a, f)], since := n }] → e ≠ f →
       exec (.vote t b e) s = .next { s with cnp := { (noteBell b e s).cnp with
         votes := [{ triad := t, copies := [(a, f), (b, e)], since := n }] } })) ∧
  (∀ (t : Nat) (e f : Emission) (n : Nat) (s : State), t < 16 → e ≠ f → n + 2500 ≤ s.clk.frc → s.rst.phase = .started →
     (triadOf t s).chans = [.A, .B, .C] → (triadOf t s).joining = [] →
     (s.cnp.votes = [{ triad := t, copies := [(.A, e), (.B, e)], since := n, passed := some e }] → ∃ u,
       exec (.voteToleranceEnd t) s = .next u ∧ (triadOf t u).chans = [.A, .B] ∧
       (triadOf t u).isos = (triadOf t s).isos ++ [.C] ∧ u.cnp.evt.getLsbD 0 = true ∧ u.cnp.lastTriad = t ∧
       u.log.reqs.length = s.log.reqs.length + 1 ∧ u.cnp.votes = []) ∧
     (s.cnp.votes = [{ triad := t, copies := [(.A, e), (.B, f), (.C, e)], since := n, passed := some e }] → ∃ u,
       exec (.voteToleranceEnd t) s = .next u ∧ (triadOf t u).chans = [.A, .C] ∧
       (triadOf t u).isos = (triadOf t s).isos ++ [.B] ∧ u.cnp.votes = [])) ∧
  (∀ (t : Nat) (a : Chan) (e : Emission) (s : State), s.rst.phase ≠ .started → t < 16 →
    exec (.vote t a e) s = .next s ∧ exec (.voteToleranceEnd t) s = .next s)

/-- A lost vote moves the partitions of the triad to the spare, which is no longer the spare; with no spare free they are
FROZEN and stranded; either way the triad is failed (R186, R190). A replay whose payload has one readable copy ends with
VOTE_LOST instead (R132). When the copy of a rejoining channel is complete
at a mark and no run is on the triad, the channel is in service again (R189). -/
def Obligations.VoteLossAndRejoin : Prop :=
  (∀ (t n : Nat) (a : Chan) (e : Emission) (s : State), t < 16 → t ≠ 0 → n + 2500 ≤ s.clk.frc →
     s.rst.phase = .started → s.cnp.votes = [{ triad := t, copies := [(a, e)], since := n }] → s.cnp.spare ≠ t →
     replayOf e s = none →
     ∃ u, exec (.voteToleranceEnd t) s = .next u ∧ (triadOf t u).failed = true ∧ (triadOf t u).run = none ∧
       (s.cnp.spare ≠ 0 → u.cnp.spare = 0 ∧ ∀ p x, look s.cnp.parts p = some x → x.triad = t →
         ((look u.cnp.parts p).map fun y => y.triad) = some s.cnp.spare) ∧
       (s.cnp.spare = 0 → ∀ p x, look s.cnp.parts p = some x → x.triad = t →
         ((look u.cnp.parts p).map fun y => (y.triad, y.stranded)) = some (t, true))) ∧
  (∀ (t n r : Nat) (m : Word) (a : Chan) (p : Payload) (e : JRec) (s : State), t < 16 → n + 2500 ≤ s.clk.frc →
     s.rst.phase = .started → s.cnp.votes = [{ triad := t, copies := [(a, .payload r m p)], since := n }] →
     entryOf r m s = some e → e.rpl = true → e.stage = .waiting → ∃ u,
     exec (.voteToleranceEnd t) s = .next u ∧ u.cnp.triads = s.cnp.triads ∧ u.cnp.parts = s.cnp.parts ∧
       (entryOf r m u).map (fun y => (y.stage, y.status, y.result)) = some (.finished, 0x60, some 0)) ∧
  (∀ (t : Nat) (c : Chan) (cs : List Chan) (s : State), t < 16 → (triadOf t s).joining = c :: cs →
     atMark (triadOf t s) s = true →
     ∃ u, exec (.rejoinComplete t) s = .next u ∧ c ∈ (triadOf t u).chans ∧
       (∀ d ∈ (triadOf t s).chans, d ∈ (triadOf t u).chans) ∧ (triadOf t u).joining = cs ∧
       u.cnp.evt.getLsbD 1 = true ∧ u.arb.osn = s.arb.osn + 1 ∧ u.rng = s.rng)

/-- At a tick boundary with no change of class T, no mirror and no stranded partition, the next tick
begins, every ring takes its mark, DONE entries retire, every pre-image is released and every budget is restored
(R17, R127, R192, R197, R199). -/
def Obligations.TickBoundaryTakesTheMarks : Prop :=
  ∀ (s : State), boundaryDue s = true → (s.gft.role ≠ .active ∨ s.gft.phase ≠ .active) →
    standbyLive s = false → s.hw.tWait = none → s.cnp.nextBind = none →
    (∀ e ∈ s.cnp.parts, e.2.stranded = false) →
    ∃ u, exec .tickBoundary s = .next u ∧ u.cnp.tickNo = s.cnp.tickNo + 1 ∧ u.cnp.inTail = false ∧
      u.cnp.tickStart = s.cnp.tickEnd ∧ u.cnp.tickEnd = nextTickNs (baseRate s.cnp.rate) s.cnp.tickEnd ∧
      u.pgk.undo = 0 ∧ u.rng.jrnl.length = (s.rng.jrnl.filter fun e => !e.done).length ∧
      (∀ r x, r < 2048 → look s.rng.rings r = some x →
        look u.rng.rings r =
          some { x with mark := { a := x.a, c := x.c, k := x.k, gen := x.gen }, markOsn := x.lastOsn }) ∧
      (∀ p x, look s.cnp.parts p = some x → ∃ y, look u.cnp.parts p = some y ∧
        y.pre = [] ∧ y.stored = [] ∧ y.left = x.budget ∧ y.markCtx = x.ctx ∧ y.dirtyStop = false) ∧
      (∀ n b, look s.bin.ins n = some b → look u.bin.ins n = some { b with told := false })

/-! ### Commands of class B (R153 to R155, R165 to R168, R210 to R212, R483) -/

/-- The eight commands of class B: each frees the executor and runs beside it; an erase or a write marks what it changes, a
host start is pending, a save or a restore makes its partition MIGRATING, and a pairing sends its first PAIR
frame (R153 to R155, R167, R174, R210, R483). -/
def Obligations.ClassBCommandsStart : Prop :=
  ∀ (c : Cmd) (s : State),
    let run (k : BKind) (u : State) : State := { u with hw := { u.hw with
      exec := none, classB := s.hw.classB ++ [{ kind := k, cmd := c, since := s.clk.now }] } }
    let flash (f : FlashSlot) : State :=
      { s with boot := { s.boot with flash := put s.boot.flash (arg0 c.desc) f } }
    (ready (.imgErase c) c s → exec (.imgErase c) s = .next (run .image
      (flash { erased := true, partialWrite := (flashOf (arg0 c.desc) s).partialWrite }))) ∧
    (ready (.imgWrite c) c s → ∃ l, exec (.imgWrite c) s =
      .next (run .image (flash { flashOf (arg0 c.desc) s with partialWrite := l })) ∧
      ∀ k, k ∈ l ↔ k ∈ (flashOf (arg0 c.desc) s).partialWrite ∨ k ∈ writtenPages c) ∧
    (ready (.imgCheck c) c s → exec (.imgCheck c) s = .next (run .image s)) ∧
    (ready (.imgHostStart c) c s → exec (.imgHostStart c) s =
      .next (run .image { s with boot := { s.boot with hostPending := true } })) ∧
    (ready (.imgFloor c) c s → exec (.imgFloor c) s = .next (run .image s)) ∧
    (ready (.partSave c) c s → ∃ u, exec (.partSave c) s = .next (run .blob u) ∧
      ((look u.cnp.parts (arg0 c.desc % 256)).map fun x => x.st) = some .migrating ∧ u.mem = s.mem) ∧
    (ready (.partRestore c) c s → ∃ u, exec (.partRestore c) s = .next (run .blob u) ∧
      ((look u.cnp.parts (arg0 c.desc % 256)).map fun x => x.st) = some .migrating ∧ u.mem = s.mem) ∧
    (ready (.gftPair c) c s → ∃ u, exec (.gftPair c) s = .next (run .pairing u) ∧ u.gft.phase = .pairing ∧
      u.gft.ownId = arg0 c.desc ∧ u.gft.peerId = arg1 c.desc ∧ u.cnp = s.cnp)

/-- What an image command of class B answers at its end (R154, R155, R165 to R168). What a save, a restore and a pairing
answer at their end: a save freezes its partition and counts the save, or answers NO_RESOURCE where the blob has become
too long; a restore whose blob is not of this format
leaves no partition; a pairing with no partner ends unpaired (R174, R210 to R212, R483). -/
def Obligations.ClassBCommandsEnd : Prop :=
  (∀ (b : BCmd) (r : BReply) (s : State), s.hw.classB = [b] →
     let v : State := { s with hw := { s.hw with classB := [] } }
     let ends (u : State) (st : Nat) (x : Option Word) : Prop :=
       exec (.classBFinish b.kind r) s = .next (classBEvent b.cmd (complete b.cmd (u, st, x)))
     let slot := arg0 b.cmd.desc
     (opOf b.cmd.desc = 0x0910 → r.flashOk = true →
       let f := { flashOf slot s with partialWrite := [] }
       ends { v with boot := { v.boot with flash := put v.boot.flash slot f } } stOk none) ∧
     (opOf b.cmd.desc = 0x0910 → r.flashOk = false → ∃ u, ends u 0x902 none) ∧
     (opOf b.cmd.desc = 0x0911 → r.flashOk = true → ∃ f,
       ends { v with boot := { v.boot with flash := put v.boot.flash slot f } } stOk none ∧
       (∀ k, k ∈ f.partialWrite ↔ k ∈ (flashOf slot s).partialWrite ∧ k ∉ writtenPages b.cmd) ∧
       (∀ i, i < lenOf b.cmd.desc / 256 → look f.pages (arg1 b.cmd.desc / 256 + i) =
         some (padTo 256 (b.cmd.block.drop (256 * i)))) ∧
       ∀ k, k ∉ writtenPages b.cmd → look f.pages k = look (flashOf slot s).pages k) ∧
     (opOf b.cmd.desc = 0x0911 → r.flashOk = false → ends v 0x902 none) ∧
     (opOf b.cmd.desc = 0x0912 → (r.flashOk = false ∨ r.image.answers = false) → ends v 0x902 none) ∧
     (opOf b.cmd.desc = 0x0912 → r.flashOk = true → r.image.answers = true →
       slotBroken slot s = false → imagePasses (slotHeader slot r.image s) (slotBody slot r.image s) s.mram = true →
       ends v stOk (some (BitVec.ofNat 32 (imgVersion (slotHeader slot r.image s))))) ∧
     (opOf b.cmd.desc = 0x0912 → r.flashOk = true → r.image.answers = true →
       (slotBroken slot s = true ∨
         imagePasses (slotHeader slot r.image s) (slotBody slot r.image s) s.mram = false) → ends v 0x901 none) ∧
     (opOf b.cmd.desc = 0x0915 → ∃ u, ends u stOk none ∧ u.mram = { s.mram with
       floor := max (arg0 b.cmd.desc) s.mram.floor } ∧ u.log.reqs.length = s.log.reqs.length + 1 ∧ u.boot = s.boot) ∧
     (opOf b.cmd.desc = 0x0914 → imagePasses (stagedHeader s) (stagedBody s) s.mram = true → ∃ u x, ends u stOk none ∧
       look u.cnp.parts 0 = some x ∧ x.st = .ready ∧ x.en = .on ∧ x.triad = 1 ∧ x.prio = 7 ∧
       u.boot.running = true ∧ u.boot.slot = 2 ∧ u.boot.version = BitVec.ofNat 32 (imgVersion (stagedHeader s)))) ∧
  (∀ (b : BCmd) (r : BReply) (s : State), s.hw.classB = [b] →
     let p := arg0 b.cmd.desc % 256
     let ends (u : State) (st : Nat) (x : Option Word) : Prop :=
       exec (.classBFinish b.kind r) s = .next (classBEvent b.cmd (complete b.cmd (u, st, x)))
     let sound : Prop := ∀ k, checkHolds s.mram.root (slotOf k s) = true
     (∀ x g, opOf b.cmd.desc = 0x0108 → b.cmd.ring = 2049 → look s.cnp.parts p = some x → sound →
       groveBranch s = some g → stillRunning p s = false → blobFits b.cmd s = true → ∃ u,
       ends u stOk (some (BitVec.ofNat 32 (blobLen p x s))) ∧
       look u.cnp.parts p = some { x with st := .frozen } ∧ u.mram.saves = s.mram.saves + 1 ∧ u.rng = s.rng) ∧
     (∀ x g, opOf b.cmd.desc = 0x0108 → look s.cnp.parts p = some x → sound → groveBranch s = some g →
       stillRunning p s = false → blobFits b.cmd s = false → ∃ u, ends u 0x11 none ∧
       look u.cnp.parts p = some { x with st := .frozen } ∧ u.mram = s.mram ∧ u.mem = s.mem) ∧
     (∀ g, opOf b.cmd.desc = 0x0109 → sound → groveBranch s = some g → headerOk b.cmd.block = false → ∃ u,
       ends u 0x10 none ∧ look u.cnp.parts p = none ∧ u.mem = s.mem ∧ u.rng = s.rng ∧ u.key = s.key) ∧
     (∀ g plain, p ≠ 0 → opOf b.cmd.desc = 0x0109 → sound → groveBranch s = some g → headerOk b.cmd.block = true →
       some (leAt b.cmd.block 24 8) = groveTag s →
       gcmOpen (groveSeal g) ((b.cmd.block.drop 32).take 12) (b.cmd.block.take 64) (b.cmd.block.drop 64) =
         some plain →
       restoreStatus (openBlob p plain) plain (groveSeal g)
         { s with hw := { s.hw with classB := [] }, cnp := { s.cnp with parts := del s.cnp.parts p } } = stOk →
       ∃ u, ends u stOk none ∧ look u.cnp.parts p = some (openBlob p plain).part ∧
         (openBlob p plain).part.st = .frozen) ∧
     (opOf b.cmd.desc = 0x0801 → s.gft.peer = none → b.since + 9000000000 ≤ s.clk.now → ∃ u,
       ends u 0x801 none ∧ u.gft.phase = .unpaired ∧ u.cnp = s.cnp ∧ u.mem = s.mem))

/-! ### Ports (R220 to R248) -/

/-- PORT_CONFIG and PORT_FILTER store their blocks, and PORT_ENABLE and PORT_DISABLE follow the enable rule; an enabled
port is in TRAINING, but in the pulse of a PORT reset (R149, R223, R230, R243, R244). The link goes from DOWN to TRAINING with a signal, to HOLD with the
PCS, back to TRAINING when the PCS drops, to UP when the hold-off has passed, and DOWN when PCS or signal are lost
(R225, R226, R248). -/
def Obligations.PortCommandsAndLinks : Prop :=
  (∀ (c : Cmd) (s : State),
     let n := arg0 c.desc
     (ready (.portConfig c) c s → exec (.portConfig c) s = .next (complete c
       (setPort n { portOf n s with cfg := some (blockWords c.block 8) } s, stOk, none))) ∧
     (ready (.portFilter c) c s → exec (.portFilter c) s = .next (complete c
       (setPort n { portOf n s with
         filter := filterOf c.block, filterOld := (s.clk.frc, (portOf n s).filter) :: (portOf n s).filterOld } s, stOk, none))) ∧
     (ready (.portEnable c) c s → exec (.portEnable c) s = .next (complete c
       (match (portOf n s).en with
        | .off => (setPort n { portOf n s with
            en := .on, held := false, link := if s.clk.frc < (portOf n s).resetUntil then .down else .training
            since := s.clk.frc } s, stOk, none)
        | .stopping => (setPort n { portOf n s with held := true } s, stDeferred, none)
        | .on => (setPort n (portOf n s) s, stOk, none)))) ∧
     (ready (.portDisable c) c s → ∃ u, exec (.portDisable c) s = .next (complete c (u, stOk, none)) ∧
       ((portOf n s).en = .on → (portOf n u).en = .stopping ∧
         ∀ q, q < 8 → (queueAt (n * 8 + q) u).frames = []) ∧
       ((portOf n s).en = .stopping → (portOf n u).en = .stopping ∧ (portOf n u).held = false) ∧
       ((portOf n s).en = .off → (portOf n u).en = .off)) ∧
     (ready (.portReset c) c s → (portOf n s).en ≠ .stopping → ∃ u,
       exec (.portReset c) s = .next (complete c (u, stOk, none)) ∧ (portOf n u).link = .down ∧
       (portOf n u).filter = [] ∧ (portOf n u).tsq = [] ∧ (portOf n u).paused = false ∧ (portOf n u).tx = none ∧
       (portOf n u).rest = none ∧ (portOf n u).en = (portOf n s).en ∧ (portOf n u).cfg = (portOf n s).cfg ∧
       (portOf n u).resetUntil = s.clk.frc + 1000 ∧ ∀ q, q < 8 → (queueAt (n * 8 + q) u).frames = [])) ∧
  (∀ (n : Nat) (s : State), n < 48 →
     ((portOf n s).en ≠ .off → (portOf n s).link = .down → (portOf n s).resetUntil ≤ s.clk.frc →
       exec (.signalDetect n) s =
         .next (sdclkBack (setPort n { portOf n s with link := .training, since := s.clk.frc } s))) ∧
     ((portOf n s).link = .training → (portOf n s).resetUntil ≤ s.clk.frc → ((portOf n s).anegDone = true ∨ pAneg (portOf n s) = false) → ∃ u a,
       exec (.pcsUp n) s = .next u ∧
       portOf n u = { portOf n s with link := .hold, since := s.clk.frc, align := a } ∧ u.sw = s.sw) ∧
     ((portOf n s).link = .hold →
       exec (.pcsDrop n) s =
         .next (setPort n { portOf n s with link := .training, since := s.clk.frc, anegDone := false } s)) ∧
     ((portOf n s).link = .hold → (portOf n s).since + pUpHold (portOf n s) * 1000000 ≤ s.clk.frc → arbHeld s = false →
       groupOf n s = none → ∃ u,
       exec (.upHoldExpiry n) s = .next u ∧ (portOf n u).link = .up ∧ u.prt.linkEvt.getLsbD n = true ∧
       u.arb.osn = s.arb.osn + 1 ∧ (pPreempt (portOf n s) = false → (portOf n u).verify = 0)) ∧
     (∃ u, exec (.linkDown n .pcs) s = .next u ∧ (portOf n u).link = .down ∧
       ((portOf n s).link = .up → (portOf n u).downCause = 0 ∧ (portOf n u).tx = none ∧
         u.prt.linkEvt.getLsbD n = true ∧ ∀ q, q < 8 → (queueAt (n * 8 + q) u).frames = [])) ∧
     (∀ (sp : Nat) (full : Bool), (portOf n s).link = .training → pAneg (portOf n s) = true →
       pPcs (portOf n s) = 0 →
       exec (.anegResult n sp true true) s =
         .next (setPort n { portOf n s with anegDone := true, speedNow := 2, halfNow := false } s) ∧
       ∃ u, exec (.anegResult n sp full false) s = .next u ∧ (portOf n u).anegRef = true ∧
         (portOf n u).anegDone = false))

/-- Verification of preemption: the timer sends again up to three times and then fails, a respond makes preemption
active, and a verify is answered, while with `PREEMPT` 0 either is an SMD error; and the end of a pause (R237, R239,
R240). -/
def Obligations.PreemptionAndPause : Prop :=
  ∀ (n : Nat) (s : State), n < 48 → (portOf n s).link = .up →
    ((portOf n s).verify = 1 → (portOf n s).verifyAt ≤ s.clk.frc → (portOf n s).verifyTries < 3 →
      exec (.verifyMpacketTimer n) s = .next (setPort n { portOf n s with
        verifyTries := (portOf n s).verifyTries + 1
        verifyAt := s.clk.frc + pVerifyMs (portOf n s) * 1000000 } s)) ∧
    ((portOf n s).verify = 1 → (portOf n s).verifyAt ≤ s.clk.frc → 3 ≤ (portOf n s).verifyTries → ∃ u,
      exec (.verifyMpacketTimer n) s = .next u ∧ (portOf n u).verify = 3 ∧
      u.prt.cnt = bumpBy s.prt.cnt (n * 38 + 37) 1) ∧
    ((portOf n s).verify = 1 → pPreempt (portOf n s) = true → ∃ u,
      exec (.respondMpacketRx n) s = .next u ∧ (portOf n u).verify = 2 ∧ u.prt.cnt = s.prt.cnt) ∧
    (pPreempt (portOf n s) = true →
      exec (.verifyMpacketRx n) s =
        .next (setPort n { portOf n s with responds := (portOf n s).responds + 1 } s)) ∧
    (pPreempt (portOf n s) = false →
      exec (.respondMpacketRx n) s = exec (.verifyMpacketRx n) s ∧
      exec (.verifyMpacketRx n) s = .next { s with prt := { s.prt with cnt := bumpBy s.prt.cnt (n * 38 + 17) 1 } }) ∧
    ((portOf n s).paused = true → (portOf n s).pauseEnd ≤ s.clk.frc * 100 → (portOf n s).pauseWait = none →
      exec (.pauseTimerExpiry n) s = .next (setPort n { portOf n s with paused := false, pauseMet := false } s))

/-- A received frame passes the checks of R228 in their order: the first that fails counts it and discards it; one that
passes them all is counted and waits for its ingress grant. -/
def Obligations.FramesAreCheckedInOrder : Prop :=
  ∀ (n : Nat) (f : RxFrame) (s : State), n < 48 → (portOf n s).link = .up → (portOf n s).en = .on →
    f.frags = 0 → f.smdErr = false → f.assyErr = false →
    fifoAt n f.sfd s + pMaxLen (portOf n s) ≤ fifoSize n → 2 ≤ (portOf n s).speedNow →
    ∃ u, exec (.frameRx n f) s = .next u ∧
      let one (k : Nat) : Prop := lookD u.prt.cnt (n * 38 + k) 0 = (lookD s.prt.cnt (n * 38 + k) 0 + 1) % 2 ^ 64 ∧
        u.sw.store = s.sw.store
      (f.codeError = true → one 9) ∧
      (f.codeError = false → f.frame.len < 64 → one 7) ∧
      (f.codeError = false → 64 ≤ f.frame.len → pMaxLen (portOf n s) < f.frame.len → one 8) ∧
      (f.codeError = false → 64 ≤ f.frame.len → f.frame.len ≤ pMaxLen (portOf n s) → f.fcsOk = false → one 5) ∧
      (f.codeError = false → 64 ≤ f.frame.len → f.frame.len ≤ pMaxLen (portOf n s) → f.fcsOk = true →
        f.frame.etype ≠ 0x8808 → accepts (portOf n s) f.sfd f.frame.da = false → one 10) ∧
      (f.codeError = false → 64 ≤ f.frame.len → f.frame.len ≤ pMaxLen (portOf n s) → f.fcsOk = true →
        f.frame.etype ≠ 0x8808 → accepts (portOf n s) f.sfd f.frame.da = true →
        (∃ m : FMeta, u.sw.store = put s.sw.store n (lookD s.sw.store n [] ++ [{ frame := f.frame, info := m }]) ∧
          m.src = n ∧ m.rxIdx = some (((portOf n s).rxIndex + 1) % 65536)) ∧
        lookD u.prt.cnt (n * 38) 0 = (lookD s.prt.cnt (n * 38) 0 + 1) % 2 ^ 64)

/-- A free MAC takes the first frame of the queue of highest priority, with the tag or RCT of the redundancy instance
through which it leaves, and sends it; in half duplex it defers to the carrier; a collision backs off, and a back-off
ends (R232, R234, R235, R249, R268, R281). -/
def Obligations.EgressAndTransmission : Prop :=
  (∀ (n q : Nat) (h : Held) (hs : List Held) (s : State), n < 48 → q < 8 → portUp n s = true →
    (portOf n s).tx = none → (portOf n s).rest = none → (portOf n s).paused = false →
    (portOf n s).resetUntil ≤ s.clk.frc → (queueAt (n * 8 + q) s).frames = h :: hs → h.info.drop = false →
    (∀ k, q < k → k < 8 → (queueAt (n * 8 + k) s).frames = []) →
    ∃ u g, exec (.egress n) s = .next u ∧ (portOf n u).tx = some { held := g, queue := q, cells := cellsOf h.frame } ∧
      (queueAt (n * 8 + q) u).frames.map Held.frame = hs.map Held.frame ∧ u.prt.cnt = s.prt.cnt ∧
      ((leavesBy n s = none ∨ h.info.uid = 0) → g = h ∧ (queueAt (n * 8 + q) u).frames = hs) ∧
      (∀ i r, leavesBy n s = some (i, r) → h.info.uid ≠ 0 → g.info = h.info ∧ ∃ k, g.frame = tagFor n k r h.frame)) ∧
  (∀ (n sfd : Nat) (t : TxFrame) (s : State), n < 48 → (portOf n s).tx = some t → t.backoff = none →
    wireLen t.held.frame ≤ pMaxLen (portOf n s) → (portOf n s).halfNow = true →
    exec (.frameTx n sfd ⟨none, true⟩) s =
      .next (setPort n { portOf n s with tx := some { t with deferred := true } } s)) ∧
  (∀ (n sfd : Nat) (b : Bool) (t : TxFrame) (s : State), n < 48 → (portOf n s).tx = some t → t.backoff = none →
    wireLen t.held.frame ≤ pMaxLen (portOf n s) → t.frags = 0 → ((portOf n s).halfNow = false ∨ b = false) →
    (portOf n s).paused = false → ∃ u,
    exec (.frameTx n sfd ⟨none, b⟩) s = .next u ∧ (portOf n u).tx = none ∧
    lookD u.prt.cnt (n * 38 + 19) 0 = (lookD s.prt.cnt (n * 38 + 19) 0 + 1) % 2 ^ 64 ∧
    lookD u.prt.cnt (n * 38 + 20) 0 = (lookD s.prt.cnt (n * 38 + 20) 0 + wireLen t.held.frame) % 2 ^ 64) ∧
  (∀ (n b : Nat) (t : TxFrame) (s : State), n < 48 → (portOf n s).tx = some t → t.backoff = none →
    (portOf n s).halfNow = true → b < 512 → t.tries < 15 → ∃ u e, exec (.collision n b) s = .next u ∧
    (portOf n u).tx = some { t with tries := t.tries + 1, backoff := some e } ∧ s.clk.frc ≤ e ∧
    e < s.clk.frc + 2 ^ min (t.tries + 1) 10 * slotTime (portOf n s).speedNow ∧
    u.prt.cnt = bumpBy s.prt.cnt (n * 38 + 30) 1) ∧
  (∀ (n e : Nat) (t : TxFrame) (s : State), n < 48 → (portOf n s).tx = some t → t.backoff = some e →
    e ≤ s.clk.frc →
    exec (.backoffExpiry n) s = .next (setPort n { portOf n s with tx := some { t with backoff := none } } s))

/-! ### The switch core (R249 to R291) -/

/-- An exact-match key in use has its action replaced under its handle; a new key takes the lowest free handle, with its
counters at 0; a deletion removes the entry and advances its epoch (R253 to R255). The wildcard table's commands, and
the seed of the hash, which changes only while the exact-match table is empty, the window is not locked and no reset
holds it (R256, R291, R561). -/
def Obligations.StreamMatchCommands : Prop :=
  (∀ (c : Cmd) (s : State),
     (∀ (h : Nat) (x : Exact), ready (.swExactAdd c) c s →
       (s.sw.exact.find? fun e => e.2.key == keyAt c.block 0) = some (h, x) →
       exec (.swExactAdd c) s = .next (complete c
         ({ s with sw := { s.sw with exact := put s.sw.exact h { x with act := actionAt c.block 3 } } }, stOk,
           some (BitVec.ofNat 32 h)))) ∧
     (ready (.swExactAdd c) c s → (s.sw.exact.find? fun e => e.2.key == keyAt c.block 0) = none → ∃ u x,
       exec (.swExactAdd c) s = .next (complete c
         (u, stOk, some (BitVec.ofNat 32 (lowestFree s.sw.exact 0)))) ∧
       look u.sw.exact (lowestFree s.sw.exact 0) = some x ∧ x.key = keyAt c.block 0 ∧ x.act = actionAt c.block 3 ∧
       (∀ i, i < 4 → lookD u.sw.cnt (lowestFree s.sw.exact 0 * 4 + i) 0 = 0) ∧ u.sw.wild = s.sw.wild ∧
       u.sw.epochs = s.sw.epochs ∧ u.rng = s.rng ∧ u.mem = s.mem) ∧
     (ready (.swExactDel c) c s →
       exec (.swExactDel c) s = .next (complete c
         ({ s with sw := { s.sw with
             exact := del s.sw.exact (arg0 c.desc)
             epochs := put s.sw.epochs (arg0 c.desc) ((lookD s.sw.epochs (arg0 c.desc) 0 + 1) % 16) } },
           stOk, none)))) ∧
  ((∀ (c : Cmd) (s : State),
     (ready (.swWildSet c) c s → ∃ u x, exec (.swWildSet c) s = .next (complete c (u, stOk, none)) ∧
       look u.sw.wild (arg0 c.desc) = some x ∧ x.key = keyAt c.block 0 ∧ x.mask = keyAt c.block 3 ∧
       x.inports = wordAt c.block 6 + 2 ^ 32 * wordAt c.block 7 ∧ x.act = actionAt c.block 8 ∧
       (∀ i, i ≠ arg0 c.desc → look u.sw.wild i = look s.sw.wild i) ∧ u.sw.exact = s.sw.exact ∧
       (look s.sw.wild (arg0 c.desc) = none → u.sw.epochs = s.sw.epochs)) ∧
     (ready (.swWildDel c) c s → ∃ u, exec (.swWildDel c) s = .next (complete c (u, stOk, none)) ∧
       look u.sw.wild (arg0 c.desc) = none ∧
       lookD u.sw.epochs (16384 + arg0 c.desc) 0 = (lookD s.sw.epochs (16384 + arg0 c.desc) 0 + 1) % 16 ∧
       u.sw.exact = s.sw.exact)) ∧
   (∀ (v : Word) (s : State),
     (s.sw.exact = [] → s.rst.cfgLock = false → s.rst.phase = .started → s.rst.pcieAt ≠ none →
       exec (.swHash v) s = .next { s with sw := { s.sw with seed := v } }) ∧
     ((s.sw.exact ≠ [] ∨ s.rst.cfgLock = true ∨ s.rst.phase ≠ .started) → exec (.swHash v) s = .next s)))

/-- SW_QUEUE, SW_RED, SW_PATHS and SW_REDUN store what their blocks say (R266, R267, R270, R280). -/
def Obligations.SwitchSetUpCommands : Prop :=
  ∀ (c : Cmd) (s : State),
    (ready (.swQueue c) c s → ∃ u x, exec (.swQueue c) s = .next (complete c (u, stOk, none)) ∧
      look u.sw.queues (arg0 c.desc * 8 + arg1 c.desc) = some x ∧ x.min = wordAt c.block 0 ∧
      x.max = wordAt c.block 1 ∧ x.profile = wordAt c.block 2 % 8 ∧ x.redEn = tbit (wordAt c.block 2) 8 ∧
      x.frames = (queueAt (arg0 c.desc * 8 + arg1 c.desc) s).frames ∧
      ∀ q, q ≠ arg0 c.desc * 8 + arg1 c.desc → queueAt q u = queueAt q s) ∧
    (ready (.swRed c) c s → ∃ u, exec (.swRed c) s = .next (complete c (u, stOk, none)) ∧
      (∀ i, i < 3 → redOf (arg0 c.desc) i u = profAt c.block i) ∧
      ∀ n i, n ≠ arg0 c.desc → i < 3 → redOf n i u = redOf n i s) ∧
    (ready (.swPaths c) c s → ∃ u, exec (.swPaths c) s = .next (complete c (u, stOk, none)) ∧
      (membersOf c.block = [] → look u.sw.paths (arg0 c.desc) = none) ∧
      (membersOf c.block ≠ [] → look u.sw.paths (arg0 c.desc) = some {
        members := membersOf c.block, ret := bits (wordAt c.block 0) 13 8
        buckets := (List.range 64).map (· % (membersOf c.block).length)
        upAt := (membersOf c.block).map fun _ => none })) ∧
    (ready (.swRedun c) c s → ∃ u, exec (.swRedun c) s = .next (complete c (u, stOk, none)) ∧
      (bits (wordAt c.block 0) 6 4 = 0 → look u.sw.redun (wordAt c.block 0 % 16) = none ∧
        ∀ e ∈ u.sw.nodes, e.2.inst ≠ wordAt c.block 0 % 16) ∧
      (bits (wordAt c.block 0) 6 4 ≠ 0 → look s.sw.redun (wordAt c.block 0 % 16) = none →
        look u.sw.redun (wordAt c.block 0 % 16) = some (redunOf c.block s.clk.frc)))

/-- A frame of the source that the rotation grants leaves its ingress store; one that no entry matches is counted as a miss at its source, and one
whose action names an algorithm takes a crypto lane for its verification, or waits for one (R35, R249, R250, R257, R437,
R439). -/
def Obligations.IngressClassifies : Prop :=
  ∀ (src : Nat) (h : Held) (hs : List Held) (s : State), (src = 48 ∨ src = 49) → s.rst.phase = .started →
    lookD s.sw.store src [] = h :: hs → h.info.src = src → h.info.direct = none → gated h s = false →
    comesFirst 50 s.sw.ptr ((List.range 50).filter (requests s)) src = true →
    (lookup (lookupKey h s) src s = none → h.info.op = none → ∃ u, exec (.switchIngress src) s = .next u ∧
      lookD u.sw.store src [] = hs ∧ u.sw.ptr = (src + 1) % 50 ∧
      lookD u.sw.ingress src 0 = (lookD s.sw.ingress src 0 + 1) % 2 ^ 64 ∧ u.sw.evt.getLsbD 1 = true) ∧
    (∀ e a, lookup (lookupKey h s) src s = some (e, a) → a.auth ≠ 0 → s.sw.wait.length < 1024 → ∃ u m,
      exec (.switchIngress src) s = .next u ∧ lookD u.sw.store src [] = hs ∧ m.entry = e ∧
      m.epoch = lookD s.sw.epochs e 0 ∧ m.flow = a.flow ∧
      (freeLanes s = [] → u.sw.wait = s.sw.wait ++ [({ h with info := m }, a)]) ∧
      (s.key.lanes = [] → s.sw.wait = [] → s.key.tags = [] → u.sw.wait = [] ∧
        ((look u.key.lanes 0).map fun j => j.ver) = some (some ({ h with info := m }, a))))

/-- A lane's verdict on the frame that it holds is counted in the slot of its load, and the lane is free again; a frame
that does not pass and is to be dropped goes nowhere. A verdict is pass only where the slot holds a usable Leaf of the
algorithm, the frame is a GOOSE or SV frame and the MAC agrees. A lane takes a frame for a tag with the key of its slot,
the new slot once a rollover is active, and a SEND's frame leaves it with its tag under that key (R433, R436 to R440,
R443). -/
def Obligations.CryptoLanes : Prop :=
  (∀ (lane : Nat) (j : LaneJob) (h : Held) (a : Action) (s : State), lane < 4 → look s.key.lanes lane = some j →
    j.ver = some (h, a) → s.sw.wait = [] → s.key.tags = [] →
    let v := verdictOf a.auth j.fault j.work h.frame
    ∃ u, exec (.verificationVerdict lane) s = .next u ∧ look u.key.lanes lane = none ∧
    lookD u.key.cnt (j.slot * 7 + v) 0 = (lookD s.key.cnt (j.slot * 7 + v) 0 + 1) % 2 ^ 64 ∧
    (v ≠ 0 → a.authDrop = true → h.info.op = none →
      u.sw.queues = s.sw.queues ∧ u.sw.se0 = s.sw.se0 ∧ u.sw.se1 = s.sw.se1)) ∧
  (∀ (k auth : Nat) (f : Frame) (s : State), verify k auth f s = 0 →
    usable (slotOf k s) = true ∧ (slotOf k s).level = 2 ∧ tbit (slotOf k s).usage 0 = true ∧
    algFits auth (slotOf k s).alg = true ∧ (f.etype = 0x88B8 ∨ f.etype = 0x88BA) ∧
    ∃ e j, f.auth = some e ∧ e.wellFormed = true ∧ j ∈ k :: partners k s ∧ (slotOf j s).keyId = e.keyId ∧
      e.mac = macOf auth (keyOf (slotOf j s)) f e.iv) ∧
  (∀ (t : TagReq) (s : State), s.key.lanes = [] → s.sw.wait = [] → s.key.tags = [t] → t.pub = none →
    let x := slotOf (tagSlot t.slot s) s
    checkHolds s.mram.root x = true → (fillLanes s).key.tags = [] ∧
    look (fillLanes s).key.lanes 0 = some {
      tag := some t, slot := tagSlot t.slot s, fault := tagStatus x t.auth t.owner s
      work := if tagStatus x t.auth t.owner s = stOk then x else {} }) ∧
  (∀ (lane : Nat) (j : LaneJob) (t : TagReq) (s : State), lane < 4 → look s.key.lanes lane = some j →
    j.tag = some t → j.fault = stOk → t.pub = none → t.auth ≤ 2 → s.key.tagCount + 1 < 2 ^ 40 → s.sw.wait = [] →
    s.key.tags = [] → ∃ u f,
    exec (.tag lane) s = .next u ∧ look u.key.lanes lane = none ∧ u.key.tagCount = s.key.tagCount + 1 ∧
    lookD u.key.cnt (j.slot * 7 + 5) 0 = (lookD s.key.cnt (j.slot * 7 + 5) 0 + 1) % 2 ^ 64 ∧
    u.sw.store = put s.sw.store 49 (lookD s.sw.store 49 [] ++ [{ t.held with frame := f }]) ∧
    (∃ x, f.auth = some x ∧ x.keyId = j.work.keyId ∧
      x.iv = Config.ivPrefix.toNat * 2 ^ 64 + s.mram.epoch * 2 ^ 40 + s.key.tagCount ∧
      x.mac = macOf t.auth (keyOf j.work) t.held.frame x.iv) ∧
    { f with auth := t.held.frame.auth } = t.held.frame)

/-- The ageing of nodes, the return of a path member's buckets, and supervision (R271, R282, R284). -/
def Obligations.AgeingAndReturn : Prop :=
  (∀ (k : Nat) (x : Node) (s : State), k < 4096 → look s.sw.nodes k = some x →
    (x.updated + 400000000 ≤ s.clk.frc →
      exec (.entryForget k) s = .next { s with sw := { s.sw with
        nodes := put s.sw.nodes k { x with win := {}, fwdA := {}, fwdB := {} } } }) ∧
    (x.updated + 60000000000 ≤ s.clk.frc → arbHeld s = false → ∃ u, exec (.nodeForget k) s = .next u ∧
      look u.sw.nodes k = none ∧ u.arb.osn = s.arb.osn + 1)) ∧
  (∀ (g m t : Nat) (x : PathGrp) (s : State), 1 ≤ g → g ≤ 15 → m < 8 → look s.sw.paths g = some x →
    x.upAt.getD m none = some t → t + x.ret * 100000000 ≤ s.clk.frc →
    let own := x.buckets.zipIdx.map fun e => if e.2 % x.members.length = m then m else e.1
    own ≠ x.buckets → ∃ u, exec (.pathReturn g m) s = .next u ∧
      look u.sw.paths g = some { x with buckets := own } ∧ u.sw.evt.getLsbD 4 = true) ∧
  (∀ (i : Nat) (r : Redun) (s : State), i < 12 → look s.sw.redun i = some r → r.supAt ≤ s.clk.frc →
    s.rst.phase = .started → r.mode < 3 → r.portA < 48 → r.portB < 48 → r.supPcp < 8 → ∃ u, exec (.supervisionTx i) s = .next u ∧
    ((look u.sw.redun i).map fun y => (y.supAt, y.counter)) =
      some (s.clk.frc + r.lifeMs * 1000000, r.counter) ∧
    lookD u.sw.cnt (80000 + (i * 2) * 8 + 7) 0 = (lookD s.sw.cnt (80000 + (i * 2) * 8 + 7) 0 + 1) % 2 ^ 64 ∧
    lookD u.sw.cnt (80000 + (i * 2 + 1) * 8 + 7) 0 = (lookD s.sw.cnt (80000 + (i * 2 + 1) * 8 + 7) 0 + 1) % 2 ^ 64)

/-! ### Operations of the rings (R100, R272 to R276, R353, R413, R534) -/

/-- SEND that passed its checks hands its frame, with its FCS octets, to the ingress of source 49, or to a crypto lane
for a tag, where it waits while no lane is free; a frame that takes no tag for its EtherType ends it (R249, R273, R437,
R438). RECV posts its buffer: a frame that waits for the ring fills it at once, or ends it where the buffer cannot be
mapped, and a ring that is not ON completes it unfilled (R133, R274, R275). -/
def Obligations.SendAndReceive : Prop :=
  (∀ (r : Nat) (seq : Word) (f : Frame) (e : JRec) (s : State), opAt 1 1 r seq e s →
     .payload r seq (.frame f) ∈ s.cnp.passed →
     let h : Held :=
       { frame := { f with len := lenOf e.desc + 4 }
         info := { src := 49, op := some (r, e.gen, seq)
                   direct := if tbit (arg0 e.desc) 6 then some (arg0 e.desc % 64, bits (arg0 e.desc) 10 8) else none } }
     let t : TagReq := { held := h, slot := bits (arg0 e.desc) 22 12, auth := sendAuth e.desc, owner := r / 8 }
     let sends := s.sw.sends ++
       [{ ring := r, gen := e.gen, seq := seq, left := 1, tsWanted := tbit (arg0 e.desc) 11 }]
     (sendAuth e.desc = 0 → ∃ u, exec (.send r seq f) s = .next u ∧ startedIn r seq u ∧ u.sw.sends = sends ∧
       u.sw.store = put s.sw.store 49 (lookD s.sw.store 49 [] ++ [h]) ∧ u.key = s.key ∧ u.mem = s.mem ∧
       u.prt = s.prt ∧ u.arb = s.arb) ∧
     (sendAuth e.desc ≠ 0 → (f.etype = 0x88B8 ∨ f.etype = 0x88BA) → freeLanes s = [] → ∃ u,
       exec (.send r seq f) s = .next u ∧ startedIn r seq u ∧ u.sw.sends = sends ∧ u.sw.store = s.sw.store ∧
       u.key.tags = s.key.tags ++ [t] ∧ u.key.lanes = s.key.lanes ∧ u.mem = s.mem ∧ u.prt = s.prt) ∧
     (sendAuth e.desc ≠ 0 → (f.etype = 0x88B8 ∨ f.etype = 0x88BA) → s.key.lanes = [] → s.sw.wait = [] →
       s.key.tags = [] → ∃ u, exec (.send r seq f) s = .next u ∧ startedIn r seq u ∧ u.sw.sends = sends ∧
       u.sw.store = s.sw.store ∧ u.key.tags = [] ∧ ((look u.key.lanes 0).map fun j => j.tag) = some (some t) ∧
       u.prt = s.prt) ∧
     (sendAuth e.desc ≠ 0 → f.etype ≠ 0x88B8 → f.etype ≠ 0x88BA → ∃ u, exec (.send r seq f) s = .next u ∧
       endedAs r seq stBadArg (some 0) u ∧ u.sw = s.sw ∧ u.key = s.key ∧ u.mem = s.mem ∧ u.prt = s.prt)) ∧
  (∀ (r : Nat) (seq : Word) (e : JRec) (x : Ring) (s : State), opAt 2 1 r seq e s → look s.rng.rings r = some x →
     (x.st ≠ .on → ∃ t, exec (.recv r seq) s = .next t ∧ endedAs r seq stOk (some 0) t ∧ t.mem = s.mem ∧
       t.sw = s.sw ∧ t.arb = s.arb) ∧
     (x.st = .on → (s.sw.ringq.find? fun q => q.1 == r) = none → ∃ t, exec (.recv r seq) s = .next t ∧
       startedIn r seq t ∧ t.sw = s.sw ∧ t.mem = s.mem ∧ t.arb = s.arb) ∧
     (∀ q y, x.st = .on → (s.sw.ringq.find? fun q => q.1 == r) = some q →
       (∀ j ∈ s.rng.jrnl, j.ring = r → j.stage ≠ .started) → (∀ j ∈ s.rng.orphans, j.ring ≠ r) →
       look s.cnp.parts (r / 8) = some y →
       let n := min (32 + (q.2.frame.len - 4)) (lenOf e.desc)
       ((∀ k, k < n → isMapped y (iovaOf e.desc + k) = true) → ∃ t, exec (.recv r seq) s = .next t ∧
         endedAs r seq stOk (some (BitVec.ofNat 32 n)) t ∧ t.sw.ringq = s.sw.ringq.erase q ∧ t.arb = s.arb) ∧
       (0 < lenOf e.desc → isMapped y (iovaOf e.desc) = false → y.quota ≤ mapped y → ∃ t,
         exec (.recv r seq) s = .next t ∧ endedAs r seq stOverQuota none t ∧ t.mem = s.mem ∧
         t.sw.ringq = s.sw.ringq.erase q)))

/-- PUBLISH of the values that the entry already holds counts as unchanged and answers stNum; other values become a
change with the next stNum, sqNum 0 and the schedule's first interval, whose frame leaves at once or waits for its tag;
an entry that has left ON ends it (R353, R354, R437). EXPORT of a stored record copies its export form from the offset
onward, up to the next page with each row, and answers the bytes copied, or ends with OVER_QUOTA; of a record that has
left the buffer it is not found (R133, R413, R417). -/
def Obligations.PublishAndExport : Prop :=
  (∀ (r : Nat) (seq : Word) (data : Bytes) (e : JRec) (s : State), opAt 3 1 r seq e s →
     .payload r seq (.bytes data) ∈ s.cnp.passed →
     let n := arg0 e.desc % 1024
     let p := pubOf n s
     let b := padTo (lenOf e.desc) data
     let changed : Prop := p.published = false ∨ p.vals.data ≠ b ∨ p.vals.numEntries ≠ arg1 e.desc
     let st := if p.published then numNext p.vals.stNum else 1
     let taken (t : State) : Prop := (pubOf n t).published = true ∧
       (pubOf n t).vals = {
         stNum := st, sqNum := 0, data := b, numEntries := arg1 e.desc, changeAt := lineNow s, step := 1
         nextAt := s.clk.frc + pubGap p 1 } ∧
       lookD t.gse.pubCnt (n * 3) 0 = (lookD s.gse.pubCnt (n * 3) 0 + 1) % 2 ^ 64
     (p.en ≠ .on → ∃ t, exec (.publish r seq data) s = .next t ∧ endedAs r seq stWrongState none t ∧
       t.gse = s.gse ∧ t.sw = s.sw ∧ t.key = s.key ∧ t.mem = s.mem) ∧
     (p.en = .on → p.published = true → p.vals.data = b → p.vals.numEntries = arg1 e.desc → ∃ t,
       exec (.publish r seq data) s = .next t ∧ endedAs r seq stOk (some (BitVec.ofNat 32 p.vals.stNum)) t ∧
       t.gse = { s.gse with pubCnt := bump s.gse.pubCnt (n * 3 + 1) } ∧ t.sw = s.sw ∧ t.mem = s.mem ∧ t.arb = s.arb) ∧
     (p.en = .on → changed → pubAuth p = 0 → ∃ t, exec (.publish r seq data) s = .next t ∧ taken t ∧
       endedAs r seq stOk (some (BitVec.ofNat 32 st)) t ∧
       (lookD t.sw.store 48 []).length = (lookD s.sw.store 48 []).length + 1 ∧ t.mem = s.mem ∧ t.arb = s.arb) ∧
     (p.en = .on → changed → pubAuth p ≠ 0 → freeLanes s = [] → ∃ t, exec (.publish r seq data) s = .next t ∧
       taken t ∧ startedIn r seq t ∧ t.key.tags.length = s.key.tags.length + 1 ∧ t.sw = s.sw ∧ t.mem = s.mem) ∧
     (p.en = .on → changed → pubAuth p ≠ 0 → s.key.lanes = [] → s.sw.wait = [] → s.key.tags = [] → ∃ t,
       exec (.publish r seq data) s = .next t ∧ taken t ∧ startedIn r seq t ∧ t.key.tags = [] ∧
       ((look t.key.lanes 0).bind fun j => j.tag.map fun q => (q.pub, q.op, q.result)) =
         some (some n, some (r, e.gen, seq), st))) ∧
  (∀ (r : Nat) (seq : Word) (e : JRec) (s : State), opAt 4 1 r seq e s →
     s.acq.exports.filter (isExport r e.gen seq) = [] →
     let n := arg0 e.desc % 16
     (storedRec n (arg1 e.desc) s = none → ∃ t, exec (.exportRec r seq) s = .next t ∧
       endedAs r seq stNotFound (some 0) t ∧ t.mem = s.mem ∧ t.acq = s.acq ∧ t.arb = s.arb) ∧
     (∀ z y, bufferRec n (arg1 e.desc) s = some z → z.released = false → look s.cnp.parts (r / 8) = some y →
       let b := (z.data.drop (arg0 e.desc / 256 * 65536)).take (lenOf e.desc)
       let room := 4096 - iovaOf e.desc % 4096
       (b = [] → ∃ t, exec (.exportRec r seq) s = .next t ∧ endedAs r seq stOk (some 0) t ∧ t.mem = s.mem) ∧
       (b ≠ [] → b.length ≤ room → isMapped y (iovaOf e.desc) = true → ∃ t, exec (.exportRec r seq) s = .next t ∧
         endedAs r seq stOk (some (BitVec.ofNat 32 b.length)) t ∧
         t.mem = Memory.write s.mem (partBase (r / 8) + iovaOf e.desc) b) ∧
       (room < b.length → isMapped y (iovaOf e.desc) = true → ∃ t, exec (.exportRec r seq) s = .next t ∧
         startedIn r seq t ∧ t.mem = Memory.write s.mem (partBase (r / 8) + iovaOf e.desc) (b.take room) ∧
         t.acq.exports = s.acq.exports ++ [{
           ring := r, gen := e.gen, seq := seq, recNo := n, num := arg1 e.desc, iova := iovaOf e.desc
           off := arg0 e.desc / 256 * 65536, len := lenOf e.desc, copied := room }]) ∧
       (b ≠ [] → isMapped y (iovaOf e.desc) = false → y.quota ≤ mapped y → ∃ t, exec (.exportRec r seq) s = .next t ∧
         endedAs r seq stOverQuota none t ∧ t.mem = s.mem))) ∧
  (∀ (r : Nat) (seq : Word) (x : XOp) (z : SRec) (y : Part) (e : JRec) (s : State), r < 2048 →
     opReady 4 1 r seq s = false → (s.acq.exports.find? fun x => x.ring == r && x.seq == seq) = some x →
     x.gen = genOf r s → entryOf r seq s = some e → e.stage = .started → e.replayed = false →
     s.rng.orphans.any (isEntry r (genOf r s) seq) = false →
     bufferRec x.recNo x.num s = some z → z.released = false → look s.cnp.parts (r / 8) = some y →
     let b := ((z.data.drop x.off).take x.len).drop x.copied
     b ≠ [] → b.length ≤ 4096 - (x.iova + x.copied) % 4096 → isMapped y (x.iova + x.copied) = true → ∃ t,
     exec (.exportRec r seq) s = .next t ∧ endedAs r seq stOk (some (BitVec.ofNat 32 (x.copied + b.length))) t ∧
     t.mem = Memory.write s.mem (partBase (r / 8) + (x.iova + x.copied)) b)

/-- STAGE writes the staging registers only; LOAD with `WHEN` 0 on channels that are not in a pull-in waits for their
period boundaries; PULSE drives a RELAY channel for its width; the two end with WRONG_STATE on a channel that has left ON
since they were consumed (R150, R533 to R535; log entry 23). The waveform of a channel: a period
starts at its boundary and takes a load that waits for it; its high phase ends; a turn-on waits for the dead time; a
pull-in ends, and a pulse ends with the completion of the generation that began it (R120, R529, R531 to R533, R535). -/
def Obligations.OutputOperationsAndWaveforms : Prop :=
  (∀ (r : Nat) (seq : Word) (e : JRec) (s : State),
     (opAt 5 1 r seq e s → ∃ t, exec (.stage r seq) s = .next t ∧
       endedAs r seq stOk (some (BitVec.ofNat 32 (b2n s.out.inh))) t ∧
       (outCh (arg0 e.desc / 2 ^ 28) t).stP = arg0 e.desc % 2 ^ 28 ∧
       (outCh (arg0 e.desc / 2 ^ 28) t).stH = arg1 e.desc % 2 ^ 28 ∧
       (outCh (arg0 e.desc / 2 ^ 28) t).p = (outCh (arg0 e.desc / 2 ^ 28) s).p ∧
       (outCh (arg0 e.desc / 2 ^ 28) t).h = (outCh (arg0 e.desc / 2 ^ 28) s).h ∧
       (∀ n, n ≠ arg0 e.desc / 2 ^ 28 → outCh n t = outCh n s) ∧ t.mem = s.mem ∧ t.arb = s.arb) ∧
     (∀ block, opAt 5 2 r seq e s → arg1 e.desc = 0 → loadStarts e.desc s = false →
       ∃ t, exec (.load r seq block) s = .next t ∧ endedAs r seq stWrongState (some 0) t ∧ t.out = s.out ∧
       t.mem = s.mem) ∧
     (∀ block, opAt 5 2 r seq e s → arg1 e.desc = 0 → loadStarts e.desc s = true →
       (∀ n ∈ maskChans (arg0 e.desc), (outCh n s).pullIn = false ∧ (outCh n s).pend = none) →
       ∃ t, exec (.load r seq block) s = .next t ∧ startedIn r seq t ∧ t.mem = s.mem ∧
         ∀ n ∈ maskChans (arg0 e.desc), (outCh n t).pend = some { ring := r, gen := e.gen, seq := seq, atTarget := false } ∧
           (outCh n t).p = (outCh n s).p ∧ (outCh n t).h = (outCh n s).h) ∧
     (opAt 5 3 r seq e s → ∃ t, exec (.pulse r seq) s = .next t ∧
       ((outCh (arg0 e.desc % 16) s).en ≠ .on → endedAs r seq stWrongState none t ∧ t.out = s.out) ∧
       ((outCh (arg0 e.desc % 16) s).en = .on → startedIn r seq t ∧
         (outCh (arg0 e.desc % 16) t).pulse = some (r, e.gen, seq) ∧
         (outCh (arg0 e.desc % 16) t).endAt = frcNow s + arg1 e.desc * countUnit ∧
         (outCh (arg0 e.desc % 16) t).pulsePol = tbit (arg0 e.desc) 4 ∧
         lookD t.out.cnt ((arg0 e.desc % 16) * 7 + 2) 0 =
           (lookD s.out.cnt ((arg0 e.desc % 16) * 7 + 2) 0 + 1) % 2 ^ 64 ∧
         (∀ n, n ≠ arg0 e.desc % 16 → outCh n t = outCh n s)))) ∧
  (∀ (n : Nat) (s : State), n < 16 →
     ((outCh n s).en = .on → outMode (outCh n s) ≠ 2 → (outCh n s).pullIn = false → atBoundary (outCh n s) s = true →
       (outCh n s).pend = none → ∃ t, exec (.periodStart n) s = .next t ∧
       (outCh n t).inPeriod = true ∧ (outCh n t).perAt = boundaryAt (outCh n s) s ∧
       (outCh n t).perLen = (outCh n s).p / 16 + ((outCh n s).accP + (outCh n s).p % 16) / 16 ∧
       (outCh n t).accP = ((outCh n s).accP + (outCh n s).p % 16) % 16 ∧
       lookD t.out.cnt (n * 7) 0 = (lookD s.out.cnt (n * 7) 0 + 1) % 2 ^ 64 ∧
       (∀ k, k ≠ n → outCh k t = outCh k s) ∧ t.rng = s.rng) ∧
     (∀ q, (outCh n s).en = .on → outMode (outCh n s) = 0 → (outCh n s).pullIn = false →
       atBoundary (outCh n s) s = true → (outCh n s).pend = some q → q.atTarget = false → q.dueAt = none → ∃ t,
       exec (.periodStart n) s = .next t ∧ (outCh n t).p = (outCh n s).stP ∧ (outCh n t).h = (outCh n s).stH ∧
       (outCh n t).pend = none ∧ lookD t.out.cnt (n * 7 + 1) 0 = (lookD s.out.cnt (n * 7 + 1) 0 + 1) % 2 ^ 64) ∧
     ((outCh n s).inPeriod = true → (outCh n s).w = true → (outCh n s).highLen < (outCh n s).perLen →
       (outCh n s).perAt + (outCh n s).highLen * countUnit ≤ frcNow s →
       exec (.phaseEnd n) s = .next (setOut n { outCh n s with w := false } s)) ∧
     (((outCh n s).dueA = true ∨ (outCh n s).dueB = true) → (outCh n s).dueAt ≤ frcNow s →
       exec (.deadTimeEnd n) s = .next (setOut n { outCh n s with
         pinA := (outCh n s).pinA || (outCh n s).dueA, pinB := (outCh n s).pinB || (outCh n s).dueB
         dueA := false, dueB := false } s)) ∧
     ((outCh n s).pullIn = true → (outCh n s).endAt ≤ frcNow s → ∃ t, exec (.pullInEnd n) s = .next t ∧
       (outCh n t).pullIn = false ∧ (outCh n t).inPeriod = true ∧ (outCh n t).perAt = (outCh n s).endAt ∧
       ∀ k, k ≠ n → outCh k t = outCh k s) ∧
     (∀ q e, (outCh n s).pulse = some q → (outCh n s).endAt ≤ frcNow s →
       findEntry q.1 q.2.1 q.2.2 s = some e → e.stage = .started → e.replayed = false → ∃ t,
       exec (.pulseEnd n) s = .next t ∧ (outCh n t).pulse = none ∧
       (findEntry q.1 q.2.1 q.2.2 t).map (fun y => (y.stage, y.status, y.result)) =
         some (.finished, 0, some (BitVec.ofNat 32 (outCh n s).pulseInfo)) ∧
       (outMode (outCh n s) = 2 → (outCh n t).pinA = (pinRule (outCh n t) t == .safe && safeA (outCh n t)) ∧
         (outCh n t).pinB = (pinRule (outCh n t) t == .safe && safeB (outCh n t)))))

/-- Output channels: the set-up is kept, the enable starts with `P_INIT` and H 0, the disable stops; the inhibit latches
on a low level of 10 ns or more, with its event, and clears only while the pin reads high (R149, R169, R530, R537 to
R539). Binary inputs: set-up, enable with the pin's level as the state, disable; a transition opens or extends the
run of a filtered input; at the end of its window the state follows the pin with its event's OSN, or a glitch is
counted (R149, R524 to R528). -/
def Obligations.OutputCommandsAndBinaryInputs : Prop :=
  (∀ (c : Cmd) (s : State),
     let n := arg0 c.desc
     (ready (.outConfig c) c s → exec (.outConfig c) s = .next (complete c
       (setOut n { outCh n s with cfg := some (blockWords c.block 8) } s, stOk, none))) ∧
     (ready (.outEnable c) c s → (outCh n s).en = .off → ∃ u, exec (.outEnable c) s = .next (complete c (u, stOk, none)) ∧
       (outCh n u).en = .on ∧ (outCh n u).p = periodInit (outCh n s) ∧ (outCh n u).h = 0 ∧
       (outCh n u).stP = periodInit (outCh n s) ∧ (outCh n u).stH = 0 ∧ ∀ k, k ≠ n → outCh k u = outCh k s) ∧
     (ready (.outDisable c) c s → (outCh n s).en = .on → ∃ u,
       exec (.outDisable c) s = .next (complete c (u, stOk, none)) ∧ (outCh n u).en = .stopping ∧
       (outCh n u).pullIn = false ∧ ∀ k, k ≠ n → outCh k u = outCh k s) ∧
     (ready (.outInhClear c) c s →
       (s.out.pinLow = true → exec (.outInhClear c) s = .next (complete c
         (noteSet 0x1A00 0 { s with out := { s.out with inhRefused := true } }, stWrongState, none))) ∧
       (s.out.pinLow = false → ∃ u, exec (.outInhClear c) s = .next (complete c (u, stOk, none)) ∧ u.out.inh = false ∧
         (s.out.inh = false → u = s) ∧ (s.out.inh = true → arbHeld s = false → u.arb.osn = s.arb.osn + 1))) ∧
     (∀ ns, 10 ≤ ns → inhWaits s = false → s.out.inh = false → arbHeld s = false → ∃ t,
       exec (.outinhN false ns) s = .next t ∧ t.out.inh = true ∧ t.out.pinLow = true ∧ t.arb.osn = s.arb.osn + 1 ∧
       ∀ k x, look t.out.chans k = some x → coldPins s = false → x.pinA = safeA x ∧ x.pinB = safeB x) ∧
     (∀ ns, exec (.outinhN true ns) s = .next { s with out := { s.out with pinLow := false } })) ∧
  ((∀ (c : Cmd) (s : State),
     let n := arg0 c.desc
     (ready (.binConfig c) c s → exec (.binConfig c) s = .next (complete c
       (setBin n { binOf n s with cfg := some (blockWords c.block 8) } s, stOk, none))) ∧
     (ready (.binEnable c) c s → (binOf n s).en = .off → ∃ u, exec (.binEnable c) s = .next (complete c (u, stOk, none)) ∧
       (binOf n u).en = .on ∧ (binOf n u).state = ((binOf n s).level != binInvert (binOf n s)) ∧ (binOf n u).eseq = 0 ∧
       (∀ k, k ≠ n → binOf k u = binOf k s) ∧ u.rng = s.rng ∧ u.mem = s.mem) ∧
     (ready (.binDisable c) c s → (binOf n s).en = .on → exec (.binDisable c) s = .next (complete c
       (setBin n { binOf n s with en := .stopping, held := false } s, stOk, none)))) ∧
   (∀ (n at_ : Nat) (v : Bool) (s : State), n < 32 → (binOf n s).en = .on → 0 < filtWindow (binOf n s) →
     (binOf n s).runOpen = false →
     exec (.binTransition n v at_) s =
       .next (setBin n { binOf n s with level := v, lastAt := at_ / 8192 * 8192, runOpen := true }
         (setBin n { binOf n s with level := v } s))) ∧
   (∀ (n : Nat) (s : State), n < 32 → (binOf n s).en = .on → (binOf n s).runOpen = true →
     (binOf n s).lastAt + filtWindow (binOf n s) ≤ frcNow s → arbHeld s = false →
     let v := (binOf n s).level != binInvert (binOf n s)
     ∃ t, exec (.binFilterWindowEnd n) s = .next t ∧ (binOf n t).runOpen = false ∧ (binOf n t).state = v ∧
       (v = (binOf n s).state → lookD t.bin.cnt (n * 3 + 2) 0 = (lookD s.bin.cnt (n * 3 + 2) 0 + 1) % 2 ^ 64 ∧
         t.arb = s.arb ∧ (binOf n t).eseq = (binOf n s).eseq) ∧
       (v ≠ (binOf n s).state → (binOf n t).eseq = (binOf n s).eseq + 1 ∧ t.arb.osn = s.arb.osn + 1 ∧
         lookD t.bin.cnt (n * 3 + if v then 0 else 1) 0 =
           (lookD s.bin.cnt (n * 3 + if v then 0 else 1) 0 + 1) % 2 ^ 64) ∧
       ∀ k, k ≠ n → binOf k t = binOf k s))

/-! ### Streams, GOOSE and the filter chain (R331 to R389) -/

/-- The commands of streams and of the filter chain: a subscription takes the lowest free number and holds its block's
fields; an enable starts with the coming tick; a disable stops; a removal removes; a channel and a coefficient set
hold what their blocks say (R149, R333, R338, R347, R366, R368, R369). The commands of GOOSE subscriptions and
publications (R149, R349, R352, R356). -/
def Obligations.StreamAndGooseCommands : Prop :=
  (∀ (c : Cmd) (s : State),
     let n := arg0 c.desc
     let free := lowestFree s.sv.streams 0
     (ready (.svSubscribe c) c s → ∃ u, exec (.svSubscribe c) s = .next (complete c
         (u, stOk, some (BitVec.ofNat 32 free))) ∧
       look u.sv.streams free = some (streamAt c.block) ∧
       (∀ k, k ≠ free → look u.sv.streams k = look s.sv.streams k) ∧
       (∀ i, i < 14 → lookD u.sv.cnt (free * 14 + i) 0 = 0) ∧ u.gse = s.gse ∧ u.rng = s.rng ∧ u.mem = s.mem) ∧
     (ready (.svEnable c) c s → (strmOf n s).en = .off → ∃ u,
       exec (.svEnable c) s = .next (complete c (u, stOk, none)) ∧
       (strmOf n u).en = .on ∧ (strmOf n u).active = (strmOf n s).srcInit ∧ (strmOf n u).firstTick = comingTick s ∧
       (strmOf n u).ticks = [] ∧ (strmOf n u).dests = (strmOf n s).dests ∧
       (∀ k, k ≠ n → look u.sv.streams k = look s.sv.streams k) ∧ u.rng = s.rng ∧ u.mem = s.mem) ∧
     (ready (.svDisable c) c s → (strmOf n s).en = .on → exec (.svDisable c) s = .next (complete c
       (setStrm n { strmOf n s with en := .stopping, held := false } s, stOk, none))) ∧
     (ready (.svRemove c) c s → ∃ u, exec (.svRemove c) s = .next (complete c (u, stOk, none)) ∧
       look u.sv.streams n = none ∧ (∀ k, k ≠ n → look u.sv.streams k = look s.sv.streams k) ∧ u.gse = s.gse ∧
       (arbHeld s = false → u.arb.osn = s.arb.osn + (strmOf n s).dests.length)) ∧
     (ready (.fltChannel c) c s → ∃ u, exec (.fltChannel c) s = .next (complete c (u, stOk, none)) ∧
       chanOf n (arg1 c.desc) u = setupOf c.block (chanOf n (arg1 c.desc) s) ∧
       (∀ ch, ch ≠ arg1 c.desc → chanOf n ch u = chanOf n ch s) ∧
       (∀ k, k ≠ n → look u.sv.streams k = look s.sv.streams k) ∧ u.flt = s.flt) ∧
     (ready (.fltCoeff c) c s → exec (.fltCoeff c) s = .next (complete c
       ({ s with flt := { s.flt with coeff := put s.flt.coeff n (coeffsIn c) } }, stOk, none)))) ∧
  (∀ (c : Cmd) (s : State),
     let n := arg0 c.desc
     let free := lowestFree s.gse.subs 0
     (ready (.gooseSubscribe c) c s → exec (.gooseSubscribe c) s = .next (complete c
       (setSub free (subAt c.block) s, stOk, some (BitVec.ofNat 32 free)))) ∧
     (ready (.gooseUnsubscribe c) c s → ∃ u, exec (.gooseUnsubscribe c) s = .next (complete c (u, stOk, none)) ∧
       look u.gse.subs n = none ∧ (∀ k, k ≠ n → look u.gse.subs k = look s.gse.subs k) ∧ u.sv.streams = s.sv.streams ∧
       (arbHeld s = false → u.arb.osn = s.arb.osn + (subOf n s).dests.length)) ∧
     (ready (.goosePubSet c) c s → exec (.goosePubSet c) s = .next (complete c
       (setPub n { pubOf n s with cfg := some (blockWords c.block 58) } s, stOk, none))) ∧
     (ready (.goosePubEnable c) c s → (pubOf n s).en = .off → exec (.goosePubEnable c) s = .next (complete c
       (setPub n { pubOf n s with en := .on, held := false, published := false } s, stOk, none))) ∧
     (ready (.goosePubDisable c) c s → (pubOf n s).en = .on → ∃ u,
       exec (.goosePubDisable c) s = .next (complete c (u, stOk, none)) ∧
       pubOf n u = { pubOf n s with en := .stopping, held := false } ∧
       u.key.tags = s.key.tags.filter (fun t => t.pub != some n) ∧ u.sw = s.sw ∧
       ∀ k, k ≠ n → pubOf k u = pubOf k s))

/-- The oldest sampled-value frame of SE0 meets the checks of R332 in their order; an ASDU of the active source fills its
slot (R331, R332, R337). Ticks of a stream: at the deadline every slot of the first open tick is resolved; the filter
chain takes the slot at the head of its queue; a tick whose slots are all filtered closes and is delivered; loss, the
automatic switch and the re-phase (R338, R340, R341, R345, R363). -/
def Obligations.SampledValuesAndTicks : Prop :=
  (∀ (h : Held) (rest : List Held) (s : State), s.sw.se0 = h :: rest → bits h.info.flow.toNat 31 30 ≠ 2 →
     let flow := h.info.flow.toNat
     let n := flow % 4096
     let src := bits flow 12 12
     let x := strmOf n s
     let q := x.srcs.getD src {}
     let a := svOf h.frame
     let named_ : Prop := bits flow 31 30 = 1 ∧ bits flow 29 13 = 0 ∧ x.en = .on ∧ q.valid = true
     ∃ t, exec .svFrameRx s = .next t ∧ t.sw.se0 = rest ∧ t.gse = s.gse ∧ t.prt = s.prt ∧ t.rng = s.rng ∧
       (¬ named_ → t.sv.noSub = (s.sv.noSub + 1) % 2 ^ 64 ∧ t.sv.cnt = s.sv.cnt ∧ t.sv.streams = s.sv.streams) ∧
       (named_ → lookD t.sv.cnt (n * 14) 0 = (lookD s.sv.cnt (n * 14) 0 + 1) % 2 ^ 64 ∧ t.sv.noSub = s.sv.noSub) ∧
       (named_ → x.authReq = true → h.info.verdict ≠ 1 → t.sv.streams = s.sv.streams ∧
         lookD t.sv.cnt (n * 14 + 3) 0 = (lookD s.sv.cnt (n * 14 + 3) 0 + 1) % 2 ^ 64) ∧
       (named_ → (x.authReq = false ∨ h.info.verdict = 1) → a.sBit ≠ x.sim → t.sv.streams = s.sv.streams ∧
         lookD t.sv.cnt (n * 14 + 4) 0 = (lookD s.sv.cnt (n * 14 + 4) 0 + 1) % 2 ^ 64) ∧
       (named_ → (x.authReq = false ∨ h.info.verdict = 1) → a.sBit = x.sim → a.wellFormed = false →
         t.sv.streams = s.sv.streams ∧
         lookD t.sv.cnt (n * 14 + 5) 0 = (lookD s.sv.cnt (n * 14 + 5) 0 + 1) % 2 ^ 64) ∧
       (∀ d f tau, named_ → (x.authReq = false ∨ h.info.verdict = 1) → a.sBit = x.sim → a.wellFormed = true →
         a.asdus = [d] → d.smpCnt < rateHz x.rate → h.frame.appid = q.appid → x.noasdu = 1 → asduMatches x q d = true →
         h.info.ts = some f → nominalOf (rateHz x.rate) (lineAt s f) d.smpCnt = some tau →
         let k := tickAbs (baseRate s.cnp.rate) tau
         sourceIn x k = src → x.nextTick ≤ k →
         slotTaken k d.smpCnt (extendTicks (baseRate s.cnp.rate) k x).ticks = false →
         lookD t.sv.cnt (n * 14 + 1) 0 = (lookD s.sv.cnt (n * 14 + 1) 0 + 1) % 2 ^ 64 ∧
         ∀ tk ∈ (strmOf n t).ticks, tk.rephase = none → tk.k = k → ∀ z ∈ tk.slots, z.slot = d.smpCnt →
           z.present = true ∧ z.samples = d.samples ∧ z.arr = lineAt s f)) ∧
  ((∀ (n : Nat) (s : State), n < 4096 →
     (∀ tk ts, (strmOf n s).en ≠ .off → (strmOf n s).ticks = tk :: ts →
       tickAbsStart (baseRate s.cnp.rate) (tk.k + 1) + (strmOf n s).hold ≤ lineNow s → ∃ u,
       exec (.svTickDeadline n tk.k) s = .next u ∧ u.sw = s.sw ∧ u.rng = s.rng ∧ u.mem = s.mem ∧
       ((strmOf n u).ticks.head?.map fun z => z.slots.all fun q => q.passed) = some true) ∧
     (∀ tk ts, (strmOf n s).en ≠ .off → (strmOf n s).ticks = tk :: ts → tk.rephase = none →
       tk.k = (strmOf n s).nextTick → tickAbsStart (baseRate s.cnp.rate) tk.k ≤ lineNow s →
       (tk.slots.all fun q => q.filtered) = true → ∃ u,
       exec (.svTickClose n) s = .next u ∧ (strmOf n u).nextTick = tk.k + 1 ∧ (strmOf n u).lastClosed = some tk.k ∧
       (strmOf n u).loss = (if tk.slots.any (fun q => q.present) then 0 else (strmOf n s).loss + 1) ∧
       (strmOf n u).dests = destsAfter (strmOf n s).dests s ∧ u.rng = s.rng ∧ u.sw = s.sw ∧ u.prt = s.prt ∧
       ∀ k, k ≠ n → look u.sv.streams k = look s.sv.streams k) ∧
     ((strmOf n s).en ≠ .off → (strmOf n s).lost = false → (strmOf n s).lossN ≤ (strmOf n s).loss → arbHeld s = false →
       ∃ u, exec (.streamLost n) s = .next u ∧ (strmOf n u).lost = true ∧ u.sv.evt.getLsbD 2 = true ∧
       u.arb.osn = s.arb.osn + 1 ∧ ∀ k, k ≠ n → look u.sv.streams k = look s.sv.streams k) ∧
     (∀ k, (strmOf n s).en = .on → (strmOf n s).autoN ≠ 0 → (strmOf n s).autoN ≤ (strmOf n s).noAct →
       (strmOf n s).active < 2 → ((strmOf n s).srcs.getD (1 - (strmOf n s).active) {}).valid = true →
       (strmOf n s).lastClosed = some k → k ∈ (strmOf n s).stby → s.cnp.tickEnd ≤ lineNow s →
       sourceCommand n s = false → ∃ u, exec (.automaticSourceSwitch n) s = .next u ∧
       (strmOf n u).active = 1 - (strmOf n s).active ∧ (strmOf n u).switchTick = comingTick s ∧
       u.sv.evt.getLsbD 3 = true)) ∧
   (∀ (w : Work) (rest : List Work) (s : State), s.flt.work = w :: rest → ∃ u, exec .filterSlot s = .next u ∧
     u.flt.work = rest ∧ u.sw = s.sw ∧ u.rng = s.rng ∧ u.mem = s.mem ∧
     (∀ k, k ≠ w.stream → look u.sv.streams k = look s.sv.streams k) ∧
     ∀ tk, tickOfWork w (strmOf w.stream s) = some tk → ∀ z ∈ (strmOf w.stream u).ticks, z.k = tk.k →
       z.rephase = tk.rephase → ∀ q ∈ z.slots, q.slot = w.slot → q.filtered = true) ∧
   (∀ (s : State), s.sv.rephase = true → ∃ u, exec .rephase s = .next u ∧ u.sv.rephase = false ∧ u.flt.work = [] ∧
     u.sw = s.sw ∧ u.prt = s.prt ∧ u.tim = s.tim ∧ u.rng = s.rng))

/-- GOOSE messages: one that names no subscription is counted, the checks of R350 in their order, a newer stNum is
accepted and its expiry set; the expiry marks the last image stale; a publication sends again by its schedule
(R350, R351, R354). -/
def Obligations.GooseMessages : Prop :=
  (∀ (h : Held) (rest : List Held) (s : State), s.sw.se0 = h :: rest → bits h.info.flow.toNat 31 30 = 2 →
    let flow := h.info.flow.toNat
    let n := flow % 2048
    let x := subOf n s
    let g := gooseOf h.frame
    ∃ t, exec .gooseFrameRx s = .next t ∧ t.sw.se0 = rest ∧ t.sv.streams = s.sv.streams ∧ t.rng = s.rng ∧
      ((bits flow 29 11 ≠ 0 ∨ look s.gse.subs n = none) → t.sv.noSub = (s.sv.noSub + 1) % 2 ^ 64 ∧ t.gse = s.gse) ∧
      (bits flow 29 11 = 0 → look s.gse.subs n ≠ none →
        lookD t.gse.cnt (n * 11) 0 = (lookD s.gse.cnt (n * 11) 0 + 1) % 2 ^ 64 ∧
        (x.authReq = true → h.info.verdict ≠ 1 → t.gse.subs = s.gse.subs ∧
          lookD t.gse.cnt (n * 11 + 6) 0 = (lookD s.gse.cnt (n * 11 + 6) 0 + 1) % 2 ^ 64) ∧
        ((x.authReq = false ∨ h.info.verdict = 1) → g.sBit ≠ x.sim → t.gse.subs = s.gse.subs ∧
          lookD t.gse.cnt (n * 11 + 7) 0 = (lookD s.gse.cnt (n * 11 + 7) 0 + 1) % 2 ^ 64) ∧
        ((x.authReq = false ∨ h.info.verdict = 1) → g.sBit = x.sim → (g.wellFormed = false ∨ x.maxData < g.allData.length) →
          t.gse.subs = s.gse.subs ∧
          lookD t.gse.cnt (n * 11 + 8) 0 = (lookD s.gse.cnt (n * 11 + 8) 0 + 1) % 2 ^ 64) ∧
        ((x.authReq = false ∨ h.info.verdict = 1) → g.sBit = x.sim → g.wellFormed = true →
          g.allData.length ≤ x.maxData → h.frame.appid = x.appid → g.gocbRef = x.ref →
          (x.chkRev = false ∨ g.confRev = x.confRev) → (x.any = false ∨ 0 < (g.stNum - x.stNum).toInt) →
          (subOf n t).any = true ∧ (subOf n t).stNum = g.stNum ∧ (subOf n t).sqNum = g.sqNum ∧
          (subOf n t).stale = false ∧ (subOf n t).expiry = s.clk.frc + g.tal * 1000000 ∧
          lookD t.gse.cnt (n * 11 + 1) 0 = (lookD s.gse.cnt (n * 11 + 1) 0 + 1) % 2 ^ 64))) ∧
  (∀ (n : Nat) (s : State), n < 2048 → look s.gse.subs n ≠ none → (subOf n s).any = true → (subOf n s).stale = false →
    (subOf n s).expiry < s.clk.frc → ∃ t, exec (.talExpiry n) s = .next t ∧ (subOf n t).stale = true ∧
    (subOf n t).stNum = (subOf n s).stNum ∧ t.sv.evt.getLsbD 6 = true ∧
    lookD t.gse.cnt (n * 11 + 10) 0 = (lookD s.gse.cnt (n * 11 + 10) 0 + 1) % 2 ^ 64 ∧
    ∀ k, k ≠ n → look t.gse.subs k = look s.gse.subs k) ∧
  (∀ (n : Nat) (s : State), n < 1024 → (pubOf n s).en = .on → (pubOf n s).published = true →
    (pubOf n s).vals.nextAt ≤ s.clk.frc → gateOpen s = true → pubAuth (pubOf n s) = 0 → ∃ t,
    exec (.gooseRetransmission n) s = .next t ∧
    (pubOf n t).vals = { (pubOf n s).vals with
      sqNum := numNext (pubOf n s).vals.sqNum, step := (pubOf n s).vals.step + 1
      nextAt := (pubOf n s).vals.nextAt + pubGap (pubOf n s) ((pubOf n s).vals.step + 1) } ∧
    (lookD t.sw.store 48 []).length = (lookD s.sw.store 48 []).length + 1 ∧
    lookD t.gse.pubCnt (n * 3 + 2) 0 = (lookD s.gse.pubCnt (n * 3 + 2) 0 + 1) % 2 ^ 64 ∧
    ∀ k, k ≠ n → pubOf k t = pubOf k s)

/-! ### Time bases and precision time (R292 to R330) -/

/-- The commands of time bases: a set-up is kept; an enable starts at the FRC, UNACQUIRED, or at `INIT_TIME` and LOCKED
where the source is local; a disable stops at the next second; a re-arm authorises one step while REFUSED; the two pulse
set-ups (R149, R296, R299, R300, R306, R318, R319, R321). -/
def Obligations.TimeBaseCommands : Prop :=
  ∀ (c : Cmd) (s : State),
    let n := arg0 c.desc
    (ready (.tbConfig c) c s → exec (.tbConfig c) s = .next (complete c
      (setTb n { tbOf n s with cfg := some (blockWords c.block 16) } s, stOk, none))) ∧
    (ready (.tbEnable c) c s → (tbOf n s).en = .off → ∃ u, exec (.tbEnable c) s = .next (complete c (u, stOk, none)) ∧
      (tbOf n u).en = .on ∧ (tbOf n u).a = frcNow s ∧ (tbOf n u).rate = 0 ∧ (tbOf n u).f = 0 ∧
      (tbSource (tbOf n s) ≠ 0 → (tbOf n u).acq = .unacquired ∧ (tbOf n u).b = frcNow s) ∧
      (tbSource (tbOf n s) = 0 → (tbOf n u).acq = .locked ∧ (tbOf n u).b = tbInit (tbOf n s) * 65536 ∧
        (arbHeld s = false → u.arb.osn = s.arb.osn + 1)) ∧
      (∀ k, k ≠ n → tbOf k u = tbOf k s) ∧ u.rng = s.rng) ∧
    (ready (.tbDisable c) c s → (tbOf n s).en = .on → ∃ u, exec (.tbDisable c) s = .next (complete c (u, stOk, none)) ∧
      tbOf n u = { tbOf n s with
        en := .stopping, held := false, stopSec := tbNs (tbOf n s) (frcNow s) / 1000000000 } ∧
      (∀ k, k ≠ n → tbOf k u = tbOf k s) ∧ u.tim.cmps = s.tim.cmps) ∧
    (ready (.tbRearm c) c s →
      ((tbOf n s).acq ≠ .refused → exec (.tbRearm c) s = .next (complete c (s, stStepRefused, none))) ∧
      ((tbOf n s).acq = .refused → ∃ u, exec (.tbRearm c) s = .next (complete c (u, stOk, none)) ∧
        tbOf n u = { tbOf n s with armed := true } ∧
        lookD u.tim.cnt (n * 9 + 5) 0 = (lookD s.tim.cnt (n * 9 + 5) 0 + 1) % 2 ^ 64 ∧
        (arbHeld s = false → u.arb.osn = s.arb.osn + 1))) ∧
    (ready (.tbPps c) c s →
      (n = 0 → exec (.tbPps c) s = .next (complete c
        ({ s with tim := { s.tim with ppsIn :=
            { tb := arg1 c.desc, en := tbit (wordAt c.block 0) 0, flag := tbit (wordAt c.block 0) 1 } } }, stOk, none))) ∧
      (n = 1 →
        let p : Pps := { tb := arg1 c.desc, en := tbit (wordAt c.block 0) 0, flag := tbit (wordAt c.block 0) 2
                         width := wordAt c.block 1, phase := wordAt c.block 2 }
        ∃ u, exec (.tbPps c) s = .next (complete c (u, stOk, none)) ∧ u.tim.bases = s.tim.bases ∧
        ((tbOf (arg1 c.desc) s).en = .on → u.tim.ppsOut = s.tim.ppsOut ∧ u.tim.ppsNext = some p) ∧
        ((tbOf (arg1 c.desc) s).en ≠ .on → u.tim.ppsOut = p ∧ u.tim.ppsNext = none)))

/-- Announce, Sync, Follow_Up and Delay_Resp copies at the one time base that uses them; a first measurement steps the
time base and locks it (R299, R301, R302, R304). -/
def Obligations.TimeFollowsItsMaster : Prop :=
  ∀ (c : PtpCopy) (n : Nat) (s : State), c ∈ s.tim.inbox →
    let b := tbOf n s
    (c.msg.kind = .announce → ((users c s).filter fun k => ptpCfg (tbOf k s)) = [n] → c.msg.steps < 255 →
      ((List.range 4).any fun k => clockId k == c.msg.clock || clockId k == c.msg.gmId) = false → ∃ t,
      exec (.announceRx c) s = .next t ∧ t.tim.inbox = s.tim.inbox.erase c ∧
      (tbOf n t).foreign = noteForeign b c s.clk.frc ∧
      lookD t.tim.cnt (n * 9 + 2) 0 = (lookD s.tim.cnt (n * 9 + 2) 0 + 1) % 2 ^ 64 ∧
      (tbSource b = 1 → (tbOf n t).master =
        (bestMaster { b with foreign := noteForeign b c s.clk.frc } s.clk.frc).map masterName) ∧
      ∀ k, k ≠ n → tbOf k t = tbOf k s) ∧
    (c.msg.kind = .sync → ((users c s).filter fun k => fromMaster (tbOf k s) c) = [n] → b.syncWait = [] → ∃ t,
      exec (.syncRx c) s = .next t ∧ t.tim.inbox = s.tim.inbox.erase c ∧ (∀ k, k ≠ n → tbOf k t = tbOf k s) ∧
      (c.ts = none → tbOf n t = b ∧
        lookD t.tim.cnt (n * 9 + 1) 0 = (lookD s.tim.cnt (n * 9 + 1) 0 + 1) % 2 ^ 64) ∧
      (∀ ts, c.ts = some ts → c.msg.twoStep = true →
        tbOf n t = { b with syncWait := [(c, s.clk.frc)] } ∧ t.tim.cnt = s.tim.cnt) ∧
      (∀ ts d, c.ts = some ts → c.msg.twoStep = false → pathDelay b c.port s = some d →
        let theta : Int := (tbAt b ts : Int) - c.msg.origin * 65536 - c.msg.corr - d
        (tbOf n t).theta = theta ∧
        lookD t.tim.cnt (n * 9) 0 = (lookD s.tim.cnt (n * 9) 0 + 1) % 2 ^ 64 ∧
        (b.acq = .unacquired → (tbOf n t).acq = .locked ∧
          tbAt (tbOf n t) (frcNow s) = ((tbAt b (frcNow s) : Int) - theta).toNat))) ∧
    (∀ w d, c.msg.kind = .followUp → ((users c s).filter fun k => fromMaster (tbOf k s) c) = [n] →
      b.syncWait = [w] → w.1.msg.seq = c.msg.seq → s.clk.frc ≤ w.2 + logNs w.1.msg.logInt →
      pathDelay b c.port s = some d → ∃ t, exec (.followUpRx c) s = .next t ∧ t.tim.inbox = s.tim.inbox.erase c ∧
      (tbOf n t).theta =
        (tbAt b (w.1.ts.getD 0) : Int) - c.msg.origin * 65536 - (w.1.msg.corr + c.msg.corr) - d ∧
      (tbOf n t).syncWait = [] ∧ lookD t.tim.cnt (n * 9) 0 = (lookD s.tim.cnt (n * 9) 0 + 1) % 2 ^ 64) ∧
    (∀ q t3 m, c.msg.kind = .delayResp → ((users c s).filter fun k => fromMaster (tbOf k s) c) = [n] →
      b.e2e = some (q, some t3) → b.syncM = some m → c.msg.seq = q → c.msg.reqClock = clockId n →
      c.msg.reqPort = c.port + 1 →
      exec (.delayRespRx c) s = .next (setTb n { b with
          delays := last4 (b.delays ++ [roundDiv (m + ((c.msg.origin * 65536 : Nat) - t3 - c.msg.corr)) 2]), e2e := none }
        { s with tim := { s.tim with inbox := s.tim.inbox.erase c } }))

/-- Messages that the engine sends, and peer delay: requests, announcements and answers leave in queue 7 of their port
(R305, R308, R310). -/
def Obligations.TimeMessagesAndHoldover : Prop :=
  (∀ (n : Nat) (m : Nat × Nat × Nat) (s : State), n < 4 → (tbOf n s).master = some m → (tbOf n s).en ≠ .off →
    tbSource (tbOf n s) = 1 → tbP2p (tbOf n s) = false → (tbOf n s).nextDreq ≤ s.clk.frc → ∃ t,
    exec (.delayReqTx n) s = .next t ∧ (tbOf n t).e2e = some ((tbOf n s).seqNo, none) ∧
    (tbOf n t).seqNo = ((tbOf n s).seqNo + 1) % 65536 ∧
    s.clk.frc + logNs (tbLog (tbOf n s) 2) / 2 ≤ (tbOf n t).nextDreq ∧
    (tbOf n t).nextDreq ≤ s.clk.frc + logNs (tbLog (tbOf n s) 2) / 2 + logNs (tbLog (tbOf n s) 2) ∧
    lookD t.tim.tsCnt (m.2.2 * 7 + 3) 0 = (lookD s.tim.tsCnt (m.2.2 * 7 + 3) 0 + 1) % 2 ^ 64) ∧
  (∀ (n p : Nat) (s : State), n < 4 → p < 48 → gmActive (tbOf n s) = true → onPort (tbOf n s) p = true →
    portUp p s = true → quietNow (tbOf n s) p s = false → (lookD (tbOf n s).due p (0, 0)).1 ≤ s.clk.frc →
    (lookD (tbOf n s).due p (0, 0)).2 ≤ s.clk.frc → ∃ t, exec (.gmAnnounceSyncTx n p) s = .next t ∧
    look (tbOf n t).due p =
      some (s.clk.frc + logNs (tbLog (tbOf n s) 1), s.clk.frc + logNs (tbLog (tbOf n s) 0)) ∧
    (tbOf n t).seqNo = ((tbOf n s).seqNo + 2) % 65536 ∧
    lookD t.tim.tsCnt (p * 7 + 3) 0 = (lookD s.tim.tsCnt (p * 7 + 3) 0 + 2) % 2 ^ 64) ∧
  (∀ (c : PtpCopy) (n ts : Nat) (s : State), c ∈ s.tim.inbox → c.port < 48 → c.msg.kind = .delayReq → users c s = [n] →
    c.ts = some ts → gmActive (tbOf n s) = true → portUp c.port s = true → quietNow (tbOf n s) c.port s = false →
    (∀ f : Frame, f.len ≤ 128 → occQ (c.port * 8 + 7) s + cellsOf f ≤ (queueAt (c.port * 8 + 7) s).min) → ∃ t h m,
    exec (.delayReqRx c) s = .next t ∧ t.tim.inbox = s.tim.inbox.erase c ∧
    (queueAt (c.port * 8 + 7) t).frames = (queueAt (c.port * 8 + 7) s).frames ++ [h] ∧
    (h.frame.body = .ptp m ∨ h.frame.body = .udp4 320 0 (some m)) ∧ m.kind = .delayResp ∧ m.seq = c.msg.seq ∧
    m.origin = tbNs (tbOf n s) ts ∧ m.corr = c.msg.corr ∧ m.reqClock = c.msg.clock ∧ m.reqPort = c.msg.portNum) ∧
  (∀ (p : Nat) (s : State), p < 48 → s.tim.pdly.getLsbD 0 = true → portUp p s = true →
    (portOf p s).pdelayAt ≤ s.clk.frc → ∃ t, exec (.pdelayReqTx p) s = .next t ∧
    (portOf p t).pdelay = some ((portOf p s).pdelaySeq, none) ∧
    (portOf p t).pdelaySeq = ((portOf p s).pdelaySeq + 1) % 65536 ∧
    (portOf p t).pdelayAt = s.clk.frc + logNs (pdlyLog s) ∧
    lookD t.tim.tsCnt (p * 7 + 6) 0 = (if (portOf p s).pdelay.isSome
      then (lookD s.tim.tsCnt (p * 7 + 6) 0 + 1) % 2 ^ 64 else lookD s.tim.tsCnt (p * 7 + 6) 0)) ∧
  (∀ (c : PtpCopy) (ts : Nat) (s : State), c ∈ s.tim.inbox → c.port < 48 → c.msg.kind = .pdelayReq → c.ts = some ts →
    s.tim.pdly.getLsbD 1 = true → portUp c.port s = true →
    (∀ f : Frame, f.len ≤ 128 → occQ (c.port * 8 + 7) s + cellsOf f ≤ (queueAt (c.port * 8 + 7) s).min) → ∃ t h m,
    exec (.pdelayReqRx c) s = .next t ∧ t.tim.inbox = s.tim.inbox.erase c ∧
    lookD t.tim.tsCnt (c.port * 7 + 5) 0 = (lookD s.tim.tsCnt (c.port * 7 + 5) 0 + 1) % 2 ^ 64 ∧
    (queueAt (c.port * 8 + 7) t).frames = (queueAt (c.port * 8 + 7) s).frames ++ [h] ∧ h.frame.body = .ptp m ∧
    m.kind = .pdelayResp ∧ m.seq = c.msg.seq ∧ m.domain = c.msg.domain ∧ m.reqPort = c.msg.portNum ∧
    h.info.ts = some ts) ∧
  (∀ (c : PtpCopy) (q t1 t4 : Nat) (s : State), c ∈ s.tim.inbox → c.msg.kind = .pdelayResp →
    (portOf c.port s).pdelay = some (q, some t1) → s.clk.frc < (portOf c.port s).pdelayAt → c.ts = some t4 → c.msg.seq = q → c.msg.reqClock = clockId 0 →
    c.msg.reqPort = c.port + 1 →
    exec (.pdelayRespRx c) s = .next (eachTb noteVals (List.range 4) (setPort c.port { portOf c.port s with
        delays := last4 ((portOf c.port s).delays ++ [roundDiv ((t4 : Int) - t1 - c.msg.corr) 2]), pdelay := none }
      { s with tim := { s.tim with inbox := s.tim.inbox.erase c } }))) ∧
  (∀ (n : Nat) (s : State), n < 4 → (tbOf n s).en ≠ .off → (tbOf n s).cfg ≠ none → sourceLost (tbOf n s) s = true →
    (tbOf n s).acq = .locked → (bestMaster (tbOf n s) s.clk.frc = none ∨ masterStale (tbOf n s) s = false) →
    arbHeld s = false → ∃ t, exec (.sourceLoss n) s = .next t ∧ (tbOf n t).acq = .holdover ∧
    (tbOf n t).holdAt = s.clk.frc ∧ (tbOf n t).rate = (tbOf n s).rate ∧ t.tim.evt.getLsbD 3 = true ∧
    s.arb.osn < t.arb.osn ∧ ∀ k, k ≠ n → tbOf k t = tbOf k s) ∧
  (∀ (n : Nat) (f : Foreign) (s : State), n < 4 → (tbOf n s).en ≠ .off → (tbOf n s).cfg ≠ none →
    masterStale (tbOf n s) s = true → bestMaster (tbOf n s) s.clk.frc = some f → ∃ t, exec (.sourceLoss n) s = .next t ∧
    (tbOf n t).master = some (masterName f) ∧
    (((tbOf n s).master.any fun m => sameMaster m (masterName f)) = false → t.tim.evt.getLsbD 4 = true ∧
      lookD t.tim.cnt (n * 9 + 3) 0 = (lookD s.tim.cnt (n * 9 + 3) 0 + 1) % 2 ^ 64) ∧
    (((tbOf n s).master.any fun m => sameMaster m (masterName f)) = true →
      lookD t.tim.cnt (n * 9 + 3) 0 = lookD s.tim.cnt (n * 9 + 3) 0))

/-- A compare fires once at its target; an edge of PPS_IN is accepted or counted as early; PPS_OUT falls (R315, R318,
R319, R395, R443). -/
def Obligations.ComparesAndPulses : Prop :=
  (∀ (c : Cmp) (s : State), (s.tim.cmps.find? fun x => x.id == c.id) = some c → cmpDiff c s ≤ fireLead c → ∃ t,
    exec (.compareFire c.id) s = .next t ∧
    (∀ r e, c.use = .trigger r e → t.tim.cmps = s.tim.cmps.filter (fun x => x.id != c.id) ∧
      t.acq.changes = s.acq.changes ++
        [{ type := 4, src := 0, level := true, time := fullTarget c s, recs := some (r, e) }]) ∧
    (∀ k, c.use = .rollover k → (slotOf k s).st = .rollPending →
      (slotOf k t).st = .rollOverlap ∧ (slotOf k t).overlapEnd =
        s.clk.frc + (slotOf (slotOf k s).succ s).overlap * 10000000 ∧
      (arbHeld s = false → t.arb.osn = s.arb.osn + 1)) ∧
    (c.use = .ppsOut → ppsFree s = true → t.tim.ppsHigh = true ∧ t.tim.ppsFall = s.clk.frc + s.tim.ppsOut.width) ∧
    (∀ p, c.use = .ppsSet → s.tim.ppsNext = some p → t.tim.ppsOut = p ∧ t.tim.ppsNext = none)) ∧
  (∀ (f : Nat) (s : State), s.tim.ppsIn.en = true → ∃ t, exec (.ppsInEdge f) s = .next t ∧
    (ppsEarly (tdcTime f) s = true → t.tim.ppsLast = s.tim.ppsLast ∧ t.tim.evt.getLsbD 7 = true ∧ t.tim.bases = s.tim.bases ∧
      lookD t.tim.cnt (s.tim.ppsIn.tb * 9 + 7) 0 = (lookD s.tim.cnt (s.tim.ppsIn.tb * 9 + 7) 0 + 1) % 2 ^ 64) ∧
    (ppsEarly (tdcTime f) s = false → t.tim.ppsLast = some (tdcTime f) ∧ ∀ k,
      ((List.range 4).filter fun j => (tbOf j s).en != .off && tbSource (tbOf j s) == 2) = [k] →
      (tbOf k s).acq = .unacquired → (tbOf k t).acq = .locked ∧
      tbAt (tbOf k t) (frcNow s) =
        ((tbAt (tbOf k s) (frcNow s) : Int) + ((tbInit (tbOf k s) * 65536 : Nat) - (tbAt (tbOf k s) (tdcTime f) : Int))).toNat)) ∧
  (∀ (s : State), s.tim.ppsHigh = true → s.tim.ppsFall ≤ s.clk.frc →
    exec .ppsOutFall s = .next { s with tim := { s.tim with ppsHigh := false } })

/-! ### The key store (R423 to R450) -/

/-- KEY_LOAD ends with the first case of R430 that fails, or with BAD_ARG where the unwrapping fails, or with its slot
VALID, its check made and its bank cleared; KEY_INVALIDATE of a Branch orphans its Leaves, and of a Leaf invalidates it;
KEY_QUERY reads; KEY_ROLLOVER arms a compare for a pending old slot (R425 to R434, R443). The sweeper makes a slot whose
check fails BAD and counts laps; at the end of its overlap an old slot is ROLLED and its key is gone (R427, R443,
R446). -/
def Obligations.KeysSweepAndOverlap : Prop :=
  (∀ (c : Cmd) (s : State), ready (.keyLoad c) c s →
    let lvl := arg1 c.desc % 4
    let parent := bits (arg1 c.desc) 18 8
    let v := if lvl = 2 then testSlot parent s else s
    checks (keyCases c.block lvl parent v) ≠ stOk →
    exec (.keyLoad c) s = .next (complete c (v, checks (keyCases c.block lvl parent v), none))) ∧
  (∀ (c : Cmd) (s : State), ready (.keyLoad c) c s →
    let lvl := arg1 c.desc % 4
    let parent := bits (arg1 c.desc) 18 8
    let v := if lvl = 2 then testSlot parent s else s
    checks (keyCases c.block lvl parent v) = stOk →
    unwrapKw (wrapKey lvl parent c.block v) ((c.block.drop 16).take 40) = none →
    exec (.keyLoad c) s =
      .next (complete c ({ v with key := { v.key with store := bump v.key.store 3 } }, stBadArg, none))) ∧
  (∀ (c : Cmd) (key : Bytes) (s : State), ready (.keyLoad c) c s →
    let k := arg0 c.desc
    let lvl := arg1 c.desc % 4
    let parent := bits (arg1 c.desc) 18 8
    let v := if lvl = 2 then testSlot parent s else s
    checks (keyCases c.block lvl parent v) = stOk →
    unwrapKw (wrapKey lvl parent c.block v) ((c.block.drop 16).take 40) = some key → ∃ u,
    exec (.keyLoad c) s = .next (complete c (u, stOk, none)) ∧
    slotOf k u = loadedSlot lvl parent c.block key v ∧ (slotOf k u).st = .valid ∧ (slotOf k u).key = key ∧
    checkHolds u.mram.root (slotOf k u) = true ∧ (∀ i, i < 7 → lookD u.key.cnt (k * 7 + i) 0 = 0) ∧
    u.rng = v.rng ∧ u.prt = v.prt ∧ u.sw = v.sw ∧ u.gft = v.gft) ∧
  (∀ (c : Cmd) (s : State), ready (.keyInvalidate c) c s → checkHolds s.mram.root (slotOf (arg0 c.desc) s) = true →
    usable (slotOf (arg0 c.desc) s) = false →
    exec (.keyInvalidate c) s = .next (complete c (s, notUsableStatus (slotOf (arg0 c.desc) s), none))) ∧
  (∀ (c : Cmd) (s : State), ready (.keyInvalidate c) c s → keysRise s.key.slots →
    checkHolds s.mram.root (slotOf (arg0 c.desc) s) = true → usable (slotOf (arg0 c.desc) s) = true →
    let k := arg0 c.desc
    let n := if (slotOf k s).level = 1 then (leavesOf k s).length else 0
    ∃ u, exec (.keyInvalidate c) s = .next (complete c (u, stOk, some (BitVec.ofNat 32 n))) ∧
    (slotOf k u).st = .invalidated ∧ ((slotOf k s).level = 1 → ∀ j ∈ leavesOf k s, (slotOf j u).st = .orphaned)) ∧
  (∀ (c : Cmd) (s : State), ready (.keyQuery c) c s → checkHolds s.mram.root (slotOf (arg0 c.desc) s) = true →
    exec (.keyQuery c) s = .next (complete c (s, stOk, some (BitVec.ofNat 32 (keyWord (slotOf (arg0 c.desc) s)))))) ∧
  (∀ (c : Cmd) (s : State), ready (.keyRollover c) c s →
    checkHolds s.mram.root (slotOf (arg0 c.desc) s) = true →
    checkHolds s.mram.root (slotOf (arg1 c.desc % 2048) s) = true → (slotOf (arg0 c.desc) s).st ≠ .valid →
    exec (.keyRollover c) s = .next (complete c (s, notUsableStatus (slotOf (arg0 c.desc) s), none))) ∧
  (∀ (c : Cmd) (s : State), ready (.keyRollover c) c s →
    let k := arg0 c.desc
    let n := arg1 c.desc % 2048
    checkHolds s.mram.root (slotOf k s) = true → checkHolds s.mram.root (slotOf n s) = true →
    (slotOf k s).st = .valid → (slotOf n s).st = .valid → (slotOf k s).level = 2 → (slotOf n s).level = 2 →
    (slotOf k s).alg = (slotOf n s).alg → (slotOf k s).usage = (slotOf n s).usage →
    (slotOf k s).owner = (slotOf n s).owner → (slotOf k s).part = (slotOf n s).part →
    (tbOf (bits (arg1 c.desc) 31 30) s).en = .on → ∃ u,
    exec (.keyRollover c) s = .next (complete c (u, stOk, none)) ∧
    slotOf k u = { slotOf k s with st := .rollPending, succ := n } ∧
    u.tim.cmps = s.tim.cmps ++ [{ id := s.tim.cmpNext, tb := bits (arg1 c.desc) 31 30
                                  target := leAt c.block 0 8 % 2 ^ 48, use := .rollover k }] ∧
    ∀ j, j ≠ k → slotOf j u = slotOf j s) ∧
  (∀ (k : Nat) (s : State), k < 2048 → coldHeld s = true → exec (.keySweep k) s = .next s) ∧
  (∀ (k : Nat) (s : State), k < 2048 → coldHeld s = false → ∃ t, exec (.keySweep k) s = .next t ∧
    lookD t.key.store 2 0 = (if k = 2047 then (lookD s.key.store 2 0 + 1) % 2 ^ 64 else lookD s.key.store 2 0) ∧
    (if checkHolds s.mram.root (slotOf k s) then t.key.slots = s.key.slots ∧ t.arb = s.arb
     else (slotOf k t).st = .bad ∧ lookD t.key.store 1 0 = (lookD s.key.store 1 0 + 1) % 2 ^ 64 ∧
       t.key.evt.getLsbD 0 = true)) ∧
  (∀ (k : Nat) (s : State), k < 2048 → (slotOf k s).st = .rollOverlap → (slotOf k s).overlapEnd ≤ s.clk.frc →
    arbHeld s = false → ∃ t, exec (.overlapEnd k) s = .next t ∧ (slotOf k t).st = .rolled ∧ (slotOf k t).key = [] ∧
    (slotOf k t).succ = resolveSlot (slotOf k s).succ s ∧ t.key.evt.getLsbD 2 = true ∧ t.arb.osn = s.arb.osn + 1 ∧
    ∀ j, j ≠ k → (slotOf j s).st ≠ .rolled → slotOf j t = slotOf j s)

/-! ### Acquisition (R390 to R422) -/

/-- A recorder takes its set-up with record number 1, arms with an empty history, disarms, triggers into a record, and
frees the space of a released one (R392, R393, R396, R401, R414). The rows of the acquisition engine: the oldest
change is processed, a GOOSE frame of SE1 with a new stNum is noted or counted as unmatched, a row forms, and a
closing record is stored (R395 to R397, R403, R407). -/
def Obligations.Recorders : Prop :=
  (∀ (c : Cmd) (s : State),
     let n := arg0 c.desc
     (ready (.acqConfig c) c s → ∃ u, exec (.acqConfig c) s = .next (complete c (u, stOk, none)) ∧
       (recOf n u).trigs = (recordAt c.block).trigs ∧ (recOf n u).chans = (recordAt c.block).chans ∧
       (recOf n u).nextNum = 1 ∧ (recOf n u).stored = [] ∧ (recOf n u).en = .off ∧
       (recOf n u).freeB = wordAt c.block 2 * 2 ^ 20 ∧ (∀ k, k ≠ n → recOf k u = recOf k s)) ∧
     (ready (.acqArm c) c s → (recOf n s).en = .off → ∃ u, exec (.acqArm c) s = .next (complete c (u, stOk, none)) ∧
       (recOf n u).en = .on ∧ (recOf n u).cap = .waiting ∧ (recOf n u).hist = [] ∧ (recOf n u).cur = none ∧
       (recOf n u).stored = (recOf n s).stored ∧ (∀ k, k ≠ n → recOf k u = recOf k s) ∧ u.rng = s.rng) ∧
     (ready (.acqDisarm c) c s → (recOf n s).en = .on →
       ((recOf n s).cap = .waiting → (recOf n s).held = false → ∃ u,
         exec (.acqDisarm c) s = .next (complete c (u, stOk, none)) ∧ (recOf n u).en = .off ∧
         (arbHeld s = false → u.arb.osn = s.arb.osn + 1)) ∧
       ((recOf n s).cap ≠ .waiting → ∃ u, exec (.acqDisarm c) s = .next (complete c (u, stOk, none)) ∧
         (recOf n u).en = .stopping ∧ (recOf n u).cap = (recOf n s).cap ∧ (recOf n u).cur = (recOf n s).cur ∧
         (recOf n u).blindSince = none ∧ (∀ k, k ≠ n → recOf k u = recOf k s) ∧ u.arb = s.arb)) ∧
     (ready (.acqTrigger c) c s → (recOf n s).cap = .waiting → needBytes (recOf n s) ≤ (recOf n s).freeB →
       (recOf n s).hist = [] → arbHeld s = false → ∃ u r,
       exec (.acqTrigger c) s = .next (complete c (u, stOk, some (BitVec.ofNat 32 (recOf n s).nextNum))) ∧
       (recOf n u).cap = .capturing ∧ (recOf n u).cur = some r ∧ r.num = (recOf n s).nextNum ∧ r.trigType = 5 ∧
       r.openOsn = s.arb.osn + 1 ∧ (recOf n u).nextNum = ((recOf n s).nextNum + 1) % 2 ^ 32) ∧
     (ready (.acqRelease c) c s → ∀ r, storedRec n (arg1 c.desc) s = some r → ∃ u,
       exec (.acqRelease c) s = .next (complete c (u, stOk, none)) ∧
       (isIdle r = true → (recOf n u).stored = (recOf n s).stored.erase r ∧
         (recOf n u).freeB = (recOf n s).freeB + recSize r) ∧
       (isIdle r = false → storedRec n (arg1 c.desc) u = none ∧ (recOf n u).freeB = (recOf n s).freeB))) ∧
  ((∀ (ch : Change) (rest : List Change) (n e : Nat) (t : Trig) (s : State), s.acq.changes = ch :: rest →
     ch.recs = some (n, e) → (recOf n s).trigs[e]? = some t → t.type = 4 → t.fired = false → t.cancelled = false →
     (recOf n s).en = .on → (recOf n s).cap = .waiting → needBytes (recOf n s) ≤ (recOf n s).freeB →
     (recOf n s).hist = [] → ∃ u r, exec .triggerLevelChange s = .next u ∧ u.acq.changes = rest ∧
     (recOf n u).cap = .capturing ∧ (recOf n u).cur = some r ∧ r.trigTime = ch.time ∧ r.trigEntry = e) ∧
   (∀ (h : Held) (rest : List Held) (s : State), s.sw.se1 = h :: rest → ∃ u, exec .se1GooseRx s = .next u ∧
     u.sw.se1 = rest ∧ u.prt = s.prt ∧
     ((bits h.info.flow.toNat 31 16 ≠ 0xC000 ∨ ∀ g, h.frame.body = .goose g → g.wellFormed = false) →
       u.acq = { s.acq with noMatch := (s.acq.noMatch + 1) % 2 ^ 64 }) ∧
     (∀ g, h.frame.body = .goose g → g.wellFormed = true → bits h.info.flow.toNat 31 16 = 0xC000 →
       let tag := h.info.flow.toNat % 65536
       let hit := s.acq.recs.any fun e => e.2.trigs.any (hasTag tag)
       look u.acq.stnums tag = some g.stNum.toNat ∧ u.acq.recs = s.acq.recs ∧
       (hit = false → u.acq.noMatch = (s.acq.noMatch + 1) % 2 ^ 64 ∧ u.acq.changes = s.acq.changes) ∧
       (hit = true → look s.acq.stnums tag = some g.stNum.toNat → u.acq = s.acq) ∧
       (hit = true → look s.acq.stnums tag ≠ some g.stNum.toNat → u.acq.noMatch = s.acq.noMatch ∧
         ∃ ch, u.acq.changes = s.acq.changes ++ [ch] ∧ ch.goose = some (tag, h.info.verdict, g.allData)))) ∧
   (∀ (n : Nat) (s : State), n < 16 → (recOf n s).en ≠ .off → rowReady (recOf n s) s = true → (recOf n s).cur = none →
     ∃ u, exec (.rowForm n) s = .next u ∧ (recOf n u).nextRow = (recOf n s).nextRow + 1 ∧
     (recOf n u).hist = lastN (histLen (recOf n s)) ((recOf n s).hist ++ [nextRowOf (recOf n s) s]) ∧
     (∀ k, k ≠ n → recOf k u = recOf k s) ∧ u.rng = s.rng ∧ u.mem = s.mem) ∧
   (∀ (n : Nat) (r : Record) (s : State), n < 16 → (recOf n s).cur = some r → recDone (recOf n s) r s = true →
     (recOf n s).en = .on → ∃ u, exec (.recordStored n) s = .next u ∧ (recOf n u).cap = .waiting ∧
     (recOf n u).cur = none ∧ (recOf n u).lastStored = r.num ∧ (recOf n u).lastOsn = nextOsn s ∧
     (recOf n u).stored = (recOf n s).stored ++ [{ num := r.num, data := exportForm n (recOf n s) r (nextOsn s) s }] ∧
     lookD u.acq.cnt (n * 9) 0 = (lookD s.acq.cnt (n * 9) 0 + 1) % 2 ^ 64))

/-! ### The logbook, integrity and observation (R494 to R522, R546 to R552) -/

/-- LOG_READ and LOG_NOTE, and what fills and empties the logbook: acceptance, the two flush rows and the operating
second (R505, R506, R509 to R511, R515). -/
def Obligations.LogbookKeepsRecords : Prop :=
  (∀ (c : Cmd) (s : State),
    (ready (.logRead c) c s →
      let rs := readRecords (firstNum (arg0 c.desc) s) (arg1 c.desc) s
      answersBlock (.logRead c) c (rs.flatMap recBytes) (some (BitVec.ofNat 32 rs.length)) s s) ∧
    (ready (.logNote c) c s → s.log.reqs = [] → s.log.lostSince = 0 → s.log.unfl + 3 ≤ Config.logBufMax → ∃ u,
      exec (.logNote c) s = .next (complete c (u, stOk, some (BitVec.ofNat 32 (numAfter s.log.newest)))) ∧
      u.log.newest = numAfter (numAfter (numAfter s.log.newest)) ∧ u.log.unfl = s.log.unfl + 3 ∧
      (lastN 3 u.log.buf).map (fun r => (r.code, r.index, r.osn)) =
        [(0x0937, 0, nextOsn s), (0x0937, 1, nextOsn s), (0x0937, 2, nextOsn s)])) ∧
  (∀ (src : Nat) (r : LogRec) (s : State), src < 16 → (s.log.reqs.find? fun x => x.src == src) = some r →
    (logGrant s).1 = [src] → ∃ u, exec (.logbookRecord src) s = .next u ∧
    (s.log.unfl < Config.logBufMax → s.log.lostSince = 0 → u.log.reqs = s.log.reqs.erase r ∧
      u.log.newest = numAfter s.log.newest ∧
      u.log.unfl = s.log.unfl + 1 ∧ u.log.lost = s.log.lost ∧
      u.log.buf = lastN Config.logBufMax (s.log.buf ++ [stampRec r s]) ∧
      u.log.flushing = (s.log.flushing || decide (2 ≤ r.sev) || decide (2048 ≤ s.log.unfl + 1))) ∧
    (Config.logBufMax ≤ s.log.unfl → u.log.reqs = s.log.reqs.erase r ∧ u.log.lost = min (s.log.lost + 1) 65535 ∧
      u.log.buf = s.log.buf ∧ u.log.newest = s.log.newest)) ∧
  (∀ (s : State), s.pow.vaux = true →
    (s.log.unfl ≠ 0 → s.log.oldestAt + 10000000000 ≤ s.clk.now →
      exec .flushTimer s = .next { s with log := { s.log with flushing := true } }) ∧
    (s.log.flushing = true → s.log.unfl ≠ 0 → ∃ u, exec .flushComplete s = .next u ∧ u.log.unfl = 0 ∧ u.log.flushing = false ∧
      u.log.flushed = s.log.newest ∧ u.mram.newest = s.log.newest ∧
      u.log.mram = lastN Config.logRingMax (s.log.mram ++ lastN s.log.unfl s.log.buf) ∧
      max u.mram.c0.gen u.mram.c1.gen = max s.mram.c0.gen s.mram.c1.gen + 1) ∧
    (∃ u, exec .operatingSecond s = .next u ∧ u.mram.opsec = (s.mram.opsec + 1) % 2 ^ 32 ∧
      u.mram.fails = s.mram.fails ∧ u.log = s.log ∧
      (((s.mram.opsec + 1) % 2 ^ 32) % 60 ≠ 0 → u.mram.c0 = s.mram.c0 ∧ u.mram.c1 = s.mram.c1)))

/-- Memory errors: a correctable one fills its bucket, which overflows at its threshold; an uncorrectable one is counted
and latched, and one of the key store makes its slot BAD; laps, leaks, and the two commands (R494, R496, R499 to
R502). -/
def Obligations.MemoryIntegrity : Prop :=
  (∀ (m : Nat) (loc : BitVec 64) (s : State), m < 16 →
    let x := eccOf m s
    let l := loc &&& 0x7FFFFFFFFFFFFFFF
    noReader m l s = false →
    (∃ u, exec (.correctableError m loc) s = .next u ∧ (eccOf m u).ce = (x.ce + 1) % 2 ^ 64 ∧ (eccOf m u).last = l ∧
      (eccOf m u).ue = x.ue ∧ (eccOf m u).thresh = x.thresh ∧
      (x.level + 1 < x.thresh → (eccOf m u).level = x.level + 1 ∧ (eccOf m u).ovf = x.ovf) ∧
      (x.thresh ≤ x.level + 1 → (eccOf m u).level = 0 ∧ (eccOf m u).ovf = min (x.ovf + 1) (2 ^ 32 - 1) ∧
        u.ecc.evt.getLsbD m = true) ∧
      (∀ k, k ≠ m → eccOf k u = eccOf k s)) ∧
    (∃ u, exec (.uncorrectableError m loc) s = .next u ∧ (eccOf m u).ue = (x.ue + 1) % 2 ^ 64 ∧
      (eccOf m u).last = l ||| 0x8000000000000000 ∧ u.ecc.evt.getLsbD (16 + m) = true ∧
      (m = 7 → (slotOf (bits loc.toNat 10 0) u).st = .bad))) ∧
  (∀ (m : Nat) (s : State), m < 16 →
    (∀ ms, lapEnds m ms s = true → ∃ u, exec (.scrubLapEnd m ms) s = .next u ∧
      (eccOf m u).lapMs = min ms (2 ^ 31 - 1) ∧ (eccOf m u).late = false ∧ (eccOf m u).lap = (eccOf m s).lap + 1 ∧
      (eccOf m u).lapAt = some s.clk.now ∧ (eccOf m u).ce = (eccOf m s).ce ∧ (∀ k, k ≠ m → eccOf k u = eccOf k s)) ∧
    (∀ ms, lapEnds m ms s = false → exec (.scrubLapEnd m ms) s = .next s) ∧
    (scrubStopped m s = false → lapOver m s = true → (eccOf m s).late = false → arbHeld s = false → ∃ u,
      exec (.scrubLapLate m) s = .next u ∧ (eccOf m u).late = true ∧ u.arb.osn = s.arb.osn + 1) ∧
    ((scrubStopped m s = true ∨ lapOver m s = false) → exec (.scrubLapLate m) s = .next s)) ∧
  (∀ (s : State),
    (leakDue s = true → ∃ u, exec .bucketLeak s = .next u ∧ u.ecc.leakAt = s.mram.opsec ∧
      ∀ m, eccOf m u = { eccOf m s with level := (eccOf m s).level - 1 }) ∧
    (leakDue s = false → exec .bucketLeak s = .next s)) ∧
  (∀ (c : Cmd) (s : State),
    (ready (.eccBucket c) c s → exec (.eccBucket c) s = .next (complete c
      (setEcc (arg0 c.desc) { eccOf (arg0 c.desc) s with thresh := arg1 c.desc } s, stOk, none))) ∧
    (ready (.eccQuery c) c s → answersBlock (.eccQuery c) c (eccBytes (eccOf (arg0 c.desc) s)) none s s))

/-- Observation: the trace set-up, snapshots of a counter bank, the sensor list, identity, and the rows of the trace port
and the sensor bus (R170, R171, R548 to R552). -/
def Obligations.ObservationTakesEffect : Prop :=
  (∀ (c : Cmd) (s : State),
    (ready (.obsTrace c) c s → ∃ u, exec (.obsTrace c) s = .next (complete c (u, stOk, none)) ∧
      u.obs.lanes = wordAt c.block 0 ∧ u.obs.types = wordAt c.block 1 ∧ u.obs.sources = wordAt c.block 2 ∧
      u.obs.part = wordAt c.block 3 % 256 ∧ u.obs.partEn = tbit (wordAt c.block 3) 8 ∧ u.obs.queues = s.obs.queues ∧
      { u with obs := s.obs } = s) ∧
    (ready (.obsSnapshot c) c s → ∀ l, argBank c s = some l →
      answersBlock (.obsSnapshot c) c (snapBlock l s) (some (BitVec.ofNat 32 (16 + 8 * l.length))) s s) ∧
    (ready (.snsConfig c) c s → ∃ u, exec (.snsConfig c) s = .next (complete c (u, stOk, none)) ∧
      (∀ i, i < 16 → look u.hw.polls i =
        if (pollAt c.block i).addr = 0 then none else some (pollAt c.block i)) ∧ { u with hw := s.hw } = s) ∧
    (ready (.snsRead c) c s → answersBlock (.snsRead c) c ((List.range 16).flatMap (pollBytes s))
      (some (BitVec.ofNat 32 (s.hw.polls.filter fun e => e.2.acked).length)) s { s with free := s.free + 32 }) ∧
    (ready (.obsIdent c) c s → answersBlock (.obsIdent c) c (identBytes s) none s s)) ∧
  (∀ (v : Word) (s : State),
    (v.toNat / 65536 = 65535 → s.rst.pcieAt ≠ none → exec (.obsStatClear v) s = .next { s with obs := { s.obs with dropped := 0 } }) ∧
    (v.toNat / 65536 ≠ 65535 → exec (.obsStatClear v) s = .next s)) ∧
  (∀ (n : Nat) (a : Bool) (v : BitVec 16) (p : Poll) (s : State), n < 16 → look s.hw.polls n = some p →
    s.rst.phase = .started → pollDue p s = true → ∃ u x, exec (.sensorPoll n a v) s = .next u ∧
    look u.hw.polls n = some { p with value := x, acked := a, readAt := some s.clk.now } ∧
    (a = true → x = if p.len = 1 then v &&& 0xFF else v) ∧ (a = false → p.readAt ≠ none → x = p.value) ∧
    (∀ k, k ≠ n → look u.hw.polls k = look s.hw.polls k) ∧ { u with hw := s.hw, free := s.free } = s) ∧
  (∀ (r : TrRec) (rs : List TrRec) (s : State), s.obs.ready = r :: rs → ∃ u, exec .traceRecord s = .next u ∧
    u.obs.ready = rs ∧ { u with obs := s.obs } = s ∧
    (∀ t, leastLane s (lanesOf s.obs.lanes) = some t → (laneQueue t s).length < 1024 →
      laneQueue t u = laneQueue t s ++ [r] ∧ u.obs.dropped = s.obs.dropped) ∧
    (∀ t, leastLane s (lanesOf s.obs.lanes) = some t → 1024 ≤ (laneQueue t s).length →
      u.obs.queues = s.obs.queues ∧ u.obs.dropped = min (s.obs.dropped + 1) 65535)) ∧
  (∀ (t : Nat) (r : TrRec) (rs : List TrRec) (s : State), t < 4 → laneQueue t s = r :: rs → tbit s.obs.lanes t = true →
    s.pow.sdclk = true → ∃ u, exec (.traceUnit t) s = .next u ∧ laneQueue t u = rs ∧
    lookD u.obs.lseq t 0 = (lookD s.obs.lseq t 0 + 1) % 2 ^ 32 ∧
    u.obs.sent = s.obs.sent ++ [(t, { r with dropped := s.obs.dropFlag.contains t }, lookD s.obs.lseq t 0)] ∧
    { u with obs := s.obs } = s)

/-! ### The Graft pair (R451 to R493) -/

/-- GFT_UNPAIR and GFT_STATUS, and at their boundary GFT_MIRROR and GFT_SWITCH: the pairing ends, the mirror list is
replaced, the active resigns (R153, R457, R465, R484, R485, R489). Lanes and frames of the link: up and down with
their bit; a frame that is not the next of its lane is discarded and one with a failing CRC counted; HELLO,
acknowledgements, and the loss of a silent partner (R460, R462, R464, R477, R478, R488). -/
def Obligations.GraftCommandsAndLink : Prop :=
  ((∀ (c : Cmd) (s : State),
     (ready (.gftUnpair c) c s → ∃ u, exec (.gftUnpair c) s = .next (complete c (u, stOk, none)) ∧
       u.gft.phase = .unpaired ∧ u.gft.ownId = 0 ∧ u.gft.peerId = 0 ∧ u.gft.waitAck = [] ∧
       u.gft.role = (if s.gft.role = .standby then .idle else s.gft.role)) ∧
     (ready (.gftStatus c) c s → answersBlock (.gftStatus c) c (gftBlock s) none s s)) ∧
   (∀ (c : Cmd) (t : Nat) (s : State), s.hw.tWait = some (c, t) → t + 20000 ≤ s.clk.now →
     (opOf c.desc = 0x0803 → ∀ x, argPart c ≠ 0 → look s.cnp.parts (argPart c) = some x → ∃ u r,
       tickCommand s = complete c (u, stOk, some r) ∧
       ((look u.cnp.parts (argPart c)).map fun y => (y.mirror, y.current)) = some (regionList c.block, false) ∧
       (regionList c.block = [] → r = 0) ∧ u.rng = s.rng) ∧
     (opOf c.desc = 0x0804 → activePaired s = true → s.gft.resignAt = none → ∃ u,
       tickCommand s = complete c (u, stOk, none) ∧ u.gft.resignAt = some s.clk.now ∧ u.gft.switchDue = true ∧
       u.gft.role = .active ∧ gateOpen u = false))) ∧
  ((∀ (lane : Nat) (s : State), lane < 2 →
     (lane ∉ s.gft.lanes → coldHeld s = false → ∃ u, exec (.graftLaneUp lane) s = .next u ∧
       u.gft.evt.getLsbD 6 = true ∧ ∀ l, l ∈ u.gft.lanes ↔ l = lane ∨ l ∈ s.gft.lanes) ∧
     (coldHeld s = true → exec (.graftLaneUp lane) s = .next s) ∧
     (lane ∈ s.gft.lanes → ∃ u, exec (.graftLaneDown lane) s = .next u ∧ u.gft.evt.getLsbD 6 = true ∧
       ∀ l, l ∈ u.gft.lanes ↔ l ≠ lane ∧ l ∈ s.gft.lanes) ∧
     (lane ∉ s.gft.lanes → exec (.graftLaneDown lane) s = .next s) ∧
     (lane ∈ s.gft.lanes → coldHeld s = false → ∀ (lseq : Word) (osn : Nat),
       (lseq = BitVec.ofNat 32 (lookD s.gft.laneRx lane 0) → ∃ u, exec (.hello lane lseq (some osn)) s = .next u ∧
         u.gft.helloOsn = osn ∧ u.gft.helloAt = s.clk.now ∧ u.gft.lastRx = s.clk.now ∧
         look u.gft.laneRx lane = some ((lookD s.gft.laneRx lane 0 + 1) % 2 ^ 32) ∧ u.arb = s.arb ∧ u.rng = s.rng) ∧
       (lseq ≠ BitVec.ofNat 32 (lookD s.gft.laneRx lane 0) → exec (.hello lane lseq (some osn)) s = .next s) ∧
       exec (.hello lane lseq none) s = .next (countGft 11 1 s))) ∧
   (∀ (l0 l1 : Word) (a : OnLink AckInfo) (s : State), linkReady a.link s → s.gft.role ≠ .active →
     s.gft.txWait = [] → s.gft.rxSince + 1 < 16 → ∃ u, exec (.ack l0 l1 a) s = .next u ∧ u.gft.lastRx = s.clk.now ∧
     lookD u.gft.cnt 12 0 = (lookD s.gft.cnt 12 0 + ((keepUnacked l0 (lookD s.gft.unacked 0 [])).length +
       (keepUnacked l1 (lookD s.gft.unacked 1 [])).length)) % 2 ^ 64 ∧ u.rng = s.rng ∧ u.arb = s.arb) ∧
   (∀ (l0 l1 : Word) (a : OnLink AckInfo) (m : Nat) (e : Nat × Nat) (rest : List (Nat × Nat)) (s : State),
     linkReady a.link s → a.body.mark = some m → s.gft.role = .active → s.gft.phase = .active →
     s.gft.queue = e :: rest → e.1 = m % 2 ^ 48 → ∃ u,
     exec (.ack l0 l1 a) s = .next u ∧ u.gft.queue = rest ∧ u.gft.mark = m % 2 ^ 48 ∧ u.gft.lost = false ∧
     u.gft.partnerOk = (a.body.shadowing && a.body.sound) ∧
     lookD u.gft.cnt 0 0 = (lookD s.gft.cnt 0 0 + 1) % 2 ^ 64 ∧
     ∀ p x, look s.cnp.parts p = some x → x.mirror ≠ [] →
       ((look u.cnp.parts p).map fun y => y.current) = some (a.body.current.contains p)) ∧
   (∀ (s : State), s.gft.watching = true → s.gft.lastRx + 20000 ≤ s.clk.now →
     (s.gft.role = .active → s.gft.phase = .active → ∃ u, exec .partnerLost s = .next u ∧ u.gft.lost = true ∧
       u.gft.role = .active ∧ u.gft.phase = .unpaired ∧ u.gft.evt.getLsbD 0 = true ∧ u.gft.watching = false) ∧
     (s.gft.role = .standby → s.gft.phase = .shadowing → ∃ u, exec .partnerLost s = .next u ∧ u.gft.lost = true ∧
       u.gft.role = .standby ∧ u.gft.phase = (if s.gft.line then .shadowing else .detached) ∧
       u.gft.evt.getLsbD 0 = true)) ∧
   (∀ (s : State), s.gft.watching = false → exec .partnerLost s = .next s))

/-- The interlock: RESIGN makes the standby ACTIVE with a higher OSN; TAKEN, its timeout and a missed boundary end the old
active; a claim is driven once the line has been high for its wait, and stands or is given up (R33, R455 to R459, R479,
R484). -/
def Obligations.GraftInterlock : Prop :=
  (∀ (s : State), s.gft.role = .standby → s.gft.claimAt = none → s.gft.lanes ≠ [] → coldHeld s = false → ∃ u,
    exec .resign s = .next u ∧ u.gft.role = .active ∧
    u.gft.phase = .active ∧ u.gft.driving = true ∧ u.gft.lost = true ∧ u.gft.mirror = [] ∧
    max (max (s.gft.markOsn + 2 ^ 24) (s.gft.helloOsn + 2 ^ 24)) (s.arb.osn + 1) ≤ u.arb.osn + 1) ∧
  (∀ (t : Nat) (s : State), s.gft.resignAt = some t →
    (s.gft.lanes ≠ [] → coldHeld s = false → s.gft.switchDue = false → ∃ u, exec .taken s = .next u ∧
      u.gft.role = .idle ∧ u.gft.driving = false ∧ u.gft.phase = .unpaired ∧ gateOpen u = false) ∧
    (s.gft.lanes ≠ [] → coldHeld s = false → s.gft.switchDue = true → ∃ u, exec .taken s = .next u ∧
      u.gft.role = .standby ∧ u.gft.phase = .syncing ∧ u.gft.driving = false ∧ u.gft.switchDue = false) ∧
    (t + 2000 ≤ s.clk.now → s.rst.phase = .started → ∃ u, exec .takenTimeout s = .next u ∧ u.gft.role = .idle ∧
      u.gft.driving = false ∧ u.gft.line = true)) ∧
  (∀ (s : State), s.gft.lanes = [] → exec .resign s = .next s ∧ exec .taken s = .next s) ∧
  (∀ (s : State), s.rst.phase = .started → s.boot.seedling = false → (s.gft.role = .idle ∨ s.gft.role = .standby) →
    s.gft.driving = false → s.gft.claimAt = none →
    (waited s = true → exec .activeNHigh s = .next { s with gft := { s.gft with
      driving := true, claimAt := some s.clk.now, line := false, lineSince := s.clk.now } }) ∧
    (s.gft.line = true → s.gft.lineSince ≠ 0 → s.clk.now < s.gft.lineSince + claimWait s.gft →
      exec .activeNHigh s = .next s)) ∧
  (∀ (t : Nat) (s : State), s.gft.claimAt = some t → t + 200 ≤ s.clk.now →
    (s.gft.role = .idle → ∃ u, exec (.claimConfirmation true) s = .next u ∧ u.gft.role = .active ∧
      u.gft.driving = true ∧ u.gft.claimAt = none ∧ u.arb = s.arb ∧ u.rng = s.rng) ∧
    (s.gft.role = .standby → ∃ u, exec (.claimConfirmation true) s = .next u ∧ u.gft.role = .active ∧
      u.gft.phase = .unpaired ∧ u.gft.ownId = 0 ∧ u.gft.peerId = 0 ∧ u.gft.driving = true ∧ u.gft.claimAt = none ∧
      s.gft.markOsn + 2 ^ 24 ≤ u.arb.osn + 1) ∧
    (∃ u, exec (.claimConfirmation false) s = .next u ∧ u.gft.role = s.gft.role ∧ u.gft.driving = false ∧
      u.gft.claimAt = none ∧ u.gft.evt.getLsbD 7 = true)) ∧
  (∀ (s : State), s.gft.role = .active → s.gft.driving = true → s.rst.phase = .started →
    s.cnp.tickFrc + (s.cnp.tickEnd - s.cnp.tickStart) + 4000 ≤ s.clk.frc → ∃ u, exec .keepaliveLapse s = .next u ∧ u.gft.role = .idle ∧
    u.gft.driving = false ∧ gateOpen u = false)

/-- Frames of a pair: one that is not the next of its lane is discarded, and one with a failing CRC counted; a forwarded
command runs on the standby and is acknowledged, and another status than the active's leaves it DETACHED; its
acknowledgement completes it on the active; LOG, mirror, SYNC and COMMIT frames on the standby; PAIR and UNPAIR (R462,
R468, R470, R472, R474, R477, R483, R485, R488). -/
def Obligations.GraftFrames : Prop :=
  (∀ (l : GLink) (l0 l1 : Word) (a : AckInfo) (w : FwdCmd) (ring st : Nat) (seq : Word) (g : LogInfo) (f : MirrorFrame)
     (c : CommitInfo) (p : PairInfo) (q iova : Nat) (data : Bytes) (s : State), linkUp l s → nextOnLane l s = false →
    let t := if l.crcOk then s else countGft 11 1 s
    exec (.ack l0 l1 ⟨l, a⟩) s = .next t ∧ exec (.cmd ⟨l, w⟩) s = .next t ∧ exec (.cmdack ring seq ⟨l, st⟩) s = .next t ∧
    exec (.log ⟨l, g⟩) s = .next t ∧ exec (.mirrorFrame l f) s = .next t ∧ exec (.commit l c) s = .next t ∧
    exec (.pair ⟨l, p⟩) s = .next t ∧ exec (.sync q iova data l) s = .next t) ∧
  (∀ (l : GLink) (w : FwdCmd) (s : State), linkReady l s → s.gft.role = .standby → s.gft.phase = .shadowing →
    forwards w.cmd = true →
    let c := w.cmd
    let known := s.gft.acks.find? fun a => a.1 == c.ring && a.2.1 == genField c.desc && a.2.2.1 == c.desc.w1
    let j := judgeCmd { c with ring := ringFwd } (tookFrame l.lane s)
    let noted (st : Nat) := s.gft.acks ++ [(c.ring, genField c.desc, c.desc.w1, st)]
    (∀ a, known = some a → ∃ u, exec (.cmd ⟨l, w⟩) s = .next u ∧ u.gft.acks = s.gft.acks ∧ u.rng = s.rng ∧
      u.flt = s.flt ∧ u.cnp = s.cnp ∧ u.mem = s.mem) ∧
    (∀ st, known = none → j = some st → st ≠ stOk → ∃ u, exec (.cmd ⟨l, w⟩) s = .next u ∧ u.gft.acks = noted st ∧
      (st = w.status → u.gft.phase = .shadowing) ∧
      (st ≠ w.status → s.gft.line = false → u.gft.phase = .detached)) ∧
    (known = none → j = some stOk → opOf c.desc = 0x0332 → w.status = stOk → ∃ u, exec (.cmd ⟨l, w⟩) s = .next u ∧
      u.gft.phase = .shadowing ∧ u.gft.acks = noted stOk ∧
      u.flt.coeff = put s.flt.coeff (arg0 c.desc) (coeffsIn c))) ∧
  (∀ (ring : Nat) (seq : Word) (a : OnLink Nat) (f : Fwd) (e : JRec) (s : State), linkReady a.link s →
    (s.gft.waitAck.find? fun f => f.cmd.ring == ring && f.cmd.desc.w1 == seq) = some f → ring ≠ ringSeed →
    findEntry ring (genOf ring s) seq s = some e → genField f.cmd.desc = genOf ring s → e.stage ≠ .finished →
    e.replayed = false → ∃ u, exec (.cmdack ring seq a) s = .next u ∧ endedAs ring seq f.status f.result u ∧
    u.gft.waitAck = s.gft.waitAck.erase f ∧
    (f.status = a.body → u.gft.evt = s.gft.evt ∧ u.arb = s.arb) ∧
    (f.status ≠ a.body → u.gft.evt.getLsbD 4 = true ∧ u.gft.partnerOk = false)) ∧
  (∀ (l : OnLink LogInfo) (s : State), linkReady l.link s → standbyLive s = true →
    let g := l.body
    (logKnown g s = false → (s.gft.held.filter fun h => h.ring == g.ring && h.seq == g.seq) = [] → ∃ u,
      exec (.log l) s = .next u ∧ u.gft.logs = s.gft.logs ++ [(fullMark l.link.mark s, g)] ∧
      u.gft.held = s.gft.held ∧ u.rng = s.rng) ∧
    (logKnown g s = true → ∃ u, exec (.log l) s = .next u ∧ u.gft.logs = s.gft.logs ∧ u.gft.held = s.gft.held) ∧
    (∀ h e, (s.gft.held.filter fun h => h.ring == g.ring && h.seq == g.seq) = [h] →
      (s.gft.logs.find? fun x => x.2.ring == h.ring && x.2.seq == h.seq) = none →
      findEntry h.ring (genOf h.ring s) h.seq s = some e →
      s.rng.orphans.any (isEntry h.ring (genOf h.ring s) h.seq) = false → e.stage ≠ .finished → e.replayed = false → opCrc e.desc (some h.payload) = g.crc →
      bindingOf h.ring s = 1 → ∃ u, exec (.log l) s = .next u ∧
      endedAs h.ring h.seq g.status (some g.result) u ∧ u.gft.held = s.gft.held.erase h ∧
      lookD u.gft.cnt 8 0 = (lookD s.gft.cnt 8 0 + 1) % 2 ^ 64)) ∧
  (∀ (l : GLink) (f : MirrorFrame) (s : State), linkReady l s → standbyLive s = true → notCommitted l.mark s = true →
    s.gft.commits = [] → ∃ u, exec (.mirrorFrame l f) s = .next u ∧ u.gft.lastRx = s.clk.now ∧
    ((l.mark % 2 ^ 48, f) ∉ s.gft.staged → u.gft.staged = s.gft.staged ++ [(l.mark % 2 ^ 48, f)]) ∧
    ((l.mark % 2 ^ 48, f) ∈ s.gft.staged → u.gft.staged = s.gft.staged) ∧ u.rng = s.rng ∧ u.mem = s.mem) ∧
  (∀ (p iova : Nat) (data : Bytes) (l : GLink) (s : State), linkReady l s → standbyLive s = true →
    let key := pageKey p (iova / 4096)
    syncKnown key l.mark s = false → ∃ u, exec (.sync p iova data l) s = .next u ∧ u.mem = s.mem ∧ u.rng = s.rng ∧
    look u.gft.mirror key = some (Memory.write [] 0 (data.take 4096)) ∧
    look u.gft.fresh key = some (l.mark % 2 ^ 48) ∧
    (s.gft.phase ≠ .syncing → (look s.gft.mirror key).isSome = true → u.gft.phase = .syncing ∧ u.gft.staged = []) ∧
    ((s.gft.phase = .syncing ∨ look s.gft.mirror key = none) → u.gft.phase = s.gft.phase)) ∧
  (∀ (l : GLink) (c : CommitInfo) (s : State), linkReady l s → standbyLive s = true → s.gft.commits = [] →
    notCommitted c.mark s = true → c.count = 0 → stagedOf c.mark s = [] → c.crc.toNat = recordCrc [] →
    (∀ e ∈ mirrored s, e.2.current = false) → ∃ u, exec (.commit l c) s = .next u ∧
    u.gft.mark = markAfter (fullMark c.mark s) s % 2 ^ 48 ∧ u.gft.markOsn = c.osn ∧ u.gft.commits = [] ∧
    (s.gft.phase = .syncing → u.gft.phase = .shadowing) ∧
    lookD u.gft.cnt 0 0 = (lookD s.gft.cnt 0 0 + 1) % 2 ^ 64) ∧
  (∀ (l : GLink) (c : CommitInfo) (s : State), linkReady l s → standbyLive s = true → s.gft.commits = [] →
    notCommitted c.mark s = true → (stagedOf c.mark s).length ≠ c.count → ∃ u, exec (.commit l c) s = .next u ∧
    u.gft.commits = [c] ∧ u.gft.staged = s.gft.staged ∧ u.gft.mark = s.gft.mark ∧ u.gft.phase = s.gft.phase) ∧
  (∀ (p : OnLink PairInfo) (s : State), linkReady p.link s → isPaired s = false → s.gft.role ≠ .standalone → ∃ u,
    exec (.pair p) s = .next u ∧ u.gft.peer = some p.body ∧ u.gft.line = (s.gft.line && !p.body.active) ∧
    u.gft.lastRx = s.clk.now ∧ u.gft.phase = s.gft.phase ∧ u.rng = s.rng) ∧
  (∀ (s : State), s.gft.lanes ≠ [] → coldHeld s = false → isPaired s = true → ∃ u, exec .unpair s = .next u ∧
    u.gft.phase = .unpaired ∧ u.gft.waitAck = [] ∧
    u.gft.role = if s.gft.role = .standby then .idle else s.gft.role)

/-! ### Supplies, resets and the start (R48 to R98, R157, R165 to R172) -/

/-- The island and its supplies: VAUX rise counts a power cycle and holds the module in power-on reset; rails, references
and temperature assert and release their sources; a fault starts the flush (R48 to R60, R69 to R72, R505, R506,
R512). -/
def Obligations.SuppliesAndReferences : Prop :=
  (∀ (s : State), s.pow.vaux = false → ∃ u, exec .vauxRise s = .next u ∧ u.pow.vaux = true ∧ u.rst.phase = .held ∧
    u.rst.reach = some .cold ∧ u.clk.now = 0 ∧ u.mem = [] ∧ u.pending = s.pending ∧
    (u.log.buf.map fun r => r.code) = [0x0936] ∧ (u.log.reqs.map fun r => r.code) = [0x0010] ∧
    ∀ c, bestCopy s.mram = some c → u.mram.pcyc = (c.pcyc + 1) % 2 ^ 32 ∧ u.mram.session = c.session ∧
      u.mram.fails = c.fails) ∧
  (∀ (s : State), s.pow.vaux = true → ∃ u, exec .vauxFault s = .next u ∧ u.pow.vaux = false ∧ u.log.buf = [] ∧
    u.log.mram = s.log.mram ∧ u.mem = [] ∧ u.rng.rings = [] ∧ u.mram = s.mram) ∧
  (∀ (r : Rail) (s : State),
    (railsAhead r s = true → ∃ u, exec (.railGood r) s = .next u ∧ r ∈ u.pow.rails ∧ u.pow.lastGood = s.clk.now ∧
      (∀ x ∈ s.pow.rails, x ∈ u.pow.rails) ∧ { u with pow := s.pow } = s) ∧
    (railsAhead r s = false → exec (.railGood r) s = .fault .supplyOrder) ∧
    (s.pow.vaux = true → r ∈ s.pow.rails → s.rst.loadFail = false → ∃ u, exec (.railFault r) s = .next u ∧
      r ∉ u.pow.rails ∧ u.rst.phase = .held ∧ u.rst.reach = some .cold ∧ (.porRail, none) ∈ u.rst.sources ∧
      u.rst.cause.getLsbD 0 = true ∧ u.log.flushing = true ∧ u.mem = []) ∧
    (s.pow.vaux = false → r ∈ s.pow.rails → exec (.railFault r) s =
      .next { s with pow := { s.pow with rails := s.pow.rails.filter (· != r) } })) ∧
  (∀ (s : State), allGood s = true → s.rst.resetN = true → s.pow.refclk = true → s.pow.trip = false →
    s.pow.lastGood + 2000000 ≤ s.clk.now → ∃ u, exec .porRelease s = .next u ∧
    (∀ x ∈ u.rst.sources, x ∈ s.rst.sources ∧ x.1 ≠ .porRail ∧ x.1 ≠ .porRefclk ∧ x.1 ≠ .porTemp) ∧
    { u with rst := s.rst } = s) ∧
  (∀ (s : State), s.pow.vaux = true →
    (s.pow.refclk = true → s.rst.loadFail = false → ∃ u, exec .refclkLoss s = .next u ∧ u.pow.refclk = false ∧
      u.rst.phase = .held ∧ u.rst.reach = some .cold ∧ u.rst.cause.getLsbD 1 = true ∧ u.log.flushing = true) ∧
    (s.pow.refclk = false → s.pow.refAt + 10000000 ≤ s.clk.now →
      exec .refclkReturn s = .next { s with pow := { s.pow with refclk := true } }) ∧
    (s.clk.now < s.pow.refAt + 10000000 → exec .refclkReturn s = .next s) ∧
    (s.pow.trip = false → (atLeast s.pow.ssdNow 2640 || atLeast s.pow.cmpNow 2640) = true → s.rst.loadFail = false → ∃ u,
      exec .temperatureTrip s = .next u ∧ u.pow.trip = true ∧ u.rst.phase = .held ∧ u.rst.cause.getLsbD 2 = true ∧
      u.log.flushing = true) ∧
    (∀ ssd cmp, ∃ u, exec (.tjConversion ssd cmp) s = .next u ∧ u.pow.ssdNow = ssd ∧ u.pow.cmpNow = cmp) ∧
    (∀ ssd cmp, s.rst.reach ≠ some .cold → ∃ u, exec (.tjConversion ssd cmp) s = .next u ∧ u.pow.tjSsd = ssd ∧
      u.pow.tjCmp = cmp ∧
      u.pow.alm = (s.pow.alm || decide (s.pow.limit.toInt ≤ ssd.toInt) || decide (s.pow.limit.toInt ≤ cmp.toInt)) ∧
      (s.pow.alm = true → u.arb = s.arb)) ∧
    (∀ ns, 1000 ≤ ns → ∃ u, exec (.pfailN ns) s = .next u ∧ u.log.flushing = true ∧ u.log.reqs = [] ∧
      u.rst = s.rst ∧ u.sw = s.sw))

/-- Reset sources: a pin held for 1 µs asserts and releases its source with its reach; the boot timer and the watchdog;
what COLD and WARM reach clear; the release begins its sequence (R74 to R82, R91, R93, R96). -/
def Obligations.ResetSources : Prop :=
  (∀ (ns : Nat) (s : State), s.pow.vaux = true → 1000 ≤ ns →
    (s.rst.resetN = true → s.rst.loadFail = false → ∃ u, exec (.resetN false ns) s = .next u ∧
      u.rst.resetN = false ∧ u.rst.phase = .held ∧ u.rst.reach = some .cold ∧ (.resetN, none) ∈ u.rst.sources ∧
      u.rst.cause.getLsbD 3 = true ∧ u.mem = [] ∧ u.rng.rings = [] ∧ u.cnp.parts = [] ∧ u.tim.bases = [] ∧
      u.key.slots = [] ∧ u.pow.rails = s.pow.rails) ∧
    (s.rst.resetN = false → ∃ u, exec (.resetN true ns) s = .next u ∧ u.rst.resetN = true ∧
      (∀ x ∈ u.rst.sources, x.1 ≠ .resetN) ∧ { u with rst := s.rst } = s) ∧
    (s.rst.wrstN = true → s.rst.loadFail = false → s.rst.reach ≠ some .cold → s.rst.phase = .started → ∃ u,
      exec (.wrstN false ns) s = .next u ∧ u.rst.phase = .held ∧ u.rst.reach = some .warm ∧
      u.rst.cause.getLsbD 6 = true ∧ u.mem = [] ∧ u.rng.rings = [] ∧ u.cnp.parts = [] ∧ u.prt.cnt = s.prt.cnt ∧
      (∀ n, look u.prt.ports n = (look s.prt.ports n).map (warmPort s.clk.frc)) ∧ u.tim.bases = s.tim.bases ∧ u.mram = s.mram) ∧
    (s.rst.wrstN = false → ∃ u, exec (.wrstN true ns) s = .next u ∧ u.rst.wrstN = true ∧
      (∀ x ∈ u.rst.sources, x.1 ≠ .wrstN) ∧ { u with rst := s.rst } = s)) ∧
  (∀ (h : Bool) (s : State), ∃ u, exec (.perstN h) s = .next u ∧ u.rst.perstN = h ∧ { u with rst := s.rst } = s ∧
    { u.rst with perstN := s.rst.perstN, pcieAt := s.rst.pcieAt } = s.rst ∧ (h = false → u.rst.pcieAt = none) ∧
    (h = true → pllLocked s = true → s.rst.pcieAt = none → u.rst.pcieAt = some s.clk.now)) ∧
  (∀ (s : State), s.rst.phase = .started → s.rst.loadFail = false →
    (s.boot.timerOn = true → s.boot.done = false → s.boot.startAt + 5000000000 ≤ s.clk.now → ∃ u,
      exec .bootTimerExpiry s = .next u ∧ u.mram.fails = s.mram.fails + 1 ∧ u.rst.phase = .held ∧
      u.rst.reach = some .cold ∧ u.rst.cause.getLsbD 4 = true) ∧
    (s.boot.startAt + 100000000 ≤ s.clk.now → ∃ u, exec .watchdogExpiry s = .next u ∧ u.rst.phase = .held ∧ u.rst.cause.getLsbD 7 = true ∧
      (.wdog, some (s.clk.now + 1000)) ∈ u.rst.sources)) ∧
  (∀ (s : State), s.pow.vaux = true → s.rst.loadFail = false → s.rst.strapInvalid = false → s.rst.phase = .held →
    (s.rst.reach = some .cold →
      ((s.rst.needAll = false ∧ ((liveSources s).all fun x => sourceReach x.1 == .warm) = true) ∨ liveSources s = []) → ∃ u,
      exec .resetRelease s = .next u ∧ u.rst.phase = .trim ∧ u.mram.session = (s.mram.session + 1) % 2 ^ 32 ∧
      u.mram.epoch = min (s.mram.epoch + 1) 0xFFFFFF ∧ u.out.inh = s.out.pinLow ∧ u.key.tagCount = 0) ∧
    (s.rst.needAll = true → liveSources s ≠ [] → exec .resetRelease s = .next s) ∧
    (s.rst.reach = some .warm → liveSources s = [] → ∃ u, exec .resetRelease s = .next u ∧
      u.rst.phase = .warmHold ∧ u.rst.sources = [] ∧ u.mram = s.mram))

/-- The release sequence, Heartwood start and the images (R83 to R95, R144, R166, R167). -/
def Obligations.ReleaseAndStart : Prop :=
  (∀ (s : State), s.pow.vaux = true → s.rst.phase = .trim → s.rst.phaseAt + 492000 ≤ s.clk.now → ∀ w crc,
    (trimMatches w crc = true → ∃ u, exec (.trimLoadEnd w crc) s = .next u ∧ u.rst.phase = .strap ∧
      u.rst.aborts = s.rst.trimAborts ∧ u.rst.shadow = w) ∧
    (trimMatches w crc = false → s.rst.trimAborts < 3 → s.rst.loadFail = false → ∃ u,
      exec (.trimLoadEnd w crc) s = .next u ∧ u.rst.trimAborts = s.rst.trimAborts + 1 ∧ u.rst.phaseAt = s.clk.now ∧
      (liveSources s = [] → u.rst.phase = .trim) ∧
      (liveSources s ≠ [] → u.rst.phase = .held ∧ u.rst.needAll = true)) ∧
    (trimMatches w crc = false → s.rst.trimAborts = 3 → ∃ u, exec (.trimLoadEnd w crc) s = .next u ∧ u.rst.phase = .held ∧
      u.rst.loadFail = true ∧ u.log.flushing = true)) ∧
  (∀ (codes : List Nat) (s : State), s.pow.vaux = true → s.rst.phase = .strap → s.rst.phaseAt + 36000 ≤ s.clk.now →
    codes.length = 16 → (∀ c ∈ codes, c < 64) →
    (∀ bin, strapBinOf codes = some bin → bin ≠ 15 → ∃ u, exec (.strapMeasurementEnd codes) s = .next u ∧
      u.rst.phase = .pll ∧ u.rst.strapBin = bin ∧ u.rst.strapOk = true ∧
      u.gft.role = if strapMode bin = 1 ∨ strapMode bin = 2 then .idle else .standalone) ∧
    (strapBinOf codes = none → s.rst.strapTries < 3 → ∃ u, exec (.strapMeasurementEnd codes) s = .next u ∧
      u.rst.phase = .strap ∧ u.rst.strapTries = s.rst.strapTries + 1) ∧
    (strapBinOf codes = some 15 → ∃ u, exec (.strapMeasurementEnd codes) s = .next u ∧ u.rst.phase = .held ∧
      u.rst.strapInvalid = true)) ∧
  (∀ (s : State), s.pow.vaux = true → s.rst.phase = .pll → s.rst.phaseAt ≤ s.clk.now → ∃ u,
    exec .pllLock s = .next u ∧ u.rst.phase = .lanes ∧ u.clk.frc = 0 ∧ u.clk.frcOn = true ∧ u.out.inhDue = false ∧
    u.rst.pcieAt = if s.rst.perstN then some s.clk.now else none) ∧
  (∀ (l : List Nat) (s : State), s.pow.vaux = true → s.rst.phase = .lanes → s.rst.phaseAt ≤ s.clk.now →
    (∀ m ∈ l, m < 16) → ∃ u, exec (.lanesTrained l) s = .next u ∧ u.rst.phase = .warmHold ∧ u.pgk.hard = [] ∧
    u.ecc.exhausted = !l.isEmpty) ∧
  (∀ (s : State), mayHeartwood s = true → s.mram.fails < 3 → s.rst.strapBin ≠ 0 → strapSources s.rst.strapBin ≠ [] →
    ∃ u, exec .heartwoodStart s = .next u ∧ u.rst.phase = .started ∧ u.boot.sources = strapSources s.rst.strapBin ∧
    u.boot.timerOn = true ∧ u.boot.seedling = false ∧ u.boot.startAt = s.clk.now ∧
    (∀ r, (look u.rng.rings r).isSome = true ↔ r = 2048 ∨ r = 2049) ∧
    (∀ r x, look u.rng.rings r = some x → x.st = .on ∧ x.gen = 1 ∧ x.a = 0 ∧ x.k = 0)) ∧
  (∀ (i : ImageSeen) (slot : Nat) (rest : List Nat) (s : State), s.boot.sources = slot :: rest →
    s.rst.phase = .started → s.boot.seedling = false → s.boot.running = false → slot ≠ 2 →
    s.boot.readAt + readTime slot i s ≤ s.clk.now →
    (i.answers = true → slotPasses slot i s = true → ∃ u,
      exec (.imageSourceDone i) s = .next u ∧ u.boot.running = true ∧ u.boot.slot = slot ∧
      u.boot.version = BitVec.ofNat 32 (imgVersion (slotHeader slot i s)) ∧ (look u.cnp.parts 0).isSome = true) ∧
    (i.answers = true → slotPasses slot i s = false → rest ≠ [] → ∃ u,
      exec (.imageSourceDone i) s = .next u ∧ u.boot.sources = rest ∧ u.boot.running = false ∧
      u.boot.lastStatus = 0x901) ∧
    (i.answers = false → rest ≠ [] → ∃ u, exec (.imageSourceDone i) s = .next u ∧ u.boot.sources = rest ∧
      u.boot.running = false ∧ u.boot.lastStatus = 0x902)) ∧
  (∀ (s : State), s.rst.phase = .started → s.boot.hostOpen = true → hostStarting s = false →
    strapImage s.rst.strapBin = 3 → s.boot.startAt + 2000000000 ≤ s.clk.now → s.boot.sources.tail ≠ [] → ∃ u,
    exec .hostWindowExpiry s = .next u ∧ u.boot.sources = s.boot.sources.tail)

/-- MODULE_RESET, BOOT_COMPLETE, SEEDLING_EXIT and IMG_HOST_LOAD; Seedling's frames; and the loss of SDCLK (R61, R74,
R93, R95, R157, R167, R172). -/
def Obligations.StartCommandsAndSeedling : Prop :=
  (∀ (c : Cmd) (s : State), s.rst.loadFail = false →
    (ready (.moduleReset c) c s → earlierFinished c s = true → s.rst.reach = none → activePaired s = false → ∃ u,
      exec (.moduleReset c) s = .next u ∧ u.rst.phase = .held ∧ u.mem = [] ∧ u.rng.rings = [] ∧
      (arg0 c.desc = 1 → u.rst.reach = some .cold ∧ u.rst.cause.getLsbD 5 = true) ∧
      (arg0 c.desc = 2 → u.rst.reach = some .warm ∧ u.rst.cause.getLsbD 8 = true)) ∧
    (ready (.seedlingExit c) c s → earlierFinished c s = true → activePaired s = false → ∃ u,
      exec (.seedlingExit c) s = .next u ∧ u.rst.phase = .held ∧ u.rst.reach = some .cold ∧ u.mram.fails = 0 ∧
      u.rst.cause.getLsbD 5 = true) ∧
    (ready (.bootComplete c) c s → arbHeld s = false → ∃ u,
      exec (.bootComplete c) s = .next (complete c (u, stOk, none)) ∧
      u.boot.done = true ∧ u.boot.timerOn = false ∧ u.mram.fails = 0 ∧ u.arb.osn = s.arb.osn + 1 ∧ u.rst = s.rst) ∧
    (ready (.imgHostLoad c) c s → exec (.imgHostLoad c) s = .next (complete c
      ({ s with boot := { s.boot with
          staging := stage256 s.boot.staging (arg1 c.desc) (padTo (lenOf c.desc) c.block) } }, stOk, none)))) ∧
  (∀ (f : Frame) (q : SeedReq) (s : State), s.rst.phase = .started → s.boot.seedling = true → portUp 0 s = true →
    seedAccepts f q = true → seedBusy s = false →
    (seedRetry q s = true → exec (.seedlingFrameRx f q) s =
      .next { s with boot := { s.boot with seedOut := s.boot.seedOut ++ [s.boot.seedReply] } }) ∧
    (seedRetry q s = false → s.hw.exec = none → ∃ u, exec (.seedlingFrameRx f q) s = .next u ∧
      u.boot.seedXid = some q.xid ∧ u.boot.seedFrom = f.sa ∧
      (genField q.desc ≠ 1 → u.hw = s.hw ∧ u.boot.seedOut.length = s.boot.seedOut.length + 1) ∧
      (genField q.desc = 1 → flagsOf q.desc / 4 = 0 → iovaOf q.desc = 0 → opOf q.desc = 0x0920 →
        judgeCmd (seedCmd q) s = some stOk → u.hw.exec = some (seedCmd q)))) ∧
  (∀ (s : State), s.rst.phase = .started → s.boot.seedling = true →
    s.boot.startAt + s.boot.announces * 1000000000 ≤ s.clk.now →
    exec .seedlingAnnounce s = .next { s with boot := { s.boot with
      announces := s.boot.announces + 1
      seedOut := s.boot.seedOut ++ [seedFrame 0xFFFFFFFFFFFF 3 0 (identBytes s)] } }) ∧
  (∀ (s : State), ∃ u, exec .sdclkLoss s = .next u ∧ u.pow.sdclk = false ∧ u.obs.sending = [] ∧ 0 ∉ u.gft.lanes ∧ 1 ∉ u.gft.lanes ∧
    ∀ n, n < 48 → (portOf n u).link = .down)

/-! ### Registers, the end of STOPPING, and the state after reset -/

/-- Writes of the setup window: of another width or alignment and of a read-only register they are ignored, and any
while the PCIe endpoint answers no access; latches clear with 1, but for a bit that the module sets in the same instant;
`CFG_LOCK` only locks; a capture takes every time base; P0's mirror reads and writes as the window does
(R12 to R15, R76, R326, R553 to R557). -/
def Obligations.RegisterWrites : Prop :=
  (∀ (o w : Nat) (v : Word) (s : State), s.rst.pcieAt = none → exec (.registerWrite o w v) s = .next s) ∧
  (∀ (o w : Nat) (v : Word) (s : State), s.rst.pcieAt ≠ none → ∃ t, exec (.registerWrite o w v) s = .next t ∧
    ((w ≠ 4 ∨ o % 4 ≠ 0) → t = s) ∧
    ((o = 0x0000 ∨ o = 0x0104 ∨ o = 0x0108 ∨ o = 0x0400 ∨ o = 0x1900) → t = s) ∧
    (w = 4 → o = 0x0100 → s.sets = [] →
      t = { s with rst := { s.rst with cause := s.rst.cause &&& ~~~(v.setWidth 10) } }) ∧
    (w = 4 → o = 0x0100 → ∀ i, i < 10 → (o, i) ∈ s.sets → t.rst.cause.getLsbD i = s.rst.cause.getLsbD i) ∧
    (w = 4 → o = 0x0044 → t.pow.limit = v.setWidth 16) ∧
    (w = 4 → o = 0x0044 → s.sets = [] → t.pow.alm = (s.pow.alm && !v.getLsbD 31)) ∧
    (w = 4 → o = 0x0404 → s.sets = [] → t.rng.evt = s.rng.evt &&& ~~~(v.setWidth 5)) ∧
    (w = 4 → o = 0x1910 → t = { s with log := { s.log with sel := v } }) ∧
    t.mem = s.mem ∧ t.arb = s.arb ∧ t.mram = s.mram ∧ t.rng.rings = s.rng.rings ∧ t.rng.jrnl = s.rng.jrnl ∧
    t.cnp.parts = s.cnp.parts ∧ t.key.slots = s.key.slots ∧ t.tim.bases = s.tim.bases) ∧
  (∀ (v : Word) (s : State),
    (v.getLsbD 0 = true → s.rst.phase = .started → s.rst.pcieAt ≠ none →
      exec (.cfgLock v) s = .next { s with rst := { s.rst with cfgLock := true } }) ∧
    (v.getLsbD 0 = true → s.rst.pcieAt ≠ none → exec (.capture v) s = .next { s with tim := { s.tim with snap :=
        { frc := frcNow s, vals := (List.range 4).map fun n => snapOf (tbOf n s) (frcNow s) } } }) ∧
    (s.rst.phase ≠ .started → exec (.cfgLock v) s = .next s) ∧
    (s.rst.pcieAt = none → exec (.cfgLock v) s = .next s ∧ exec (.swHash v) s = .next s ∧ exec (.capture v) s = .next s ∧
      exec (.obsStatClear v) s = .next s) ∧
    (v.getLsbD 0 = false → exec (.cfgLock v) s = .next s ∧ exec (.capture v) s = .next s)) ∧
  (∀ (o : Nat) (s : State), o < 0x10000 → p0Exists s = true →
    (∀ w, .mirror o ⟨w, none⟩ ∈ s.cnp.passed → ∃ t, exec (.p0MirrorAccess o ⟨w, none⟩) s = .next t ∧
      t.cnp.lastMirror = readReg o w s ∧ t.cnp.passed = s.cnp.passed.erase (.mirror o ⟨w, none⟩) ∧
      ((w ≠ 4 ∨ o % 4 ≠ 0) → t.cnp.lastMirror = 0) ∧ { t with cnp := s.cnp } = s) ∧
    (∀ w v, .mirror o ⟨w, some v⟩ ∈ s.cnp.passed →
      exec (.p0MirrorAccess o ⟨w, some v⟩) s = .next (writeReg o w v (usePassed (.mirror o ⟨w, some v⟩) s))))

/-- A STOPPING object of each kind reaches OFF when its work has ended, with one event; a kind that R148 does not list
stops the model (R148 to R150). -/
def Obligations.StoppingEnds : Prop :=
  ∀ (n : Nat) (s : State), arbHeld s = false →
    (∀ x, n < 256 → partStops n s = true → look s.cnp.parts n = some x → x.held = false → ∃ u,
      exec (.stoppingEnd 1 n) s = .next u ∧ u.arb.osn = s.arb.osn + 1 ∧
      ((look u.cnp.parts n).map fun y => (y.en, y.st)) = some (.off, .created)) ∧
    (∀ x, n < 2048 → ringStops n s = true → look s.rng.rings n = some x → x.held = false → ∃ u,
      exec (.stoppingEnd 2 n) s = .next u ∧ u.arb.osn = s.arb.osn + 1 ∧
      look u.rng.rings n = some { x with st := .off, held := false }) ∧
    (∀ x, n < 2048 → ringStops n s = true → look s.rng.rings n = some x → x.held = true → ∃ u,
      exec (.stoppingEnd 2 n) s = .next u ∧ u.arb.osn = s.arb.osn + 2 ∧
      look u.rng.rings n = some { x with st := .on, held := false }) ∧
    (n < 4096 → streamStops n s = true → (strmOf n s).held = false → ∃ u, exec (.stoppingEnd 3 n) s = .next u ∧
      u.arb.osn = s.arb.osn + 1 ∧ (strmOf n u).en = .off) ∧
    (n < 1024 → pubStops n s = true → (pubOf n s).held = false → ∃ u, exec (.stoppingEnd 4 n) s = .next u ∧
      u.arb.osn = s.arb.osn + 1 ∧ pubOf n u = { pubOf n s with en := .off }) ∧
    (n < 48 → portStops n s = true → (portOf n s).held = false → ∃ u, exec (.stoppingEnd 5 n) s = .next u ∧
      (portOf n u).en = .off) ∧
    (n < 4 → tbStops n s = true → (tbOf n s).held = false → ∃ u, exec (.stoppingEnd 6 n) s = .next u ∧
      (tbOf n u).en = .off ∧ (tbOf n u).rate = 0 ∧ ∀ c ∈ u.tim.cmps, c.tb ≠ n) ∧
    (∀ x, n < 16 → recStops n s = true → look s.acq.recs n = some x → x.held = false → ∃ u,
      exec (.stoppingEnd 7 n) s = .next u ∧ u.arb.osn = s.arb.osn + 1 ∧ (recOf n u).en = .off) ∧
    (n < 16 → outStops n s = true → (outCh n s).held = false → (outCh n s).pend = none → ∃ u,
      exec (.stoppingEnd 8 n) s = .next u ∧ u.arb.osn = s.arb.osn + 1 ∧ (outCh n u).en = .off ∧
      (coldPins s = false → (outCh n u).pinA = safeA (outCh n s) ∧ (outCh n u).pinB = safeB (outCh n s))) ∧
    (n < 32 → binStops n s = true → (binOf n s).held = false → ∃ u, exec (.stoppingEnd 9 n) s = .next u ∧
      u.arb.osn = s.arb.osn + 1 ∧ (binOf n u).en = .off ∧ (binOf n u).state = false) ∧
    exec (.stoppingEnd 0 n) s = .fault .noSuchObject

/-- Right after reset no command waits, the module holds in power-on reset with RAIL and power-on recorded, no ring,
partition, stream or key exists, the OSN is 0, memory lists nothing and its form is canonical. With it, the idle
step: on an empty queue the clocks advance by 1 ns while they run, the W1C bits of the cycle before are settled, and of
the Graft link HELLOs and an ACK leave every 2,000 ns and a lane that is free starts a waiting frame (a choice of the
model: log entries 1, 3). -/
def Obligations.ResetStateAndIdle : Prop :=
  memOk State.reset ∧ keysRise State.reset.key.slots ∧ State.reset.pending = [] ∧ State.reset.rst.phase = .held ∧
    State.reset.rst.reach = some .cold ∧ State.reset.arb.osn = 0 ∧ State.reset.mem = [] ∧
    State.reset.rng.rings = [] ∧ State.reset.cnp.parts = [] ∧ State.reset.sv.streams = [] ∧
    State.reset.key.slots = [] ∧ State.reset.clk.frcOn = false ∧ State.reset.pow.limit = 0x0960 ∧
    State.reset.sets = [] ∧
    ∀ s : State, s.pending = [] →
      let t := { s with sets := [], clk := { s.clk with
        now := if s.pow.vaux then s.clk.now + 1 else s.clk.now
        frc := if s.clk.frcOn then (s.clk.frc + 1) % 2 ^ 64 else s.clk.frc } }
      step s = .next (frameStarts (linkTimers t)) ∧ (s.gft.lanes = [] → step s = .next t) ∧
      (t.gft.lanes ≠ [] → coldHeld t = false → t.gft.helloDue ≤ t.clk.now →
        (linkTimers t).gft.helloDue = t.clk.now + 2000) ∧
      ∀ u, step s = .next u → { u with gft := s.gft } = { t with gft := s.gft }
end

