-- ==== Sys2Proof/Laws/Commands.lean ====
section
/-! SUPPORT. The three ways a Heartwood command runs, and the checks of each opcode. -/

namespace Sys2Proof.Machine

open Sys2Proof

set_option Elab.async false

theorem holds_of {op : Nat} {c : Cmd} {s : State} (h1 : op = opOf c.desc) (h2 : s.hw.exec = some c)
    (h3 : fenceReady c s = true) : holds op c s = true := by
  simp [holds, h1, h2, h3]

/-- Before the checks have been made the row makes them (R146). -/
theorem statusOf_unchecked {judge : Cmd → State → Nat} {c : Cmd} {s : State} (h : s.hw.passed = false) :
    statusOf judge c s = judge c s := by
  simp [statusOf, h]

/-- A command that passed its checks when it was consumed has the status OK for its row (R142, R146). -/
theorem statusOf_passed {judge : Cmd → State → Nat} {c : Cmd} {s : State} (h : s.hw.passed = true) :
    statusOf judge c s = stOk := by
  simp [statusOf, h]

/-- A command of class S or M that fails a check has no effect (R146). -/
theorem runNow_fail {op : Nat} {judge : Cmd → State → Nat} {eff : Cmd → State → Res} {c : Cmd} {s : State}
    (h : holds op c s = true) (hj : statusOf judge c s ≠ stOk) :
    runNow op judge eff c s = .next (complete c (s, statusOf judge c s, none)) := by
  simp [runNow, act, h, perform, hj, res]

/-- A command of class S or M that passes its checks has its effect and completes (R153). -/
theorem runNow_pass {op : Nat} {judge : Cmd → State → Nat} {eff : Cmd → State → Res} {c : Cmd} {s : State}
    (h : holds op c s = true) (hj : statusOf judge c s = stOk) :
    runNow op judge eff c s = .next (complete c (eff c s)) := by
  simp [runNow, act, h, perform, hj]

/-- A command of class T that fails a check has no effect (R146). -/
theorem runAtTick_fail {op : Nat} {judge : Cmd → State → Nat} {c : Cmd} {s : State}
    (h : holds op c s = true) (ht : s.hw.tWait = none) (hj : statusOf judge c s ≠ stOk) :
    runAtTick op judge c s = .next (complete c (s, statusOf judge c s, none)) := by
  simp [runAtTick, act, h, ht, hj, res]

/-- A command of class T that passes its checks waits for its tick boundary (R153). -/
theorem runAtTick_pass {op : Nat} {judge : Cmd → State → Nat} {c : Cmd} {s : State}
    (h : holds op c s = true) (ht : s.hw.tWait = none) (hj : statusOf judge c s = stOk) :
    runAtTick op judge c s = .next { s with hw := { s.hw with tWait := some (c, s.hw.since) } } := by
  simp [runAtTick, act, h, ht, hj]

/-- A command of class B that fails a check has no effect (R146). -/
theorem runBeside_fail {op : Nat} {kind : BKind} {judge : Cmd → State → Nat} {start : Cmd → State → State}
    {c : Cmd} {s : State} (h : holds op c s = true) (hj : statusOf judge c s ≠ stOk) :
    runBeside op kind judge start c s = .next (complete c (s, statusOf judge c s, none)) := by
  simp [runBeside, act, h, hj, res]

/-- A command of class B that passes its checks starts and frees the executor (R153). -/
theorem runBeside_pass {op : Nat} {kind : BKind} {judge : Cmd → State → Nat} {start : Cmd → State → State}
    {c : Cmd} {s : State} (h : holds op c s = true) (hj : statusOf judge c s = stOk) :
    runBeside op kind judge start c s = .next { start c s with hw := { (start c s).hw with
      exec := none
      classB := (start c s).hw.classB ++ [{ kind := kind, cmd := c, since := (start c s).clk.now }] } } := by
  simp [runBeside, act, h, hj]

/-! ### The checks by opcode -/

theorem judgeCmd_partCreate {c : Cmd} (s : State) (h : 0x0101 = opOf c.desc) :
    judgeCmd c s = some (judgePartCreate c s) := by
  simp [judgeCmd, judgeLow, judgeHigh, ← h]

theorem judgeCmd_partStart {c : Cmd} (s : State) (h : 0x0102 = opOf c.desc) :
    judgeCmd c s = some (judgePartStart c s) := by
  simp [judgeCmd, judgeLow, judgeHigh, ← h]

theorem judgeCmd_partStop {c : Cmd} (s : State) (h : 0x0103 = opOf c.desc) :
    judgeCmd c s = some (judgePartStop c s) := by
  simp [judgeCmd, judgeLow, judgeHigh, ← h]

theorem judgeCmd_partReset {c : Cmd} (s : State) (h : 0x0104 = opOf c.desc) :
    judgeCmd c s = some (judgePartReset c s) := by
  simp [judgeCmd, judgeLow, judgeHigh, ← h]

theorem judgeCmd_partDestroy {c : Cmd} (s : State) (h : 0x0105 = opOf c.desc) :
    judgeCmd c s = some (judgePartDestroy c s) := by
  simp [judgeCmd, judgeLow, judgeHigh, ← h]

theorem judgeCmd_partQuota {c : Cmd} (s : State) (h : 0x0106 = opOf c.desc) :
    judgeCmd c s = some (judgePartQuota c s) := by
  simp [judgeCmd, judgeLow, judgeHigh, ← h]

theorem judgeCmd_partFreeze {c : Cmd} (s : State) (h : 0x0107 = opOf c.desc) :
    judgeCmd c s = some (judgePartFreeze c s) := by
  simp [judgeCmd, judgeLow, judgeHigh, ← h]

theorem judgeCmd_partSave {c : Cmd} (s : State) (h : 0x0108 = opOf c.desc) :
    judgeCmd c s = some (judgePartSave c s) := by
  simp [judgeCmd, judgeLow, judgeHigh, ← h]

theorem judgeCmd_partRestore {c : Cmd} (s : State) (h : 0x0109 = opOf c.desc) :
    judgeCmd c s = some (judgePartRestore c s) := by
  simp [judgeCmd, judgeLow, judgeHigh, ← h]

theorem judgeCmd_partThaw {c : Cmd} (s : State) (h : 0x010A = opOf c.desc) :
    judgeCmd c s = some (judgePartThaw c s) := by
  simp [judgeCmd, judgeLow, judgeHigh, ← h]

theorem judgeCmd_cnpSchedule {c : Cmd} (s : State) (h : 0x0110 = opOf c.desc) :
    judgeCmd c s = some (judgeCnpSchedule c s) := by
  simp [judgeCmd, judgeLow, judgeHigh, ← h]

theorem judgeCmd_cnpBudget {c : Cmd} (s : State) (h : 0x0111 = opOf c.desc) :
    judgeCmd c s = some (judgeCnpBudget c s) := by
  simp [judgeCmd, judgeLow, judgeHigh, ← h]

theorem judgeCmd_cnpWake {c : Cmd} (s : State) (h : 0x0112 = opOf c.desc) :
    judgeCmd c s = some (judgeCnpWake c s) := by
  simp [judgeCmd, judgeLow, judgeHigh, ← h]

theorem judgeCmd_cnpSpare {c : Cmd} (s : State) (h : 0x0113 = opOf c.desc) :
    judgeCmd c s = some (judgeCnpSpare c s) := by
  simp [judgeCmd, judgeLow, judgeHigh, ← h]

theorem judgeCmd_cnpTick {c : Cmd} (s : State) (h : 0x0114 = opOf c.desc) :
    judgeCmd c s = some (judgeCnpTick c s) := by
  simp [judgeCmd, judgeLow, judgeHigh, ← h]

theorem judgeCmd_triadReset {c : Cmd} (s : State) (h : 0x0120 = opOf c.desc) :
    judgeCmd c s = some (judgeTriadReset c s) := by
  simp [judgeCmd, judgeLow, judgeHigh, ← h]

theorem judgeCmd_triadRejoin {c : Cmd} (s : State) (h : 0x0121 = opOf c.desc) :
    judgeCmd c s = some (judgeTriadRejoin c s) := by
  simp [judgeCmd, judgeLow, judgeHigh, ← h]

theorem judgeCmd_moduleReset {c : Cmd} (s : State) (h : 0x0130 = opOf c.desc) :
    judgeCmd c s = some (judgeModuleReset c s) := by
  simp [judgeCmd, judgeLow, judgeHigh, ← h]

theorem judgeCmd_bootComplete {c : Cmd} (s : State) (h : 0x0131 = opOf c.desc) :
    judgeCmd c s = some (judgeBootComplete c s) := by
  simp [judgeCmd, judgeLow, judgeHigh, ← h]

theorem judgeCmd_ringCreate {c : Cmd} (s : State) (h : 0x0201 = opOf c.desc) :
    judgeCmd c s = some (judgeRingCreate c s) := by
  simp [judgeCmd, judgeLow, judgeHigh, ← h]

theorem judgeCmd_ringEnable {c : Cmd} (s : State) (h : 0x0202 = opOf c.desc) :
    judgeCmd c s = some (judgeRingEnable c s) := by
  simp [judgeCmd, judgeLow, judgeHigh, ← h]

theorem judgeCmd_ringDisable {c : Cmd} (s : State) (h : 0x0203 = opOf c.desc) :
    judgeCmd c s = some (judgeRingDisable c s) := by
  simp [judgeCmd, judgeLow, judgeHigh, ← h]

theorem judgeCmd_ringReset {c : Cmd} (s : State) (h : 0x0204 = opOf c.desc) :
    judgeCmd c s = some (judgeRingReset c s) := by
  simp [judgeCmd, judgeLow, judgeHigh, ← h]

theorem judgeCmd_ringDestroy {c : Cmd} (s : State) (h : 0x0205 = opOf c.desc) :
    judgeCmd c s = some (judgeRingDestroy c s) := by
  simp [judgeCmd, judgeLow, judgeHigh, ← h]

theorem judgeCmd_ringShare {c : Cmd} (s : State) (h : 0x0206 = opOf c.desc) :
    judgeCmd c s = some (judgeRingShare c s) := by
  simp [judgeCmd, judgeLow, judgeHigh, ← h]

theorem judgeCmd_ringQuery {c : Cmd} (s : State) (h : 0x0207 = opOf c.desc) :
    judgeCmd c s = some (judgeRingQuery c s) := by
  simp [judgeCmd, judgeLow, judgeHigh, ← h]

theorem judgeCmd_svSubscribe {c : Cmd} (s : State) (h : 0x0301 = opOf c.desc) :
    judgeCmd c s = some (judgeSvSubscribe c s) := by
  simp [judgeCmd, judgeLow, judgeHigh, ← h]

theorem judgeCmd_svEnable {c : Cmd} (s : State) (h : 0x0302 = opOf c.desc) :
    judgeCmd c s = some (judgeSvEnable c s) := by
  simp [judgeCmd, judgeLow, judgeHigh, ← h]

theorem judgeCmd_svDisable {c : Cmd} (s : State) (h : 0x0303 = opOf c.desc) :
    judgeCmd c s = some (judgeSvDisable c s) := by
  simp [judgeCmd, judgeLow, judgeHigh, ← h]

theorem judgeCmd_svRemove {c : Cmd} (s : State) (h : 0x0304 = opOf c.desc) :
    judgeCmd c s = some (judgeSvRemove c s) := by
  simp [judgeCmd, judgeLow, judgeHigh, ← h]

theorem judgeCmd_svSource {c : Cmd} (s : State) (h : 0x0305 = opOf c.desc) :
    judgeCmd c s = some (judgeSvSource c s) := by
  simp [judgeCmd, judgeLow, judgeHigh, ← h]

theorem judgeCmd_gooseSubscribe {c : Cmd} (s : State) (h : 0x0310 = opOf c.desc) :
    judgeCmd c s = some (judgeGooseSubscribe c s) := by
  simp [judgeCmd, judgeLow, judgeHigh, ← h]

theorem judgeCmd_gooseUnsubscribe {c : Cmd} (s : State) (h : 0x0311 = opOf c.desc) :
    judgeCmd c s = some (judgeGooseUnsubscribe c s) := by
  simp [judgeCmd, judgeLow, judgeHigh, ← h]

theorem judgeCmd_goosePubSet {c : Cmd} (s : State) (h : 0x0320 = opOf c.desc) :
    judgeCmd c s = some (judgeGoosePubSet c s) := by
  simp [judgeCmd, judgeLow, judgeHigh, ← h]

theorem judgeCmd_goosePubEnable {c : Cmd} (s : State) (h : 0x0321 = opOf c.desc) :
    judgeCmd c s = some (judgeGoosePubEnable c s) := by
  simp [judgeCmd, judgeLow, judgeHigh, ← h]

theorem judgeCmd_goosePubDisable {c : Cmd} (s : State) (h : 0x0322 = opOf c.desc) :
    judgeCmd c s = some (judgeGoosePubDisable c s) := by
  simp [judgeCmd, judgeLow, judgeHigh, ← h]

theorem judgeCmd_fltChannel {c : Cmd} (s : State) (h : 0x0330 = opOf c.desc) :
    judgeCmd c s = some (judgeFltChannel c s) := by
  simp [judgeCmd, judgeLow, judgeHigh, ← h]

theorem judgeCmd_fltThreshold {c : Cmd} (s : State) (h : 0x0331 = opOf c.desc) :
    judgeCmd c s = some (judgeFltThreshold c s) := by
  simp [judgeCmd, judgeLow, judgeHigh, ← h]

theorem judgeCmd_fltCoeff {c : Cmd} (s : State) (h : 0x0332 = opOf c.desc) :
    judgeCmd c s = some (judgeFltCoeff c s) := by
  simp [judgeCmd, judgeLow, judgeHigh, ← h]

theorem judgeCmd_portConfig {c : Cmd} (s : State) (h : 0x0401 = opOf c.desc) :
    judgeCmd c s = some (judgePortConfig c s) := by
  simp [judgeCmd, judgeLow, judgeHigh, ← h]

theorem judgeCmd_portEnable {c : Cmd} (s : State) (h : 0x0402 = opOf c.desc) :
    judgeCmd c s = some (judgePortEnable c s) := by
  simp [judgeCmd, judgeLow, judgeHigh, ← h]

theorem judgeCmd_portDisable {c : Cmd} (s : State) (h : 0x0403 = opOf c.desc) :
    judgeCmd c s = some (judgePortDisable c s) := by
  simp [judgeCmd, judgeLow, judgeHigh, ← h]

theorem judgeCmd_portReset {c : Cmd} (s : State) (h : 0x0404 = opOf c.desc) :
    judgeCmd c s = some (judgePortReset c s) := by
  simp [judgeCmd, judgeLow, judgeHigh, ← h]

theorem judgeCmd_portFilter {c : Cmd} (s : State) (h : 0x0405 = opOf c.desc) :
    judgeCmd c s = some (judgePortFilter c s) := by
  simp [judgeCmd, judgeLow, judgeHigh, ← h]

theorem judgeCmd_swExactAdd {c : Cmd} (s : State) (h : 0x0410 = opOf c.desc) :
    judgeCmd c s = some (judgeSwExactAdd c s) := by
  simp [judgeCmd, judgeLow, judgeHigh, ← h]

theorem judgeCmd_swExactDel {c : Cmd} (s : State) (h : 0x0411 = opOf c.desc) :
    judgeCmd c s = some (judgeSwExactDel c s) := by
  simp [judgeCmd, judgeLow, judgeHigh, ← h]

theorem judgeCmd_swWildSet {c : Cmd} (s : State) (h : 0x0412 = opOf c.desc) :
    judgeCmd c s = some (judgeSwWildSet c s) := by
  simp [judgeCmd, judgeLow, judgeHigh, ← h]

theorem judgeCmd_swWildDel {c : Cmd} (s : State) (h : 0x0413 = opOf c.desc) :
    judgeCmd c s = some (judgeSwWildDel c s) := by
  simp [judgeCmd, judgeLow, judgeHigh, ← h]

theorem judgeCmd_swQueue {c : Cmd} (s : State) (h : 0x0420 = opOf c.desc) :
    judgeCmd c s = some (judgeSwQueue c s) := by
  simp [judgeCmd, judgeLow, judgeHigh, ← h]

theorem judgeCmd_swRed {c : Cmd} (s : State) (h : 0x0421 = opOf c.desc) :
    judgeCmd c s = some (judgeSwRed c s) := by
  simp [judgeCmd, judgeLow, judgeHigh, ← h]

theorem judgeCmd_swRedun {c : Cmd} (s : State) (h : 0x0430 = opOf c.desc) :
    judgeCmd c s = some (judgeSwRedun c s) := by
  simp [judgeCmd, judgeLow, judgeHigh, ← h]

theorem judgeCmd_swPaths {c : Cmd} (s : State) (h : 0x0431 = opOf c.desc) :
    judgeCmd c s = some (judgeSwPaths c s) := by
  simp [judgeCmd, judgeLow, judgeHigh, ← h]

theorem judgeCmd_tbConfig {c : Cmd} (s : State) (h : 0x0501 = opOf c.desc) :
    judgeCmd c s = some (judgeTbConfig c s) := by
  simp [judgeCmd, judgeLow, judgeHigh, ← h]

theorem judgeCmd_tbEnable {c : Cmd} (s : State) (h : 0x0502 = opOf c.desc) :
    judgeCmd c s = some (judgeTbEnable c s) := by
  simp [judgeCmd, judgeLow, judgeHigh, ← h]

theorem judgeCmd_tbDisable {c : Cmd} (s : State) (h : 0x0503 = opOf c.desc) :
    judgeCmd c s = some (judgeTbDisable c s) := by
  simp [judgeCmd, judgeLow, judgeHigh, ← h]

theorem judgeCmd_tbRearm {c : Cmd} (s : State) (h : 0x0504 = opOf c.desc) :
    judgeCmd c s = some (judgeTbRearm c s) := by
  simp [judgeCmd, judgeLow, judgeHigh, ← h]

theorem judgeCmd_tbPps {c : Cmd} (s : State) (h : 0x0505 = opOf c.desc) :
    judgeCmd c s = some (judgeTbPps c s) := by
  simp [judgeCmd, judgeLow, judgeHigh, ← h]

theorem judgeCmd_keyLoad {c : Cmd} (s : State) (h : 0x0601 = opOf c.desc) :
    judgeCmd c s = some (judgeKeyLoad c s) := by
  simp [judgeCmd, judgeLow, judgeHigh, ← h]

theorem judgeCmd_keyInvalidate {c : Cmd} (s : State) (h : 0x0602 = opOf c.desc) :
    judgeCmd c s = some (judgeKeyInvalidate c s) := by
  simp [judgeCmd, judgeLow, judgeHigh, ← h]

theorem judgeCmd_keyQuery {c : Cmd} (s : State) (h : 0x0603 = opOf c.desc) :
    judgeCmd c s = some (judgeKeyQuery c s) := by
  simp [judgeCmd, judgeLow, judgeHigh, ← h]

theorem judgeCmd_keyRollover {c : Cmd} (s : State) (h : 0x0604 = opOf c.desc) :
    judgeCmd c s = some (judgeKeyRollover c s) := by
  simp [judgeCmd, judgeLow, judgeHigh, ← h]

theorem judgeCmd_acqConfig {c : Cmd} (s : State) (h : 0x0701 = opOf c.desc) :
    judgeCmd c s = some (judgeAcqConfig c s) := by
  simp [judgeCmd, judgeLow, judgeHigh, ← h]

theorem judgeCmd_acqArm {c : Cmd} (s : State) (h : 0x0702 = opOf c.desc) :
    judgeCmd c s = some (judgeAcqArm c s) := by
  simp [judgeCmd, judgeLow, judgeHigh, ← h]

theorem judgeCmd_acqDisarm {c : Cmd} (s : State) (h : 0x0703 = opOf c.desc) :
    judgeCmd c s = some (judgeAcqDisarm c s) := by
  simp [judgeCmd, judgeLow, judgeHigh, ← h]

theorem judgeCmd_acqTrigger {c : Cmd} (s : State) (h : 0x0704 = opOf c.desc) :
    judgeCmd c s = some (judgeAcqTrigger c s) := by
  simp [judgeCmd, judgeLow, judgeHigh, ← h]

theorem judgeCmd_acqRelease {c : Cmd} (s : State) (h : 0x0705 = opOf c.desc) :
    judgeCmd c s = some (judgeAcqRelease c s) := by
  simp [judgeCmd, judgeLow, judgeHigh, ← h]

theorem judgeCmd_gftPair {c : Cmd} (s : State) (h : 0x0801 = opOf c.desc) :
    judgeCmd c s = some (judgeGftPair c s) := by
  simp [judgeCmd, judgeLow, judgeHigh, ← h]

theorem judgeCmd_gftUnpair {c : Cmd} (s : State) (h : 0x0802 = opOf c.desc) :
    judgeCmd c s = some (judgeGftUnpair c s) := by
  simp [judgeCmd, judgeLow, judgeHigh, ← h]

theorem judgeCmd_gftMirror {c : Cmd} (s : State) (h : 0x0803 = opOf c.desc) :
    judgeCmd c s = some (judgeGftMirror c s) := by
  simp [judgeCmd, judgeLow, judgeHigh, ← h]

theorem judgeCmd_gftSwitch {c : Cmd} (s : State) (h : 0x0804 = opOf c.desc) :
    judgeCmd c s = some (judgeGftSwitch c s) := by
  simp [judgeCmd, judgeLow, judgeHigh, ← h]

theorem judgeCmd_gftStatus {c : Cmd} (s : State) (h : 0x0805 = opOf c.desc) :
    judgeCmd c s = some (judgeGftStatus c s) := by
  simp [judgeCmd, judgeLow, judgeHigh, ← h]

theorem judgeCmd_logRead {c : Cmd} (s : State) (h : 0x0901 = opOf c.desc) :
    judgeCmd c s = some (judgeLogRead c s) := by
  simp [judgeCmd, judgeLow, judgeHigh, ← h]

theorem judgeCmd_logNote {c : Cmd} (s : State) (h : 0x0902 = opOf c.desc) :
    judgeCmd c s = some (judgeLogNote c s) := by
  simp [judgeCmd, judgeLow, judgeHigh, ← h]

theorem judgeCmd_eccBucket {c : Cmd} (s : State) (h : 0x0903 = opOf c.desc) :
    judgeCmd c s = some (judgeEccBucket c s) := by
  simp [judgeCmd, judgeLow, judgeHigh, ← h]

theorem judgeCmd_eccQuery {c : Cmd} (s : State) (h : 0x0904 = opOf c.desc) :
    judgeCmd c s = some (judgeEccQuery c s) := by
  simp [judgeCmd, judgeLow, judgeHigh, ← h]

theorem judgeCmd_imgErase {c : Cmd} (s : State) (h : 0x0910 = opOf c.desc) :
    judgeCmd c s = some (judgeImgErase c s) := by
  simp [judgeCmd, judgeLow, judgeHigh, ← h]

theorem judgeCmd_imgWrite {c : Cmd} (s : State) (h : 0x0911 = opOf c.desc) :
    judgeCmd c s = some (judgeImgWrite c s) := by
  simp [judgeCmd, judgeLow, judgeHigh, ← h]

theorem judgeCmd_imgCheck {c : Cmd} (s : State) (h : 0x0912 = opOf c.desc) :
    judgeCmd c s = some (judgeImgCheck c s) := by
  simp [judgeCmd, judgeLow, judgeHigh, ← h]

theorem judgeCmd_imgHostLoad {c : Cmd} (s : State) (h : 0x0913 = opOf c.desc) :
    judgeCmd c s = some (judgeImgHostLoad c s) := by
  simp [judgeCmd, judgeLow, judgeHigh, ← h]

theorem judgeCmd_imgHostStart {c : Cmd} (s : State) (h : 0x0914 = opOf c.desc) :
    judgeCmd c s = some (judgeImgHostStart c s) := by
  simp [judgeCmd, judgeLow, judgeHigh, ← h]

theorem judgeCmd_imgFloor {c : Cmd} (s : State) (h : 0x0915 = opOf c.desc) :
    judgeCmd c s = some (judgeImgFloor c s) := by
  simp [judgeCmd, judgeLow, judgeHigh, ← h]

theorem judgeCmd_seedlingExit {c : Cmd} (s : State) (h : 0x0920 = opOf c.desc) :
    judgeCmd c s = some (judgeSeedlingExit c s) := by
  simp [judgeCmd, judgeLow, judgeHigh, ← h]

theorem judgeCmd_outConfig {c : Cmd} (s : State) (h : 0x0A01 = opOf c.desc) :
    judgeCmd c s = some (judgeOutConfig c s) := by
  simp [judgeCmd, judgeLow, judgeHigh, ← h]

theorem judgeCmd_outEnable {c : Cmd} (s : State) (h : 0x0A02 = opOf c.desc) :
    judgeCmd c s = some (judgeOutEnable c s) := by
  simp [judgeCmd, judgeLow, judgeHigh, ← h]

theorem judgeCmd_outDisable {c : Cmd} (s : State) (h : 0x0A03 = opOf c.desc) :
    judgeCmd c s = some (judgeOutDisable c s) := by
  simp [judgeCmd, judgeLow, judgeHigh, ← h]

theorem judgeCmd_outInhClear {c : Cmd} (s : State) (h : 0x0A04 = opOf c.desc) :
    judgeCmd c s = some (judgeOutInhClear c s) := by
  simp [judgeCmd, judgeLow, judgeHigh, ← h]

theorem judgeCmd_binConfig {c : Cmd} (s : State) (h : 0x0A10 = opOf c.desc) :
    judgeCmd c s = some (judgeBinConfig c s) := by
  simp [judgeCmd, judgeLow, judgeHigh, ← h]

theorem judgeCmd_binEnable {c : Cmd} (s : State) (h : 0x0A11 = opOf c.desc) :
    judgeCmd c s = some (judgeBinEnable c s) := by
  simp [judgeCmd, judgeLow, judgeHigh, ← h]

theorem judgeCmd_binDisable {c : Cmd} (s : State) (h : 0x0A12 = opOf c.desc) :
    judgeCmd c s = some (judgeBinDisable c s) := by
  simp [judgeCmd, judgeLow, judgeHigh, ← h]

theorem judgeCmd_obsTrace {c : Cmd} (s : State) (h : 0x0B01 = opOf c.desc) :
    judgeCmd c s = some (judgeObsTrace c s) := by
  simp [judgeCmd, judgeLow, judgeHigh, ← h]

theorem judgeCmd_obsSnapshot {c : Cmd} (s : State) (h : 0x0B02 = opOf c.desc) :
    judgeCmd c s = some (judgeObsSnapshot c s) := by
  simp [judgeCmd, judgeLow, judgeHigh, ← h]

theorem judgeCmd_snsConfig {c : Cmd} (s : State) (h : 0x0B03 = opOf c.desc) :
    judgeCmd c s = some (judgeSnsConfig c s) := by
  simp [judgeCmd, judgeLow, judgeHigh, ← h]

theorem judgeCmd_snsRead {c : Cmd} (s : State) (h : 0x0B04 = opOf c.desc) :
    judgeCmd c s = some (judgeSnsRead c s) := by
  simp [judgeCmd, judgeLow, judgeHigh, ← h]

theorem judgeCmd_obsIdent {c : Cmd} (s : State) (h : 0x0B05 = opOf c.desc) :
    judgeCmd c s = some (judgeObsIdent c s) := by
  simp [judgeCmd, judgeLow, judgeHigh, ← h]

end Sys2Proof.Machine
end

