-- ==== Sys2Proof/Laws/Crypto.lean ====
section
/-! SUPPORT. Laws of the ciphers: lengths, and what was sealed opens (SP 800-38D as R212 uses it). -/

namespace Sys2Proof.Machine

open Sys2Proof

@[simp] theorem toLe_length (n x : Nat) : (toLe n x).length = n := by
  induction n generalizing x with
  | zero => rfl
  | succ n ih => simp [toLe, ih]

@[simp] theorem toBe_length (n x : Nat) : (toBe n x).length = n := by simp [toBe]

@[simp] theorem addKey_length (b k : List Nat) : (addKey b k).length = min b.length k.length := by simp [addKey]

@[simp] theorem xorBytes_length (a b : Bytes) : (xorBytes a b).length = min a.length b.length := by simp [xorBytes]

/-! ### Round keys -/

theorem nextWord_length {nk i rcon : Nat} {ws : List (List Nat)} (hw : ∀ w ∈ ws, w.length = 4) (hn : nk ≤ ws.length)
    (h0 : 0 < nk) : (nextWord nk i ws rcon).length = 4 := by
  have ht : (ws.headD []).length = 4 := by
    cases ws with
    | nil => simp at hn; omega
    | cons w r => simpa using hw w (by simp)
  have hl : (ws.getD (nk - 1) []).length = 4 := by
    rw [List.getD_eq_getElem _ _ (by omega)]
    exact hw _ (List.getElem_mem _)
  unfold nextWord
  generalize ws.headD [] = t at ht
  generalize ws.getD (nk - 1) [] = l at hl
  split
  · simp [hl, ht]
  · split <;> simp [hl, ht]

theorem expand_words {nk : Nat} (h0 : 0 < nk) (n i rcon : Nat) {ws : List (List Nat)} (hw : ∀ w ∈ ws, w.length = 4)
    (hn : nk ≤ ws.length) :
    (∀ w ∈ expand nk n i rcon ws, w.length = 4) ∧ (expand nk n i rcon ws).length = n + ws.length := by
  induction n generalizing i rcon ws with
  | zero => exact ⟨hw, by simp [expand]⟩
  | succ n ih =>
    have h := ih (i + 1) (if i % nk = 0 then xtime rcon else rcon) (ws := nextWord nk i ws rcon :: ws)
      (by rintro w (_ | ⟨_, hm⟩); exacts [nextWord_length hw hn h0, hw w hm]) (by simp; omega)
    exact ⟨h.1, by rw [expand, h.2]; simp; omega⟩

theorem flatten_length_four {l : List (List Nat)} (h : ∀ w ∈ l, w.length = 4) : l.flatten.length = 4 * l.length := by
  induction l with
  | nil => rfl
  | cons w r ih =>
    have h1 := ih fun x hx => h x (by simp [hx])
    have h2 := h w (by simp)
    rw [List.flatten_cons, List.length_append, h1, h2, List.length_cons]; omega

/-- A key of 16 or 32 bytes has round keys of 16 bytes. -/
theorem roundKeys_length {key : Bytes} (h : key.length = 16 ∨ key.length = 32) : ∀ k ∈ roundKeys key, k.length = 16 := by
  intro k hk
  simp only [roundKeys, List.mem_map, List.mem_range] at hk
  obtain ⟨r, hr, rfl⟩ := hk
  have hx := expand_words (nk := key.length / 4) (by omega) (4 * (key.length / 4 + 7) - key.length / 4) (key.length / 4) 1
    (ws := ((List.range (key.length / 4)).map fun i => ((key.map BitVec.toNat).drop (4 * i)).take 4).reverse)
    (by
      intro w hw
      simp only [List.mem_reverse, List.mem_map, List.mem_range] at hw
      obtain ⟨i, hi, rfl⟩ := hw
      simp; omega)
    (by simp)
  rw [flatten_length_four]
  · simp only [List.length_take, List.length_drop, List.length_reverse, hx.2, List.length_map, List.length_range]
    omega
  · intro w hw
    exact hx.1 w (by simpa using List.mem_of_mem_drop (List.mem_of_mem_take hw))

/-! ### One block -/

theorem mixCol_length {r : Nat × Nat × Nat × Nat} {c : List Nat} (h : c.length = 4) : (mixCol r c).length = 4 := by
  match c, h with
  | [_, _, _, _], _ => rfl

theorem mixColumns_length {b : List Nat} {r : Nat × Nat × Nat × Nat} (h : b.length = 16) :
    ((columns b).flatMap (mixCol r)).length = 16 := by
  have h4 : ∀ c ∈ columns b, c.length = 4 := by
    intro c hc
    simp only [columns, List.mem_map, List.mem_range] at hc
    obtain ⟨i, hi, rfl⟩ := hc
    simp; omega
  rw [List.flatMap_def, flatten_length_four]
  · simp [columns]
  · intro w hw
    simp only [List.mem_map] at hw
    obtain ⟨c, hc, rfl⟩ := hw
    exact mixCol_length (h4 c hc)

theorem aesRounds_length {ks : List (List Nat)} (hk : ∀ k ∈ ks, k.length = 16) {b : List Nat} (hb : b.length = 16) :
    (aesRounds ks b).length = 16 := by
  induction ks generalizing b with
  | nil => simpa [aesRounds] using hb
  | cons k r ih =>
    have h0 := hk k (by simp)
    cases r with
    | nil => simp [aesRounds, shiftRows, h0]
    | cons k2 r2 =>
      rw [aesRounds]
      · exact ih (fun x hx => hk x (by simp [hx])) (by
          rw [addKey_length, h0, mixColumns_length (by simp [shiftRows])]; rfl)
      · simp

/-- A block of the cipher has 16 bytes. -/
theorem aesWith_length {ks : List (List Nat)} (hk : ∀ k ∈ ks, k.length = 16) (h0 : ks ≠ []) {b : Bytes}
    (hb : b.length = 16) : (aesWith ks b).length = 16 := by
  cases ks with
  | nil => exact absurd rfl h0
  | cons k r =>
    have := hk k (by simp)
    simp only [aesWith, List.length_map, List.drop_one, List.tail_cons, List.headD_cons]
    exact aesRounds_length (fun x hx => hk x (by simp [hx])) (by simp [hb, this])

/-! ### Counter mode and GCM -/

theorem xorBytes_cancel {a s : Bytes} (h : a.length ≤ s.length) : xorBytes (xorBytes a s) s = a := by
  induction a generalizing s with
  | nil => simp [xorBytes]
  | cons x r ih =>
    cases s with
    | nil => simp at h
    | cons y t =>
      have := ih (s := t) (by simpa using h)
      simp only [xorBytes] at this ⊢
      simp [this]

theorem flatMap_range_length {n k : Nat} {f : Nat → Bytes} (h : ∀ i, (f i).length = k) :
    ((List.range n).flatMap f).length = n * k := by
  simp [List.length_flatMap, h]

theorem stream_length {ks : List (List Nat)} (hk : ∀ k ∈ ks, k.length = 16) (h0 : ks ≠ []) {nonce : Bytes}
    (hn : nonce.length = 12) (c n : Nat) :
    ((List.range n).flatMap fun i => aesWith ks (nonce ++ toBe 4 ((c + i) % 2 ^ 32))).length = n * 16 :=
  flatMap_range_length fun i => aesWith_length hk h0 (by simp [hn])

theorem gctr_length {ks : List (List Nat)} (hk : ∀ k ∈ ks, k.length = 16) (h0 : ks ≠ []) {nonce : Bytes}
    (hn : nonce.length = 12) (c : Nat) (m : Bytes) : (gctr ks nonce c m).length = m.length := by
  rw [gctr, xorBytes_length, stream_length hk h0 hn]; omega

/-- Counter mode undoes itself. -/
theorem gctr_gctr {ks : List (List Nat)} (hk : ∀ k ∈ ks, k.length = 16) (h0 : ks ≠ []) {nonce : Bytes}
    (hn : nonce.length = 12) (c : Nat) (m : Bytes) : gctr ks nonce c (gctr ks nonce c m) = m := by
  conv_lhs => rw [gctr, gctr_length hk h0 hn]
  rw [gctr]
  exact xorBytes_cancel (by rw [stream_length hk h0 hn]; omega)

theorem roundKeys_ne_nil (key : Bytes) : roundKeys key ≠ [] := by simp [roundKeys]

/-- What GCM sealed under a key opens to the plaintext under the same key, nonce and data. -/
theorem gcmOpen_gcmSeal {key nonce : Bytes} (aad pt : Bytes) (hk : key.length = 16 ∨ key.length = 32)
    (hn : nonce.length = 12) : gcmOpen key nonce aad (gcmSeal key nonce aad pt) = some pt := by
  have ks := roundKeys_length hk
  have k0 := roundKeys_ne_nil key
  have ht : ∀ ct, (gcmTag (roundKeys key) nonce aad ct).length = 16 := fun ct => by
    rw [gcmTag, gctr_length ks k0 hn]; simp
  simp only [gcmOpen, gcmSeal, List.length_append, ht, Nat.add_sub_cancel, List.take_left', List.drop_left',
    if_true, gctr_gctr ks k0 hn]

theorem gcmSeal_length {key nonce : Bytes} (aad pt : Bytes) (hk : key.length = 16 ∨ key.length = 32)
    (hn : nonce.length = 12) : (gcmSeal key nonce aad pt).length = pt.length + 16 := by
  have ks := roundKeys_length hk
  have k0 := roundKeys_ne_nil key
  rw [gcmSeal, List.length_append, gcmTag, gctr_length ks k0 hn, gctr_length ks k0 hn]; simp

/-- A number read within the first part of two is that of the first part. -/
theorem leAt_append {a : Bytes} (b : Bytes) {i n : Nat} (h : i + n ≤ a.length) : leAt (a ++ b) i n = leAt a i n := by
  rw [leAt, leAt, List.drop_append_of_le_length (by omega), List.take_append_of_le_length (by simp; omega)]

/-! ### Digests -/

theorem shaFold_length (p : Sha) (f : Nat → Bytes) (l : List Nat) {h : List Nat} (h8 : h.length = 8) :
    (l.foldl (fun h i => shaBlock p h (f i)) h).length = 8 := by
  induction l generalizing h with
  | nil => exact h8
  | cons i r ih => exact ih (by simp [shaBlock, h8])

theorem sha256_length (b : Bytes) : (sha256 b).length = 32 := by
  simp only [sha256, sha2, List.length_take, List.length_flatMap, toBe_length]
  rw [List.map_const', shaFold_length _ (fun i => ((shaPad sha256P b).drop (2 * sha256P.word * i)).take (2 * sha256P.word))
    _ (by simp)]
  rfl

/-- A derived key has 256 bits (R423). -/
theorem kdf_length (key l c : Bytes) : (kdf key l c).length = 32 := sha256_length _

theorem groveSeal_length (g : KSlot) : (groveSeal g).length = 32 := kdf_length ..

/-! ### CRC-32 -/

theorem crc32Bit_lt {p c : Nat} (hp : p < 2 ^ 32) (hc : c < 2 ^ 32) : crc32Bit p c < 2 ^ 32 := by
  unfold crc32Bit
  split
  · exact Nat.xor_lt_two_pow (by omega) hp
  · omega

theorem crc32Byte_lt {p c : Nat} (hp : p < 2 ^ 32) (hc : c < 2 ^ 32) (b : Byte) : crc32Byte p c b < 2 ^ 32 := by
  have h0 : c.xor b.toNat < 2 ^ 32 := Nat.xor_lt_two_pow hc (by omega)
  simp only [crc32Byte]
  have it : ∀ n x, x < 2 ^ 32 → Nat.iterate (crc32Bit p) n x < 2 ^ 32 := by
    intro n
    induction n with
    | zero => exact fun _ h => h
    | succ n ih => exact fun x h => ih _ (crc32Bit_lt hp h)
  exact it 8 _ h0

/-- A CRC-32 is a word (R559). -/
theorem crc32_lt (b : Bytes) : crc32 b < 2 ^ 32 := by
  have h : ∀ c, c < 2 ^ 32 → b.foldl (crc32Byte 0xEDB88320) c < 2 ^ 32 := by
    induction b with
    | nil => exact fun _ h => h
    | cons x r ih => exact fun c hc => ih _ (crc32Byte_lt (by decide) hc x)
  exact Nat.xor_lt_two_pow (h _ (by decide)) (by decide)

end Sys2Proof.Machine
end

