-- ==== Sys2Proof/Laws/Memory.lean ====
section
/-! SUPPORT. Laws of memory: every operation keeps the canonical form, and what a read finds after a write. -/

namespace Sys2Proof.Machine

open Sys2Proof

/-- The canonical form as two facts: addresses rise, and no cell holds 0. -/
theorem wf_iff (m : List Host.Cell) :
    Memory.wf m = true ↔ m.Pairwise (fun c d => c.1 < d.1) ∧ ∀ c ∈ m, c.2 ≠ 0 := by
  induction m with
  | nil => simp [Memory.wf]
  | cons c r ih =>
    cases r with
    | nil => simp [Memory.wf]
    | cons d q =>
      simp only [Memory.wf, Bool.and_eq_true, bne_iff_ne, ne_eq, decide_eq_true_eq, ih, List.pairwise_cons,
        List.mem_cons, forall_eq_or_imp]
      constructor
      · rintro ⟨⟨h0, h1⟩, ⟨h2, h3⟩, h4, h5⟩
        exact ⟨⟨⟨h1, fun e he => Nat.lt_trans h1 (h2 e he)⟩, h2, h3⟩, h0, h4, h5⟩
      · rintro ⟨⟨⟨h1, _⟩, h2, h3⟩, h0, h4, h5⟩
        exact ⟨⟨h0, h1⟩, ⟨h2, h3⟩, h4, h5⟩

/-- Part of a canonical memory is canonical. -/
theorem wf_filter (m : List Host.Cell) (p : Host.Cell → Bool) (h : Memory.wf m = true) :
    Memory.wf (m.filter p) = true := by
  rw [wf_iff] at *
  exact ⟨h.1.filter p, fun c hc => h.2 c (List.mem_of_mem_filter hc)⟩

theorem wf_zero (m : List Host.Cell) (a n : Nat) (h : Memory.wf m = true) : Memory.wf (Memory.zero m a n) = true :=
  wf_filter m _ h

theorem wf_cells (m : List Host.Cell) (a n : Nat) (h : Memory.wf m = true) : Memory.wf (Memory.cells m a n) = true :=
  wf_filter m _ h

/-- A cell after a write is a cell from before, or the written one. -/
theorem mem_set (m : List Host.Cell) (a : Nat) (b : Byte) (c : Host.Cell) (h : c ∈ Memory.set m a b) :
    c ∈ m ∨ (c = (a, b) ∧ b ≠ 0) := by
  induction m with
  | nil =>
    unfold Memory.set at h
    split at h <;> simp_all
  | cons d r ih =>
    unfold Memory.set at h
    split at h
    · rcases List.mem_cons.mp h with rfl | h
      · exact .inl List.mem_cons_self
      · exact (ih h).imp_left (List.mem_cons_of_mem _)
    · split at h <;> split at h <;> simp_all <;> tauto

/-- One byte written keeps the canonical form. -/
theorem wf_set (m : List Host.Cell) (a : Nat) (b : Byte) (h : Memory.wf m = true) :
    Memory.wf (Memory.set m a b) = true := by
  rw [wf_iff] at *
  refine ⟨?_, fun c hc => ?_⟩
  · obtain ⟨h, -⟩ := h
    induction m with
    | nil => unfold Memory.set; split <;> simp
    | cons d r ih =>
      obtain ⟨h1, h2⟩ := List.pairwise_cons.mp h
      unfold Memory.set
      split
      · refine List.pairwise_cons.mpr ⟨fun e he => ?_, ih h2⟩
        rcases mem_set r a b e he with h3 | ⟨rfl, _⟩
        · exact h1 e h3
        · assumption
      · split
        · split
          · exact h2
          · refine List.pairwise_cons.mpr ⟨fun e he => ?_, h2⟩
            have := h1 e he
            simp_all
        · split
          · exact h
          · refine List.pairwise_cons.mpr ⟨fun e he => ?_, h⟩
            rcases List.mem_cons.mp he with rfl | he
            · simp; omega
            · have := h1 e he
              simp; omega
  · rcases mem_set m a b c hc with h3 | ⟨rfl, h3⟩
    · exact h.2 c h3
    · exact h3

theorem wf_write (m : List Host.Cell) (a : Nat) (b : Bytes) (h : Memory.wf m = true) :
    Memory.wf (Memory.write m a b) = true := by
  induction b generalizing m a with
  | nil => exact h
  | cons x xs ih => exact ih _ _ (wf_set m a x h)

theorem wf_fill (m l : List Host.Cell) (h : Memory.wf m = true) : Memory.wf (Memory.fill m l) = true := by
  induction l generalizing m with
  | nil => exact h
  | cons c cs ih => exact ih _ (wf_set m c.1 c.2 h)

theorem wf_applyWrites (base : Nat) (m : List Host.Cell) (l : List (Nat × Bytes)) (h : Memory.wf m = true) :
    Memory.wf (applyWrites base m l) = true := by
  induction l generalizing m with
  | nil => exact h
  | cons w ws ih => exact ih _ (wf_write m _ w.2 h)

/-- An address below every listed one reads 0. -/
theorem get_below (m : List Host.Cell) (a : Nat) (h : ∀ c ∈ m, a < c.1) : Memory.get m a = 0 := by
  induction m with
  | nil => rfl
  | cons c r ih =>
    have h1 : c.1 ≠ a := Nat.ne_of_gt (h c List.mem_cons_self)
    simp only [Memory.get, h1, if_false]
    exact ih fun d hd => h d (List.mem_cons_of_mem _ hd)

/-- A read of the byte just written. -/
theorem get_set_self (m : List Host.Cell) (a : Nat) (b : Byte) (h : Memory.wf m = true) :
    Memory.get (Memory.set m a b) a = b := by
  replace h := ((wf_iff m).mp h).1
  induction m with
  | nil => unfold Memory.set; split <;> simp_all [Memory.get]
  | cons c r ih =>
    obtain ⟨h1, h2⟩ := List.pairwise_cons.mp h
    unfold Memory.set
    split
    · have : c.1 ≠ a := by omega
      simp [Memory.get, this, ih h2]
    · split
      · split
        · subst_vars
          exact get_below r _ h1
        · simp [Memory.get]
      · split
        · subst_vars
          refine get_below _ _ fun d hd => ?_
          rcases List.mem_cons.mp hd with rfl | hd
          · omega
          · have := h1 d hd
            omega
        · simp [Memory.get]

/-- A read of another byte. -/
theorem get_set_other (m : List Host.Cell) {a x : Nat} (b : Byte) (h : x ≠ a) :
    Memory.get (Memory.set m a b) x = Memory.get m x := by
  induction m with
  | nil => unfold Memory.set; split <;> simp [Memory.get, h.symm]
  | cons c r ih =>
    unfold Memory.set
    split
    · simp [Memory.get, ih]
    · split <;> split <;> simp_all [Memory.get, h.symm]

/-- A read outside the bytes written. -/
theorem get_write_other (m : List Host.Cell) {a x : Nat} (b : Bytes) (h : x < a ∨ a + b.length ≤ x) :
    Memory.get (Memory.write m a b) x = Memory.get m x := by
  induction b generalizing m a with
  | nil => rfl
  | cons y ys ih =>
    simp only [List.length_cons] at h
    rw [Memory.write, ih _ (by omega), get_set_other m y (by omega)]

end Sys2Proof.Machine
end

