-- ==== Sys2Proof/Laws/State.lean ====
section
/-! SUPPORT. What the shared operations leave alone, one lemma per field, for simp. -/

namespace Sys2Proof.Machine

open Sys2Proof

/-! `grant` -/

@[simp] theorem grant_pending (src : Nat) (s : State) : (grant src s).pending = s.pending := rfl
@[simp] theorem grant_sets (src : Nat) (s : State) : (grant src s).sets = s.sets := rfl
@[simp] theorem grant_free (src : Nat) (s : State) : (grant src s).free = s.free := rfl
@[simp] theorem grant_clk (src : Nat) (s : State) : (grant src s).clk = s.clk := rfl
@[simp] theorem grant_pow (src : Nat) (s : State) : (grant src s).pow = s.pow := rfl
@[simp] theorem grant_rst (src : Nat) (s : State) : (grant src s).rst = s.rst := rfl
@[simp] theorem grant_boot (src : Nat) (s : State) : (grant src s).boot = s.boot := rfl
@[simp] theorem grant_hw (src : Nat) (s : State) : (grant src s).hw = s.hw := rfl
@[simp] theorem grant_rng (src : Nat) (s : State) : (grant src s).rng = s.rng := rfl
@[simp] theorem grant_cnp (src : Nat) (s : State) : (grant src s).cnp = s.cnp := rfl
@[simp] theorem grant_pgk (src : Nat) (s : State) : (grant src s).pgk = s.pgk := rfl
@[simp] theorem grant_mem (src : Nat) (s : State) : (grant src s).mem = s.mem := rfl
@[simp] theorem grant_prt (src : Nat) (s : State) : (grant src s).prt = s.prt := rfl
@[simp] theorem grant_sw (src : Nat) (s : State) : (grant src s).sw = s.sw := rfl
@[simp] theorem grant_tim (src : Nat) (s : State) : (grant src s).tim = s.tim := rfl
@[simp] theorem grant_sv (src : Nat) (s : State) : (grant src s).sv = s.sv := rfl
@[simp] theorem grant_gse (src : Nat) (s : State) : (grant src s).gse = s.gse := rfl
@[simp] theorem grant_flt (src : Nat) (s : State) : (grant src s).flt = s.flt := rfl
@[simp] theorem grant_acq (src : Nat) (s : State) : (grant src s).acq = s.acq := rfl
@[simp] theorem grant_key (src : Nat) (s : State) : (grant src s).key = s.key := rfl
@[simp] theorem grant_gft (src : Nat) (s : State) : (grant src s).gft = s.gft := rfl
@[simp] theorem grant_ecc (src : Nat) (s : State) : (grant src s).ecc = s.ecc := rfl
@[simp] theorem grant_log (src : Nat) (s : State) : (grant src s).log = s.log := rfl
@[simp] theorem grant_mram (src : Nat) (s : State) : (grant src s).mram = s.mram := rfl
@[simp] theorem grant_bin (src : Nat) (s : State) : (grant src s).bin = s.bin := rfl
@[simp] theorem grant_out (src : Nat) (s : State) : (grant src s).out = s.out := rfl
@[simp] theorem grant_obs (src : Nat) (s : State) : (grant src s).obs = s.obs := rfl

/-! `trace` -/

@[simp] theorem trace_pending (p : Option Nat) (r : TrRec) (s : State) : (trace p r s).pending = s.pending := rfl
@[simp] theorem trace_sets (p : Option Nat) (r : TrRec) (s : State) : (trace p r s).sets = s.sets := rfl
@[simp] theorem trace_free (p : Option Nat) (r : TrRec) (s : State) : (trace p r s).free = s.free := rfl
@[simp] theorem trace_clk (p : Option Nat) (r : TrRec) (s : State) : (trace p r s).clk = s.clk := rfl
@[simp] theorem trace_pow (p : Option Nat) (r : TrRec) (s : State) : (trace p r s).pow = s.pow := rfl
@[simp] theorem trace_rst (p : Option Nat) (r : TrRec) (s : State) : (trace p r s).rst = s.rst := rfl
@[simp] theorem trace_boot (p : Option Nat) (r : TrRec) (s : State) : (trace p r s).boot = s.boot := rfl
@[simp] theorem trace_arb (p : Option Nat) (r : TrRec) (s : State) : (trace p r s).arb = s.arb := rfl
@[simp] theorem trace_hw (p : Option Nat) (r : TrRec) (s : State) : (trace p r s).hw = s.hw := rfl
@[simp] theorem trace_rng (p : Option Nat) (r : TrRec) (s : State) : (trace p r s).rng = s.rng := rfl
@[simp] theorem trace_cnp (p : Option Nat) (r : TrRec) (s : State) : (trace p r s).cnp = s.cnp := rfl
@[simp] theorem trace_pgk (p : Option Nat) (r : TrRec) (s : State) : (trace p r s).pgk = s.pgk := rfl
@[simp] theorem trace_mem (p : Option Nat) (r : TrRec) (s : State) : (trace p r s).mem = s.mem := rfl
@[simp] theorem trace_prt (p : Option Nat) (r : TrRec) (s : State) : (trace p r s).prt = s.prt := rfl
@[simp] theorem trace_sw (p : Option Nat) (r : TrRec) (s : State) : (trace p r s).sw = s.sw := rfl
@[simp] theorem trace_tim (p : Option Nat) (r : TrRec) (s : State) : (trace p r s).tim = s.tim := rfl
@[simp] theorem trace_sv (p : Option Nat) (r : TrRec) (s : State) : (trace p r s).sv = s.sv := rfl
@[simp] theorem trace_gse (p : Option Nat) (r : TrRec) (s : State) : (trace p r s).gse = s.gse := rfl
@[simp] theorem trace_flt (p : Option Nat) (r : TrRec) (s : State) : (trace p r s).flt = s.flt := rfl
@[simp] theorem trace_acq (p : Option Nat) (r : TrRec) (s : State) : (trace p r s).acq = s.acq := rfl
@[simp] theorem trace_key (p : Option Nat) (r : TrRec) (s : State) : (trace p r s).key = s.key := rfl
@[simp] theorem trace_gft (p : Option Nat) (r : TrRec) (s : State) : (trace p r s).gft = s.gft := rfl
@[simp] theorem trace_ecc (p : Option Nat) (r : TrRec) (s : State) : (trace p r s).ecc = s.ecc := rfl
@[simp] theorem trace_log (p : Option Nat) (r : TrRec) (s : State) : (trace p r s).log = s.log := rfl
@[simp] theorem trace_mram (p : Option Nat) (r : TrRec) (s : State) : (trace p r s).mram = s.mram := rfl
@[simp] theorem trace_bin (p : Option Nat) (r : TrRec) (s : State) : (trace p r s).bin = s.bin := rfl
@[simp] theorem trace_out (p : Option Nat) (r : TrRec) (s : State) : (trace p r s).out = s.out := rfl

/-! `raise` -/

@[simp] theorem raise_pending (e : Ev) (s : State) : (raise e s).pending = s.pending := rfl
@[simp] theorem raise_sets (e : Ev) (s : State) : (raise e s).sets = s.sets := rfl
@[simp] theorem raise_free (e : Ev) (s : State) : (raise e s).free = s.free := rfl
@[simp] theorem raise_clk (e : Ev) (s : State) : (raise e s).clk = s.clk := rfl
@[simp] theorem raise_pow (e : Ev) (s : State) : (raise e s).pow = s.pow := rfl
@[simp] theorem raise_rst (e : Ev) (s : State) : (raise e s).rst = s.rst := rfl
@[simp] theorem raise_boot (e : Ev) (s : State) : (raise e s).boot = s.boot := rfl
@[simp] theorem raise_rng (e : Ev) (s : State) : (raise e s).rng = s.rng := rfl
@[simp] theorem raise_pgk (e : Ev) (s : State) : (raise e s).pgk = s.pgk := rfl
@[simp] theorem raise_prt (e : Ev) (s : State) : (raise e s).prt = s.prt := rfl
@[simp] theorem raise_sw (e : Ev) (s : State) : (raise e s).sw = s.sw := rfl
@[simp] theorem raise_tim (e : Ev) (s : State) : (raise e s).tim = s.tim := rfl
@[simp] theorem raise_sv (e : Ev) (s : State) : (raise e s).sv = s.sv := rfl
@[simp] theorem raise_gse (e : Ev) (s : State) : (raise e s).gse = s.gse := rfl
@[simp] theorem raise_flt (e : Ev) (s : State) : (raise e s).flt = s.flt := rfl
@[simp] theorem raise_acq (e : Ev) (s : State) : (raise e s).acq = s.acq := rfl
@[simp] theorem raise_key (e : Ev) (s : State) : (raise e s).key = s.key := rfl
@[simp] theorem raise_gft (e : Ev) (s : State) : (raise e s).gft = s.gft := rfl
@[simp] theorem raise_ecc (e : Ev) (s : State) : (raise e s).ecc = s.ecc := rfl
@[simp] theorem raise_mram (e : Ev) (s : State) : (raise e s).mram = s.mram := rfl
@[simp] theorem raise_bin (e : Ev) (s : State) : (raise e s).bin = s.bin := rfl
@[simp] theorem raise_out (e : Ev) (s : State) : (raise e s).out = s.out := rfl

/-! `ioEvent` -/

@[simp] theorem ioEvent_pending (i : Nat) (e : Ev) (s : State) : (ioEvent i e s).pending = s.pending := rfl
@[simp] theorem ioEvent_sets (i : Nat) (e : Ev) (s : State) : (ioEvent i e s).sets = s.sets := rfl
@[simp] theorem ioEvent_free (i : Nat) (e : Ev) (s : State) : (ioEvent i e s).free = s.free := rfl
@[simp] theorem ioEvent_clk (i : Nat) (e : Ev) (s : State) : (ioEvent i e s).clk = s.clk := rfl
@[simp] theorem ioEvent_pow (i : Nat) (e : Ev) (s : State) : (ioEvent i e s).pow = s.pow := rfl
@[simp] theorem ioEvent_rst (i : Nat) (e : Ev) (s : State) : (ioEvent i e s).rst = s.rst := rfl
@[simp] theorem ioEvent_boot (i : Nat) (e : Ev) (s : State) : (ioEvent i e s).boot = s.boot := rfl
@[simp] theorem ioEvent_rng (i : Nat) (e : Ev) (s : State) : (ioEvent i e s).rng = s.rng := rfl
@[simp] theorem ioEvent_pgk (i : Nat) (e : Ev) (s : State) : (ioEvent i e s).pgk = s.pgk := rfl
@[simp] theorem ioEvent_prt (i : Nat) (e : Ev) (s : State) : (ioEvent i e s).prt = s.prt := rfl
@[simp] theorem ioEvent_sw (i : Nat) (e : Ev) (s : State) : (ioEvent i e s).sw = s.sw := rfl
@[simp] theorem ioEvent_tim (i : Nat) (e : Ev) (s : State) : (ioEvent i e s).tim = s.tim := rfl
@[simp] theorem ioEvent_sv (i : Nat) (e : Ev) (s : State) : (ioEvent i e s).sv = s.sv := rfl
@[simp] theorem ioEvent_gse (i : Nat) (e : Ev) (s : State) : (ioEvent i e s).gse = s.gse := rfl
@[simp] theorem ioEvent_flt (i : Nat) (e : Ev) (s : State) : (ioEvent i e s).flt = s.flt := rfl
@[simp] theorem ioEvent_acq (i : Nat) (e : Ev) (s : State) : (ioEvent i e s).acq = s.acq := rfl
@[simp] theorem ioEvent_key (i : Nat) (e : Ev) (s : State) : (ioEvent i e s).key = s.key := rfl
@[simp] theorem ioEvent_gft (i : Nat) (e : Ev) (s : State) : (ioEvent i e s).gft = s.gft := rfl
@[simp] theorem ioEvent_ecc (i : Nat) (e : Ev) (s : State) : (ioEvent i e s).ecc = s.ecc := rfl
@[simp] theorem ioEvent_mram (i : Nat) (e : Ev) (s : State) : (ioEvent i e s).mram = s.mram := rfl
@[simp] theorem ioEvent_bin (i : Nat) (e : Ev) (s : State) : (ioEvent i e s).bin = s.bin := rfl

/-! `recordOnly` -/

@[simp] theorem recordOnly_pending (e : Ev) (s : State) : (recordOnly e s).pending = s.pending := rfl
@[simp] theorem recordOnly_sets (e : Ev) (s : State) : (recordOnly e s).sets = s.sets := rfl
@[simp] theorem recordOnly_free (e : Ev) (s : State) : (recordOnly e s).free = s.free := rfl
@[simp] theorem recordOnly_clk (e : Ev) (s : State) : (recordOnly e s).clk = s.clk := rfl
@[simp] theorem recordOnly_pow (e : Ev) (s : State) : (recordOnly e s).pow = s.pow := rfl
@[simp] theorem recordOnly_rst (e : Ev) (s : State) : (recordOnly e s).rst = s.rst := rfl
@[simp] theorem recordOnly_boot (e : Ev) (s : State) : (recordOnly e s).boot = s.boot := rfl
@[simp] theorem recordOnly_rng (e : Ev) (s : State) : (recordOnly e s).rng = s.rng := rfl
@[simp] theorem recordOnly_pgk (e : Ev) (s : State) : (recordOnly e s).pgk = s.pgk := rfl
@[simp] theorem recordOnly_prt (e : Ev) (s : State) : (recordOnly e s).prt = s.prt := rfl
@[simp] theorem recordOnly_sw (e : Ev) (s : State) : (recordOnly e s).sw = s.sw := rfl
@[simp] theorem recordOnly_tim (e : Ev) (s : State) : (recordOnly e s).tim = s.tim := rfl
@[simp] theorem recordOnly_sv (e : Ev) (s : State) : (recordOnly e s).sv = s.sv := rfl
@[simp] theorem recordOnly_gse (e : Ev) (s : State) : (recordOnly e s).gse = s.gse := rfl
@[simp] theorem recordOnly_flt (e : Ev) (s : State) : (recordOnly e s).flt = s.flt := rfl
@[simp] theorem recordOnly_acq (e : Ev) (s : State) : (recordOnly e s).acq = s.acq := rfl
@[simp] theorem recordOnly_key (e : Ev) (s : State) : (recordOnly e s).key = s.key := rfl
@[simp] theorem recordOnly_gft (e : Ev) (s : State) : (recordOnly e s).gft = s.gft := rfl
@[simp] theorem recordOnly_ecc (e : Ev) (s : State) : (recordOnly e s).ecc = s.ecc := rfl
@[simp] theorem recordOnly_mram (e : Ev) (s : State) : (recordOnly e s).mram = s.mram := rfl
@[simp] theorem recordOnly_bin (e : Ev) (s : State) : (recordOnly e s).bin = s.bin := rfl
@[simp] theorem recordOnly_out (e : Ev) (s : State) : (recordOnly e s).out = s.out := rfl

/-! `modPart` -/

@[simp] theorem modPart_pending (p : Nat) (f : Part → Part) (s : State) : (modPart p f s).pending = s.pending := rfl
@[simp] theorem modPart_sets (p : Nat) (f : Part → Part) (s : State) : (modPart p f s).sets = s.sets := rfl
@[simp] theorem modPart_free (p : Nat) (f : Part → Part) (s : State) : (modPart p f s).free = s.free := rfl
@[simp] theorem modPart_clk (p : Nat) (f : Part → Part) (s : State) : (modPart p f s).clk = s.clk := rfl
@[simp] theorem modPart_pow (p : Nat) (f : Part → Part) (s : State) : (modPart p f s).pow = s.pow := rfl
@[simp] theorem modPart_rst (p : Nat) (f : Part → Part) (s : State) : (modPart p f s).rst = s.rst := rfl
@[simp] theorem modPart_boot (p : Nat) (f : Part → Part) (s : State) : (modPart p f s).boot = s.boot := rfl
@[simp] theorem modPart_arb (p : Nat) (f : Part → Part) (s : State) : (modPart p f s).arb = s.arb := rfl
@[simp] theorem modPart_hw (p : Nat) (f : Part → Part) (s : State) : (modPart p f s).hw = s.hw := rfl
@[simp] theorem modPart_rng (p : Nat) (f : Part → Part) (s : State) : (modPart p f s).rng = s.rng := rfl
@[simp] theorem modPart_pgk (p : Nat) (f : Part → Part) (s : State) : (modPart p f s).pgk = s.pgk := rfl
@[simp] theorem modPart_mem (p : Nat) (f : Part → Part) (s : State) : (modPart p f s).mem = s.mem := rfl
@[simp] theorem modPart_prt (p : Nat) (f : Part → Part) (s : State) : (modPart p f s).prt = s.prt := rfl
@[simp] theorem modPart_sw (p : Nat) (f : Part → Part) (s : State) : (modPart p f s).sw = s.sw := rfl
@[simp] theorem modPart_tim (p : Nat) (f : Part → Part) (s : State) : (modPart p f s).tim = s.tim := rfl
@[simp] theorem modPart_sv (p : Nat) (f : Part → Part) (s : State) : (modPart p f s).sv = s.sv := rfl
@[simp] theorem modPart_gse (p : Nat) (f : Part → Part) (s : State) : (modPart p f s).gse = s.gse := rfl
@[simp] theorem modPart_flt (p : Nat) (f : Part → Part) (s : State) : (modPart p f s).flt = s.flt := rfl
@[simp] theorem modPart_acq (p : Nat) (f : Part → Part) (s : State) : (modPart p f s).acq = s.acq := rfl
@[simp] theorem modPart_key (p : Nat) (f : Part → Part) (s : State) : (modPart p f s).key = s.key := rfl
@[simp] theorem modPart_gft (p : Nat) (f : Part → Part) (s : State) : (modPart p f s).gft = s.gft := rfl
@[simp] theorem modPart_ecc (p : Nat) (f : Part → Part) (s : State) : (modPart p f s).ecc = s.ecc := rfl
@[simp] theorem modPart_log (p : Nat) (f : Part → Part) (s : State) : (modPart p f s).log = s.log := rfl
@[simp] theorem modPart_mram (p : Nat) (f : Part → Part) (s : State) : (modPart p f s).mram = s.mram := rfl
@[simp] theorem modPart_bin (p : Nat) (f : Part → Part) (s : State) : (modPart p f s).bin = s.bin := rfl
@[simp] theorem modPart_out (p : Nat) (f : Part → Part) (s : State) : (modPart p f s).out = s.out := rfl
@[simp] theorem modPart_obs (p : Nat) (f : Part → Part) (s : State) : (modPart p f s).obs = s.obs := rfl

/-! `setPart` -/

@[simp] theorem setPart_pending (p : Nat) (x : Part) (s : State) : (setPart p x s).pending = s.pending := rfl
@[simp] theorem setPart_sets (p : Nat) (x : Part) (s : State) : (setPart p x s).sets = s.sets := rfl
@[simp] theorem setPart_free (p : Nat) (x : Part) (s : State) : (setPart p x s).free = s.free := rfl
@[simp] theorem setPart_clk (p : Nat) (x : Part) (s : State) : (setPart p x s).clk = s.clk := rfl
@[simp] theorem setPart_pow (p : Nat) (x : Part) (s : State) : (setPart p x s).pow = s.pow := rfl
@[simp] theorem setPart_rst (p : Nat) (x : Part) (s : State) : (setPart p x s).rst = s.rst := rfl
@[simp] theorem setPart_boot (p : Nat) (x : Part) (s : State) : (setPart p x s).boot = s.boot := rfl
@[simp] theorem setPart_arb (p : Nat) (x : Part) (s : State) : (setPart p x s).arb = s.arb := rfl
@[simp] theorem setPart_hw (p : Nat) (x : Part) (s : State) : (setPart p x s).hw = s.hw := rfl
@[simp] theorem setPart_rng (p : Nat) (x : Part) (s : State) : (setPart p x s).rng = s.rng := rfl
@[simp] theorem setPart_pgk (p : Nat) (x : Part) (s : State) : (setPart p x s).pgk = s.pgk := rfl
@[simp] theorem setPart_mem (p : Nat) (x : Part) (s : State) : (setPart p x s).mem = s.mem := rfl
@[simp] theorem setPart_prt (p : Nat) (x : Part) (s : State) : (setPart p x s).prt = s.prt := rfl
@[simp] theorem setPart_sw (p : Nat) (x : Part) (s : State) : (setPart p x s).sw = s.sw := rfl
@[simp] theorem setPart_tim (p : Nat) (x : Part) (s : State) : (setPart p x s).tim = s.tim := rfl
@[simp] theorem setPart_sv (p : Nat) (x : Part) (s : State) : (setPart p x s).sv = s.sv := rfl
@[simp] theorem setPart_gse (p : Nat) (x : Part) (s : State) : (setPart p x s).gse = s.gse := rfl
@[simp] theorem setPart_flt (p : Nat) (x : Part) (s : State) : (setPart p x s).flt = s.flt := rfl
@[simp] theorem setPart_acq (p : Nat) (x : Part) (s : State) : (setPart p x s).acq = s.acq := rfl
@[simp] theorem setPart_key (p : Nat) (x : Part) (s : State) : (setPart p x s).key = s.key := rfl
@[simp] theorem setPart_gft (p : Nat) (x : Part) (s : State) : (setPart p x s).gft = s.gft := rfl
@[simp] theorem setPart_ecc (p : Nat) (x : Part) (s : State) : (setPart p x s).ecc = s.ecc := rfl
@[simp] theorem setPart_log (p : Nat) (x : Part) (s : State) : (setPart p x s).log = s.log := rfl
@[simp] theorem setPart_mram (p : Nat) (x : Part) (s : State) : (setPart p x s).mram = s.mram := rfl
@[simp] theorem setPart_bin (p : Nat) (x : Part) (s : State) : (setPart p x s).bin = s.bin := rfl
@[simp] theorem setPart_out (p : Nat) (x : Part) (s : State) : (setPart p x s).out = s.out := rfl
@[simp] theorem setPart_obs (p : Nat) (x : Part) (s : State) : (setPart p x s).obs = s.obs := rfl

/-! `deliver` -/

@[simp] theorem deliver_pending (p a : Nat) (b : Bytes) (s : State) : (deliver p a b s).pending = s.pending := rfl
@[simp] theorem deliver_sets (p a : Nat) (b : Bytes) (s : State) : (deliver p a b s).sets = s.sets := rfl
@[simp] theorem deliver_free (p a : Nat) (b : Bytes) (s : State) : (deliver p a b s).free = s.free := rfl
@[simp] theorem deliver_clk (p a : Nat) (b : Bytes) (s : State) : (deliver p a b s).clk = s.clk := rfl
@[simp] theorem deliver_pow (p a : Nat) (b : Bytes) (s : State) : (deliver p a b s).pow = s.pow := rfl
@[simp] theorem deliver_rst (p a : Nat) (b : Bytes) (s : State) : (deliver p a b s).rst = s.rst := rfl
@[simp] theorem deliver_boot (p a : Nat) (b : Bytes) (s : State) : (deliver p a b s).boot = s.boot := rfl
@[simp] theorem deliver_arb (p a : Nat) (b : Bytes) (s : State) : (deliver p a b s).arb = s.arb := rfl
@[simp] theorem deliver_hw (p a : Nat) (b : Bytes) (s : State) : (deliver p a b s).hw = s.hw := rfl
@[simp] theorem deliver_rng (p a : Nat) (b : Bytes) (s : State) : (deliver p a b s).rng = s.rng := rfl
@[simp] theorem deliver_pgk (p a : Nat) (b : Bytes) (s : State) : (deliver p a b s).pgk = s.pgk := rfl
@[simp] theorem deliver_prt (p a : Nat) (b : Bytes) (s : State) : (deliver p a b s).prt = s.prt := rfl
@[simp] theorem deliver_sw (p a : Nat) (b : Bytes) (s : State) : (deliver p a b s).sw = s.sw := rfl
@[simp] theorem deliver_tim (p a : Nat) (b : Bytes) (s : State) : (deliver p a b s).tim = s.tim := rfl
@[simp] theorem deliver_sv (p a : Nat) (b : Bytes) (s : State) : (deliver p a b s).sv = s.sv := rfl
@[simp] theorem deliver_gse (p a : Nat) (b : Bytes) (s : State) : (deliver p a b s).gse = s.gse := rfl
@[simp] theorem deliver_flt (p a : Nat) (b : Bytes) (s : State) : (deliver p a b s).flt = s.flt := rfl
@[simp] theorem deliver_acq (p a : Nat) (b : Bytes) (s : State) : (deliver p a b s).acq = s.acq := rfl
@[simp] theorem deliver_key (p a : Nat) (b : Bytes) (s : State) : (deliver p a b s).key = s.key := rfl
@[simp] theorem deliver_gft (p a : Nat) (b : Bytes) (s : State) : (deliver p a b s).gft = s.gft := rfl
@[simp] theorem deliver_ecc (p a : Nat) (b : Bytes) (s : State) : (deliver p a b s).ecc = s.ecc := rfl
@[simp] theorem deliver_log (p a : Nat) (b : Bytes) (s : State) : (deliver p a b s).log = s.log := rfl
@[simp] theorem deliver_mram (p a : Nat) (b : Bytes) (s : State) : (deliver p a b s).mram = s.mram := rfl
@[simp] theorem deliver_bin (p a : Nat) (b : Bytes) (s : State) : (deliver p a b s).bin = s.bin := rfl
@[simp] theorem deliver_out (p a : Nat) (b : Bytes) (s : State) : (deliver p a b s).out = s.out := rfl
@[simp] theorem deliver_obs (p a : Nat) (b : Bytes) (s : State) : (deliver p a b s).obs = s.obs := rfl

/-! `land` -/

@[simp] theorem land_pending (p a : Nat) (b : Bytes) (s : State) : (land p a b s).pending = s.pending := by unfold land; split <;> rfl
@[simp] theorem land_sets (p a : Nat) (b : Bytes) (s : State) : (land p a b s).sets = s.sets := by unfold land; split <;> rfl
@[simp] theorem land_free (p a : Nat) (b : Bytes) (s : State) : (land p a b s).free = s.free := by unfold land; split <;> rfl
@[simp] theorem land_clk (p a : Nat) (b : Bytes) (s : State) : (land p a b s).clk = s.clk := by unfold land; split <;> rfl
@[simp] theorem land_pow (p a : Nat) (b : Bytes) (s : State) : (land p a b s).pow = s.pow := by unfold land; split <;> rfl
@[simp] theorem land_rst (p a : Nat) (b : Bytes) (s : State) : (land p a b s).rst = s.rst := by unfold land; split <;> rfl
@[simp] theorem land_boot (p a : Nat) (b : Bytes) (s : State) : (land p a b s).boot = s.boot := by unfold land; split <;> rfl
@[simp] theorem land_arb (p a : Nat) (b : Bytes) (s : State) : (land p a b s).arb = s.arb := by unfold land; split <;> rfl
@[simp] theorem land_hw (p a : Nat) (b : Bytes) (s : State) : (land p a b s).hw = s.hw := by unfold land; split <;> rfl
@[simp] theorem land_rng (p a : Nat) (b : Bytes) (s : State) : (land p a b s).rng = s.rng := by unfold land; split <;> rfl
@[simp] theorem land_pgk (p a : Nat) (b : Bytes) (s : State) : (land p a b s).pgk = s.pgk := by unfold land; split <;> rfl
@[simp] theorem land_prt (p a : Nat) (b : Bytes) (s : State) : (land p a b s).prt = s.prt := by unfold land; split <;> rfl
@[simp] theorem land_sw (p a : Nat) (b : Bytes) (s : State) : (land p a b s).sw = s.sw := by unfold land; split <;> rfl
@[simp] theorem land_tim (p a : Nat) (b : Bytes) (s : State) : (land p a b s).tim = s.tim := by unfold land; split <;> rfl
@[simp] theorem land_sv (p a : Nat) (b : Bytes) (s : State) : (land p a b s).sv = s.sv := by unfold land; split <;> rfl
@[simp] theorem land_gse (p a : Nat) (b : Bytes) (s : State) : (land p a b s).gse = s.gse := by unfold land; split <;> rfl
@[simp] theorem land_flt (p a : Nat) (b : Bytes) (s : State) : (land p a b s).flt = s.flt := by unfold land; split <;> rfl
@[simp] theorem land_acq (p a : Nat) (b : Bytes) (s : State) : (land p a b s).acq = s.acq := by unfold land; split <;> rfl
@[simp] theorem land_key (p a : Nat) (b : Bytes) (s : State) : (land p a b s).key = s.key := by unfold land; split <;> rfl
@[simp] theorem land_gft (p a : Nat) (b : Bytes) (s : State) : (land p a b s).gft = s.gft := by unfold land; split <;> rfl
@[simp] theorem land_ecc (p a : Nat) (b : Bytes) (s : State) : (land p a b s).ecc = s.ecc := by unfold land; split <;> rfl
@[simp] theorem land_log (p a : Nat) (b : Bytes) (s : State) : (land p a b s).log = s.log := by unfold land; split <;> rfl
@[simp] theorem land_mram (p a : Nat) (b : Bytes) (s : State) : (land p a b s).mram = s.mram := by unfold land; split <;> rfl
@[simp] theorem land_bin (p a : Nat) (b : Bytes) (s : State) : (land p a b s).bin = s.bin := by unfold land; split <;> rfl
@[simp] theorem land_out (p a : Nat) (b : Bytes) (s : State) : (land p a b s).out = s.out := by unfold land; split <;> rfl
@[simp] theorem land_obs (p a : Nat) (b : Bytes) (s : State) : (land p a b s).obs = s.obs := by unfold land; split <;> rfl

/-! `visWrite` -/

@[simp] theorem visWrite_pending (p a : Nat) (b : Bytes) (s : State) : (visWrite p a b s).pending = s.pending := by unfold visWrite; split <;> (try split) <;> simp
@[simp] theorem visWrite_sets (p a : Nat) (b : Bytes) (s : State) : (visWrite p a b s).sets = s.sets := by unfold visWrite; split <;> (try split) <;> simp
@[simp] theorem visWrite_free (p a : Nat) (b : Bytes) (s : State) : (visWrite p a b s).free = s.free := by unfold visWrite; split <;> (try split) <;> simp
@[simp] theorem visWrite_clk (p a : Nat) (b : Bytes) (s : State) : (visWrite p a b s).clk = s.clk := by unfold visWrite; split <;> (try split) <;> simp
@[simp] theorem visWrite_pow (p a : Nat) (b : Bytes) (s : State) : (visWrite p a b s).pow = s.pow := by unfold visWrite; split <;> (try split) <;> simp
@[simp] theorem visWrite_rst (p a : Nat) (b : Bytes) (s : State) : (visWrite p a b s).rst = s.rst := by unfold visWrite; split <;> (try split) <;> simp
@[simp] theorem visWrite_boot (p a : Nat) (b : Bytes) (s : State) : (visWrite p a b s).boot = s.boot := by unfold visWrite; split <;> (try split) <;> simp
@[simp] theorem visWrite_arb (p a : Nat) (b : Bytes) (s : State) : (visWrite p a b s).arb = s.arb := by unfold visWrite; split <;> (try split) <;> simp
@[simp] theorem visWrite_hw (p a : Nat) (b : Bytes) (s : State) : (visWrite p a b s).hw = s.hw := by unfold visWrite; split <;> (try split) <;> simp
@[simp] theorem visWrite_rng (p a : Nat) (b : Bytes) (s : State) : (visWrite p a b s).rng = s.rng := by unfold visWrite; split <;> (try split) <;> simp
@[simp] theorem visWrite_pgk (p a : Nat) (b : Bytes) (s : State) : (visWrite p a b s).pgk = s.pgk := by unfold visWrite; split <;> (try split) <;> simp
@[simp] theorem visWrite_prt (p a : Nat) (b : Bytes) (s : State) : (visWrite p a b s).prt = s.prt := by unfold visWrite; split <;> (try split) <;> simp
@[simp] theorem visWrite_sw (p a : Nat) (b : Bytes) (s : State) : (visWrite p a b s).sw = s.sw := by unfold visWrite; split <;> (try split) <;> simp
@[simp] theorem visWrite_tim (p a : Nat) (b : Bytes) (s : State) : (visWrite p a b s).tim = s.tim := by unfold visWrite; split <;> (try split) <;> simp
@[simp] theorem visWrite_sv (p a : Nat) (b : Bytes) (s : State) : (visWrite p a b s).sv = s.sv := by unfold visWrite; split <;> (try split) <;> simp
@[simp] theorem visWrite_gse (p a : Nat) (b : Bytes) (s : State) : (visWrite p a b s).gse = s.gse := by unfold visWrite; split <;> (try split) <;> simp
@[simp] theorem visWrite_flt (p a : Nat) (b : Bytes) (s : State) : (visWrite p a b s).flt = s.flt := by unfold visWrite; split <;> (try split) <;> simp
@[simp] theorem visWrite_acq (p a : Nat) (b : Bytes) (s : State) : (visWrite p a b s).acq = s.acq := by unfold visWrite; split <;> (try split) <;> simp
@[simp] theorem visWrite_key (p a : Nat) (b : Bytes) (s : State) : (visWrite p a b s).key = s.key := by unfold visWrite; split <;> (try split) <;> simp
@[simp] theorem visWrite_gft (p a : Nat) (b : Bytes) (s : State) : (visWrite p a b s).gft = s.gft := by unfold visWrite; split <;> (try split) <;> simp
@[simp] theorem visWrite_ecc (p a : Nat) (b : Bytes) (s : State) : (visWrite p a b s).ecc = s.ecc := by unfold visWrite; split <;> (try split) <;> simp
@[simp] theorem visWrite_log (p a : Nat) (b : Bytes) (s : State) : (visWrite p a b s).log = s.log := by unfold visWrite; split <;> (try split) <;> simp
@[simp] theorem visWrite_mram (p a : Nat) (b : Bytes) (s : State) : (visWrite p a b s).mram = s.mram := by unfold visWrite; split <;> (try split) <;> simp
@[simp] theorem visWrite_bin (p a : Nat) (b : Bytes) (s : State) : (visWrite p a b s).bin = s.bin := by unfold visWrite; split <;> (try split) <;> simp
@[simp] theorem visWrite_out (p a : Nat) (b : Bytes) (s : State) : (visWrite p a b s).out = s.out := by unfold visWrite; split <;> (try split) <;> simp
@[simp] theorem visWrite_obs (p a : Nat) (b : Bytes) (s : State) : (visWrite p a b s).obs = s.obs := by unfold visWrite; split <;> (try split) <;> simp

/-! `landAll` -/

@[simp] theorem landAll_pending (p : Nat) (ws : List (Nat × Bytes)) (s : State) : (landAll p ws s).pending = s.pending := by induction ws generalizing s <;> simp [landAll, *]
@[simp] theorem landAll_sets (p : Nat) (ws : List (Nat × Bytes)) (s : State) : (landAll p ws s).sets = s.sets := by induction ws generalizing s <;> simp [landAll, *]
@[simp] theorem landAll_free (p : Nat) (ws : List (Nat × Bytes)) (s : State) : (landAll p ws s).free = s.free := by induction ws generalizing s <;> simp [landAll, *]
@[simp] theorem landAll_clk (p : Nat) (ws : List (Nat × Bytes)) (s : State) : (landAll p ws s).clk = s.clk := by induction ws generalizing s <;> simp [landAll, *]
@[simp] theorem landAll_pow (p : Nat) (ws : List (Nat × Bytes)) (s : State) : (landAll p ws s).pow = s.pow := by induction ws generalizing s <;> simp [landAll, *]
@[simp] theorem landAll_rst (p : Nat) (ws : List (Nat × Bytes)) (s : State) : (landAll p ws s).rst = s.rst := by induction ws generalizing s <;> simp [landAll, *]
@[simp] theorem landAll_boot (p : Nat) (ws : List (Nat × Bytes)) (s : State) : (landAll p ws s).boot = s.boot := by induction ws generalizing s <;> simp [landAll, *]
@[simp] theorem landAll_arb (p : Nat) (ws : List (Nat × Bytes)) (s : State) : (landAll p ws s).arb = s.arb := by induction ws generalizing s <;> simp [landAll, *]
@[simp] theorem landAll_hw (p : Nat) (ws : List (Nat × Bytes)) (s : State) : (landAll p ws s).hw = s.hw := by induction ws generalizing s <;> simp [landAll, *]
@[simp] theorem landAll_rng (p : Nat) (ws : List (Nat × Bytes)) (s : State) : (landAll p ws s).rng = s.rng := by induction ws generalizing s <;> simp [landAll, *]
@[simp] theorem landAll_pgk (p : Nat) (ws : List (Nat × Bytes)) (s : State) : (landAll p ws s).pgk = s.pgk := by induction ws generalizing s <;> simp [landAll, *]
@[simp] theorem landAll_prt (p : Nat) (ws : List (Nat × Bytes)) (s : State) : (landAll p ws s).prt = s.prt := by induction ws generalizing s <;> simp [landAll, *]
@[simp] theorem landAll_sw (p : Nat) (ws : List (Nat × Bytes)) (s : State) : (landAll p ws s).sw = s.sw := by induction ws generalizing s <;> simp [landAll, *]
@[simp] theorem landAll_tim (p : Nat) (ws : List (Nat × Bytes)) (s : State) : (landAll p ws s).tim = s.tim := by induction ws generalizing s <;> simp [landAll, *]
@[simp] theorem landAll_sv (p : Nat) (ws : List (Nat × Bytes)) (s : State) : (landAll p ws s).sv = s.sv := by induction ws generalizing s <;> simp [landAll, *]
@[simp] theorem landAll_gse (p : Nat) (ws : List (Nat × Bytes)) (s : State) : (landAll p ws s).gse = s.gse := by induction ws generalizing s <;> simp [landAll, *]
@[simp] theorem landAll_flt (p : Nat) (ws : List (Nat × Bytes)) (s : State) : (landAll p ws s).flt = s.flt := by induction ws generalizing s <;> simp [landAll, *]
@[simp] theorem landAll_acq (p : Nat) (ws : List (Nat × Bytes)) (s : State) : (landAll p ws s).acq = s.acq := by induction ws generalizing s <;> simp [landAll, *]
@[simp] theorem landAll_key (p : Nat) (ws : List (Nat × Bytes)) (s : State) : (landAll p ws s).key = s.key := by induction ws generalizing s <;> simp [landAll, *]
@[simp] theorem landAll_gft (p : Nat) (ws : List (Nat × Bytes)) (s : State) : (landAll p ws s).gft = s.gft := by induction ws generalizing s <;> simp [landAll, *]
@[simp] theorem landAll_ecc (p : Nat) (ws : List (Nat × Bytes)) (s : State) : (landAll p ws s).ecc = s.ecc := by induction ws generalizing s <;> simp [landAll, *]
@[simp] theorem landAll_log (p : Nat) (ws : List (Nat × Bytes)) (s : State) : (landAll p ws s).log = s.log := by induction ws generalizing s <;> simp [landAll, *]
@[simp] theorem landAll_mram (p : Nat) (ws : List (Nat × Bytes)) (s : State) : (landAll p ws s).mram = s.mram := by induction ws generalizing s <;> simp [landAll, *]
@[simp] theorem landAll_bin (p : Nat) (ws : List (Nat × Bytes)) (s : State) : (landAll p ws s).bin = s.bin := by induction ws generalizing s <;> simp [landAll, *]
@[simp] theorem landAll_out (p : Nat) (ws : List (Nat × Bytes)) (s : State) : (landAll p ws s).out = s.out := by induction ws generalizing s <;> simp [landAll, *]
@[simp] theorem landAll_obs (p : Nat) (ws : List (Nat × Bytes)) (s : State) : (landAll p ws s).obs = s.obs := by induction ws generalizing s <;> simp [landAll, *]

/-! `flushHeld` -/

@[simp] theorem flushHeld_pending (p : Nat) (s : State) : (flushHeld p s).pending = s.pending := by unfold flushHeld; split <;> simp
@[simp] theorem flushHeld_sets (p : Nat) (s : State) : (flushHeld p s).sets = s.sets := by unfold flushHeld; split <;> simp
@[simp] theorem flushHeld_free (p : Nat) (s : State) : (flushHeld p s).free = s.free := by unfold flushHeld; split <;> simp
@[simp] theorem flushHeld_clk (p : Nat) (s : State) : (flushHeld p s).clk = s.clk := by unfold flushHeld; split <;> simp
@[simp] theorem flushHeld_pow (p : Nat) (s : State) : (flushHeld p s).pow = s.pow := by unfold flushHeld; split <;> simp
@[simp] theorem flushHeld_rst (p : Nat) (s : State) : (flushHeld p s).rst = s.rst := by unfold flushHeld; split <;> simp
@[simp] theorem flushHeld_boot (p : Nat) (s : State) : (flushHeld p s).boot = s.boot := by unfold flushHeld; split <;> simp
@[simp] theorem flushHeld_arb (p : Nat) (s : State) : (flushHeld p s).arb = s.arb := by unfold flushHeld; split <;> simp
@[simp] theorem flushHeld_hw (p : Nat) (s : State) : (flushHeld p s).hw = s.hw := by unfold flushHeld; split <;> simp
@[simp] theorem flushHeld_rng (p : Nat) (s : State) : (flushHeld p s).rng = s.rng := by unfold flushHeld; split <;> simp
@[simp] theorem flushHeld_pgk (p : Nat) (s : State) : (flushHeld p s).pgk = s.pgk := by unfold flushHeld; split <;> simp
@[simp] theorem flushHeld_prt (p : Nat) (s : State) : (flushHeld p s).prt = s.prt := by unfold flushHeld; split <;> simp
@[simp] theorem flushHeld_sw (p : Nat) (s : State) : (flushHeld p s).sw = s.sw := by unfold flushHeld; split <;> simp
@[simp] theorem flushHeld_tim (p : Nat) (s : State) : (flushHeld p s).tim = s.tim := by unfold flushHeld; split <;> simp
@[simp] theorem flushHeld_sv (p : Nat) (s : State) : (flushHeld p s).sv = s.sv := by unfold flushHeld; split <;> simp
@[simp] theorem flushHeld_gse (p : Nat) (s : State) : (flushHeld p s).gse = s.gse := by unfold flushHeld; split <;> simp
@[simp] theorem flushHeld_flt (p : Nat) (s : State) : (flushHeld p s).flt = s.flt := by unfold flushHeld; split <;> simp
@[simp] theorem flushHeld_acq (p : Nat) (s : State) : (flushHeld p s).acq = s.acq := by unfold flushHeld; split <;> simp
@[simp] theorem flushHeld_key (p : Nat) (s : State) : (flushHeld p s).key = s.key := by unfold flushHeld; split <;> simp
@[simp] theorem flushHeld_gft (p : Nat) (s : State) : (flushHeld p s).gft = s.gft := by unfold flushHeld; split <;> simp
@[simp] theorem flushHeld_ecc (p : Nat) (s : State) : (flushHeld p s).ecc = s.ecc := by unfold flushHeld; split <;> simp
@[simp] theorem flushHeld_log (p : Nat) (s : State) : (flushHeld p s).log = s.log := by unfold flushHeld; split <;> simp
@[simp] theorem flushHeld_mram (p : Nat) (s : State) : (flushHeld p s).mram = s.mram := by unfold flushHeld; split <;> simp
@[simp] theorem flushHeld_bin (p : Nat) (s : State) : (flushHeld p s).bin = s.bin := by unfold flushHeld; split <;> simp
@[simp] theorem flushHeld_out (p : Nat) (s : State) : (flushHeld p s).out = s.out := by unfold flushHeld; split <;> simp
@[simp] theorem flushHeld_obs (p : Nat) (s : State) : (flushHeld p s).obs = s.obs := by unfold flushHeld; split <;> simp

/-! `wakePart` -/

@[simp] theorem wakePart_pending (p c e : Nat) (s : State) : (wakePart p c e s).pending = s.pending := rfl
@[simp] theorem wakePart_sets (p c e : Nat) (s : State) : (wakePart p c e s).sets = s.sets := rfl
@[simp] theorem wakePart_free (p c e : Nat) (s : State) : (wakePart p c e s).free = s.free := rfl
@[simp] theorem wakePart_clk (p c e : Nat) (s : State) : (wakePart p c e s).clk = s.clk := rfl
@[simp] theorem wakePart_pow (p c e : Nat) (s : State) : (wakePart p c e s).pow = s.pow := rfl
@[simp] theorem wakePart_rst (p c e : Nat) (s : State) : (wakePart p c e s).rst = s.rst := rfl
@[simp] theorem wakePart_boot (p c e : Nat) (s : State) : (wakePart p c e s).boot = s.boot := rfl
@[simp] theorem wakePart_arb (p c e : Nat) (s : State) : (wakePart p c e s).arb = s.arb := rfl
@[simp] theorem wakePart_hw (p c e : Nat) (s : State) : (wakePart p c e s).hw = s.hw := rfl
@[simp] theorem wakePart_rng (p c e : Nat) (s : State) : (wakePart p c e s).rng = s.rng := rfl
@[simp] theorem wakePart_pgk (p c e : Nat) (s : State) : (wakePart p c e s).pgk = s.pgk := rfl
@[simp] theorem wakePart_mem (p c e : Nat) (s : State) : (wakePart p c e s).mem = s.mem := rfl
@[simp] theorem wakePart_prt (p c e : Nat) (s : State) : (wakePart p c e s).prt = s.prt := rfl
@[simp] theorem wakePart_sw (p c e : Nat) (s : State) : (wakePart p c e s).sw = s.sw := rfl
@[simp] theorem wakePart_tim (p c e : Nat) (s : State) : (wakePart p c e s).tim = s.tim := rfl
@[simp] theorem wakePart_sv (p c e : Nat) (s : State) : (wakePart p c e s).sv = s.sv := rfl
@[simp] theorem wakePart_gse (p c e : Nat) (s : State) : (wakePart p c e s).gse = s.gse := rfl
@[simp] theorem wakePart_flt (p c e : Nat) (s : State) : (wakePart p c e s).flt = s.flt := rfl
@[simp] theorem wakePart_acq (p c e : Nat) (s : State) : (wakePart p c e s).acq = s.acq := rfl
@[simp] theorem wakePart_key (p c e : Nat) (s : State) : (wakePart p c e s).key = s.key := rfl
@[simp] theorem wakePart_gft (p c e : Nat) (s : State) : (wakePart p c e s).gft = s.gft := rfl
@[simp] theorem wakePart_ecc (p c e : Nat) (s : State) : (wakePart p c e s).ecc = s.ecc := rfl
@[simp] theorem wakePart_log (p c e : Nat) (s : State) : (wakePart p c e s).log = s.log := rfl
@[simp] theorem wakePart_mram (p c e : Nat) (s : State) : (wakePart p c e s).mram = s.mram := rfl
@[simp] theorem wakePart_bin (p c e : Nat) (s : State) : (wakePart p c e s).bin = s.bin := rfl
@[simp] theorem wakePart_out (p c e : Nat) (s : State) : (wakePart p c e s).out = s.out := rfl
@[simp] theorem wakePart_obs (p c e : Nat) (s : State) : (wakePart p c e s).obs = s.obs := rfl

/-! `fireBinds` -/

@[simp] theorem fireBinds_pending (ty : Nat) (ok : Nat → Bool) (s : State) : (fireBinds ty ok s).pending = s.pending := rfl
@[simp] theorem fireBinds_sets (ty : Nat) (ok : Nat → Bool) (s : State) : (fireBinds ty ok s).sets = s.sets := rfl
@[simp] theorem fireBinds_free (ty : Nat) (ok : Nat → Bool) (s : State) : (fireBinds ty ok s).free = s.free := rfl
@[simp] theorem fireBinds_clk (ty : Nat) (ok : Nat → Bool) (s : State) : (fireBinds ty ok s).clk = s.clk := rfl
@[simp] theorem fireBinds_pow (ty : Nat) (ok : Nat → Bool) (s : State) : (fireBinds ty ok s).pow = s.pow := rfl
@[simp] theorem fireBinds_rst (ty : Nat) (ok : Nat → Bool) (s : State) : (fireBinds ty ok s).rst = s.rst := rfl
@[simp] theorem fireBinds_boot (ty : Nat) (ok : Nat → Bool) (s : State) : (fireBinds ty ok s).boot = s.boot := rfl
@[simp] theorem fireBinds_arb (ty : Nat) (ok : Nat → Bool) (s : State) : (fireBinds ty ok s).arb = s.arb := rfl
@[simp] theorem fireBinds_hw (ty : Nat) (ok : Nat → Bool) (s : State) : (fireBinds ty ok s).hw = s.hw := rfl
@[simp] theorem fireBinds_rng (ty : Nat) (ok : Nat → Bool) (s : State) : (fireBinds ty ok s).rng = s.rng := rfl
@[simp] theorem fireBinds_pgk (ty : Nat) (ok : Nat → Bool) (s : State) : (fireBinds ty ok s).pgk = s.pgk := rfl
@[simp] theorem fireBinds_mem (ty : Nat) (ok : Nat → Bool) (s : State) : (fireBinds ty ok s).mem = s.mem := rfl
@[simp] theorem fireBinds_prt (ty : Nat) (ok : Nat → Bool) (s : State) : (fireBinds ty ok s).prt = s.prt := rfl
@[simp] theorem fireBinds_sw (ty : Nat) (ok : Nat → Bool) (s : State) : (fireBinds ty ok s).sw = s.sw := rfl
@[simp] theorem fireBinds_tim (ty : Nat) (ok : Nat → Bool) (s : State) : (fireBinds ty ok s).tim = s.tim := rfl
@[simp] theorem fireBinds_sv (ty : Nat) (ok : Nat → Bool) (s : State) : (fireBinds ty ok s).sv = s.sv := rfl
@[simp] theorem fireBinds_gse (ty : Nat) (ok : Nat → Bool) (s : State) : (fireBinds ty ok s).gse = s.gse := rfl
@[simp] theorem fireBinds_flt (ty : Nat) (ok : Nat → Bool) (s : State) : (fireBinds ty ok s).flt = s.flt := rfl
@[simp] theorem fireBinds_acq (ty : Nat) (ok : Nat → Bool) (s : State) : (fireBinds ty ok s).acq = s.acq := rfl
@[simp] theorem fireBinds_key (ty : Nat) (ok : Nat → Bool) (s : State) : (fireBinds ty ok s).key = s.key := rfl
@[simp] theorem fireBinds_gft (ty : Nat) (ok : Nat → Bool) (s : State) : (fireBinds ty ok s).gft = s.gft := rfl
@[simp] theorem fireBinds_ecc (ty : Nat) (ok : Nat → Bool) (s : State) : (fireBinds ty ok s).ecc = s.ecc := rfl
@[simp] theorem fireBinds_log (ty : Nat) (ok : Nat → Bool) (s : State) : (fireBinds ty ok s).log = s.log := rfl
@[simp] theorem fireBinds_mram (ty : Nat) (ok : Nat → Bool) (s : State) : (fireBinds ty ok s).mram = s.mram := rfl
@[simp] theorem fireBinds_bin (ty : Nat) (ok : Nat → Bool) (s : State) : (fireBinds ty ok s).bin = s.bin := rfl
@[simp] theorem fireBinds_out (ty : Nat) (ok : Nat → Bool) (s : State) : (fireBinds ty ok s).out = s.out := rfl
@[simp] theorem fireBinds_obs (ty : Nat) (ok : Nat → Bool) (s : State) : (fireBinds ty ok s).obs = s.obs := rfl

/-! `modRing` -/

@[simp] theorem modRing_pending (r : Nat) (f : Ring → Ring) (s : State) : (modRing r f s).pending = s.pending := rfl
@[simp] theorem modRing_sets (r : Nat) (f : Ring → Ring) (s : State) : (modRing r f s).sets = s.sets := rfl
@[simp] theorem modRing_free (r : Nat) (f : Ring → Ring) (s : State) : (modRing r f s).free = s.free := rfl
@[simp] theorem modRing_clk (r : Nat) (f : Ring → Ring) (s : State) : (modRing r f s).clk = s.clk := rfl
@[simp] theorem modRing_pow (r : Nat) (f : Ring → Ring) (s : State) : (modRing r f s).pow = s.pow := rfl
@[simp] theorem modRing_rst (r : Nat) (f : Ring → Ring) (s : State) : (modRing r f s).rst = s.rst := rfl
@[simp] theorem modRing_boot (r : Nat) (f : Ring → Ring) (s : State) : (modRing r f s).boot = s.boot := rfl
@[simp] theorem modRing_arb (r : Nat) (f : Ring → Ring) (s : State) : (modRing r f s).arb = s.arb := rfl
@[simp] theorem modRing_hw (r : Nat) (f : Ring → Ring) (s : State) : (modRing r f s).hw = s.hw := rfl
@[simp] theorem modRing_cnp (r : Nat) (f : Ring → Ring) (s : State) : (modRing r f s).cnp = s.cnp := rfl
@[simp] theorem modRing_pgk (r : Nat) (f : Ring → Ring) (s : State) : (modRing r f s).pgk = s.pgk := rfl
@[simp] theorem modRing_mem (r : Nat) (f : Ring → Ring) (s : State) : (modRing r f s).mem = s.mem := rfl
@[simp] theorem modRing_prt (r : Nat) (f : Ring → Ring) (s : State) : (modRing r f s).prt = s.prt := rfl
@[simp] theorem modRing_sw (r : Nat) (f : Ring → Ring) (s : State) : (modRing r f s).sw = s.sw := rfl
@[simp] theorem modRing_tim (r : Nat) (f : Ring → Ring) (s : State) : (modRing r f s).tim = s.tim := rfl
@[simp] theorem modRing_sv (r : Nat) (f : Ring → Ring) (s : State) : (modRing r f s).sv = s.sv := rfl
@[simp] theorem modRing_gse (r : Nat) (f : Ring → Ring) (s : State) : (modRing r f s).gse = s.gse := rfl
@[simp] theorem modRing_flt (r : Nat) (f : Ring → Ring) (s : State) : (modRing r f s).flt = s.flt := rfl
@[simp] theorem modRing_acq (r : Nat) (f : Ring → Ring) (s : State) : (modRing r f s).acq = s.acq := rfl
@[simp] theorem modRing_key (r : Nat) (f : Ring → Ring) (s : State) : (modRing r f s).key = s.key := rfl
@[simp] theorem modRing_gft (r : Nat) (f : Ring → Ring) (s : State) : (modRing r f s).gft = s.gft := rfl
@[simp] theorem modRing_ecc (r : Nat) (f : Ring → Ring) (s : State) : (modRing r f s).ecc = s.ecc := rfl
@[simp] theorem modRing_log (r : Nat) (f : Ring → Ring) (s : State) : (modRing r f s).log = s.log := rfl
@[simp] theorem modRing_mram (r : Nat) (f : Ring → Ring) (s : State) : (modRing r f s).mram = s.mram := rfl
@[simp] theorem modRing_bin (r : Nat) (f : Ring → Ring) (s : State) : (modRing r f s).bin = s.bin := rfl
@[simp] theorem modRing_out (r : Nat) (f : Ring → Ring) (s : State) : (modRing r f s).out = s.out := rfl
@[simp] theorem modRing_obs (r : Nat) (f : Ring → Ring) (s : State) : (modRing r f s).obs = s.obs := rfl

/-! `ringVis` -/

@[simp] theorem ringVis_pending (r a : Nat) (b : Bytes) (s : State) : (ringVis r a b s).pending = s.pending := by unfold ringVis; split <;> simp
@[simp] theorem ringVis_sets (r a : Nat) (b : Bytes) (s : State) : (ringVis r a b s).sets = s.sets := by unfold ringVis; split <;> simp
@[simp] theorem ringVis_free (r a : Nat) (b : Bytes) (s : State) : (ringVis r a b s).free = s.free := by unfold ringVis; split <;> simp
@[simp] theorem ringVis_clk (r a : Nat) (b : Bytes) (s : State) : (ringVis r a b s).clk = s.clk := by unfold ringVis; split <;> simp
@[simp] theorem ringVis_pow (r a : Nat) (b : Bytes) (s : State) : (ringVis r a b s).pow = s.pow := by unfold ringVis; split <;> simp
@[simp] theorem ringVis_rst (r a : Nat) (b : Bytes) (s : State) : (ringVis r a b s).rst = s.rst := by unfold ringVis; split <;> simp
@[simp] theorem ringVis_boot (r a : Nat) (b : Bytes) (s : State) : (ringVis r a b s).boot = s.boot := by unfold ringVis; split <;> simp
@[simp] theorem ringVis_arb (r a : Nat) (b : Bytes) (s : State) : (ringVis r a b s).arb = s.arb := by unfold ringVis; split <;> simp
@[simp] theorem ringVis_hw (r a : Nat) (b : Bytes) (s : State) : (ringVis r a b s).hw = s.hw := by unfold ringVis; split <;> simp
@[simp] theorem ringVis_rng (r a : Nat) (b : Bytes) (s : State) : (ringVis r a b s).rng = s.rng := by unfold ringVis; split <;> simp
@[simp] theorem ringVis_pgk (r a : Nat) (b : Bytes) (s : State) : (ringVis r a b s).pgk = s.pgk := by unfold ringVis; split <;> simp
@[simp] theorem ringVis_prt (r a : Nat) (b : Bytes) (s : State) : (ringVis r a b s).prt = s.prt := by unfold ringVis; split <;> simp
@[simp] theorem ringVis_sw (r a : Nat) (b : Bytes) (s : State) : (ringVis r a b s).sw = s.sw := by unfold ringVis; split <;> simp
@[simp] theorem ringVis_tim (r a : Nat) (b : Bytes) (s : State) : (ringVis r a b s).tim = s.tim := by unfold ringVis; split <;> simp
@[simp] theorem ringVis_sv (r a : Nat) (b : Bytes) (s : State) : (ringVis r a b s).sv = s.sv := by unfold ringVis; split <;> simp
@[simp] theorem ringVis_gse (r a : Nat) (b : Bytes) (s : State) : (ringVis r a b s).gse = s.gse := by unfold ringVis; split <;> simp
@[simp] theorem ringVis_flt (r a : Nat) (b : Bytes) (s : State) : (ringVis r a b s).flt = s.flt := by unfold ringVis; split <;> simp
@[simp] theorem ringVis_acq (r a : Nat) (b : Bytes) (s : State) : (ringVis r a b s).acq = s.acq := by unfold ringVis; split <;> simp
@[simp] theorem ringVis_key (r a : Nat) (b : Bytes) (s : State) : (ringVis r a b s).key = s.key := by unfold ringVis; split <;> simp
@[simp] theorem ringVis_gft (r a : Nat) (b : Bytes) (s : State) : (ringVis r a b s).gft = s.gft := by unfold ringVis; split <;> simp
@[simp] theorem ringVis_ecc (r a : Nat) (b : Bytes) (s : State) : (ringVis r a b s).ecc = s.ecc := by unfold ringVis; split <;> simp
@[simp] theorem ringVis_log (r a : Nat) (b : Bytes) (s : State) : (ringVis r a b s).log = s.log := by unfold ringVis; split <;> simp
@[simp] theorem ringVis_mram (r a : Nat) (b : Bytes) (s : State) : (ringVis r a b s).mram = s.mram := by unfold ringVis; split <;> simp
@[simp] theorem ringVis_bin (r a : Nat) (b : Bytes) (s : State) : (ringVis r a b s).bin = s.bin := by unfold ringVis; split <;> simp
@[simp] theorem ringVis_out (r a : Nat) (b : Bytes) (s : State) : (ringVis r a b s).out = s.out := by unfold ringVis; split <;> simp
@[simp] theorem ringVis_obs (r a : Nat) (b : Bytes) (s : State) : (ringVis r a b s).obs = s.obs := by unfold ringVis; split <;> simp

/-! `writeShadow` -/

@[simp] theorem writeShadow_pending (r : Nat) (s : State) : (writeShadow r s).pending = s.pending := by unfold writeShadow; split <;> simp
@[simp] theorem writeShadow_sets (r : Nat) (s : State) : (writeShadow r s).sets = s.sets := by unfold writeShadow; split <;> simp
@[simp] theorem writeShadow_free (r : Nat) (s : State) : (writeShadow r s).free = s.free := by unfold writeShadow; split <;> simp
@[simp] theorem writeShadow_clk (r : Nat) (s : State) : (writeShadow r s).clk = s.clk := by unfold writeShadow; split <;> simp
@[simp] theorem writeShadow_pow (r : Nat) (s : State) : (writeShadow r s).pow = s.pow := by unfold writeShadow; split <;> simp
@[simp] theorem writeShadow_rst (r : Nat) (s : State) : (writeShadow r s).rst = s.rst := by unfold writeShadow; split <;> simp
@[simp] theorem writeShadow_boot (r : Nat) (s : State) : (writeShadow r s).boot = s.boot := by unfold writeShadow; split <;> simp
@[simp] theorem writeShadow_arb (r : Nat) (s : State) : (writeShadow r s).arb = s.arb := by unfold writeShadow; split <;> simp
@[simp] theorem writeShadow_hw (r : Nat) (s : State) : (writeShadow r s).hw = s.hw := by unfold writeShadow; split <;> simp
@[simp] theorem writeShadow_rng (r : Nat) (s : State) : (writeShadow r s).rng = s.rng := by unfold writeShadow; split <;> simp
@[simp] theorem writeShadow_pgk (r : Nat) (s : State) : (writeShadow r s).pgk = s.pgk := by unfold writeShadow; split <;> simp
@[simp] theorem writeShadow_prt (r : Nat) (s : State) : (writeShadow r s).prt = s.prt := by unfold writeShadow; split <;> simp
@[simp] theorem writeShadow_sw (r : Nat) (s : State) : (writeShadow r s).sw = s.sw := by unfold writeShadow; split <;> simp
@[simp] theorem writeShadow_tim (r : Nat) (s : State) : (writeShadow r s).tim = s.tim := by unfold writeShadow; split <;> simp
@[simp] theorem writeShadow_sv (r : Nat) (s : State) : (writeShadow r s).sv = s.sv := by unfold writeShadow; split <;> simp
@[simp] theorem writeShadow_gse (r : Nat) (s : State) : (writeShadow r s).gse = s.gse := by unfold writeShadow; split <;> simp
@[simp] theorem writeShadow_flt (r : Nat) (s : State) : (writeShadow r s).flt = s.flt := by unfold writeShadow; split <;> simp
@[simp] theorem writeShadow_acq (r : Nat) (s : State) : (writeShadow r s).acq = s.acq := by unfold writeShadow; split <;> simp
@[simp] theorem writeShadow_key (r : Nat) (s : State) : (writeShadow r s).key = s.key := by unfold writeShadow; split <;> simp
@[simp] theorem writeShadow_gft (r : Nat) (s : State) : (writeShadow r s).gft = s.gft := by unfold writeShadow; split <;> simp
@[simp] theorem writeShadow_ecc (r : Nat) (s : State) : (writeShadow r s).ecc = s.ecc := by unfold writeShadow; split <;> simp
@[simp] theorem writeShadow_log (r : Nat) (s : State) : (writeShadow r s).log = s.log := by unfold writeShadow; split <;> simp
@[simp] theorem writeShadow_mram (r : Nat) (s : State) : (writeShadow r s).mram = s.mram := by unfold writeShadow; split <;> simp
@[simp] theorem writeShadow_bin (r : Nat) (s : State) : (writeShadow r s).bin = s.bin := by unfold writeShadow; split <;> simp
@[simp] theorem writeShadow_out (r : Nat) (s : State) : (writeShadow r s).out = s.out := by unfold writeShadow; split <;> simp
@[simp] theorem writeShadow_obs (r : Nat) (s : State) : (writeShadow r s).obs = s.obs := by unfold writeShadow; split <;> simp

/-! `modEntry` -/

@[simp] theorem modEntry_pending (r g : Nat) (q : Word) (f : JRec → JRec) (s : State) : (modEntry r g q f s).pending = s.pending := by unfold modEntry; split <;> rfl
@[simp] theorem modEntry_sets (r g : Nat) (q : Word) (f : JRec → JRec) (s : State) : (modEntry r g q f s).sets = s.sets := by unfold modEntry; split <;> rfl
@[simp] theorem modEntry_free (r g : Nat) (q : Word) (f : JRec → JRec) (s : State) : (modEntry r g q f s).free = s.free := by unfold modEntry; split <;> rfl
@[simp] theorem modEntry_clk (r g : Nat) (q : Word) (f : JRec → JRec) (s : State) : (modEntry r g q f s).clk = s.clk := by unfold modEntry; split <;> rfl
@[simp] theorem modEntry_pow (r g : Nat) (q : Word) (f : JRec → JRec) (s : State) : (modEntry r g q f s).pow = s.pow := by unfold modEntry; split <;> rfl
@[simp] theorem modEntry_rst (r g : Nat) (q : Word) (f : JRec → JRec) (s : State) : (modEntry r g q f s).rst = s.rst := by unfold modEntry; split <;> rfl
@[simp] theorem modEntry_boot (r g : Nat) (q : Word) (f : JRec → JRec) (s : State) : (modEntry r g q f s).boot = s.boot := by unfold modEntry; split <;> rfl
@[simp] theorem modEntry_arb (r g : Nat) (q : Word) (f : JRec → JRec) (s : State) : (modEntry r g q f s).arb = s.arb := by unfold modEntry; split <;> rfl
@[simp] theorem modEntry_hw (r g : Nat) (q : Word) (f : JRec → JRec) (s : State) : (modEntry r g q f s).hw = s.hw := by unfold modEntry; split <;> rfl
@[simp] theorem modEntry_cnp (r g : Nat) (q : Word) (f : JRec → JRec) (s : State) : (modEntry r g q f s).cnp = s.cnp := by unfold modEntry; split <;> rfl
@[simp] theorem modEntry_pgk (r g : Nat) (q : Word) (f : JRec → JRec) (s : State) : (modEntry r g q f s).pgk = s.pgk := by unfold modEntry; split <;> rfl
@[simp] theorem modEntry_mem (r g : Nat) (q : Word) (f : JRec → JRec) (s : State) : (modEntry r g q f s).mem = s.mem := by unfold modEntry; split <;> rfl
@[simp] theorem modEntry_prt (r g : Nat) (q : Word) (f : JRec → JRec) (s : State) : (modEntry r g q f s).prt = s.prt := by unfold modEntry; split <;> rfl
@[simp] theorem modEntry_sw (r g : Nat) (q : Word) (f : JRec → JRec) (s : State) : (modEntry r g q f s).sw = s.sw := by unfold modEntry; split <;> rfl
@[simp] theorem modEntry_tim (r g : Nat) (q : Word) (f : JRec → JRec) (s : State) : (modEntry r g q f s).tim = s.tim := by unfold modEntry; split <;> rfl
@[simp] theorem modEntry_sv (r g : Nat) (q : Word) (f : JRec → JRec) (s : State) : (modEntry r g q f s).sv = s.sv := by unfold modEntry; split <;> rfl
@[simp] theorem modEntry_gse (r g : Nat) (q : Word) (f : JRec → JRec) (s : State) : (modEntry r g q f s).gse = s.gse := by unfold modEntry; split <;> rfl
@[simp] theorem modEntry_flt (r g : Nat) (q : Word) (f : JRec → JRec) (s : State) : (modEntry r g q f s).flt = s.flt := by unfold modEntry; split <;> rfl
@[simp] theorem modEntry_acq (r g : Nat) (q : Word) (f : JRec → JRec) (s : State) : (modEntry r g q f s).acq = s.acq := by unfold modEntry; split <;> rfl
@[simp] theorem modEntry_key (r g : Nat) (q : Word) (f : JRec → JRec) (s : State) : (modEntry r g q f s).key = s.key := by unfold modEntry; split <;> rfl
@[simp] theorem modEntry_gft (r g : Nat) (q : Word) (f : JRec → JRec) (s : State) : (modEntry r g q f s).gft = s.gft := by unfold modEntry; split <;> rfl
@[simp] theorem modEntry_ecc (r g : Nat) (q : Word) (f : JRec → JRec) (s : State) : (modEntry r g q f s).ecc = s.ecc := by unfold modEntry; split <;> rfl
@[simp] theorem modEntry_log (r g : Nat) (q : Word) (f : JRec → JRec) (s : State) : (modEntry r g q f s).log = s.log := by unfold modEntry; split <;> rfl
@[simp] theorem modEntry_mram (r g : Nat) (q : Word) (f : JRec → JRec) (s : State) : (modEntry r g q f s).mram = s.mram := by unfold modEntry; split <;> rfl
@[simp] theorem modEntry_bin (r g : Nat) (q : Word) (f : JRec → JRec) (s : State) : (modEntry r g q f s).bin = s.bin := by unfold modEntry; split <;> rfl
@[simp] theorem modEntry_out (r g : Nat) (q : Word) (f : JRec → JRec) (s : State) : (modEntry r g q f s).out = s.out := by unfold modEntry; split <;> rfl
@[simp] theorem modEntry_obs (r g : Nat) (q : Word) (f : JRec → JRec) (s : State) : (modEntry r g q f s).obs = s.obs := by unfold modEntry; split <;> rfl

/-! `finishOp` -/

@[simp] theorem finishOp_pending (r g : Nat) (q : Word) (st : Nat) (x : Option Word) (b : Bool) (s : State) : (finishOp r g q st x b s).pending = s.pending := rfl
@[simp] theorem finishOp_sets (r g : Nat) (q : Word) (st : Nat) (x : Option Word) (b : Bool) (s : State) : (finishOp r g q st x b s).sets = s.sets := rfl
@[simp] theorem finishOp_free (r g : Nat) (q : Word) (st : Nat) (x : Option Word) (b : Bool) (s : State) : (finishOp r g q st x b s).free = s.free := rfl
@[simp] theorem finishOp_clk (r g : Nat) (q : Word) (st : Nat) (x : Option Word) (b : Bool) (s : State) : (finishOp r g q st x b s).clk = s.clk := rfl
@[simp] theorem finishOp_pow (r g : Nat) (q : Word) (st : Nat) (x : Option Word) (b : Bool) (s : State) : (finishOp r g q st x b s).pow = s.pow := rfl
@[simp] theorem finishOp_rst (r g : Nat) (q : Word) (st : Nat) (x : Option Word) (b : Bool) (s : State) : (finishOp r g q st x b s).rst = s.rst := rfl
@[simp] theorem finishOp_boot (r g : Nat) (q : Word) (st : Nat) (x : Option Word) (b : Bool) (s : State) : (finishOp r g q st x b s).boot = s.boot := rfl
@[simp] theorem finishOp_arb (r g : Nat) (q : Word) (st : Nat) (x : Option Word) (b : Bool) (s : State) : (finishOp r g q st x b s).arb = s.arb := rfl
@[simp] theorem finishOp_hw (r g : Nat) (q : Word) (st : Nat) (x : Option Word) (b : Bool) (s : State) : (finishOp r g q st x b s).hw = s.hw := rfl
@[simp] theorem finishOp_cnp (r g : Nat) (q : Word) (st : Nat) (x : Option Word) (b : Bool) (s : State) : (finishOp r g q st x b s).cnp = s.cnp := rfl
@[simp] theorem finishOp_pgk (r g : Nat) (q : Word) (st : Nat) (x : Option Word) (b : Bool) (s : State) : (finishOp r g q st x b s).pgk = s.pgk := rfl
@[simp] theorem finishOp_mem (r g : Nat) (q : Word) (st : Nat) (x : Option Word) (b : Bool) (s : State) : (finishOp r g q st x b s).mem = s.mem := rfl
@[simp] theorem finishOp_prt (r g : Nat) (q : Word) (st : Nat) (x : Option Word) (b : Bool) (s : State) : (finishOp r g q st x b s).prt = s.prt := rfl
@[simp] theorem finishOp_sw (r g : Nat) (q : Word) (st : Nat) (x : Option Word) (b : Bool) (s : State) : (finishOp r g q st x b s).sw = s.sw := rfl
@[simp] theorem finishOp_tim (r g : Nat) (q : Word) (st : Nat) (x : Option Word) (b : Bool) (s : State) : (finishOp r g q st x b s).tim = s.tim := rfl
@[simp] theorem finishOp_sv (r g : Nat) (q : Word) (st : Nat) (x : Option Word) (b : Bool) (s : State) : (finishOp r g q st x b s).sv = s.sv := rfl
@[simp] theorem finishOp_gse (r g : Nat) (q : Word) (st : Nat) (x : Option Word) (b : Bool) (s : State) : (finishOp r g q st x b s).gse = s.gse := rfl
@[simp] theorem finishOp_flt (r g : Nat) (q : Word) (st : Nat) (x : Option Word) (b : Bool) (s : State) : (finishOp r g q st x b s).flt = s.flt := rfl
@[simp] theorem finishOp_acq (r g : Nat) (q : Word) (st : Nat) (x : Option Word) (b : Bool) (s : State) : (finishOp r g q st x b s).acq = s.acq := rfl
@[simp] theorem finishOp_key (r g : Nat) (q : Word) (st : Nat) (x : Option Word) (b : Bool) (s : State) : (finishOp r g q st x b s).key = s.key := rfl
@[simp] theorem finishOp_gft (r g : Nat) (q : Word) (st : Nat) (x : Option Word) (b : Bool) (s : State) : (finishOp r g q st x b s).gft = s.gft := rfl
@[simp] theorem finishOp_ecc (r g : Nat) (q : Word) (st : Nat) (x : Option Word) (b : Bool) (s : State) : (finishOp r g q st x b s).ecc = s.ecc := rfl
@[simp] theorem finishOp_log (r g : Nat) (q : Word) (st : Nat) (x : Option Word) (b : Bool) (s : State) : (finishOp r g q st x b s).log = s.log := rfl
@[simp] theorem finishOp_mram (r g : Nat) (q : Word) (st : Nat) (x : Option Word) (b : Bool) (s : State) : (finishOp r g q st x b s).mram = s.mram := rfl
@[simp] theorem finishOp_bin (r g : Nat) (q : Word) (st : Nat) (x : Option Word) (b : Bool) (s : State) : (finishOp r g q st x b s).bin = s.bin := rfl
@[simp] theorem finishOp_out (r g : Nat) (q : Word) (st : Nat) (x : Option Word) (b : Bool) (s : State) : (finishOp r g q st x b s).out = s.out := rfl
@[simp] theorem finishOp_obs (r g : Nat) (q : Word) (st : Nat) (x : Option Word) (b : Bool) (s : State) : (finishOp r g q st x b s).obs = s.obs := rfl

/-! `finishNow` -/

@[simp] theorem finishNow_pending (r : Nat) (q : Word) (st : Nat) (x : Option Word) (s : State) : (finishNow r q st x s).pending = s.pending := rfl
@[simp] theorem finishNow_sets (r : Nat) (q : Word) (st : Nat) (x : Option Word) (s : State) : (finishNow r q st x s).sets = s.sets := rfl
@[simp] theorem finishNow_free (r : Nat) (q : Word) (st : Nat) (x : Option Word) (s : State) : (finishNow r q st x s).free = s.free := rfl
@[simp] theorem finishNow_clk (r : Nat) (q : Word) (st : Nat) (x : Option Word) (s : State) : (finishNow r q st x s).clk = s.clk := rfl
@[simp] theorem finishNow_pow (r : Nat) (q : Word) (st : Nat) (x : Option Word) (s : State) : (finishNow r q st x s).pow = s.pow := rfl
@[simp] theorem finishNow_rst (r : Nat) (q : Word) (st : Nat) (x : Option Word) (s : State) : (finishNow r q st x s).rst = s.rst := rfl
@[simp] theorem finishNow_boot (r : Nat) (q : Word) (st : Nat) (x : Option Word) (s : State) : (finishNow r q st x s).boot = s.boot := rfl
@[simp] theorem finishNow_arb (r : Nat) (q : Word) (st : Nat) (x : Option Word) (s : State) : (finishNow r q st x s).arb = s.arb := rfl
@[simp] theorem finishNow_hw (r : Nat) (q : Word) (st : Nat) (x : Option Word) (s : State) : (finishNow r q st x s).hw = s.hw := rfl
@[simp] theorem finishNow_cnp (r : Nat) (q : Word) (st : Nat) (x : Option Word) (s : State) : (finishNow r q st x s).cnp = s.cnp := rfl
@[simp] theorem finishNow_pgk (r : Nat) (q : Word) (st : Nat) (x : Option Word) (s : State) : (finishNow r q st x s).pgk = s.pgk := rfl
@[simp] theorem finishNow_mem (r : Nat) (q : Word) (st : Nat) (x : Option Word) (s : State) : (finishNow r q st x s).mem = s.mem := rfl
@[simp] theorem finishNow_prt (r : Nat) (q : Word) (st : Nat) (x : Option Word) (s : State) : (finishNow r q st x s).prt = s.prt := rfl
@[simp] theorem finishNow_sw (r : Nat) (q : Word) (st : Nat) (x : Option Word) (s : State) : (finishNow r q st x s).sw = s.sw := rfl
@[simp] theorem finishNow_tim (r : Nat) (q : Word) (st : Nat) (x : Option Word) (s : State) : (finishNow r q st x s).tim = s.tim := rfl
@[simp] theorem finishNow_sv (r : Nat) (q : Word) (st : Nat) (x : Option Word) (s : State) : (finishNow r q st x s).sv = s.sv := rfl
@[simp] theorem finishNow_gse (r : Nat) (q : Word) (st : Nat) (x : Option Word) (s : State) : (finishNow r q st x s).gse = s.gse := rfl
@[simp] theorem finishNow_flt (r : Nat) (q : Word) (st : Nat) (x : Option Word) (s : State) : (finishNow r q st x s).flt = s.flt := rfl
@[simp] theorem finishNow_acq (r : Nat) (q : Word) (st : Nat) (x : Option Word) (s : State) : (finishNow r q st x s).acq = s.acq := rfl
@[simp] theorem finishNow_key (r : Nat) (q : Word) (st : Nat) (x : Option Word) (s : State) : (finishNow r q st x s).key = s.key := rfl
@[simp] theorem finishNow_gft (r : Nat) (q : Word) (st : Nat) (x : Option Word) (s : State) : (finishNow r q st x s).gft = s.gft := rfl
@[simp] theorem finishNow_ecc (r : Nat) (q : Word) (st : Nat) (x : Option Word) (s : State) : (finishNow r q st x s).ecc = s.ecc := rfl
@[simp] theorem finishNow_log (r : Nat) (q : Word) (st : Nat) (x : Option Word) (s : State) : (finishNow r q st x s).log = s.log := rfl
@[simp] theorem finishNow_mram (r : Nat) (q : Word) (st : Nat) (x : Option Word) (s : State) : (finishNow r q st x s).mram = s.mram := rfl
@[simp] theorem finishNow_bin (r : Nat) (q : Word) (st : Nat) (x : Option Word) (s : State) : (finishNow r q st x s).bin = s.bin := rfl
@[simp] theorem finishNow_out (r : Nat) (q : Word) (st : Nat) (x : Option Word) (s : State) : (finishNow r q st x s).out = s.out := rfl
@[simp] theorem finishNow_obs (r : Nat) (q : Word) (st : Nat) (x : Option Word) (s : State) : (finishNow r q st x s).obs = s.obs := rfl

/-! `ringEvent` -/

@[simp] theorem ringEvent_pending (b co k r : Nat) (d : Bytes) (sev : Option Nat) (s : State) : (ringEvent b co k r d sev s).pending = s.pending := rfl
@[simp] theorem ringEvent_free (b co k r : Nat) (d : Bytes) (sev : Option Nat) (s : State) : (ringEvent b co k r d sev s).free = s.free := rfl
@[simp] theorem ringEvent_clk (b co k r : Nat) (d : Bytes) (sev : Option Nat) (s : State) : (ringEvent b co k r d sev s).clk = s.clk := rfl
@[simp] theorem ringEvent_pow (b co k r : Nat) (d : Bytes) (sev : Option Nat) (s : State) : (ringEvent b co k r d sev s).pow = s.pow := rfl
@[simp] theorem ringEvent_rst (b co k r : Nat) (d : Bytes) (sev : Option Nat) (s : State) : (ringEvent b co k r d sev s).rst = s.rst := rfl
@[simp] theorem ringEvent_boot (b co k r : Nat) (d : Bytes) (sev : Option Nat) (s : State) : (ringEvent b co k r d sev s).boot = s.boot := rfl
@[simp] theorem ringEvent_pgk (b co k r : Nat) (d : Bytes) (sev : Option Nat) (s : State) : (ringEvent b co k r d sev s).pgk = s.pgk := rfl
@[simp] theorem ringEvent_prt (b co k r : Nat) (d : Bytes) (sev : Option Nat) (s : State) : (ringEvent b co k r d sev s).prt = s.prt := rfl
@[simp] theorem ringEvent_sw (b co k r : Nat) (d : Bytes) (sev : Option Nat) (s : State) : (ringEvent b co k r d sev s).sw = s.sw := rfl
@[simp] theorem ringEvent_tim (b co k r : Nat) (d : Bytes) (sev : Option Nat) (s : State) : (ringEvent b co k r d sev s).tim = s.tim := rfl
@[simp] theorem ringEvent_sv (b co k r : Nat) (d : Bytes) (sev : Option Nat) (s : State) : (ringEvent b co k r d sev s).sv = s.sv := rfl
@[simp] theorem ringEvent_gse (b co k r : Nat) (d : Bytes) (sev : Option Nat) (s : State) : (ringEvent b co k r d sev s).gse = s.gse := rfl
@[simp] theorem ringEvent_flt (b co k r : Nat) (d : Bytes) (sev : Option Nat) (s : State) : (ringEvent b co k r d sev s).flt = s.flt := rfl
@[simp] theorem ringEvent_acq (b co k r : Nat) (d : Bytes) (sev : Option Nat) (s : State) : (ringEvent b co k r d sev s).acq = s.acq := rfl
@[simp] theorem ringEvent_key (b co k r : Nat) (d : Bytes) (sev : Option Nat) (s : State) : (ringEvent b co k r d sev s).key = s.key := rfl
@[simp] theorem ringEvent_gft (b co k r : Nat) (d : Bytes) (sev : Option Nat) (s : State) : (ringEvent b co k r d sev s).gft = s.gft := rfl
@[simp] theorem ringEvent_ecc (b co k r : Nat) (d : Bytes) (sev : Option Nat) (s : State) : (ringEvent b co k r d sev s).ecc = s.ecc := rfl
@[simp] theorem ringEvent_mram (b co k r : Nat) (d : Bytes) (sev : Option Nat) (s : State) : (ringEvent b co k r d sev s).mram = s.mram := rfl
@[simp] theorem ringEvent_bin (b co k r : Nat) (d : Bytes) (sev : Option Nat) (s : State) : (ringEvent b co k r d sev s).bin = s.bin := rfl
@[simp] theorem ringEvent_out (b co k r : Nat) (d : Bytes) (sev : Option Nat) (s : State) : (ringEvent b co k r d sev s).out = s.out := rfl

/-! `gftNext` -/

@[simp] theorem gftNext_pending (l : Nat) (f : GFrame) (s : State) : (gftNext l f s).pending = s.pending := rfl
@[simp] theorem gftNext_sets (l : Nat) (f : GFrame) (s : State) : (gftNext l f s).sets = s.sets := rfl
@[simp] theorem gftNext_free (l : Nat) (f : GFrame) (s : State) : (gftNext l f s).free = s.free := rfl
@[simp] theorem gftNext_clk (l : Nat) (f : GFrame) (s : State) : (gftNext l f s).clk = s.clk := rfl
@[simp] theorem gftNext_pow (l : Nat) (f : GFrame) (s : State) : (gftNext l f s).pow = s.pow := rfl
@[simp] theorem gftNext_rst (l : Nat) (f : GFrame) (s : State) : (gftNext l f s).rst = s.rst := rfl
@[simp] theorem gftNext_boot (l : Nat) (f : GFrame) (s : State) : (gftNext l f s).boot = s.boot := rfl
@[simp] theorem gftNext_arb (l : Nat) (f : GFrame) (s : State) : (gftNext l f s).arb = s.arb := rfl
@[simp] theorem gftNext_hw (l : Nat) (f : GFrame) (s : State) : (gftNext l f s).hw = s.hw := rfl
@[simp] theorem gftNext_rng (l : Nat) (f : GFrame) (s : State) : (gftNext l f s).rng = s.rng := rfl
@[simp] theorem gftNext_cnp (l : Nat) (f : GFrame) (s : State) : (gftNext l f s).cnp = s.cnp := rfl
@[simp] theorem gftNext_pgk (l : Nat) (f : GFrame) (s : State) : (gftNext l f s).pgk = s.pgk := rfl
@[simp] theorem gftNext_mem (l : Nat) (f : GFrame) (s : State) : (gftNext l f s).mem = s.mem := rfl
@[simp] theorem gftNext_prt (l : Nat) (f : GFrame) (s : State) : (gftNext l f s).prt = s.prt := rfl
@[simp] theorem gftNext_sw (l : Nat) (f : GFrame) (s : State) : (gftNext l f s).sw = s.sw := rfl
@[simp] theorem gftNext_tim (l : Nat) (f : GFrame) (s : State) : (gftNext l f s).tim = s.tim := rfl
@[simp] theorem gftNext_sv (l : Nat) (f : GFrame) (s : State) : (gftNext l f s).sv = s.sv := rfl
@[simp] theorem gftNext_gse (l : Nat) (f : GFrame) (s : State) : (gftNext l f s).gse = s.gse := rfl
@[simp] theorem gftNext_flt (l : Nat) (f : GFrame) (s : State) : (gftNext l f s).flt = s.flt := rfl
@[simp] theorem gftNext_acq (l : Nat) (f : GFrame) (s : State) : (gftNext l f s).acq = s.acq := rfl
@[simp] theorem gftNext_key (l : Nat) (f : GFrame) (s : State) : (gftNext l f s).key = s.key := rfl
@[simp] theorem gftNext_ecc (l : Nat) (f : GFrame) (s : State) : (gftNext l f s).ecc = s.ecc := rfl
@[simp] theorem gftNext_log (l : Nat) (f : GFrame) (s : State) : (gftNext l f s).log = s.log := rfl
@[simp] theorem gftNext_mram (l : Nat) (f : GFrame) (s : State) : (gftNext l f s).mram = s.mram := rfl
@[simp] theorem gftNext_bin (l : Nat) (f : GFrame) (s : State) : (gftNext l f s).bin = s.bin := rfl
@[simp] theorem gftNext_out (l : Nat) (f : GFrame) (s : State) : (gftNext l f s).out = s.out := rfl
@[simp] theorem gftNext_obs (l : Nat) (f : GFrame) (s : State) : (gftNext l f s).obs = s.obs := rfl

/-! `startFrame` -/

@[simp] theorem startFrame_pending (l : Nat) (s : State) : (startFrame l s).pending = s.pending := by unfold startFrame; split <;> (try split) <;> (try split) <;> rfl
@[simp] theorem startFrame_sets (l : Nat) (s : State) : (startFrame l s).sets = s.sets := by unfold startFrame; split <;> (try split) <;> (try split) <;> rfl
@[simp] theorem startFrame_free (l : Nat) (s : State) : (startFrame l s).free = s.free := by unfold startFrame; split <;> (try split) <;> (try split) <;> rfl
@[simp] theorem startFrame_clk (l : Nat) (s : State) : (startFrame l s).clk = s.clk := by unfold startFrame; split <;> (try split) <;> (try split) <;> rfl
@[simp] theorem startFrame_pow (l : Nat) (s : State) : (startFrame l s).pow = s.pow := by unfold startFrame; split <;> (try split) <;> (try split) <;> rfl
@[simp] theorem startFrame_rst (l : Nat) (s : State) : (startFrame l s).rst = s.rst := by unfold startFrame; split <;> (try split) <;> (try split) <;> rfl
@[simp] theorem startFrame_boot (l : Nat) (s : State) : (startFrame l s).boot = s.boot := by unfold startFrame; split <;> (try split) <;> (try split) <;> rfl
@[simp] theorem startFrame_arb (l : Nat) (s : State) : (startFrame l s).arb = s.arb := by unfold startFrame; split <;> (try split) <;> (try split) <;> rfl
@[simp] theorem startFrame_hw (l : Nat) (s : State) : (startFrame l s).hw = s.hw := by unfold startFrame; split <;> (try split) <;> (try split) <;> rfl
@[simp] theorem startFrame_rng (l : Nat) (s : State) : (startFrame l s).rng = s.rng := by unfold startFrame; split <;> (try split) <;> (try split) <;> rfl
@[simp] theorem startFrame_cnp (l : Nat) (s : State) : (startFrame l s).cnp = s.cnp := by unfold startFrame; split <;> (try split) <;> (try split) <;> rfl
@[simp] theorem startFrame_pgk (l : Nat) (s : State) : (startFrame l s).pgk = s.pgk := by unfold startFrame; split <;> (try split) <;> (try split) <;> rfl
@[simp] theorem startFrame_mem (l : Nat) (s : State) : (startFrame l s).mem = s.mem := by unfold startFrame; split <;> (try split) <;> (try split) <;> rfl
@[simp] theorem startFrame_prt (l : Nat) (s : State) : (startFrame l s).prt = s.prt := by unfold startFrame; split <;> (try split) <;> (try split) <;> rfl
@[simp] theorem startFrame_sw (l : Nat) (s : State) : (startFrame l s).sw = s.sw := by unfold startFrame; split <;> (try split) <;> (try split) <;> rfl
@[simp] theorem startFrame_tim (l : Nat) (s : State) : (startFrame l s).tim = s.tim := by unfold startFrame; split <;> (try split) <;> (try split) <;> rfl
@[simp] theorem startFrame_sv (l : Nat) (s : State) : (startFrame l s).sv = s.sv := by unfold startFrame; split <;> (try split) <;> (try split) <;> rfl
@[simp] theorem startFrame_gse (l : Nat) (s : State) : (startFrame l s).gse = s.gse := by unfold startFrame; split <;> (try split) <;> (try split) <;> rfl
@[simp] theorem startFrame_flt (l : Nat) (s : State) : (startFrame l s).flt = s.flt := by unfold startFrame; split <;> (try split) <;> (try split) <;> rfl
@[simp] theorem startFrame_acq (l : Nat) (s : State) : (startFrame l s).acq = s.acq := by unfold startFrame; split <;> (try split) <;> (try split) <;> rfl
@[simp] theorem startFrame_key (l : Nat) (s : State) : (startFrame l s).key = s.key := by unfold startFrame; split <;> (try split) <;> (try split) <;> rfl
@[simp] theorem startFrame_ecc (l : Nat) (s : State) : (startFrame l s).ecc = s.ecc := by unfold startFrame; split <;> (try split) <;> (try split) <;> rfl
@[simp] theorem startFrame_log (l : Nat) (s : State) : (startFrame l s).log = s.log := by unfold startFrame; split <;> (try split) <;> (try split) <;> rfl
@[simp] theorem startFrame_mram (l : Nat) (s : State) : (startFrame l s).mram = s.mram := by unfold startFrame; split <;> (try split) <;> (try split) <;> rfl
@[simp] theorem startFrame_bin (l : Nat) (s : State) : (startFrame l s).bin = s.bin := by unfold startFrame; split <;> (try split) <;> (try split) <;> rfl
@[simp] theorem startFrame_out (l : Nat) (s : State) : (startFrame l s).out = s.out := by unfold startFrame; split <;> (try split) <;> (try split) <;> rfl
@[simp] theorem startFrame_obs (l : Nat) (s : State) : (startFrame l s).obs = s.obs := by unfold startFrame; split <;> (try split) <;> (try split) <;> rfl

/-! `frameStarts` -/

@[simp] theorem frameStarts_pending  (s : State) : (frameStarts  s).pending = s.pending := by simp [frameStarts]
@[simp] theorem frameStarts_sets  (s : State) : (frameStarts  s).sets = s.sets := by simp [frameStarts]
@[simp] theorem frameStarts_free  (s : State) : (frameStarts  s).free = s.free := by simp [frameStarts]
@[simp] theorem frameStarts_clk  (s : State) : (frameStarts  s).clk = s.clk := by simp [frameStarts]
@[simp] theorem frameStarts_pow  (s : State) : (frameStarts  s).pow = s.pow := by simp [frameStarts]
@[simp] theorem frameStarts_rst  (s : State) : (frameStarts  s).rst = s.rst := by simp [frameStarts]
@[simp] theorem frameStarts_boot  (s : State) : (frameStarts  s).boot = s.boot := by simp [frameStarts]
@[simp] theorem frameStarts_arb  (s : State) : (frameStarts  s).arb = s.arb := by simp [frameStarts]
@[simp] theorem frameStarts_hw  (s : State) : (frameStarts  s).hw = s.hw := by simp [frameStarts]
@[simp] theorem frameStarts_rng  (s : State) : (frameStarts  s).rng = s.rng := by simp [frameStarts]
@[simp] theorem frameStarts_cnp  (s : State) : (frameStarts  s).cnp = s.cnp := by simp [frameStarts]
@[simp] theorem frameStarts_pgk  (s : State) : (frameStarts  s).pgk = s.pgk := by simp [frameStarts]
@[simp] theorem frameStarts_mem  (s : State) : (frameStarts  s).mem = s.mem := by simp [frameStarts]
@[simp] theorem frameStarts_prt  (s : State) : (frameStarts  s).prt = s.prt := by simp [frameStarts]
@[simp] theorem frameStarts_sw  (s : State) : (frameStarts  s).sw = s.sw := by simp [frameStarts]
@[simp] theorem frameStarts_tim  (s : State) : (frameStarts  s).tim = s.tim := by simp [frameStarts]
@[simp] theorem frameStarts_sv  (s : State) : (frameStarts  s).sv = s.sv := by simp [frameStarts]
@[simp] theorem frameStarts_gse  (s : State) : (frameStarts  s).gse = s.gse := by simp [frameStarts]
@[simp] theorem frameStarts_flt  (s : State) : (frameStarts  s).flt = s.flt := by simp [frameStarts]
@[simp] theorem frameStarts_acq  (s : State) : (frameStarts  s).acq = s.acq := by simp [frameStarts]
@[simp] theorem frameStarts_key  (s : State) : (frameStarts  s).key = s.key := by simp [frameStarts]
@[simp] theorem frameStarts_ecc  (s : State) : (frameStarts  s).ecc = s.ecc := by simp [frameStarts]
@[simp] theorem frameStarts_log  (s : State) : (frameStarts  s).log = s.log := by simp [frameStarts]
@[simp] theorem frameStarts_mram  (s : State) : (frameStarts  s).mram = s.mram := by simp [frameStarts]
@[simp] theorem frameStarts_bin  (s : State) : (frameStarts  s).bin = s.bin := by simp [frameStarts]
@[simp] theorem frameStarts_out  (s : State) : (frameStarts  s).out = s.out := by simp [frameStarts]
@[simp] theorem frameStarts_obs  (s : State) : (frameStarts  s).obs = s.obs := by simp [frameStarts]

/-! `gftQueue` -/

@[simp] theorem gftQueue_pending (fs : List TxReq) (s : State) : (gftQueue fs s).pending = s.pending := by simp [gftQueue]
@[simp] theorem gftQueue_sets (fs : List TxReq) (s : State) : (gftQueue fs s).sets = s.sets := by simp [gftQueue]
@[simp] theorem gftQueue_free (fs : List TxReq) (s : State) : (gftQueue fs s).free = s.free := by simp [gftQueue]
@[simp] theorem gftQueue_clk (fs : List TxReq) (s : State) : (gftQueue fs s).clk = s.clk := by simp [gftQueue]
@[simp] theorem gftQueue_pow (fs : List TxReq) (s : State) : (gftQueue fs s).pow = s.pow := by simp [gftQueue]
@[simp] theorem gftQueue_rst (fs : List TxReq) (s : State) : (gftQueue fs s).rst = s.rst := by simp [gftQueue]
@[simp] theorem gftQueue_boot (fs : List TxReq) (s : State) : (gftQueue fs s).boot = s.boot := by simp [gftQueue]
@[simp] theorem gftQueue_arb (fs : List TxReq) (s : State) : (gftQueue fs s).arb = s.arb := by simp [gftQueue]
@[simp] theorem gftQueue_hw (fs : List TxReq) (s : State) : (gftQueue fs s).hw = s.hw := by simp [gftQueue]
@[simp] theorem gftQueue_rng (fs : List TxReq) (s : State) : (gftQueue fs s).rng = s.rng := by simp [gftQueue]
@[simp] theorem gftQueue_cnp (fs : List TxReq) (s : State) : (gftQueue fs s).cnp = s.cnp := by simp [gftQueue]
@[simp] theorem gftQueue_pgk (fs : List TxReq) (s : State) : (gftQueue fs s).pgk = s.pgk := by simp [gftQueue]
@[simp] theorem gftQueue_mem (fs : List TxReq) (s : State) : (gftQueue fs s).mem = s.mem := by simp [gftQueue]
@[simp] theorem gftQueue_prt (fs : List TxReq) (s : State) : (gftQueue fs s).prt = s.prt := by simp [gftQueue]
@[simp] theorem gftQueue_sw (fs : List TxReq) (s : State) : (gftQueue fs s).sw = s.sw := by simp [gftQueue]
@[simp] theorem gftQueue_tim (fs : List TxReq) (s : State) : (gftQueue fs s).tim = s.tim := by simp [gftQueue]
@[simp] theorem gftQueue_sv (fs : List TxReq) (s : State) : (gftQueue fs s).sv = s.sv := by simp [gftQueue]
@[simp] theorem gftQueue_gse (fs : List TxReq) (s : State) : (gftQueue fs s).gse = s.gse := by simp [gftQueue]
@[simp] theorem gftQueue_flt (fs : List TxReq) (s : State) : (gftQueue fs s).flt = s.flt := by simp [gftQueue]
@[simp] theorem gftQueue_acq (fs : List TxReq) (s : State) : (gftQueue fs s).acq = s.acq := by simp [gftQueue]
@[simp] theorem gftQueue_key (fs : List TxReq) (s : State) : (gftQueue fs s).key = s.key := by simp [gftQueue]
@[simp] theorem gftQueue_ecc (fs : List TxReq) (s : State) : (gftQueue fs s).ecc = s.ecc := by simp [gftQueue]
@[simp] theorem gftQueue_log (fs : List TxReq) (s : State) : (gftQueue fs s).log = s.log := by simp [gftQueue]
@[simp] theorem gftQueue_mram (fs : List TxReq) (s : State) : (gftQueue fs s).mram = s.mram := by simp [gftQueue]
@[simp] theorem gftQueue_bin (fs : List TxReq) (s : State) : (gftQueue fs s).bin = s.bin := by simp [gftQueue]
@[simp] theorem gftQueue_out (fs : List TxReq) (s : State) : (gftQueue fs s).out = s.out := by simp [gftQueue]
@[simp] theorem gftQueue_obs (fs : List TxReq) (s : State) : (gftQueue fs s).obs = s.obs := by simp [gftQueue]

/-! `gftSend` -/

@[simp] theorem gftSend_pending (b : GBody) (ls : List Nat) (s : State) : (gftSend b ls s).pending = s.pending := by simp [gftSend]
@[simp] theorem gftSend_sets (b : GBody) (ls : List Nat) (s : State) : (gftSend b ls s).sets = s.sets := by simp [gftSend]
@[simp] theorem gftSend_free (b : GBody) (ls : List Nat) (s : State) : (gftSend b ls s).free = s.free := by simp [gftSend]
@[simp] theorem gftSend_clk (b : GBody) (ls : List Nat) (s : State) : (gftSend b ls s).clk = s.clk := by simp [gftSend]
@[simp] theorem gftSend_pow (b : GBody) (ls : List Nat) (s : State) : (gftSend b ls s).pow = s.pow := by simp [gftSend]
@[simp] theorem gftSend_rst (b : GBody) (ls : List Nat) (s : State) : (gftSend b ls s).rst = s.rst := by simp [gftSend]
@[simp] theorem gftSend_boot (b : GBody) (ls : List Nat) (s : State) : (gftSend b ls s).boot = s.boot := by simp [gftSend]
@[simp] theorem gftSend_arb (b : GBody) (ls : List Nat) (s : State) : (gftSend b ls s).arb = s.arb := by simp [gftSend]
@[simp] theorem gftSend_hw (b : GBody) (ls : List Nat) (s : State) : (gftSend b ls s).hw = s.hw := by simp [gftSend]
@[simp] theorem gftSend_rng (b : GBody) (ls : List Nat) (s : State) : (gftSend b ls s).rng = s.rng := by simp [gftSend]
@[simp] theorem gftSend_cnp (b : GBody) (ls : List Nat) (s : State) : (gftSend b ls s).cnp = s.cnp := by simp [gftSend]
@[simp] theorem gftSend_pgk (b : GBody) (ls : List Nat) (s : State) : (gftSend b ls s).pgk = s.pgk := by simp [gftSend]
@[simp] theorem gftSend_mem (b : GBody) (ls : List Nat) (s : State) : (gftSend b ls s).mem = s.mem := by simp [gftSend]
@[simp] theorem gftSend_prt (b : GBody) (ls : List Nat) (s : State) : (gftSend b ls s).prt = s.prt := by simp [gftSend]
@[simp] theorem gftSend_sw (b : GBody) (ls : List Nat) (s : State) : (gftSend b ls s).sw = s.sw := by simp [gftSend]
@[simp] theorem gftSend_tim (b : GBody) (ls : List Nat) (s : State) : (gftSend b ls s).tim = s.tim := by simp [gftSend]
@[simp] theorem gftSend_sv (b : GBody) (ls : List Nat) (s : State) : (gftSend b ls s).sv = s.sv := by simp [gftSend]
@[simp] theorem gftSend_gse (b : GBody) (ls : List Nat) (s : State) : (gftSend b ls s).gse = s.gse := by simp [gftSend]
@[simp] theorem gftSend_flt (b : GBody) (ls : List Nat) (s : State) : (gftSend b ls s).flt = s.flt := by simp [gftSend]
@[simp] theorem gftSend_acq (b : GBody) (ls : List Nat) (s : State) : (gftSend b ls s).acq = s.acq := by simp [gftSend]
@[simp] theorem gftSend_key (b : GBody) (ls : List Nat) (s : State) : (gftSend b ls s).key = s.key := by simp [gftSend]
@[simp] theorem gftSend_ecc (b : GBody) (ls : List Nat) (s : State) : (gftSend b ls s).ecc = s.ecc := by simp [gftSend]
@[simp] theorem gftSend_log (b : GBody) (ls : List Nat) (s : State) : (gftSend b ls s).log = s.log := by simp [gftSend]
@[simp] theorem gftSend_mram (b : GBody) (ls : List Nat) (s : State) : (gftSend b ls s).mram = s.mram := by simp [gftSend]
@[simp] theorem gftSend_bin (b : GBody) (ls : List Nat) (s : State) : (gftSend b ls s).bin = s.bin := by simp [gftSend]
@[simp] theorem gftSend_out (b : GBody) (ls : List Nat) (s : State) : (gftSend b ls s).out = s.out := by simp [gftSend]
@[simp] theorem gftSend_obs (b : GBody) (ls : List Nat) (s : State) : (gftSend b ls s).obs = s.obs := by simp [gftSend]

/-! `gftSendAll` -/

@[simp] theorem gftSendAll_pending (b : GBody) (s : State) : (gftSendAll b s).pending = s.pending := by simp [gftSendAll]
@[simp] theorem gftSendAll_sets (b : GBody) (s : State) : (gftSendAll b s).sets = s.sets := by simp [gftSendAll]
@[simp] theorem gftSendAll_free (b : GBody) (s : State) : (gftSendAll b s).free = s.free := by simp [gftSendAll]
@[simp] theorem gftSendAll_clk (b : GBody) (s : State) : (gftSendAll b s).clk = s.clk := by simp [gftSendAll]
@[simp] theorem gftSendAll_pow (b : GBody) (s : State) : (gftSendAll b s).pow = s.pow := by simp [gftSendAll]
@[simp] theorem gftSendAll_rst (b : GBody) (s : State) : (gftSendAll b s).rst = s.rst := by simp [gftSendAll]
@[simp] theorem gftSendAll_boot (b : GBody) (s : State) : (gftSendAll b s).boot = s.boot := by simp [gftSendAll]
@[simp] theorem gftSendAll_arb (b : GBody) (s : State) : (gftSendAll b s).arb = s.arb := by simp [gftSendAll]
@[simp] theorem gftSendAll_hw (b : GBody) (s : State) : (gftSendAll b s).hw = s.hw := by simp [gftSendAll]
@[simp] theorem gftSendAll_rng (b : GBody) (s : State) : (gftSendAll b s).rng = s.rng := by simp [gftSendAll]
@[simp] theorem gftSendAll_cnp (b : GBody) (s : State) : (gftSendAll b s).cnp = s.cnp := by simp [gftSendAll]
@[simp] theorem gftSendAll_pgk (b : GBody) (s : State) : (gftSendAll b s).pgk = s.pgk := by simp [gftSendAll]
@[simp] theorem gftSendAll_mem (b : GBody) (s : State) : (gftSendAll b s).mem = s.mem := by simp [gftSendAll]
@[simp] theorem gftSendAll_prt (b : GBody) (s : State) : (gftSendAll b s).prt = s.prt := by simp [gftSendAll]
@[simp] theorem gftSendAll_sw (b : GBody) (s : State) : (gftSendAll b s).sw = s.sw := by simp [gftSendAll]
@[simp] theorem gftSendAll_tim (b : GBody) (s : State) : (gftSendAll b s).tim = s.tim := by simp [gftSendAll]
@[simp] theorem gftSendAll_sv (b : GBody) (s : State) : (gftSendAll b s).sv = s.sv := by simp [gftSendAll]
@[simp] theorem gftSendAll_gse (b : GBody) (s : State) : (gftSendAll b s).gse = s.gse := by simp [gftSendAll]
@[simp] theorem gftSendAll_flt (b : GBody) (s : State) : (gftSendAll b s).flt = s.flt := by simp [gftSendAll]
@[simp] theorem gftSendAll_acq (b : GBody) (s : State) : (gftSendAll b s).acq = s.acq := by simp [gftSendAll]
@[simp] theorem gftSendAll_key (b : GBody) (s : State) : (gftSendAll b s).key = s.key := by simp [gftSendAll]
@[simp] theorem gftSendAll_ecc (b : GBody) (s : State) : (gftSendAll b s).ecc = s.ecc := by simp [gftSendAll]
@[simp] theorem gftSendAll_log (b : GBody) (s : State) : (gftSendAll b s).log = s.log := by simp [gftSendAll]
@[simp] theorem gftSendAll_mram (b : GBody) (s : State) : (gftSendAll b s).mram = s.mram := by simp [gftSendAll]
@[simp] theorem gftSendAll_bin (b : GBody) (s : State) : (gftSendAll b s).bin = s.bin := by simp [gftSendAll]
@[simp] theorem gftSendAll_out (b : GBody) (s : State) : (gftSendAll b s).out = s.out := by simp [gftSendAll]
@[simp] theorem gftSendAll_obs (b : GBody) (s : State) : (gftSendAll b s).obs = s.obs := by simp [gftSendAll]

/-! `gftSendOne` -/

@[simp] theorem gftSendOne_pending (b : GBody) (s : State) : (gftSendOne b s).pending = s.pending := by unfold gftSendOne; split <;> simp
@[simp] theorem gftSendOne_sets (b : GBody) (s : State) : (gftSendOne b s).sets = s.sets := by unfold gftSendOne; split <;> simp
@[simp] theorem gftSendOne_free (b : GBody) (s : State) : (gftSendOne b s).free = s.free := by unfold gftSendOne; split <;> simp
@[simp] theorem gftSendOne_clk (b : GBody) (s : State) : (gftSendOne b s).clk = s.clk := by unfold gftSendOne; split <;> simp
@[simp] theorem gftSendOne_pow (b : GBody) (s : State) : (gftSendOne b s).pow = s.pow := by unfold gftSendOne; split <;> simp
@[simp] theorem gftSendOne_rst (b : GBody) (s : State) : (gftSendOne b s).rst = s.rst := by unfold gftSendOne; split <;> simp
@[simp] theorem gftSendOne_boot (b : GBody) (s : State) : (gftSendOne b s).boot = s.boot := by unfold gftSendOne; split <;> simp
@[simp] theorem gftSendOne_arb (b : GBody) (s : State) : (gftSendOne b s).arb = s.arb := by unfold gftSendOne; split <;> simp
@[simp] theorem gftSendOne_hw (b : GBody) (s : State) : (gftSendOne b s).hw = s.hw := by unfold gftSendOne; split <;> simp
@[simp] theorem gftSendOne_rng (b : GBody) (s : State) : (gftSendOne b s).rng = s.rng := by unfold gftSendOne; split <;> simp
@[simp] theorem gftSendOne_cnp (b : GBody) (s : State) : (gftSendOne b s).cnp = s.cnp := by unfold gftSendOne; split <;> simp
@[simp] theorem gftSendOne_pgk (b : GBody) (s : State) : (gftSendOne b s).pgk = s.pgk := by unfold gftSendOne; split <;> simp
@[simp] theorem gftSendOne_mem (b : GBody) (s : State) : (gftSendOne b s).mem = s.mem := by unfold gftSendOne; split <;> simp
@[simp] theorem gftSendOne_prt (b : GBody) (s : State) : (gftSendOne b s).prt = s.prt := by unfold gftSendOne; split <;> simp
@[simp] theorem gftSendOne_sw (b : GBody) (s : State) : (gftSendOne b s).sw = s.sw := by unfold gftSendOne; split <;> simp
@[simp] theorem gftSendOne_tim (b : GBody) (s : State) : (gftSendOne b s).tim = s.tim := by unfold gftSendOne; split <;> simp
@[simp] theorem gftSendOne_sv (b : GBody) (s : State) : (gftSendOne b s).sv = s.sv := by unfold gftSendOne; split <;> simp
@[simp] theorem gftSendOne_gse (b : GBody) (s : State) : (gftSendOne b s).gse = s.gse := by unfold gftSendOne; split <;> simp
@[simp] theorem gftSendOne_flt (b : GBody) (s : State) : (gftSendOne b s).flt = s.flt := by unfold gftSendOne; split <;> simp
@[simp] theorem gftSendOne_acq (b : GBody) (s : State) : (gftSendOne b s).acq = s.acq := by unfold gftSendOne; split <;> simp
@[simp] theorem gftSendOne_key (b : GBody) (s : State) : (gftSendOne b s).key = s.key := by unfold gftSendOne; split <;> simp
@[simp] theorem gftSendOne_ecc (b : GBody) (s : State) : (gftSendOne b s).ecc = s.ecc := by unfold gftSendOne; split <;> simp
@[simp] theorem gftSendOne_log (b : GBody) (s : State) : (gftSendOne b s).log = s.log := by unfold gftSendOne; split <;> simp
@[simp] theorem gftSendOne_mram (b : GBody) (s : State) : (gftSendOne b s).mram = s.mram := by unfold gftSendOne; split <;> simp
@[simp] theorem gftSendOne_bin (b : GBody) (s : State) : (gftSendOne b s).bin = s.bin := by unfold gftSendOne; split <;> simp
@[simp] theorem gftSendOne_out (b : GBody) (s : State) : (gftSendOne b s).out = s.out := by unfold gftSendOne; split <;> simp
@[simp] theorem gftSendOne_obs (b : GBody) (s : State) : (gftSendOne b s).obs = s.obs := by unfold gftSendOne; split <;> simp

/-! `noteSet` -/

@[simp] theorem noteSet_pending (off bit : Nat) (s : State) : (noteSet off bit s).pending = s.pending := rfl
@[simp] theorem noteSet_free (off bit : Nat) (s : State) : (noteSet off bit s).free = s.free := rfl
@[simp] theorem noteSet_clk (off bit : Nat) (s : State) : (noteSet off bit s).clk = s.clk := rfl
@[simp] theorem noteSet_pow (off bit : Nat) (s : State) : (noteSet off bit s).pow = s.pow := rfl
@[simp] theorem noteSet_rst (off bit : Nat) (s : State) : (noteSet off bit s).rst = s.rst := rfl
@[simp] theorem noteSet_boot (off bit : Nat) (s : State) : (noteSet off bit s).boot = s.boot := rfl
@[simp] theorem noteSet_arb (off bit : Nat) (s : State) : (noteSet off bit s).arb = s.arb := rfl
@[simp] theorem noteSet_hw (off bit : Nat) (s : State) : (noteSet off bit s).hw = s.hw := rfl
@[simp] theorem noteSet_rng (off bit : Nat) (s : State) : (noteSet off bit s).rng = s.rng := rfl
@[simp] theorem noteSet_cnp (off bit : Nat) (s : State) : (noteSet off bit s).cnp = s.cnp := rfl
@[simp] theorem noteSet_pgk (off bit : Nat) (s : State) : (noteSet off bit s).pgk = s.pgk := rfl
@[simp] theorem noteSet_mem (off bit : Nat) (s : State) : (noteSet off bit s).mem = s.mem := rfl
@[simp] theorem noteSet_prt (off bit : Nat) (s : State) : (noteSet off bit s).prt = s.prt := rfl
@[simp] theorem noteSet_sw (off bit : Nat) (s : State) : (noteSet off bit s).sw = s.sw := rfl
@[simp] theorem noteSet_tim (off bit : Nat) (s : State) : (noteSet off bit s).tim = s.tim := rfl
@[simp] theorem noteSet_sv (off bit : Nat) (s : State) : (noteSet off bit s).sv = s.sv := rfl
@[simp] theorem noteSet_gse (off bit : Nat) (s : State) : (noteSet off bit s).gse = s.gse := rfl
@[simp] theorem noteSet_flt (off bit : Nat) (s : State) : (noteSet off bit s).flt = s.flt := rfl
@[simp] theorem noteSet_acq (off bit : Nat) (s : State) : (noteSet off bit s).acq = s.acq := rfl
@[simp] theorem noteSet_key (off bit : Nat) (s : State) : (noteSet off bit s).key = s.key := rfl
@[simp] theorem noteSet_gft (off bit : Nat) (s : State) : (noteSet off bit s).gft = s.gft := rfl
@[simp] theorem noteSet_ecc (off bit : Nat) (s : State) : (noteSet off bit s).ecc = s.ecc := rfl
@[simp] theorem noteSet_log (off bit : Nat) (s : State) : (noteSet off bit s).log = s.log := rfl
@[simp] theorem noteSet_mram (off bit : Nat) (s : State) : (noteSet off bit s).mram = s.mram := rfl
@[simp] theorem noteSet_bin (off bit : Nat) (s : State) : (noteSet off bit s).bin = s.bin := rfl
@[simp] theorem noteSet_out (off bit : Nat) (s : State) : (noteSet off bit s).out = s.out := rfl
@[simp] theorem noteSet_obs (off bit : Nat) (s : State) : (noteSet off bit s).obs = s.obs := rfl

/-! `offEvents` -/

@[simp] theorem offEvents_pending (k i : Nat) (h : Bool) (s : State) : (offEvents k i h s).pending = s.pending := by unfold offEvents; split <;> rfl
@[simp] theorem offEvents_sets (k i : Nat) (h : Bool) (s : State) : (offEvents k i h s).sets = s.sets := by unfold offEvents; split <;> rfl
@[simp] theorem offEvents_free (k i : Nat) (h : Bool) (s : State) : (offEvents k i h s).free = s.free := by unfold offEvents; split <;> rfl
@[simp] theorem offEvents_clk (k i : Nat) (h : Bool) (s : State) : (offEvents k i h s).clk = s.clk := by unfold offEvents; split <;> rfl
@[simp] theorem offEvents_pow (k i : Nat) (h : Bool) (s : State) : (offEvents k i h s).pow = s.pow := by unfold offEvents; split <;> rfl
@[simp] theorem offEvents_rst (k i : Nat) (h : Bool) (s : State) : (offEvents k i h s).rst = s.rst := by unfold offEvents; split <;> rfl
@[simp] theorem offEvents_boot (k i : Nat) (h : Bool) (s : State) : (offEvents k i h s).boot = s.boot := by unfold offEvents; split <;> rfl
@[simp] theorem offEvents_rng (k i : Nat) (h : Bool) (s : State) : (offEvents k i h s).rng = s.rng := by unfold offEvents; split <;> rfl
@[simp] theorem offEvents_pgk (k i : Nat) (h : Bool) (s : State) : (offEvents k i h s).pgk = s.pgk := by unfold offEvents; split <;> rfl
@[simp] theorem offEvents_prt (k i : Nat) (h : Bool) (s : State) : (offEvents k i h s).prt = s.prt := by unfold offEvents; split <;> rfl
@[simp] theorem offEvents_sw (k i : Nat) (h : Bool) (s : State) : (offEvents k i h s).sw = s.sw := by unfold offEvents; split <;> rfl
@[simp] theorem offEvents_tim (k i : Nat) (h : Bool) (s : State) : (offEvents k i h s).tim = s.tim := by unfold offEvents; split <;> rfl
@[simp] theorem offEvents_sv (k i : Nat) (h : Bool) (s : State) : (offEvents k i h s).sv = s.sv := by unfold offEvents; split <;> rfl
@[simp] theorem offEvents_gse (k i : Nat) (h : Bool) (s : State) : (offEvents k i h s).gse = s.gse := by unfold offEvents; split <;> rfl
@[simp] theorem offEvents_flt (k i : Nat) (h : Bool) (s : State) : (offEvents k i h s).flt = s.flt := by unfold offEvents; split <;> rfl
@[simp] theorem offEvents_acq (k i : Nat) (h : Bool) (s : State) : (offEvents k i h s).acq = s.acq := by unfold offEvents; split <;> rfl
@[simp] theorem offEvents_key (k i : Nat) (h : Bool) (s : State) : (offEvents k i h s).key = s.key := by unfold offEvents; split <;> rfl
@[simp] theorem offEvents_gft (k i : Nat) (h : Bool) (s : State) : (offEvents k i h s).gft = s.gft := by unfold offEvents; split <;> rfl
@[simp] theorem offEvents_ecc (k i : Nat) (h : Bool) (s : State) : (offEvents k i h s).ecc = s.ecc := by unfold offEvents; split <;> rfl
@[simp] theorem offEvents_mram (k i : Nat) (h : Bool) (s : State) : (offEvents k i h s).mram = s.mram := by unfold offEvents; split <;> rfl
@[simp] theorem offEvents_bin (k i : Nat) (h : Bool) (s : State) : (offEvents k i h s).bin = s.bin := by unfold offEvents; split <;> rfl
@[simp] theorem offEvents_out (k i : Nat) (h : Bool) (s : State) : (offEvents k i h s).out = s.out := by unfold offEvents; split <;> rfl

end Sys2Proof.Machine
end

