-- ==== Sys2Proof/Laws/Tables.lean ====
section
/-! SUPPORT. Laws of tables: what `look` finds after `put`, `del` and `alter`. -/

namespace Sys2Proof.Machine

open Sys2Proof

variable {α : Type}

@[simp] theorem look_put_self (t : Tbl α) (k : Nat) (v : α) : look (put t k v) k = some v := by
  induction t with
  | nil => simp [put, look]
  | cons e r ih =>
    obtain ⟨a, w⟩ := e
    unfold put
    split
    · simp [look]
    · split <;> simp_all [look]

theorem look_put_other (t : Tbl α) {k j : Nat} (v : α) (h : j ≠ k) : look (put t k v) j = look t j := by
  induction t with
  | nil => simp [put, look, h.symm]
  | cons e r ih =>
    obtain ⟨a, w⟩ := e
    unfold put
    split
    · simp [look, h.symm]
    · split
      · simp_all [look, h.symm]
      · simp_all [look]

@[simp] theorem look_del_self (t : Tbl α) (k : Nat) : look (del t k) k = none := by
  induction t with
  | nil => rfl
  | cons e r ih =>
    obtain ⟨a, w⟩ := e
    by_cases h : a = k <;> simp_all [del, look]

theorem look_del_other (t : Tbl α) {k j : Nat} (h : j ≠ k) : look (del t k) j = look t j := by
  induction t with
  | nil => rfl
  | cons e r ih =>
    obtain ⟨a, w⟩ := e
    by_cases h1 : a = k
    · subst h1; simp_all [del, look, h.symm]
    · by_cases h2 : a = j <;> simp_all [del, look]

@[simp] theorem look_alter_self (t : Tbl α) (k : Nat) (f : α → α) :
    look (alter t k f) k = (look t k).map f := by
  induction t with
  | nil => rfl
  | cons e r ih =>
    obtain ⟨a, w⟩ := e
    by_cases h : a = k <;> simp_all [alter, look]

theorem look_alter_other (t : Tbl α) {k j : Nat} (f : α → α) (h : j ≠ k) :
    look (alter t k f) j = look t j := by
  induction t with
  | nil => rfl
  | cons e r ih =>
    obtain ⟨a, w⟩ := e
    by_cases h1 : a = k
    · subst h1; simp_all [alter, look, h.symm]
    · by_cases h2 : a = j <;> simp_all [alter, look]

@[simp] theorem lookD_put_self (t : Tbl α) (k : Nat) (v d : α) : lookD (put t k v) k d = v := by
  simp [lookD]

theorem lookD_put_other (t : Tbl α) {k j : Nat} (v d : α) (h : j ≠ k) :
    lookD (put t k v) j d = lookD t j d := by
  simp [lookD, look_put_other t v h]

end Sys2Proof.Machine
end

