-- ==== Sys2Proof/Tests/Slice0.lean ====
section
/-! SUPPORT. The model's own tests: ill-formed commands are refused; commands do on small states what the
spec's rules give; and every statement's hypotheses are met together by some state (`wit_` theorems). -/

namespace Sys2Proof.Tests

open Sys2Proof Sys2Proof.Machine

set_option Elab.async false

/-! ### Small states -/

/-- A STANDALONE module in operation: the two command rings, P0 at 100 pages, no partition else. -/
def live : State :=
  { clk := { now := 10000000, frc := 5000000, frcOn := true }
    pow := { vaux := true, rails := railOrder }
    rst := { sources := [], reach := none, phase := .started, strapOk := true, strapBin := 1 }
    boot := { timerOn := true, running := true, slot := 0, version := 0x02000000 }
    arb := { osn := 40 }
    rng := { rings := [(2048, ringP0Start), (2049, ringHostStart)] }
    cnp := { parts := [(0, { st := .ready, en := .on, home := 0, triad := 0, quota := 100 })], tickEnd := 5250000 }
    pgk := { free := 1000, scrub := 1000 }
    gft := { role := .standalone } }

/-- A command of the host's ring with its opcode, arguments, buffer and block. -/
def hc (op a0 a1 len iova : Nat) (b : Bytes) : Cmd :=
  { ring := 2049, block := b
    desc := { w0 := BitVec.ofNat 32 op, w2 := BitVec.ofNat 32 iova, w4 := BitVec.ofNat 32 len
              w6 := BitVec.ofNat 32 a0, w7 := BitVec.ofNat 32 a1 } }

/-- A command without a block. -/
def h0 (op a0 a1 : Nat) : Cmd := hc op a0 a1 0 0 []

/-- A command with an input block in the parameter area. -/
def hb (op a0 a1 : Nat) (b : Bytes) : Cmd := hc op a0 a1 b.length 0x20000 b

/-- A command with an output buffer of `n` bytes in the parameter area. -/
def ho (op a0 a1 n : Nat) : Cmd := hc op a0 a1 n 0x20000 []

/-- The executor holds `c`. -/
def inExec (c : Cmd) (s : State) : State := { s with hw := { s.hw with exec := some c } }

/-- The row of `c` is ready with `c` in the executor of `s`. -/
abbrev rdy (f : Cmd → Instr) (c : Cmd) (s : State) : Prop := ready (f c) c (inExec c s)

/-- The state that a row answers satisfies `p`. -/
def after (o : Out) (p : State → Bool) : Bool :=
  match o with
  | .next t => p t
  | _ => false

/-- What a Heartwood row leaves satisfies `p`. -/
def run (f : Cmd → Instr) (c : Cmd) (s : State) (p : State → Bool) : Bool := after (exec (f c) (inExec c s)) p

/-- Words as the bytes of a block. -/
def wds (l : List Nat) : Bytes := l.flatMap (toLe 4)

/-- Change the rings, Canopy, the ports. -/
def onRng (f : Rng → Rng) (s : State) : State := { s with rng := f s.rng }
def onCnp (f : Cnp → Cnp) (s : State) : State := { s with cnp := f s.cnp }
def onPrt (f : Prt → Prt) (s : State) : State := { s with prt := f s.prt }
def onSw (f : Sw → Sw) (s : State) : State := { s with sw := f s.sw }
def onTim (f : Tim → Tim) (s : State) : State := { s with tim := f s.tim }
def onSv (f : Svs → Svs) (s : State) : State := { s with sv := f s.sv }
def onGse (f : Gse → Gse) (s : State) : State := { s with gse := f s.gse }
def onAcq (f : Acqn → Acqn) (s : State) : State := { s with acq := f s.acq }
def onKey (f : Keys → Keys) (s : State) : State := { s with key := f s.key }
def onGft (f : Gft → Gft) (s : State) : State := { s with gft := f s.gft }
def onOut (f : Outs → Outs) (s : State) : State := { s with out := f s.out }
def onBin (f : Bins → Bins) (s : State) : State := { s with bin := f s.bin }
def onRst (f : Rst → Rst) (s : State) : State := { s with rst := f s.rst }
def onBoot (f : Boot → Boot) (s : State) : State := { s with boot := f s.boot }
def onHw (f : Hw → Hw) (s : State) : State := { s with hw := f s.hw }
def onFlt (f : Flt → Flt) (s : State) : State := { s with flt := f s.flt }
def onLog (f : Logb → Logb) (s : State) : State := { s with log := f s.log }
def onPow (f : Power → Power) (s : State) : State := { s with pow := f s.pow }

/-- Partition 3 on triad 2, READY and ON. -/
def part3 : Part :=
  { st := .ready, en := .on, home := 2, triad := 2, quota := 10, dirty := 4, budget := 9, left := 5
    pages := [(7, 1)], ctx := [1], markCtx := [2] }

/-- With partition 3. -/
def withPart (x : Part) (s : State) : State := onCnp (fun g => { g with parts := put g.parts 3 x }) s

/-- With ring 24, the first of partition 3. -/
def withRing (x : Ring) (s : State) : State := onRng (fun g => { g with rings := put g.rings 24 x }) s

/-- With a journal entry. -/
def withOp (e : JRec) (s : State) : State := onRng (fun g => { g with jrnl := g.jrnl ++ [e] }) s

/-- A ring of size 256 that is ON. -/
def ring24 : Ring :=
  { submit := 0x10000, compl := 0x12000, doorbell := 0x13000, shadow := 0x13040, st := .on, a := 5, c := 3, k := 2
    q := 2, quota := 8 }

/-- The module with partition 3 and its ring. -/
def busy : State := withRing ring24 (withPart part3 live)

/-- An operation of ring 24 with sequence 2 and opcode `op`. -/
def op24 (op : Nat) : JRec := { ring := 24, seq := 2, desc := { w0 := BitVec.ofNat 32 (op + 2 ^ 24), w1 := 2 } }

/-! ### Well-formed commands: an ill-formed one for each check is refused -/

theorem test_wf_ring_out_of_range : Instr.wf (.nop 2050 0) = false := by decide
theorem test_wf_command_ring : Instr.wf (.partStop { ring := 7, desc := { w0 := 0x0103 } }) = false := by decide
theorem test_wf_command_opcode : Instr.wf (.partStop { ring := 2048, desc := { w0 := 0x0104 } }) = false := by decide
theorem test_wf_command : Instr.wf (.partStop { ring := 2048, desc := { w0 := 0x01000103 } }) = true := by decide
theorem test_wf_instance_ring : Instr.wf (.recv 2048 0) = false := by decide
theorem test_wf_triad : Instr.wf (.dispatch 16) = false := by decide
theorem test_wf_context_length : Instr.wf (.runEnd 1 .slot [0] [0]) = false := by decide
theorem test_wf_partition : Instr.wf (.pwakeClear 256 {}) = false := by decide
theorem test_wf_mirror_offset : Instr.wf (.p0MirrorAccess 65536 {}) = false := by decide
theorem test_wf_register_offset : Instr.wf (.registerWrite 65536 4 0) = false := by decide
theorem test_wf_register_width : Instr.wf (.registerWrite 4 0 0) = false := by decide
theorem test_wf_trim_words : Instr.wf (.trimLoadEnd [0] 0) = false := by decide
theorem test_wf_strap_count : Instr.wf (.strapMeasurementEnd [1]) = false := by decide
theorem test_wf_strap_code : Instr.wf (.strapMeasurementEnd (List.replicate 16 64)) = false := by decide
theorem test_wf_kind_low : Instr.wf (.stoppingEnd 0 1) = false := by decide
theorem test_wf_kind_high : Instr.wf (.stoppingEnd 10 1) = false := by decide
theorem test_wf_port : Instr.wf (.pcsUp 48) = false := by decide
theorem test_wf_speed : Instr.wf (.anegResult 1 3 true false) = false := by decide
theorem test_wf_ingress_source : Instr.wf (.switchIngress 52) = false := by decide
theorem test_wf_crypto_lane : Instr.wf (.tag 4) = false := by decide
theorem test_wf_path_group : Instr.wf (.pathReturn 0 1) = false := by decide
theorem test_wf_path_member : Instr.wf (.pathReturn 1 8) = false := by decide
theorem test_wf_node : Instr.wf (.nodeForget 4096) = false := by decide
theorem test_wf_redundancy_instance : Instr.wf (.supervisionTx 12) = false := by decide
theorem test_wf_time_base : Instr.wf (.sourceLoss 4) = false := by decide
theorem test_wf_stream : Instr.wf (.svTickClose 4096) = false := by decide
theorem test_wf_subscription : Instr.wf (.talExpiry 2048) = false := by decide
theorem test_wf_publication : Instr.wf (.gooseRetransmission 1024) = false := by decide
theorem test_wf_recorder : Instr.wf (.rowForm 16) = false := by decide
theorem test_wf_key_slot : Instr.wf (.keySweep 2048) = false := by decide
theorem test_wf_graft_lane : Instr.wf (.graftLaneUp 2) = false := by decide
theorem test_wf_forwarded_ring : Instr.wf (.cmd { body := { cmd := { ring := 5 } } }) = false := by decide
theorem test_wf_memory : Instr.wf (.scrubLapLate 16) = false := by decide
theorem test_wf_log_source : Instr.wf (.logbookRecord 16) = false := by decide
theorem test_wf_input : Instr.wf (.binFilterWindowEnd 32) = false := by decide
theorem test_wf_channel : Instr.wf (.pulseEnd 16) = false := by decide
theorem test_wf_sensor : Instr.wf (.sensorPoll 16 true 0) = false := by decide

/-! ### Witnesses: the queue, the commands in general, memory -/

theorem wit_StepRunsFrontCommand :
    ({ live with pending := [.frameScrubbed, .wake] }).pending = .frameScrubbed :: [.wake] := by decide
theorem wit_EveryCommandLeavesTheQueue :
    after (exec .frameScrubbed live) (fun t => t.pgk.free == 1001 && t.pending == live.pending) = true := by decide
theorem wit_StepKeepsMemoryForm :
    memOk { live with mem := [(5, 1)] } ∧ after (step { live with mem := [(5, 1)] }) (fun t => t.mem == [(5, 1)]) = true := by
  decide
theorem wit_StepKeepsKeyOrder :
    keysRise [(3, ({} : KSlot)), (9, {})] ∧ after (step (onKey (fun k => { k with slots := [(3, {}), (9, {})] }) live))
      (fun t => t.key.slots.length == 2) = true := by decide
theorem wit_OnlyIslandRowsTouchTheIsland :
    Instr.islandRow .frameScrubbed = false ∧ after (exec .frameScrubbed live) (fun t => t.clk == live.clk) = true := by decide
/-- The host's ring holds one descriptor. -/
def offered : State := onRng (fun g => { g with rings := put g.rings 2049 { ringHostStart with a := 1 } }) live

/-- A PART_STOP of generation 1 and sequence 0 of partition `p`. -/
def dStop (p : Nat) : Desc := { (h0 0x0103 p 0).desc with w0 := 0x01000103 }

theorem wit_FailedCommandHasNoEffect_consumed :
    offers 2049 { ringHostStart with a := 1 } (dStop 9) [] offered ∧
      judgeCmd { ring := 2049, desc := dStop 9, block := [] }
        (Sys2Proof.fetched 2049 { ringHostStart with a := 1 } (dStop 9) [] offered) = some stNotFound := by decide
theorem test_failed_command_completes_at_once :
    after (exec (.descriptorConsume 2049 (dStop 9) []) offered) (fun t => t.hw.exec.isNone &&
      t.rng.jrnl.map (fun e => (e.stage, e.status)) == [(.finished, 0x12)]) = true := by decide
theorem wit_FailedCommandHasNoEffect :
    (inExec (h0 0x0103 9 0) live).hw.passed = false ∧
    judgedAs (.partStop (h0 0x0103 9 0)) (h0 0x0103 9 0) (inExec (h0 0x0103 9 0) live) stNotFound ∧ stNotFound ≠ stOk := by
  decide
theorem wit_SeedlingRefusesOtherCommands_consumed :
    let s := onBoot (fun b => { b with seedling := true }) offered
    offers 2049 { ringHostStart with a := 1 } (dStop 0) [] s ∧ s.boot.seedling = true ∧
      opOf (dStop 0) ∉ [0, 0x0901, 0x0910, 0x0911, 0x0912, 0x0913, 0x0914, 0x0915, 0x0920] ∧
      judgeCmd { ring := 2049, desc := dStop 0, block := [] }
        (Sys2Proof.fetched 2049 { ringHostStart with a := 1 } (dStop 0) [] s) ≠ none := by decide
theorem wit_SeedlingRefusesOtherCommands :
    let c := h0 0x0103 0 0
    let s := inExec c (onBoot (fun b => { b with seedling := true }) live)
    Instr.cmd? (.partStop c) = some c ∧ Instr.opcode? (.partStop c) = some (opOf c.desc) ∧ s.hw.exec = some c ∧
      s.hw.passed = false ∧ fenceReady c s = true ∧ s.hw.tWait = none ∧ s.boot.seedling = true ∧
      opOf c.desc ∉ [0x0901, 0x0910, 0x0911, 0x0912, 0x0913, 0x0914, 0x0915, 0x0920] ∧
      judgeCmd c s = some stWrongState := by decide
theorem wit_StandbyDeniesForwardedCommands_consumed :
    let s := onGft (fun g => { g with role := .standby }) offered
    offers 2049 { ringHostStart with a := 1 } (dStop 3) [] s ∧ s.boot.seedling = false ∧ opOf (dStop 3) ≠ 0x0920 ∧
      s.gft.role = .standby ∧ forwards { ring := 2049, desc := dStop 3, block := [] } = true ∧
      judgeCmd { ring := 2049, desc := dStop 3, block := [] }
        (Sys2Proof.fetched 2049 { ringHostStart with a := 1 } (dStop 3) [] s) ≠ none := by decide
theorem wit_StandbyDeniesForwardedCommands :
    let c := h0 0x0103 3 0
    let s := inExec c (onGft (fun g => { g with role := .standby }) busy)
    Instr.cmd? (.partStop c) = some c ∧ Instr.opcode? (.partStop c) = some (opOf c.desc) ∧ s.hw.exec = some c ∧
      s.hw.passed = false ∧ fenceReady c s = true ∧ s.hw.tWait = none ∧ s.boot.seedling = false ∧ s.gft.role = .standby ∧
      (c.ring = 2048 ∨ c.ring = 2049) ∧ forwards c = true ∧ judgeCmd c s = some stDenied := by decide
theorem wit_CompletingACommand :
    let c : Cmd := { ring := 2049, desc := dStop 3 }
    let e : JRec := { ring := 2049, desc := c.desc }
    let s := inExec c (withOp e live)
    activePaired s = false ∧ (c.ring = 2048 ∨ c.ring = 2049) ∧ s.hw.exec = some c ∧
      findEntry c.ring (genField c.desc) c.desc.w1 s = some e ∧ e.stage ≠ .finished ∧ e.replayed = false ∧
      findEntry 2049 1 0 (complete c (s, 0x14, some 5)) =
        some { e with stage := .finished, status := 0x14, result := some 5 } := by decide

/-! ### Witnesses: rings -/

/-- `busy` with a passed doorbell value. -/
def rung (p : Word) : State := onCnp (fun g => { g with passed := [.doorbell 24 p] }) busy

theorem wit_DoorbellJudgementAndFrame :
    look (rung 5).rng.rings 24 = some ring24 ∧ ring24.st ≠ .off ∧ nextBell 24 (rung 5) = some 5 ∧
      ((5 : Word) - ring24.a).toInt ≤ 0 ∧ (0 < ((258 : Word) - ring24.a).toInt ∧ ((258 : Word) - 2).toInt ≤ 2 ^ ring24.log2s) ∧
      (0 < ((259 : Word) - ring24.a).toInt ∧ 2 ^ ring24.log2s < ((259 : Word) - 2).toInt) := by decide
theorem test_doorbell_old_value :
    after (exec (.doorbell 24 5 2 0 0) (rung 5)) (fun t => look t.rng.rings 24 == some ring24 && t.arb == live.arb) = true := by
  decide
theorem test_doorbell_full_ring :
    after (exec (.doorbell 24 258 2 0 0) (rung 258)) (fun t => look t.rng.rings 24 == some { ring24 with a := 258 }) = true := by
  decide
theorem test_doorbell_beyond_ring :
    after (exec (.doorbell 24 259 2 0 0) (rung 259)) (fun t => look t.rng.rings 24 == some ring24 && t.arb.osn == 41 &&
      t.rng.evt == 1) = true := by decide
theorem wit_NopCompletes :
    let e := op24 0
    let s := withOp e busy
    entryOf 24 2 s = some e ∧ findEntry 24 (genOf 24 s) 2 s = some e ∧ opOf e.desc = 0 ∧ mayStart 24 2 s = true ∧ e.stage ≠ .finished ∧ e.replayed = false := by decide
theorem wit_NopCompletes_command_ring :
    let c : Cmd := { ring := 2049, desc := { w0 := 0x01000000 } }
    let e : JRec := { ring := 2049, desc := c.desc }
    let s := inExec c (withOp e live)
    entryOf 2049 0 s = some e ∧ opOf e.desc = 0 ∧ s.hw.exec = some c ∧ c.ring = 2049 ∧ c.desc.w1 = 0 ∧
      genField c.desc = genOf 2049 s ∧ fenceReady c s = true ∧ findEntry 2049 (genOf 2049 s) 0 s = some e := by decide

/-- An operation of ring 24 that has finished with a result. -/
def finished24 : JRec := { op24 2 with stage := .finished, status := 0, result := some 7 }

theorem wit_CompletionWrites :
    let s := withOp finished24 busy
    look s.rng.rings 24 = some ring24 ∧ nextEntry 24 s = some finished24 ∧ arbHeld s = false := by decide
theorem wit_CompletionWrites_host :
    let e : JRec := { ring := 2049, stage := .finished, result := some 7 }
    let s := withOp e live
    look s.rng.rings 2049 = some ringHostStart ∧ nextEntry 2049 s = some e ∧ e.status ≠ 0x201 ∧ e.status ≠ 0x60 := by decide
theorem test_completion_write :
    after (exec (.completionWrite 24) (withOp finished24 busy)) (fun t =>
      look t.rng.rings 24 == some { ring24 with k := 3, lastOsn := 41 } && t.arb.osn == 41) = true := by decide

/-- A ring to create in partition 3: words of its record. -/
def ringRec : Bytes := wds [3 + 6 * 256 + 2 * 65536, 4, 0x40000, 0, 0x42000, 0, 0x43000, 0, 0x44000, 0, 0, 0]

theorem wit_RingCommandsAndGenerations :
    look busy.rng.rings (arg0 (h0 0x0202 24 0).desc % 4096) = some ring24 ∧ rdy .ringEnable (h0 0x0202 24 0) busy ∧
      rdy .ringDisable (h0 0x0203 24 0) busy ∧ rdy .ringShare (h0 0x0206 (24 + 5 * 65536) 6) busy ∧
      rdy .ringQuery (h0 0x0207 24 0) busy := by decide
theorem test_ring_enable_held :
    run .ringEnable (h0 0x0202 24 0) (withRing { ring24 with st := .stopping } busy) (fun t =>
      look t.rng.rings 24 == some { ring24 with st := .stopping, held := true }) = true := by decide
theorem test_ring_disable :
    run .ringDisable (h0 0x0203 24 0) busy (fun t => look t.rng.rings 24 == some { ring24 with st := .stopping }) = true := by
  decide
theorem test_ring_share :
    run .ringShare (h0 0x0206 (24 + 5 * 65536) 6) busy (fun t =>
      look t.rng.rings 24 == some { ring24 with weightNext := 5, quota := 6 }) = true := by decide
theorem wit_RingCreate : rdy .ringCreate (hb 0x0201 25 0 ringRec) busy := by decide
theorem test_ring_create :
    run .ringCreate (hb 0x0201 25 0 ringRec) busy (fun t => (look t.rng.rings 25).map (fun x => (x.binding, x.log2s, x.weight)) ==
      some (3, 6, 2)) = true := by decide

/-- `busy` with ring 24 OFF and one of its operations finished. -/
def busyOff : State := withRing { ring24 with st := .off } (withOp finished24 busy)

theorem wit_RingReset : look busyOff.rng.rings 24 = some { ring24 with st := .off } ∧ rdy .ringReset (h0 0x0204 24 0) busyOff := by
  decide
theorem wit_RingDestroy : rdy .ringDestroy (h0 0x0205 24 0) busyOff := by decide
theorem wit_PartReset_rings :
    rdy .partReset (h0 0x0104 3 0) busyOff ∧ keysRise busyOff.rng.rings ∧ 24 / 8 = arg0 (h0 0x0104 3 0).desc % 256 ∧
      look busyOff.rng.rings 24 = some { ring24 with st := .off } := by decide
theorem test_part_reset_ring :
    run .partReset (h0 0x0104 3 0) busyOff (fun t => (look t.rng.rings 24).map (fun x => (x.gen, x.a, x.k)) ==
      some (2, 0, 0)) = true := by decide
theorem wit_DoorbellJudgementAndFrame_host :
    look busy.rng.rings 2049 = some ringHostStart ∧ ringHostStart.st ≠ .off ∧ (2049 < 2050) ∧
      0 < ((1 : Word) - ringHostStart.a).toInt := by decide
theorem test_doorbell_host :
    after (exec (.doorbell 2049 1 0 0 0) busy) (fun t => (look t.rng.rings 2049).map (fun x => x.a) == some 1) = true := by
  decide
theorem test_ring_reset :
    run .ringReset (h0 0x0204 24 0) busyOff (fun t => (look t.rng.rings 24).map (fun x => (x.gen, x.a, x.k)) ==
      some (2, 0, 0) && t.rng.jrnl.isEmpty) = true := by decide

/-- A passed descriptor of ring 24 at C = 3. -/
def fetched (d : Desc) : State := onCnp (fun g => { g with passed := [.descriptor 24 3 d] }) busy

/-- A NOP of generation 1 and sequence 3, of generation 2, of sequence 4, and one with a reserved flag. -/
def dNop : Desc := { w0 := 0x01000000, w1 := 3 }

theorem wit_DescriptorConsumption :
    let x : Ring := { ring24 with inRound := true }
    let s := roundOf 24 ring24 (fetched dNop)
    look (fetched dNop).rng.rings 24 = some ring24 ∧ look s.rng.rings 24 = some x ∧ mayConsume 24 x s = true ∧
      granted 24 x s = true ∧ .descriptor 24 x.c dNop ∈ (fetched dNop).cnp.passed ∧
      (fetched dNop).rng.jrnl.length < 32768 ∧ findEntry 24 x.gen x.c (fetched dNop) = none ∧ shadowed 24 s = false ∧
      opChecks 24 x.binding dNop (Sys2Proof.fetched 24 x dNop [] s) = 0 ∧
      (genField dNop = ring24.gen ∧ dNop.w1 = ring24.c ∧ flagsOf dNop / 4 = 0 ∧ bindingOp ring24.binding (opOf dNop) = true) ∧
      genField { dNop with w0 := 0x02000000 } ≠ ring24.gen ∧ ({ dNop with w1 := 4 } : Desc).w1 ≠ ring24.c ∧
      flagsOf { dNop with w0 := 0x01040000 } / 4 ≠ 0 := by decide
theorem test_consume_stale_generation :
    let d : Desc := { dNop with w0 := 0x02000000 }
    after (exec (.descriptorConsume 24 d []) (fetched d)) (fun t =>
      t.rng.jrnl.map (fun e => (e.stage, e.status)) == [(.finished, 0x40)] &&
        (look t.rng.rings 24).map (fun x => x.c) == some 4) = true := by decide
theorem test_consume_wrong_sequence :
    let d : Desc := { dNop with w1 := 4 }
    after (exec (.descriptorConsume 24 d []) (fetched d)) (fun t =>
      t.rng.jrnl.map (fun e => (e.stage, e.status)) == [(.finished, 0x10)]) = true := by decide

/-! ### Witnesses: partitions and Canopy -/

theorem wit_PartitionCommandsTakeEffect :
    look busy.cnp.parts (arg0 (h0 0x0102 3 0).desc % 256) = some part3 ∧ rdy .partStart (h0 0x0102 3 0) busy ∧
      (rdy .partStop (h0 0x0103 3 0) busy ∧ (part3.st = .ready ∨ part3.st = .running) ∧ part3.en = .on) ∧
      rdy .partStop (h0 0x0103 3 0) (withPart { part3 with st := .frozen } busy) ∧
      rdy .partQuota (h0 0x0106 3 12) busy ∧ rdy .partReset (h0 0x0104 3 0) busy := by decide
theorem test_part_start_created :
    run .partStart (h0 0x0102 3 0) (withPart { part3 with st := .created, en := .off } busy) (fun t =>
      (look t.cnp.parts 3).map (fun x => (x.st, x.en)) == some (.ready, .on)) = true := by decide
theorem test_part_stop_stops_its_rings :
    run .partStop (h0 0x0103 3 0) busy (fun t => (look t.cnp.parts 3).map (fun x => (x.st, x.en)) == some (.ready, .stopping) &&
      (look t.rng.rings 24).map (fun x => x.st) == some .stopping) = true := by decide
theorem test_part_reset :
    run .partReset (h0 0x0104 3 0) busy (fun t => (look t.cnp.parts 3).map (fun x => (x.resets, x.ctx == entryCtx 0 3 1,
      x.quota)) == some (1, true, 10)) = true := by decide
/-- A partition record on triad 2 with quota 6, dirty limit 4, entry 1000h and no load. -/
def partRec : Bytes := wds [2 + 3 * 16, 6, 4, 0, 0x1000, 0, 0, 0, 0, 0, 0x100000, 0, 0, 0, 0, 0]

theorem wit_PartCreate : rdy .partCreate (hb 0x0101 4 0 partRec) busy := by decide
theorem test_part_create :
    run .partCreate (hb 0x0101 4 0 partRec) busy (fun t => (look t.cnp.parts 4).map (fun x => (x.st, x.en, x.triad, x.prio,
      x.quota, x.ctx.headD 0)) == some (.created, .off, 2, 3, 6, 0x1000)) = true := by decide

/-- Partition 3 OFF and without rings. -/
def bare : State := withPart { part3 with st := .created, en := .off } live

theorem wit_PartDestroy : rdy .partDestroy (h0 0x0105 3 0) bare := by decide
theorem wit_TriadCommandsTakeEffect :
    rdy .cnpSpare (h0 0x0113 5 0) busy ∧ rdy .cnpTick (h0 0x0114 (1 + 256) 0) bare ∧ rdy .triadReset (h0 0x0120 5 0) busy := by
  decide

/-- A module with stream 6, its source 1 and channel 1 in use, paired as the active, and triad 2 with two channels. -/
def tState : State :=
  onGft (fun g => { g with role := .active, phase := .active, partnerOk := true })
    (onSv (fun g => { g with streams := [(6, { en := .on, srcs := [{ valid := true }, { valid := true }], channels := 4
                                               chans := [(1, { en := true })] })] })
      (onCnp (fun g => { g with triads := [(2, { chans := [.A, .B] })] }) busy))

/-- The commands of class T that the tests use. -/
def cSchedule : Cmd := hb 0x0110 0 0 (wds [1, 3 + 4096 * 20000, 5000])
def cThreshold : Cmd := hb 0x0331 6 (1 + 2 * 256) (wds [512 + 65536 + 2 ^ 24, 8, 4, 0])
def cMirror : Cmd := hb 0x0803 3 0 (wds [1, 0x7000, 0, 1, 0])

theorem wit_ClassTWaitsForItsBoundary_canopy :
    rdy .partFreeze (h0 0x0107 3 0) busy ∧ rdy .partThaw (h0 0x010A 3 0) (withPart { part3 with st := .frozen } busy) ∧
      rdy .cnpSchedule cSchedule busy ∧ rdy .cnpBudget (h0 0x0111 3 5) busy := by decide
theorem wit_ClassTWaitsForItsBoundary_wakes :
    rdy .cnpWake (hb 0x0112 3 1 (wds [1, 6])) tState ∧ rdy .triadRejoin (h0 0x0121 2 2) tState ∧
      rdy .svSource (h0 0x0305 6 1) tState := by decide
theorem wit_ClassTWaitsForItsBoundary_graft :
    rdy .gftSwitch (h0 0x0804 0 0) (onGft (fun g => { g with complete := true }) tState) ∧
      rdy .gftMirror cMirror tState ∧ rdy .fltThreshold cThreshold tState := by decide
theorem test_class_t_waits :
    run .cnpBudget (h0 0x0111 3 5) busy (fun t => t.hw.tWait == some (h0 0x0111 3 5, 0) &&
      (look t.cnp.parts 3).map (fun x => x.budget) == some 9) = true := by decide

/-- `s` with the command `c` of class T due at the next boundary. -/
def due (c : Cmd) (s : State) : State := { inExec c s with hw := { (inExec c s).hw with tWait := some (c, 9000000) } }

theorem wit_ClassTEffects :
    (due (h0 0x0107 3 0) busy).hw.tWait = some (h0 0x0107 3 0, 9000000) ∧ 9000000 + 20000 ≤ (due (h0 0x0107 3 0) busy).clk.now ∧
      opOf (h0 0x0107 3 0).desc = 0x0107 ∧ look busy.cnp.parts 3 = some part3 ∧ (part3.st = .ready ∨ part3.st = .created) ∧
      opOf (h0 0x010A 3 0).desc = 0x010A ∧ opOf cSchedule.desc = 0x0110 ∧ opOf (h0 0x0111 3 5).desc = 0x0111 := by decide
theorem wit_ClassTEffects_rejoin :
    triadOf (arg0 (h0 0x0121 2 2).desc) tState = { chans := [.A, .B] } ∧ argChan (h0 0x0121 2 2) ∈ tState.cnp.lanes ∧
      argChan (h0 0x0121 2 2) ∉ [Chan.A, .B] ∧ opOf (h0 0x0121 2 2).desc = 0x0121 := by decide
theorem wit_ClassTEffects_streams :
    (strmOf 6 (due (h0 0x0305 6 1) tState)).en = .on ∧ (strmOf 6 (due (h0 0x0305 6 1) tState)).active ≠ 1 ∧
      arg1 (h0 0x0305 6 1).desc = 1 ∧ opOf (h0 0x0305 6 1).desc = 0x0305 ∧ arbHeld (due (h0 0x0305 6 1) tState) = false ∧
      opOf cThreshold.desc = 0x0331 ∧ opOf (hb 0x0112 3 1 (wds [1, 6])).desc = 0x0112 := by decide
theorem test_freeze_and_thaw :
    (look (tickCommand (due (h0 0x0107 3 0) busy)).cnp.parts 3 == some { part3 with st := .frozen, resume := .on }) = true ∧
      (look (tickCommand (due (h0 0x010A 3 0) (withPart { part3 with st := .frozen, resume := .on } busy))).cnp.parts 3).map
        (fun x => (x.st, x.en)) = some (.ready, .on) := by decide
theorem test_source_switch :
    ((strmOf 6 (tickCommand (due (h0 0x0305 6 1) tState))).active, (tickCommand (due (h0 0x0305 6 1) tState)).sv.evt.getLsbD 3) =
      (1, true) := by decide
theorem test_threshold_applies :
    (lookD (chanOf 6 1 (tickCommand (due cThreshold tState))).dets 2 {}).pickup = 8 := by decide

/-! ### Dispatch, runs, wakes, pages -/

/-- Partition 3 has a slot that covers the present time. -/
def slotted : State :=
  onCnp (fun g => { g with tickStart := 4990000, tickFrc := 4990000, sched := [{ part := 3, start := 5000, len := 20000 }] }) busy

/-- The run that slot gives. -/
def run3 : Run := { part := 3, kind := .slot, grant := 1000, since := 5000000, base := .slot }

/-- Partition 3 runs on triad 2. -/
def running3 : State :=
  withPart { part3 with st := .running } (onCnp (fun g => { g with triads := [(2, { run := some run3 })] }) slotted)

theorem wit_DispatchAndRunEnd :
    slotted.rst.phase = .started ∧ slotted.cnp.inTail = false ∧ (triadOf 2 slotted).run = none ∧
      (triadOf 2 slotted).failed = false ∧
      nextRun 2 slotted = some { part := 3, kind := .slot, grant := 15000, since := 5000000, base := .slot } ∧
      look slotted.cnp.parts 3 = some part3 := by decide +kernel
theorem wit_DispatchAndRunEnd_end :
    let s : State := { running3 with clk := { now := 10002000, frc := 5002000, frcOn := true } }
    s.rst.phase = .started ∧ s.cnp.inTail = false ∧ (triadOf 2 s).run = some run3 ∧ endsFor 2 run3 .slot s = true ∧
      look s.cnp.parts run3.part = some { part3 with st := .running } := by decide
theorem wit_DispatchAndRunEnd_tail :
    let s : State := { running3 with clk := { now := 10246000, frc := 5246000, frcOn := true } }
    s.rst.phase = .started ∧ s.cnp.inTail = false ∧ s.cnp.tickEnd ≤ lineNow s + 4000 ∧
      after (exec (.tailStart []) s) (fun t => t.cnp.inTail && (triadOf 2 t).run.isNone) = true := by decide
theorem test_dispatch :
    after (exec (.dispatch 2) slotted) (fun t => (look t.cnp.parts 3).map (fun x => x.st) == some .running &&
      ((triadOf 2 t).run.map fun r => (r.part, r.grant)) == some (3, 15000) && t.arb.osn == 41) = true := by decide
theorem test_yield_from_user_mode_traps :
    let c : Ctx := (List.range 75).map fun i => if i = 0 then 0x400 else if i = 67 then 0x801 else if i = 65 then 2 else 0
    after (exec (.yield 2 { vu := true, insn := 0x5C109073 } c) running3) (fun t => (triadOf 2 t).run.isSome &&
      (look t.cnp.parts 3).map (fun x => (x.trap, x.ctx.getD 0 0, x.ctx.getD 69 0, x.ctx.getD 70 0, x.ctx.getD 65 0)) ==
        some (some (2, 0x5C109073), 0x800, 0x400, 2, 32)) = true := by decide +kernel
theorem test_yield_keeps_the_context :
    after (exec (.yield 2 { wfi := true } [5, 6]) running3) (fun t => (look t.cnp.parts 3).map (fun x => (x.st, x.ctx)) ==
      some (.ready, [5, 6, 0]) && (triadOf 2 t).run.isNone) = true := by decide +kernel

/-- A wake of partition 3 by its entry 1. -/
def waked : State := onCnp (fun g => { g with wakes := [(3, 1, 1)] }) running3

theorem wit_WakesAndPages :
    waked.cnp.wakes = (3, 1, 1) :: [] ∧ look waked.cnp.parts 3 = some { part3 with st := .running } ∧
      after (exec .wake waked) (fun t => (look t.cnp.parts 3).map (fun x => x.wakeHeld) == some [(1, 1)]) = true := by decide

/-- The running partition 3 with a page that it has not stored to, or at its quota. -/
def runPart : Part := { part3 with st := .running }

theorem wit_WakesAndPages_touch :
    look running3.cnp.parts 3 = some runPart ∧ inLarge runPart 0x9123 = false ∧ isMapped runPart 0x9123 = false ∧
      mapped runPart + 1 ≤ runPart.quota ∧ 1 ≤ framesLeft running3 ∧
      after (exec (.firstTouch 3 { iova := 0x9123, va := 0x1123 } .load) running3) (fun t =>
        (look t.cnp.parts 3).map (fun x => x.pages) == some [(7, 1), (9, 1)] && framesLeft t == 1999) = true := by decide
theorem wit_WakesAndPages_faults :
    (2 ^ 48 ≤ 2 ^ 48 ∧ Access.load ≠ .engine) ∧
      (let x : Part := { runPart with largeSize := 1 }
       inLarge x 0x123 = true ∧ 0x123 < 2 ^ 48 ∧
         after (exec (.firstTouch 3 { iova := 0x123, va := 0x1123 } .amo) (withPart x running3)) (fun t =>
           (look t.cnp.parts 3).map (fun y => (y.pfault, y.trap)) == some (3, some (7, 0x1123))) = true) ∧
      (let x : Part := { runPart with quota := 1 }
       inLarge x 0x9123 = false ∧ isMapped x 0x9123 = false ∧ x.quota < mapped x + 1 ∧
         after (exec (.firstTouch 3 { iova := 0x9123, va := 0x1123 } .load) (withPart x running3)) (fun t =>
           (look t.cnp.parts 3).map (fun y => (y.pfault, y.trap)) == some (1, some (5, 0x1123))) = true) := by decide
theorem wit_WakesAndPages_store :
    inLarge runPart 0x7010 = false ∧ isMapped runPart 0x7010 = true ∧ 0x7010 / 4096 ∉ runPart.stored ∧
      runPart.stored.length < runPart.dirty ∧ look runPart.pre (0x7010 / 4096) = none ∧
      after (exec (.firstStore 3 0x7010 [5, 6] []) running3) (fun t => t.pgk.undo == 1 &&
        Memory.get t.mem (partBase 3 + 0x7011) == 6 && (look t.cnp.parts 3).map (fun x => x.stored) == some [7]) = true := by
  decide
theorem wit_WakesAndPages_frame : live.pgk.scrub ≠ 0 := by decide
theorem test_pwake_clear :
    after (exec (.pwakeClear 3 { bits := 2 }) (withPart { runPart with pwake := 6 } running3)) (fun t =>
      (look t.cnp.parts 3).map (fun x => x.pwake) == some 4) = true := by decide

/-! ### Votes -/

/-- A doorbell value of ring 24, and another. -/
def bell : Emission := .doorbell 24 5
def bell2 : Emission := .doorbell 24 6

/-- An open vote of triad 2 with channel A's copy. -/
def voting (e : Emission) : State :=
  onCnp (fun g => { g with votes := [{ triad := 2, copies := [(.A, e)], since := 4000000 }] }) running3

theorem wit_VotesAndIsolation :
    running3.rst.phase = .started ∧ live.rst.phase = .started ∧ State.reset.rst.phase ≠ .started ∧ (triadOf 2 running3).failed = false ∧ Chan.B ∈ (triadOf 2 running3).chans ∧ belongs 2 bell running3 = true ∧
      belongs 2 bell2 running3 = true ∧ sameUnit bell2 bell = true ∧ copyDue (triadOf 2 running3) .B bell running3 = true ∧ running3.cnp.votes = [] ∧
      copyDue (triadOf 2 running3) .B bell (voting bell) = true ∧
      (voting bell).cnp.votes = [{ triad := 2, copies := [(.A, bell)], since := 4000000 }] ∧ bell ≠ bell2 := by decide
theorem test_vote_passes :
    after (exec (.vote 2 .B bell) (voting bell)) (fun t => t.cnp.passed == [bell] && t.arb.osn == 41 &&
      t.cnp.votes.length == 1) = true ∧
      after (exec (.vote 2 .B bell) (voting bell2)) (fun t => t.cnp.passed == [] && t.cnp.votes.length == 1) = true := by decide

/-- A passed vote of triad 2 with the copies given. -/
def passed2 (l : List (Chan × Emission)) : State :=
  onCnp (fun g => { g with votes := [{ triad := 2, copies := l, since := 4000000, passed := some bell }] }) running3

theorem wit_VotesAndIsolation_late :
    (passed2 [(.A, bell), (.B, bell)]).cnp.votes =
        [{ triad := 2, copies := [(.A, bell), (.B, bell)], since := 4000000, passed := some bell }] ∧
      4000000 + 2500 ≤ (passed2 [(.A, bell), (.B, bell)]).clk.frc ∧
      (triadOf 2 (passed2 [(.A, bell), (.B, bell)])).chans = [.A, .B, .C] ∧
      (triadOf 2 (passed2 [(.A, bell), (.B, bell)])).joining = [] ∧
      after (exec (.voteToleranceEnd 2) (passed2 [(.A, bell), (.B, bell)])) (fun t =>
        (triadOf 2 t).chans == [.A, .B] && t.log.reqs.length == 1 && t.cnp.evt.getLsbD 0) = true := by decide
theorem test_odd_channel_is_isolated :
    after (exec (.voteToleranceEnd 2) (passed2 [(.A, bell), (.B, bell2), (.C, bell)])) (fun t =>
      (triadOf 2 t).chans == [.A, .C] && (triadOf 2 t).isos == [.B]) = true := by decide
theorem wit_VoteLossAndRejoin :
    4000000 + 2500 ≤ (voting bell).clk.frc ∧ (voting bell).cnp.spare ≠ 2 ∧ (voting bell).cnp.spare ≠ 0 ∧
      (look (voting bell).cnp.parts 3).map (fun x => x.triad) = some 2 ∧
      after (exec (.voteToleranceEnd 2) (voting bell)) (fun t => (triadOf 2 t).failed && t.cnp.spare == 0 &&
        (look t.cnp.parts 3).map (fun x => x.triad) == some 15) = true ∧
      after (exec (.voteToleranceEnd 2) (onCnp (fun g => { g with spare := 0 }) (voting bell))) (fun t =>
        (look t.cnp.parts 3).map (fun x => (x.triad, x.stranded)) == some (2, true)) = true := by decide
theorem wit_VoteLossAndRejoin_rejoin :
    let s := onCnp (fun g => { g with triads := [(2, { chans := [.A, .B], joining := [.C] })], tickFrc := 5000000 }) busy
    (triadOf 2 s).joining = .C :: [] ∧ (triadOf 2 s).run = none ∧ atMark (triadOf 2 s) s = true ∧ arbHeld s = false ∧
      after (exec (.rejoinComplete 2) s) (fun t => (triadOf 2 t).chans.length == 3 && t.arb.osn == 41) = true := by decide
theorem wit_TickBoundaryTakesTheMarks :
    let s : State := onCnp (fun g => { g with inTail := true }) { busy with clk := { now := 10250000, frc := 5250000, frcOn := true } }
    boundaryDue s = true ∧ (s.gft.role ≠ .active ∨ s.gft.phase ≠ .active) ∧ standbyLive s = false ∧ s.hw.tWait = none ∧
      s.cnp.nextBind = none ∧ (∀ e ∈ s.cnp.parts, e.2.stranded = false) ∧
      after (exec .tickBoundary s) (fun t => t.cnp.tickNo == 1 && t.cnp.tickEnd == 5500000 &&
        (look t.rng.rings 24).map (fun x => x.mark) == some { a := 5, c := 3, k := 2, gen := 1 } &&
        (look t.cnp.parts 3).map (fun x => (x.left, x.markCtx)) == some (9, [1])) = true := by decide

/-! ### Commands of class B -/

/-- A Root of zeros, and a grove Branch in slot 1 with its check, so that blobs may be saved and restored. -/
def root0 : Bytes := List.replicate 32 0
def grove1 : KSlot := sealSlot root0 { st := .valid, level := 1, owner := 0, alg := 2, key := [1] }
def groved : State :=
  let s := onKey (fun k => { k with slots := [(1, grove1)] }) busy
  { s with mram := { s.mram with root := root0 } }

theorem sealed_holds (root : Bytes) (x : KSlot) : checkHolds root (sealSlot root x) = true := by
  simp [checkHolds, sealSlot, slotCheck, slotBytes]

/-- Every slot's check holds where the store holds the grove Branch alone. -/
theorem groved_sound (s : State) (h : s.key.slots = [(1, grove1)]) (hr : s.mram.root = root0) (k : Nat) :
    checkHolds s.mram.root (slotOf k s) = true := by
  by_cases hk : k = 1
  · subst hk
    rw [hr, slotOf, h]
    exact sealed_holds _ _
  · have e : slotOf k s = {} := by
      rw [slotOf, h]
      simp [lookD, look, Ne.symm hk]
    rw [e]
    rfl

/-- In the host's window. -/
def hostWaits : State := onBoot (fun b => { b with running := false, sources := [2, 0], hostOpen := true })
  (onRst (fun r => { r with strapBin := 10 }) live)

/-- A save needs a FROZEN partition. -/
def saving : State := withPart { part3 with st := .frozen, resume := .on } groved

/-- The partition's blob takes 16 pages of buffer at most. -/
def cSave : Cmd := ho 0x0108 3 0 0x10000

theorem wit_ClassBCommandsStart :
    rdy .imgErase (h0 0x0910 1 0) live ∧ rdy .imgWrite (hb 0x0911 1 256 (List.replicate 256 0)) live ∧
      rdy .imgCheck (h0 0x0912 0 0) live ∧ rdy .imgHostStart (h0 0x0914 0 0) hostWaits := by decide +kernel
theorem wit_ClassBCommandsStart_floor :
    rdy .imgFloor (h0 0x0915 2 0) (onBoot (fun b => { b with done := true }) live) ∧ rdy .partSave cSave saving ∧
      rdy .partRestore (hb 0x0109 4 0 [1]) groved ∧
      rdy .gftPair (h0 0x0801 5 6) (onGft (fun g => { g with role := .idle }) live) := by decide +kernel
theorem test_save_starts :
    run .partSave cSave saving (fun t => (look t.cnp.parts 3).map (fun x => x.st) == some .migrating && t.hw.exec.isNone &&
      t.hw.classB.length == 1) = true := by decide +kernel

/-- The class B command `c` runs. -/
def runsB (k : BKind) (c : Cmd) (s : State) : State := onHw (fun h => { h with classB := [{ kind := k, cmd := c }] }) s

/-- The header of an image without a body, signed by a test key, and the hash of that key. -/
def goodHeader : Bytes := toBe 305 0x494b544f01000002000000000800000000200000000000000400000000000000000000000000000000000000000000000000000000000000000000000000000038b060a751ac96384cd9327eb1b1e36a21fdb71114be07434c0cc7bf63f6e1da274edebfe76f65fbd51ad2f14898b95b865bb7a909ebcef7e03bbb4fa64238e857001ca5d588ec4ec5b20ac16970bb95cec2d2f922c6d106634ccc52d6d2242e865bb7a909ebcef7e03bbb4fa64238e857001ca5d588ec4ec5b20ac16970bb95cec2d2f922c6d106634ccc52d6d2242e043f3b836b0e174207dd50d73766ebfa727d93c1a40cb03f686b87231e53c5bf5c2c8fb6e577c7ff81395741654f68643f5a91a6d5ce14dc802a64896f2491a8c48ad00a58c39bb2db8bc2ffb447b662d77343bdbceb96b4aaf939857ba85ce231
def goodKey : Bytes := toBe 48 0xc97b1e08b228b108ed79853530566fda5eb274198013d27f7ea141a533835fe14f8ef5acc9a0588d989d7b224fbeeaeb
def goodImage : ImageSeen := { header := goodHeader }
/-- A module whose fuse array holds the hash of that key. -/
def fused (s : State) : State := { s with mram := { s.mram with keyHash := goodKey } }

theorem test_image_passes : imagePasses (padTo 4096 goodHeader) [] { keyHash := goodKey } = true := by decide +kernel
theorem test_image_refused : imagePasses (padTo 4096 (goodHeader.drop 1)) [] { keyHash := goodKey } = false := by decide +kernel

theorem wit_ClassBCommandsEnd :
    let b : BCmd := { kind := .image, cmd := h0 0x0912 0 0 }
    let r : BReply := { image := goodImage }
    let s := runsB .image b.cmd (fused live)
    s.hw.classB = [b] ∧ opOf b.cmd.desc = 0x0912 ∧ r.flashOk = true ∧ r.image.answers = true ∧
      slotBroken (arg0 b.cmd.desc) s = false ∧
      imagePasses (slotHeader 0 r.image s) (slotBody 0 r.image s) s.mram = true ∧
      imagePasses (slotHeader 0 {} s) (slotBody 0 {} s) s.mram = false := by
  decide +kernel
theorem wit_ClassBCommandsEnd_opcodes :
    opOf (h0 0x0910 1 0).desc = 0x0910 ∧ opOf (h0 0x0911 1 0).desc = 0x0911 ∧ opOf (h0 0x0914 1 0).desc = 0x0914 ∧
      opOf (h0 0x0915 2 0).desc = 0x0915 ∧ opOf (h0 0x0108 3 0).desc = 0x0108 ∧ opOf (h0 0x0109 3 0).desc = 0x0109 ∧
      opOf (h0 0x0801 5 6).desc = 0x0801 := by decide
theorem test_img_check_ends :
    after (exec (.classBFinish .image { image := goodImage }) (runsB .image (h0 0x01000912 0 0)
        (withOp { ring := 2049, desc := (h0 0x01000912 0 0).desc } (fused live))))
      (fun t => t.hw.classB.isEmpty && (entryOf 2049 0 t).map (fun e => (e.status, e.result)) ==
        some (0, some 0x02000001)) = true := by decide +kernel

/-- The image stands in the staging area. -/
def hostStaged : State := onBoot (fun b => { b with staging := stage256 [] 0 goodHeader }) (fused hostWaits)

theorem wit_ClassBCommandsEnd_host :
    (runsB .image (h0 0x0914 0 0) hostStaged).hw.classB = [{ kind := .image, cmd := h0 0x0914 0 0 }] ∧
      imagePasses (stagedHeader hostStaged) (stagedBody hostStaged) hostStaged.mram = true := by
  decide +kernel

/-- Partition 3 is being saved. -/
def savingNow : State := runsB .blob cSave (withPart { part3 with st := .migrating } groved)

theorem wit_ClassBCommandsEnd_save :
    look savingNow.cnp.parts 3 = some { part3 with st := .migrating } ∧ (groveBranch savingNow).isSome = true ∧
      stillRunning 3 savingNow = false ∧ cSave.ring = 2049 ∧ opOf cSave.desc = 0x0108 ∧
      blobFits cSave savingNow = true ∧ blobFits (ho 0x0108 3 0 0x100) savingNow = false := by decide +kernel
theorem wit_ClassBCommandsEnd_sound : ∀ k, checkHolds savingNow.mram.root (slotOf k savingNow) = true :=
  groved_sound savingNow rfl rfl
theorem wit_ClassBCommandsEnd_restore :
    (groveBranch (runsB .blob (hb 0x0109 4 0 [1]) groved)).isSome = true ∧ headerOk (hb 0x0109 4 0 [1]).block = false ∧
      after (exec (.classBFinish .blob {}) (runsB .blob (hb 0x0109 4 0 [1]) (withPart part3 groved))) (fun t =>
        (look t.cnp.parts 4).isNone) = true := by decide +kernel

/-- The clear text of partition 3's blob, its header with the tag of the grove, and the blob that R212 seals. -/
def plain3 : Bytes := blobPlain 3 { part3 with load := [9] , loadLen := 1, pages := [] } [] live
def header3 : Bytes := blobHeader 3 (80 + plain3.length) ((groveTag groved).getD 0) 1
def blob3 : Bytes := header3 ++ gcmSeal (groveSeal grove1) (blobNonce 1) header3 plain3
def cRestore : Cmd := hb 0x0109 4 0 blob3

theorem header3_length : header3.length = 64 := by decide +kernel

theorem blob3_length : blob3.length = 80 + plain3.length := by
  rw [blob3, List.length_append, header3_length, gcmSeal_length _ _ (.inr (groveSeal_length _)) (by decide +kernel)]
  omega

theorem wit_ClassBCommandsEnd_header : headerOk blob3 = true ∧ some (leAt blob3 24 8) = groveTag groved := by
  have h := header3_length
  constructor
  · rw [headerOk, blob3_length]
    rw [blob3, leAt_append _ (by omega), leAt_append _ (by omega), leAt_append _ (by omega)]
    decide +kernel
  · rw [blob3, leAt_append _ (by omega)]
    decide +kernel

theorem wit_ClassBCommandsEnd_opens :
    gcmOpen (groveSeal grove1) ((blob3.drop 32).take 12) (blob3.take 64) (blob3.drop 64) = some plain3 := by
  have h := header3_length
  have hn : ((blob3.drop 32).take 12) = blobNonce 1 := by
    rw [blob3, List.drop_append_of_le_length (by omega), List.take_append_of_le_length (by simp [h])]
    rfl
  rw [hn, blob3, List.take_left' h, List.drop_left' h]
  exact gcmOpen_gcmSeal _ _ (.inr (groveSeal_length _)) (by decide +kernel)

theorem wit_ClassBCommandsEnd_restored :
    let s := runsB .blob cRestore groved
    arg0 cRestore.desc % 256 = 4 ∧ opOf cRestore.desc = 0x0109 ∧ groveBranch s = some grove1 ∧
      restoreStatus (openBlob 4 plain3) plain3 (groveSeal grove1)
        { s with hw := { s.hw with classB := [] }, cnp := { s.cnp with parts := del s.cnp.parts 4 } } = stOk ∧
      (openBlob 4 plain3).part.st = .frozen := by decide +kernel
theorem wit_ClassBCommandsEnd_pairing :
    let b : BCmd := { kind := .pairing, cmd := h0 0x0801 5 6 }
    let s : State := { runsB .pairing b.cmd live with clk := { now := 9000000000, frc := 0, frcOn := true } }
    s.hw.classB = [b] ∧ s.gft.peer = none ∧ b.since + 9000000000 ≤ s.clk.now := by decide

/-! ### Ports -/

/-- The words of a 1 Gb/s port with its PCS 1000BASE-X and a longest frame of 1,518 bytes. -/
def portWords : List Nat := [2, 1518, 1 + 65536 * 3, 0, 0, 0, 0, 0]

/-- Port 5 as set up, ON and UP. -/
def port5 : Port :=
  { cfg := some (portWords.map (BitVec.ofNat 32)), en := .on, link := .up, speedNow := 2 }

/-- With port 5. -/
def withPort (p : Port) (s : State) : State := onPrt (fun g => { g with ports := put g.ports 5 p }) s

/-- Port 5 is UP, and a frame waits in its queue 6. -/
def frame1 : Held := { frame := { da := 0x0100, sa := 0x0200, len := 100 }, info := { src := 3 } }
def ported : State := withPort port5 (onSw (fun w => { w with queues := [(5 * 8 + 6, { frames := [frame1] })] }) live)

theorem wit_PortCommandsAndLinks :
    rdy .portConfig (hb 0x0401 5 0 (wds portWords)) live ∧ rdy .portFilter (hb 0x0405 5 0 (List.replicate 64 0)) live ∧
      rdy .portEnable (h0 0x0402 5 0) ported ∧ rdy .portDisable (h0 0x0403 5 0) ported ∧
      rdy .portReset (h0 0x0404 5 0) ported ∧ (portOf 5 ported).en ≠ .stopping := by decide
theorem test_port_disable_flushes :
    run .portDisable (h0 0x0403 5 0) ported (fun t => (portOf 5 t).en == .stopping && (queueAt 46 t).frames.isEmpty) = true := by
  decide
theorem test_port_reset :
    run .portReset (h0 0x0404 5 0) ported (fun t => (portOf 5 t).link == .down && (portOf 5 t).en == .on &&
      (portOf 5 t).resetUntil == 5001000) = true := by decide +kernel
theorem wit_PortCommandsAndLinks_links :
    let down := withPort { port5 with link := .down } live
    let hold := withPort { port5 with link := .hold } live
    ((portOf 5 down).en ≠ .off ∧ (portOf 5 down).link = .down ∧ (portOf 5 down).resetUntil ≤ down.clk.frc) ∧
      ((portOf 5 hold).link = .hold ∧ (portOf 5 hold).since + pUpHold (portOf 5 hold) * 1000000 ≤ hold.clk.frc ∧
        arbHeld hold = false ∧ groupOf 5 hold = none ∧ pPreempt (portOf 5 hold) = false) ∧
      after (exec (.upHoldExpiry 5) hold) (fun t => (portOf 5 t).link == .up && t.arb.osn == 41 && t.prt.linkEvt.getLsbD 5) = true ∧
      after (exec (.signalDetect 5) down) (fun t => (portOf 5 t).link == .training) = true := by decide
theorem wit_PortCommandsAndLinks_training :
    let t := withPort { port5 with link := .training } live
    let a := withPort { port5 with link := .training, cfg := some [0x202, 1518, 1] } live
    ((portOf 5 t).link = .training ∧ ((portOf 5 t).anegDone = true ∨ pAneg (portOf 5 t) = false)) ∧
      ((portOf 5 a).link = .training ∧ pAneg (portOf 5 a) = true ∧ pPcs (portOf 5 a) = 0) ∧
      after (exec (.anegResult 5 2 true true) a) (fun u => (portOf 5 u).anegDone) = true ∧
      after (exec (.anegResult 5 2 true false) a) (fun u => (portOf 5 u).anegRef) = true ∧
      after (exec (.pcsUp 5) t) (fun u => (portOf 5 u).link == .hold) = true := by decide
theorem test_link_down :
    after (exec (.linkDown 5 .pcs) ported) (fun t => (portOf 5 t).link == .down && t.prt.linkEvt.getLsbD 5 &&
      (queueAt 46 t).frames.isEmpty) = true := by decide

/-- Port 5 verifies preemption. -/
def verifying (n : Nat) : State :=
  withPort { port5 with cfg := some [0x1002, 1518, 4], verify := 1, verifyTries := n, paused := true } live

theorem wit_PreemptionAndPause :
    (portOf 5 (verifying 2)).link = .up ∧ (portOf 5 (verifying 2)).verify = 1 ∧
      (portOf 5 (verifying 2)).verifyAt ≤ (verifying 2).clk.frc ∧ (portOf 5 (verifying 2)).verifyTries < 3 ∧
      3 ≤ (portOf 5 (verifying 3)).verifyTries ∧ pPreempt (portOf 5 (verifying 2)) = true ∧
      (portOf 5 (verifying 2)).paused = true ∧ (portOf 5 (verifying 2)).pauseEnd ≤ (verifying 2).clk.frc * 100 ∧
      (portOf 5 (verifying 2)).pauseWait = none ∧ (portOf 5 ported).link = .up ∧ pPreempt (portOf 5 ported) = false ∧
      after (exec (.verifyMpacketRx 5) ported) (fun t => t.prt.cnt == [(5 * 38 + 17, 1)]) = true := by decide
theorem test_verify_gives_up :
    after (exec (.verifyMpacketTimer 5) (verifying 3)) (fun t => (portOf 5 t).verify == 3) = true ∧
      after (exec (.verifyMpacketTimer 5) (verifying 2)) (fun t => (portOf 5 t).verifyTries == 3) = true ∧
      after (exec (.respondMpacketRx 5) (verifying 2)) (fun t => (portOf 5 t).verify == 2) = true ∧
      after (exec (.pauseTimerExpiry 5) (verifying 2)) (fun t => !(portOf 5 t).paused) = true := by decide

/-- A received frame of 100 bytes. -/
def rx1 : RxFrame := { frame := { da := 0x0100, sa := 0x0200, len := 100 } }

theorem wit_FramesAreCheckedInOrder :
    (portOf 5 ported).link = .up ∧ (portOf 5 ported).en = .on ∧ rx1.frags = 0 ∧ rx1.smdErr = false ∧ rx1.assyErr = false ∧
      fifoUse 5 ported + pMaxLen (portOf 5 ported) ≤ fifoSize 5 ∧ 2 ≤ (portOf 5 ported).speedNow ∧
      rx1.codeError = false ∧ 64 ≤ rx1.frame.len ∧ rx1.frame.len ≤ pMaxLen (portOf 5 ported) ∧ rx1.fcsOk = true ∧
      rx1.frame.etype ≠ 0x8808 ∧ accepts (portOf 5 ported) rx1.sfd rx1.frame.da = true := by decide
theorem wit_FramesAreCheckedInOrder_refused :
    ({ rx1 with codeError := true } : RxFrame).codeError = true ∧ ({ len := 63 } : Frame).len < 64 ∧
      pMaxLen (portOf 5 ported) < ({ len := 1519 } : Frame).len ∧ ({ rx1 with fcsOk := false } : RxFrame).fcsOk = false ∧
      accepts { port5 with cfg := some [0x802, 1518, 1], filter := [(0x300, true)] } rx1.sfd rx1.frame.da = false := by decide
theorem test_frame_checks :
    after (exec (.frameRx 5 rx1) ported) (fun t => (lookD t.sw.store 5 []).length == 1 && lookD t.prt.cnt (5 * 38) 0 == 1) = true ∧
      after (exec (.frameRx 5 { rx1 with fcsOk := false }) ported) (fun t => lookD t.prt.cnt (5 * 38 + 5) 0 == 1) = true ∧
      after (exec (.frameRx 5 { rx1 with codeError := true, fcsOk := false }) ported) (fun t =>
        lookD t.prt.cnt (5 * 38 + 9) 0 == 1 && lookD t.prt.cnt (5 * 38 + 5) 0 == 0) = true ∧
      after (exec (.frameRx 5 { rx1 with frame := { len := 1519 } }) ported) (fun t => lookD t.prt.cnt (5 * 38 + 8) 0 == 1) = true := by
  decide
theorem wit_EgressAndTransmission :
    portUp 5 ported = true ∧ (portOf 5 ported).tx = none ∧ (portOf 5 ported).rest = none ∧ (portOf 5 ported).paused = false ∧
      (portOf 5 ported).resetUntil ≤ ported.clk.frc ∧ (queueAt (5 * 8 + 6) ported).frames = frame1 :: [] ∧
      frame1.info.drop = false ∧ (queueAt (5 * 8 + 7) ported).frames = [] ∧
      after (exec (.egress 5) ported) (fun t => (portOf 5 t).tx == some { held := frame1, queue := 6, cells := cellsOf frame1.frame }) = true ∧
      leavesBy 5 ported = none := by decide

/-- Port 5 is LAN A of a PRP instance, and the frame in its queue goes through it. -/
def prp0 : Redun := { mode := 0, portA := 5, portB := 6, counter := 9 }
def frameR : Held := { frame1 with info := { frame1.info with uid := 4 } }
def redundant : State :=
  onSw (fun w => { w with redun := [(0, prp0)], queues := [(5 * 8 + 6, { frames := [frameR] })] }) ported

theorem wit_EgressAndTransmission_redundancy :
    portUp 5 redundant = true ∧ (queueAt (5 * 8 + 6) redundant).frames = frameR :: [] ∧ leavesBy 5 redundant = some (0, prp0) ∧
      frameR.info.uid ≠ 0 ∧ frameR.info.drop = false ∧ (portOf 5 redundant).tx = none ∧
      after (exec (.egress 5) redundant) (fun t => ((portOf 5 t).tx.bind fun x => x.held.frame.rct).map (fun x => (x.lan, x.seq))
        == some (10, 9)) = true := by decide

/-- Port 5 sends. -/
def sending (x : TxFrame) : State := withPort { port5 with tx := some x, halfNow := x.tries != 0 } live

theorem wit_EgressAndTransmission_send :
    let x : TxFrame := { held := frame1, queue := 6 }
    (portOf 5 (sending x)).tx = some x ∧ x.backoff = none ∧ wireLen x.held.frame ≤ pMaxLen (portOf 5 (sending x)) ∧
      x.frags = 0 ∧ (portOf 5 (sending x)).halfNow = false ∧ (portOf 5 (sending x)).paused = false ∧
      after (exec (.frameTx 5 0 ⟨none, false⟩) (sending x)) (fun t => (portOf 5 t).tx.isNone && lookD t.prt.cnt (5 * 38 + 19) 0 == 1 &&
        lookD t.prt.cnt (5 * 38 + 20) 0 == wireLen x.held.frame) = true := by decide
theorem wit_EgressAndTransmission_collision :
    let x : TxFrame := { held := frame1, queue := 6, tries := 1 }
    let y : TxFrame := { x with backoff := some 4000000 }
    (portOf 5 (sending x)).tx = some x ∧ x.backoff = none ∧ (portOf 5 (sending x)).halfNow = true ∧ x.tries < 15 ∧
      (portOf 5 (sending y)).tx = some y ∧ 4000000 ≤ (sending y).clk.frc ∧
      after (exec (.backoffExpiry 5) (sending y)) (fun t => (portOf 5 t).tx == some x) = true ∧
      after (exec (.collision 5 3) (sending x)) (fun t => t.prt.cnt == [(5 * 38 + 30, 1)]) = true := by decide

theorem wit_EgressAndTransmission_deferral :
    let x : TxFrame := { held := frame1, queue := 6, tries := 1 }
    (portOf 5 (sending x)).tx = some x ∧ (portOf 5 (sending x)).halfNow = true ∧
      wireLen x.held.frame ≤ pMaxLen (portOf 5 (sending x)) ∧
      after (exec (.frameTx 5 0 ⟨none, true⟩) (sending x)) (fun t => (portOf 5 t).tx.map (fun y => y.deferred) == some true)
        = true := by decide

/-! ### The switch core -/

/-- A lookup key and an action as words. -/
def keyWords : List Nat := [0x03020100, 0x0504, 0x88BA]
def cAdd : Cmd := hb 0x0410 0 0 (wds (keyWords ++ [0, 0, 0, 0, 0]))

/-- Entry 0 of the exact-match table has that key. -/
def matched : State := onSw (fun w => { w with exact := [(0, { key := keyAt cAdd.block 0, act := {} })] }) live

theorem wit_StreamMatchCommands :
    rdy .swExactAdd cAdd matched ∧
      (matched.sw.exact.find? fun e => e.2.key == keyAt cAdd.block 0) = some (0, { key := keyAt cAdd.block 0, act := {} }) ∧
      rdy .swExactDel (h0 0x0411 0 0) matched ∧ (live.sw.exact.find? fun e => e.2.key == keyAt cAdd.block 0) = none := by
  decide +kernel
theorem wit_StreamMatchCommands_wild :
    rdy .swWildSet (hb 0x0412 7 0 (wds (keyWords ++ keyWords ++ [0, 0, 0, 0, 0, 0]))) live ∧
      rdy .swWildDel (h0 0x0413 7 0) (onSw (fun w => { w with wild := [(7, { key := {}, mask := {}, act := {} })] }) live) ∧
      live.sw.exact = [] ∧ live.rst.cfgLock = false ∧ matched.sw.exact ≠ [] := by decide
theorem test_exact_delete :
    run .swExactDel (h0 0x0411 0 0) matched (fun t => t.sw.exact.isEmpty && lookD t.sw.epochs 0 0 == 1) = true := by decide
theorem test_hash_locked :
    let host := onRst (fun r => { r with pcieAt := some 0 }) live
    after (exec (.swHash 9) host) (fun t => t.sw.seed == 9) = true ∧
      after (exec (.swHash 9) (onSw (fun w => { w with seed := 4 }) live)) (fun t => t.sw.seed == 4) = true ∧
      after (exec (.swHash 9) (onRst (fun r => { r with cfgLock := true }) (onSw (fun w => { w with seed := 4 }) host)))
        (fun t => t.sw.seed == 4) = true := by decide
theorem wit_SwitchSetUpCommands :
    rdy .swQueue (hb 0x0420 5 6 (wds [10, 20, 256 + 3, 0])) live ∧
      rdy .swRed (hb 0x0421 1 0 (wds [5, 9, 5, 9, 5, 9])) live ∧ rdy .swPaths (hb 0x0431 2 0 (wds [2, 0x0605, 0, 0])) live ∧
      rdy .swRedun (hb 0x0430 0 0 (wds [16 + 5 * 256 + 6 * 65536 + 63 * 2 ^ 24, 0, 0, 2000, 0, 0])) live ∧
      membersOf (wds [2, 0x0605, 0, 0]) = [5, 6] ∧ membersOf (wds [0, 0, 0, 0]) = [] := by decide

/-- A frame of source 48 waits at the switch core. -/
def held48 : Held := { frame := { da := 0x000102030405, etype := 0x88BA, len := 100 }, info := { src := 48 } }
def ingressing : State := onSw (fun w => { w with store := [(48, [held48])] }) live

/-- A wildcard entry that matches every frame and names AUTH 1. -/
def wildAuth : State := onSw (fun w => { w with
  wild := [(7, { key := {}, mask := {}, inports := 2 ^ 50 - 1, act := { auth := 1, authDrop := true, keySlot := 9 } })] }) ingressing

theorem wit_IngressClassifies :
    ingressing.rst.phase = .started ∧ lookD ingressing.sw.store 48 [] = held48 :: [] ∧ held48.info.src = 48 ∧
      held48.info.direct = none ∧ comesFirst 50 ingressing.sw.ptr ((List.range 50).filter (requests ingressing)) 48 = true ∧
      lookup (lookupKey held48 ingressing) 48 ingressing = none ∧ held48.info.op = none ∧
      after (exec (.switchIngress 48) ingressing) (fun t => lookD t.sw.ingress 48 0 == 1 && t.sw.evt.getLsbD 1 && t.sw.ptr == 49) = true := by
  decide +kernel
theorem wit_IngressClassifies_auth :
    (lookup (lookupKey held48 wildAuth) 48 wildAuth).map (fun x => (x.1, x.2.auth)) = some (16384 + 7, 1) ∧
      wildAuth.sw.wait.length < 1024 ∧ gated held48 wildAuth = false ∧ wildAuth.key.lanes = [] ∧ wildAuth.key.tags = [] ∧
      after (exec (.switchIngress 48) wildAuth) (fun t => t.sw.wait.isEmpty &&
        ((look t.key.lanes 0).bind fun j => j.ver.map fun x => x.1.info.entry) == some 16391) = true := by
  decide +kernel
theorem wit_IngressClassifies_auth_lanes_busy :
    let s := onKey (fun k => { k with lanes := [(0, {}), (1, {}), (2, {}), (3, {})] }) wildAuth
    freeLanes s = [] ∧
      after (exec (.switchIngress 48) s) (fun t => t.sw.wait.map (fun x => x.1.info.entry) == [16391]) = true := by
  decide +kernel

/-- Lane 2 holds a frame whose slot 9 was EMPTY at its load. -/
def act9 : Action := { auth := 1, authDrop := true, keySlot := 9 }
def verifyingFrame : State :=
  onKey (fun k => { k with lanes := [(2, { ver := some (held48, act9), slot := 9, fault := 4 })] }) live

theorem wit_CryptoLanes :
    look verifyingFrame.key.lanes 2 = some { ver := some (held48, act9), slot := 9, fault := 4 } ∧
      verifyingFrame.sw.wait = [] ∧ verifyingFrame.key.tags = [] ∧ verdictOf act9.auth 4 {} held48.frame = 4 ∧
      act9.authDrop = true ∧ held48.info.op = none ∧
      after (exec (.verificationVerdict 2) verifyingFrame) (fun t => t.key.lanes.isEmpty && lookD t.key.cnt (9 * 7 + 4) 0 == 1)
        = true := by decide +kernel

/-- Slot 9 of partition 3 with a check that holds, whatever the Root is. -/
def leaf9 : KSlot := sealSlot Config.root
  { st := .valid, level := 2, alg := 1, usage := 3, parent := 1, keyId := 77, owner := 2, part := 3, key := [5] }

/-- A frame whose extension slot 9 passes. -/
def authFrame : Frame :=
  { held48.frame with auth := some { keyId := 77, mac := macOf 1 (keyOf leaf9) held48.frame 0 } }

/-- A SEND of partition 3 waits for its tag. -/
def tag9 : TagReq := { held := held48, slot := 9, auth := 1, owner := 3 }
def tagging : State := onKey (fun k => { k with slots := [(9, leaf9)], tags := [tag9] }) live
def laneTag : LaneJob := { tag := some tag9, slot := 9, work := leaf9 }

theorem wit_CryptoLanes_verify : verify 9 1 authFrame tagging = 0 := by
  have h1 : (!usable (slotOf 9 tagging) || !leafFor (slotOf 9 tagging) 0 1) = false := by decide
  have h2 : (9 :: partners 9 tagging).find? (fun j => (slotOf j tagging).keyId == 77) = some 9 := by decide
  have hk : verifyKey 9 1 authFrame tagging = (0, leaf9) := by
    rw [verifyKey, if_neg (by rw [h1]; simp)]
    simp only [authFrame]
    rw [h2]
    rfl
  rw [verify, hk]
  rfl
theorem wit_CryptoLanes_load :
    tagging.key.lanes = [] ∧ tagging.sw.wait = [] ∧ tagging.key.tags = [tag9] ∧ tag9.pub = none ∧
      checkHolds tagging.mram.root (slotOf (tagSlot tag9.slot tagging) tagging) = true ∧
      tagStatus (slotOf (tagSlot tag9.slot tagging) tagging) 1 3 tagging = stOk :=
  ⟨rfl, rfl, rfl, rfl, sealed_holds _ _, by decide⟩
theorem wit_CryptoLanes_tag :
    let s := onKey (fun k => { k with lanes := [(1, laneTag)], tags := [] }) tagging
    look s.key.lanes 1 = some laneTag ∧ laneTag.tag = some tag9 ∧ laneTag.fault = stOk ∧ tag9.pub = none ∧ tag9.auth ≤ 2 ∧
      s.key.tagCount + 1 < 2 ^ 40 ∧ s.sw.wait = [] ∧ s.key.tags = [] :=
  ⟨rfl, rfl, rfl, rfl, by decide, by decide, rfl, rfl⟩

theorem wit_AgeingAndReturn :
    let n : Node := { inst := 0, sa := 5 }
    let s : State := { onSw (fun w => { w with nodes := [(3, n)] }) live with clk := { now := 0, frc := 60000000000, frcOn := true } }
    look s.sw.nodes 3 = some n ∧ n.updated + 400000000 ≤ s.clk.frc ∧ n.updated + 60000000000 ≤ s.clk.frc ∧ arbHeld s = false ∧
      after (exec (.nodeForget 3) s) (fun t => t.sw.nodes.isEmpty && t.arb.osn == 41) = true := by decide

/-- Group 2 after its member 0 has returned. -/
def pathGrp : PathGrp := { members := [5, 6], ret := 0, buckets := [1, 1], upAt := [some 0, some 0] }

theorem wit_AgeingAndReturn_paths :
    let s := onSw (fun w => { w with paths := [(2, pathGrp)] }) live
    look s.sw.paths 2 = some pathGrp ∧ pathGrp.upAt.getD 0 none = some 0 ∧ 0 + pathGrp.ret * 100000000 ≤ s.clk.frc ∧
      pathGrp.buckets.zipIdx.map (fun e => if e.2 % pathGrp.members.length = 0 then 0 else e.1) ≠ pathGrp.buckets ∧
      after (exec (.pathReturn 2 0) s) (fun t => (look t.sw.paths 2).map (fun x => x.buckets) == some [0, 1]) = true := by decide
theorem wit_AgeingAndReturn_supervision :
    let r : Redun := { mode := 1, portA := 5, portB := 6, interlink := 63 }
    let s := onSw (fun w => { w with redun := [(0, r)] }) live
    look s.sw.redun 0 = some r ∧ r.supAt ≤ s.clk.frc ∧ s.rst.phase = .started ∧ r.mode < 3 ∧ r.portA < 48 ∧ r.portB < 48 ∧
      r.supPcp < 8 := by decide

/-! ### Operations of instance rings -/

/-- Ring 24 with binding `b` and a waiting operation `e`, its payload passed by the voter. -/
def withB (b : Nat) (e : JRec) (l : List Emission) (s : State) : State :=
  onCnp (fun g => { g with passed := l }) (withOp e (withRing { ring24 with binding := b, barg := 1 } s))

/-- An operation of ring 24 with its arguments, buffer and length. -/
def o24 (op a0 a1 len iova : Nat) : JRec :=
  { op24 op with desc := { (op24 op).desc with
      w2 := BitVec.ofNat 32 iova, w4 := BitVec.ofNat 32 len, w6 := BitVec.ofNat 32 a0, w7 := BitVec.ofNat 32 a1 } }

/-- A frame of type 88BAh. -/
def frameS : Frame := { da := 1, sa := 2, etype := 0x88BA, len := 60 }

/-- A SEND of `a0` and a RECV of `len` bytes at `iova` wait. -/
def sendingOf (a0 : Nat) (f : Frame) : State := withB 1 (o24 1 a0 0 60 0x40000) [.payload 24 2 (.frame f)] busy
def sendingOp (a0 : Nat) : State := sendingOf a0 frameS
def recvOp (len iova : Nat) : State := withB 2 (o24 1 0 0 len iova) [] busy

/-- Every crypto lane holds a frame. -/
def lanesBusy (s : State) : State := onKey (fun k => { k with lanes := [(0, {}), (1, {}), (2, {}), (3, {})] }) s

/-- `ARG0` of a SEND that is to be tagged with slot 9. -/
def tag9Arg : Nat := 9 * 4096 + 2 ^ 23

theorem wit_SendAndReceive_send :
    let e := o24 1 0 0 60 0x40000
    opAt 1 1 24 2 e (sendingOp 0) ∧ .payload 24 2 (.frame frameS) ∈ (sendingOp 0).cnp.passed ∧ sendAuth e.desc = 0 ∧
      after (exec (.send 24 2 frameS) (sendingOp 0)) (fun t => (lookD t.sw.store 49 []).length == 1 && t.sw.sends.length == 1)
        = true := by decide +kernel
theorem wit_SendAndReceive_tagged :
    let e := o24 1 tag9Arg 0 60 0x40000
    let s := sendingOp tag9Arg
    opAt 1 1 24 2 e s ∧ .payload 24 2 (.frame frameS) ∈ s.cnp.passed ∧ sendAuth e.desc = 1 ∧ frameS.etype = 0x88BA ∧
      s.key.lanes = [] ∧ s.sw.wait = [] ∧ s.key.tags = [] ∧ opAt 1 1 24 2 e (lanesBusy s) ∧ freeLanes (lanesBusy s) = [] ∧
      after (exec (.send 24 2 frameS) s) (fun t => ((look t.key.lanes 0).bind fun j => j.tag).map (fun q =>
        (q.slot, q.auth, q.owner)) == some (9, 1, 3)) = true ∧
      after (exec (.send 24 2 frameS) (lanesBusy s)) (fun t => t.key.tags.map (fun q => (q.slot, q.auth, q.owner)) == [(9, 1, 3)])
        = true := by decide +kernel
theorem wit_SendAndReceive_wrong_type :
    let f : Frame := { frameS with etype := 0x88B9 }
    let s := sendingOf tag9Arg f
    opAt 1 1 24 2 (o24 1 tag9Arg 0 60 0x40000) s ∧ .payload 24 2 (.frame f) ∈ s.cnp.passed ∧ f.etype ≠ 0x88B8 ∧
      f.etype ≠ 0x88BA ∧
      after (exec (.send 24 2 f) s) (fun t => (entryOf 24 2 t).map (fun e => e.status) == some stBadArg) = true := by decide +kernel
theorem wit_SendAndReceive_recv :
    let s := recvOp 128 0x40000
    opAt 2 1 24 2 (o24 1 0 0 128 0x40000) s ∧ (look s.rng.rings 24).map (fun x => x.st) = some .on ∧
      (s.sw.ringq.find? fun q => q.1 == 24) = none ∧
      after (exec (.recv 24 2) s) (fun t => (entryOf 24 2 t).map (fun e => e.stage) == some .started) = true := by
  decide +kernel
theorem wit_SendAndReceive_recv_ring_off :
    let s := withB 2 (o24 1 0 0 16384 0x40000) [] busy
    let u := onRng (fun g => { g with rings := put g.rings 24 { ring24 with binding := 2, st := .stopping } }) s
    opAt 2 1 24 2 (o24 1 0 0 16384 0x40000) u ∧
      (look u.rng.rings 24).map (fun x => x.st) = some .stopping ∧
      after (exec (.recv 24 2) u) (fun t => (entryOf 24 2 t).map (fun e => (e.status, e.result)) == some (stOk, some 0)) = true := by
  decide +kernel

/-- A frame of 64 octets waits for ring 24. -/
def arrived : Held := { frame := { frameS with len := 64, payload := [1] } }

/-- A RECV of 128 bytes at `iova` finds that frame; page 64 of partition 3 is mapped. -/
def receiving (iova : Nat) : State :=
  withPart { part3 with pages := [(64, 1)], quota := 1 } (onSw (fun w => { w with ringq := [(24, arrived)] }) (recvOp 128 iova))

theorem isMapped_page (x : Part) (h : x.pages = [(64, 1)]) : ∀ k, k < 92 → isMapped x (0x40000 + k) = true := by
  intro k hk
  have e : (0x40000 + k) / 4096 = 64 := by omega
  simp [isMapped, e, h, look]
theorem wit_SendAndReceive_recv_filled :
    let s := receiving 0x40000
    let y : Part := { part3 with pages := [(64, 1)], quota := 1 }
    opAt 2 1 24 2 (o24 1 0 0 128 0x40000) s ∧ (∀ j ∈ s.rng.jrnl, j.ring = 24 → j.stage ≠ .started) ∧
      (∀ j ∈ s.rng.orphans, j.ring ≠ 24) ∧ look s.cnp.parts (24 / 8) = some y ∧
      (s.sw.ringq.find? fun q => q.1 == 24) = some (24, arrived) ∧
      min (32 + (arrived.frame.len - 4)) (lenOf (o24 1 0 0 128 0x40000).desc) = 92 ∧
      after (exec (.recv 24 2) s) (fun t => (entryOf 24 2 t).map (fun e => (e.status, e.result)) == some (stOk, some 92)) = true := by
  decide +kernel
theorem wit_SendAndReceive_recv_over_quota :
    let s := receiving 0x50000
    let e := o24 1 0 0 128 0x50000
    let y : Part := { part3 with pages := [(64, 1)], quota := 1 }
    opAt 2 1 24 2 e s ∧ look s.cnp.parts (24 / 8) = some y ∧ 0 < lenOf e.desc ∧ isMapped y (iovaOf e.desc) = false ∧
      y.quota ≤ mapped y ∧
      after (exec (.recv 24 2) s) (fun t => (entryOf 24 2 t).map (fun e => e.status) == some stOverQuota) = true := by
  decide +kernel

/-- A publication that ring 24 may publish, and an entry that has published one byte. -/
def pub24 : GPub :=
  { cfg := some ((List.range 58).map fun i => if i = 6 then 24 * 65536 else if i = 7 then 16 else if i = 4 then 0x00210000 + 1000
      else if i = 5 then 100 else 0), en := .on }
def pubDone : GPub := { pub24 with published := true, vals := { stNum := 4, data := [9], numEntries := 1 } }
def publishing (x : GPub) : State :=
  onGse (fun g => { g with pubs := [(2, x)] }) (withB 3 (o24 1 2 1 1 0x40000) [.payload 24 2 (.bytes [9])] busy)

theorem wit_PublishAndExport_change :
    let e := o24 1 2 1 1 0x40000
    opAt 3 1 24 2 e (publishing pub24) ∧ .payload 24 2 (.bytes [9]) ∈ (publishing pub24).cnp.passed ∧
      (pubOf 2 (publishing pub24)).en = .on ∧ (pubOf 2 (publishing pub24)).published = false ∧
      pubAuth (pubOf 2 (publishing pub24)) = 0 ∧
      after (exec (.publish 24 2 [9]) (publishing pub24)) (fun t => (pubOf 2 t).vals.stNum == 1 && lookD t.gse.pubCnt 6 0 == 1)
        = true := by decide +kernel
theorem wit_PublishAndExport_unchanged_and_off :
    let e := o24 1 2 1 1 0x40000
    let s := publishing { pub24 with en := .off }
    opAt 3 1 24 2 e (publishing pubDone) ∧ (pubOf 2 (publishing pubDone)).en = .on ∧
      (pubOf 2 (publishing pubDone)).published = true ∧ (pubOf 2 (publishing pubDone)).vals.data = padTo (lenOf e.desc) [9] ∧
      (pubOf 2 (publishing pubDone)).vals.numEntries = arg1 e.desc ∧ opAt 3 1 24 2 e s ∧ (pubOf 2 s).en ≠ .on ∧
      after (exec (.publish 24 2 [9]) (publishing pubDone)) (fun t => (entryOf 24 2 t).map (fun e => (e.status, e.result)) ==
        some (stOk, some 4)) = true ∧
      after (exec (.publish 24 2 [9]) s) (fun t => (entryOf 24 2 t).map (fun e => e.status) == some stWrongState) = true := by
  decide +kernel
theorem wit_PublishAndExport_changed_and_tagged :
    let x : GPub := { pubDone with
      cfg := some ((List.range 58).map fun i => if i = 6 then 24 * 65536 + 4096 + 9 else if i = 7 then 16 else 0)
      vals := { stNum := 4, data := [8], numEntries := 1 } }
    let e := o24 1 2 1 1 0x40000
    let s := publishing x
    opAt 3 1 24 2 e s ∧ (pubOf 2 s).en = .on ∧ (pubOf 2 s).vals.data ≠ padTo (lenOf e.desc) [9] ∧ pubAuth (pubOf 2 s) = 1 ∧
      s.key.lanes = [] ∧ s.sw.wait = [] ∧ s.key.tags = [] ∧ opAt 3 1 24 2 e (lanesBusy s) ∧ freeLanes (lanesBusy s) = [] ∧
      after (exec (.publish 24 2 [9]) s) (fun t => ((look t.key.lanes 0).bind fun j => j.tag).map (fun q => q.result) == some 5)
        = true ∧
      after (exec (.publish 24 2 [9]) (lanesBusy s)) (fun t => t.key.tags.map (fun q => q.pub) == [some 2]) = true := by
  decide +kernel

/-- Recorder 1 of partition 3 has stored record 7 of `n` bytes; an EXPORT of record `num` to `iova` waits. Page 64 of the
partition is mapped. -/
def rec1 (n : Nat) : Rec := { set := true, owner := 3, stored := [{ num := 7, data := List.replicate n 0x5A }] }
def exporting (n num len iova : Nat) : State :=
  withPart { part3 with pages := [(64, 1)], quota := 1 }
    (onAcq (fun a => { a with recs := [(1, rec1 n)] }) (withB 4 (o24 1 1 num len iova) [] busy))
def owner3 : Part := { part3 with pages := [(64, 1)], quota := 1 }

theorem wit_PublishAndExport_export :
    let e := o24 1 1 7 64 0x40000
    let s := exporting 128 7 64 0x40000
    opAt 4 1 24 2 e s ∧ s.acq.exports.filter (isExport 24 e.gen 2) = [] ∧
      bufferRec 1 7 s = some { num := 7, data := List.replicate 128 0x5A } ∧ look s.cnp.parts (24 / 8) = some owner3 ∧
      ((List.replicate 128 (0x5A : Byte)).drop (arg0 e.desc / 256 * 65536)).take (lenOf e.desc) = List.replicate 64 0x5A ∧
      64 ≤ 4096 - iovaOf e.desc % 4096 ∧ isMapped owner3 (iovaOf e.desc) = true ∧
      opAt 4 1 24 2 (o24 1 1 8 64 0x40000) (exporting 128 8 64 0x40000) ∧ storedRec 1 8 (exporting 128 8 64 0x40000) = none ∧
      after (exec (.exportRec 24 2) s) (fun t => (entryOf 24 2 t).map (fun e => (e.status, e.result))
        == some (stOk, some 64)) = true := by decide +kernel
theorem wit_PublishAndExport_export_nothing_and_over_quota :
    let e := o24 1 257 7 64 0x40000
    let s := exporting 128 7 64 0x40000
    let u := onRng (fun g => { g with jrnl := [e] }) s
    let v := exporting 128 7 64 0x50000
    opAt 4 1 24 2 e u ∧ ((List.replicate 128 (0x5A : Byte)).drop (arg0 e.desc / 256 * 65536)).take (lenOf e.desc) = [] ∧
      after (exec (.exportRec 24 2) u) (fun t => (entryOf 24 2 t).map (fun e => (e.status, e.result)) == some (stOk, some 0)) = true ∧
      opAt 4 1 24 2 (o24 1 1 7 64 0x50000) v ∧ isMapped owner3 0x50000 = false ∧ owner3.quota ≤ mapped owner3 ∧
      after (exec (.exportRec 24 2) v) (fun t => (entryOf 24 2 t).map (fun e => e.status) == some stOverQuota) = true := by
  decide +kernel
theorem wit_PublishAndExport_export_pages :
    let s := exporting 128 7 128 0x40FC0
    let x : XOp := { ring := 24, gen := 1, seq := 2, recNo := 1, num := 7, iova := 0x40FC0, off := 0, len := 128, copied := 64 }
    opAt 4 1 24 2 (o24 1 1 7 128 0x40FC0) s ∧ 4096 - 0x40FC0 % 4096 < 128 ∧ isMapped owner3 0x40FC0 = true ∧
      after (exec (.exportRec 24 2) s) (fun t => t.acq.exports == [x] &&
        (entryOf 24 2 t).map (fun e => e.stage) == some .started) = true := by decide +kernel

/-- The second page of an EXPORT is to be copied. -/
def xop24 : XOp :=
  { ring := 24, gen := 1, seq := 2, recNo := 1, num := 7, iova := 0x3FFC0, off := 0, len := 128, copied := 64 }
def exportingOn : State :=
  onAcq (fun a => { a with exports := [xop24] })
    (onRng (fun g => { g with jrnl := [{ o24 1 1 7 128 0x3FFC0 with stage := .started }] }) (exporting 128 7 128 0x3FFC0))

theorem wit_PublishAndExport_export_goes_on :
    let s := exportingOn
    let e : JRec := { o24 1 1 7 128 0x3FFC0 with stage := .started }
    opReady 4 1 24 2 s = false ∧ (s.acq.exports.find? fun x => x.ring == 24 && x.seq == 2) = some xop24 ∧
      xop24.gen = genOf 24 s ∧ entryOf 24 2 s = some e ∧ e.stage = .started ∧ e.replayed = false ∧
      s.rng.orphans.any (isEntry 24 (genOf 24 s) 2) = false ∧
      bufferRec 1 7 s = some { num := 7, data := List.replicate 128 0x5A } ∧ look s.cnp.parts (24 / 8) = some owner3 ∧
      (((List.replicate 128 (0x5A : Byte)).drop 0).take 128).drop 64 = List.replicate 64 0x5A ∧
      64 ≤ 4096 - (0x3FFC0 + 64) % 4096 ∧ isMapped owner3 (0x3FFC0 + 64) = true ∧
      after (exec (.exportRec 24 2) s) (fun t => (entryOf 24 2 t).map (fun e => (e.status, e.result)) == some (stOk, some 128) &&
        t.acq.exports.isEmpty) = true := by decide +kernel

/-! ### Output channels and binary inputs -/

/-- Channels 1 (PWM) and 2 (RELAY) of partition 3, ON. -/
def cfgOut (mode : Word) : Option (List Word) := some [0x00010000 + mode, 3, 4000, 0, 0, 0, 0, 0]
def pwm : OutCh := { cfg := cfgOut 0, en := .on, p := 4000, h := 0, stP := 4000, stH := 0 }
def relay : OutCh := { cfg := cfgOut 2, en := .on }
def driving : State := onOut (fun o => { o with chans := [(1, pwm), (2, relay)], pinLow := false }) live
def outOp (e : JRec) : State :=
  onOut (fun o => { o with chans := [(1, pwm), (2, relay)], pinLow := false }) (withB 5 e [] busy)

theorem wit_OutputOperationsAndWaveforms_stage :
    let e := o24 1 (2 ^ 28 + 8000) 4000 0 0
    opAt 5 1 24 2 e (outOp e) ∧
      after (exec (.stage 24 2) (outOp e)) (fun t => (outCh 1 t).stP == 8000 && (outCh 1 t).p == 4000) = true := by decide +kernel
theorem test_stage_ranges :
    let f := o24 1 (2 ^ 28 + 31) 4000 0 0
    stageChecks 24 f.desc (outOp f) = stBadArg := by decide +kernel
theorem wit_OutputOperationsAndWaveforms_load :
    let e := o24 2 2 0 0 0
    let s := onOut (fun o => { o with chans := [(1, { pwm with en := .stopping })] }) (outOp e)
    opAt 5 2 24 2 e (outOp e) ∧ arg1 e.desc = 0 ∧ loadStarts e.desc (outOp e) = true ∧ maskChans (arg0 e.desc) = [1] ∧
      (outCh 1 (outOp e)).pullIn = false ∧ (outCh 1 (outOp e)).pend = none ∧
      opAt 5 2 24 2 e s ∧ loadStarts e.desc s = false ∧
      after (exec (.load 24 2 []) (outOp e)) (fun t => (outCh 1 t).pend == some { ring := 24, seq := 2, atTarget := false })
        = true ∧
      after (exec (.load 24 2 []) s) (fun t => (entryOf 24 2 t).map (fun e => e.status) == some stWrongState) = true := by
  decide +kernel
theorem wit_OutputOperationsAndWaveforms_pulse :
    let e := o24 3 18 400 0 0
    let s := onOut (fun o => { o with chans := [(2, { relay with en := .stopping })] }) (outOp e)
    opAt 5 3 24 2 e (outOp e) ∧ (outCh 2 (outOp e)).en = .on ∧ opAt 5 3 24 2 e s ∧ (outCh 2 s).en ≠ .on ∧
      after (exec (.pulse 24 2) (outOp e)) (fun t => (outCh 2 t).pulsePol && (outCh 2 t).pinA && lookD t.out.cnt 16 0 == 1)
        = true ∧
      after (exec (.pulse 24 2) s) (fun t => (entryOf 24 2 t).map (fun e => e.status) == some stWrongState) = true := by
  decide +kernel

/-- Channel 1 as `c`. -/
def withCh (c : OutCh) : State := onOut (fun o => { o with chans := [(1, c), (2, relay)] }) driving

theorem wit_OutputOperationsAndWaveforms_period :
    let q : Pend := { ring := 24, seq := 2, atTarget := false }
    let x : OutCh := { pwm with pend := some q, stP := 8000, stH := 100 }
    (outCh 1 driving).en = .on ∧ outMode (outCh 1 driving) = 0 ∧ (outCh 1 driving).pullIn = false ∧
      atBoundary (outCh 1 driving) driving = true ∧ (outCh 1 driving).pend = none ∧ (outCh 1 (withCh x)).pend = some q ∧
      atBoundary (outCh 1 (withCh x)) (withCh x) = true ∧
      after (exec (.periodStart 1) driving) (fun t => (outCh 1 t).perLen == 250 && lookD t.out.cnt 7 0 == 1) = true ∧
      after (exec (.periodStart 1) (withCh x)) (fun t => (outCh 1 t).p == 8000 && (outCh 1 t).perLen == 500) = true := by
  decide +kernel
theorem wit_OutputOperationsAndWaveforms_ends :
    let a : OutCh := { pwm with inPeriod := true, w := true, highLen := 10, perLen := 20 }
    let b : OutCh := { pwm with dueB := true, dueAt := 5 }
    let c : OutCh := { pwm with pullIn := true, endAt := 7 }
    ((outCh 1 (withCh a)).inPeriod = true ∧ (outCh 1 (withCh a)).w = true ∧ (outCh 1 (withCh a)).highLen < (outCh 1 (withCh a)).perLen ∧
      (outCh 1 (withCh a)).perAt + (outCh 1 (withCh a)).highLen * countUnit ≤ frcNow (withCh a)) ∧
      ((outCh 1 (withCh b)).dueB = true ∧ (outCh 1 (withCh b)).dueAt ≤ frcNow (withCh b)) ∧
      (outCh 1 (withCh c)).pullIn = true ∧ (outCh 1 (withCh c)).endAt ≤ frcNow (withCh c) ∧
      after (exec (.deadTimeEnd 1) (withCh b)) (fun t => (outCh 1 t).pinB && !(outCh 1 t).pinA) = true := by decide +kernel
theorem wit_OutputOperationsAndWaveforms_pulse_end :
    let e : JRec := { o24 3 18 400 0 0 with stage := .started }
    let s := onOut (fun o => { o with chans := [(2, { relay with pulse := some (24, 1, 2), endAt := 5, pinA := true })] }) (outOp e)
    (outCh 2 s).pulse = some (24, 1, 2) ∧ (outCh 2 s).endAt ≤ frcNow s ∧ findEntry 24 1 2 s = some e ∧ e.stage = .started ∧
      e.replayed = false ∧ outMode (outCh 2 s) = 2 ∧
      after (exec (.pulseEnd 2) s) (fun t => !(outCh 2 t).pinA && (outCh 2 t).pulse.isNone) = true := by decide +kernel

theorem wit_OutputCommandsAndBinaryInputs_out :
    let off := onOut (fun o => { o with chans := [(1, { pwm with en := .off })], pinLow := false, inh := true }) busy
    rdy .outConfig (hb 0x0A01 4 0 (wds [0x00010000, 3, 4000, 0, 0, 0, 0, 0])) busy ∧
      rdy .outEnable (h0 0x0A02 1 0) off ∧ (outCh 1 off).en = .off ∧ rdy .outDisable (h0 0x0A03 1 0) driving ∧
      (outCh 1 driving).en = .on := by decide +kernel
theorem wit_OutputCommandsAndBinaryInputs_inhibit :
    let off := onOut (fun o => { o with pinLow := false, inh := true }) busy
    rdy .outInhClear (h0 0x0A04 0 0) live ∧ live.out.pinLow = true ∧ rdy .outInhClear (h0 0x0A04 0 0) off ∧
      off.out.pinLow = false ∧ off.out.inh = true ∧ arbHeld off = false ∧
      inhWaits driving = false ∧ driving.out.inh = false ∧ arbHeld driving = false ∧
      after (exec (.outinhN false 10) driving) (fun t => t.out.inh && t.arb.osn == 41) = true ∧
      run .outInhClear (h0 0x0A04 0 0) off (fun t => !t.out.inh && t.arb.osn == 41) = true := by decide +kernel

/-- Input 4, filtered over 1 µs, ON with its run open. -/
def bin4 : BinIn := { cfg := some [1, 0, 0, 0, 0, 0, 0, 0], en := .on, level := true, runOpen := true }
def withBin (x : BinIn) (s : State) : State := onBin (fun b => { b with ins := [(4, x)] }) s

theorem wit_OutputCommandsAndBinaryInputs_bin :
    rdy .binConfig (hb 0x0A10 4 0 (wds [1, 0, 0, 0, 0, 0, 0, 0])) live ∧
      rdy .binEnable (h0 0x0A11 4 0) (withBin { bin4 with en := .off } live) ∧
      rdy .binDisable (h0 0x0A12 4 0) (withBin bin4 live) ∧ binRanges (wds [32768, 0, 0, 0, 0, 0, 0, 0]) = false ∧
      binRanges (wds [20000, 0, 0, 0, 0, 0, 0, 0]) = true := by decide +kernel
theorem wit_OutputCommandsAndBinaryInputs_transition :
    let s := withBin { bin4 with runOpen := false, level := false } live
    (binOf 4 s).en = .on ∧ 0 < filtWindow (binOf 4 s) ∧ (binOf 4 s).runOpen = false ∧
      after (exec (.binTransition 4 true 8269) s) (fun t => (binOf 4 t).runOpen && (binOf 4 t).lastAt == 8192) = true := by decide
theorem wit_OutputCommandsAndBinaryInputs_window :
    let s := withBin bin4 live
    let u := withBin { bin4 with state := true } live
    (binOf 4 s).runOpen = true ∧ (binOf 4 s).lastAt + filtWindow (binOf 4 s) ≤ frcNow s ∧ arbHeld s = false ∧
      (binOf 4 s).state = false ∧ (binOf 4 u).state = true ∧
      after (exec (.binFilterWindowEnd 4) s) (fun t => (binOf 4 t).state && t.arb.osn == 41 && t.bin.cnt == [(12, 1)]) = true ∧
      after (exec (.binFilterWindowEnd 4) u) (fun t => t.arb.osn == 40 && t.bin.cnt == [(14, 1)]) = true := by decide

/-! ### Streams, GOOSE and the filter chain -/

/-- The block of a subscription: one channel, one ASDU per frame, source 0 named `a`, and partition 3 as destination. -/
def svBlock : Bytes :=
  wds ((List.range 68).map fun i =>
    if i = 0 then 257 else if i = 1 then 1000 else if i = 2 then 1 else if i = 4 then 0x01014001 else if i = 8 then 0x61
    else if i = 44 then 256 + 3 else if i = 46 then 0x7000 else if i = 48 then 0x7400 else 0)

/-- The stream that the block describes. -/
def strm5 : Strm := streamAt svBlock

/-- Stream 5 is `x`. -/
def withStrm (x : Strm) : State := onSv (fun v => { v with streams := [(5, x)] }) busy

theorem wit_StreamAndGooseCommands_streams :
    rdy .svSubscribe (hb 0x0301 0 0 svBlock) busy ∧ rdy .svEnable (h0 0x0302 5 0) (withStrm strm5) ∧
      strm5.en = .off ∧ rdy .svDisable (h0 0x0303 5 0) (withStrm { strm5 with en := .on }) ∧
      run .svSubscribe (hb 0x0301 0 0 svBlock) busy (fun t => (strmOf 0 t).dests.length == 1) = true := by decide +kernel
theorem wit_StreamAndGooseCommands_removal_and_filter :
    rdy .svRemove (h0 0x0304 5 0) (withStrm strm5) ∧ arbHeld (withStrm strm5) = false ∧
      rdy .fltChannel (hb 0x0330 5 0 (wds [1, 4, 0, 0, 0, 0, 0, 0])) (withStrm strm5) ∧
      rdy .fltCoeff (hb 0x0332 3 0 (wds [8, 1, 2, 3, 2 ^ 32 - 4])) live ∧
      run .svRemove (h0 0x0304 5 0) (withStrm strm5) (fun t => t.sv.streams.isEmpty && t.arb.osn == 41) = true := by
  decide +kernel

/-- The block of a GOOSE subscription and of a publication. -/
def gsBlock : Bytes :=
  wds ((List.range 44).map fun i =>
    if i = 0 then 64 else if i = 1 then 7 else if i = 2 then 0x01004001 else if i = 4 then 0x61
    else if i = 20 then 256 + 3 else if i = 22 then 0x7000 else if i = 24 then 0x7400 else 0)
def pubBlock : Bytes :=
  wds ((List.range 58).map fun i =>
    if i = 4 then 0x00210000 + 500 else if i = 5 then 1000 else if i = 6 then 24 * 65536 else if i = 7 then 64
    else if i = 8 ∨ i = 24 then 0x61 else 0)

theorem wit_StreamAndGooseCommands_goose :
    rdy .gooseSubscribe (hb 0x0310 0 0 gsBlock) busy ∧
      rdy .gooseUnsubscribe (h0 0x0311 6 0) (onGse (fun g => { g with subs := [(6, subAt gsBlock)] }) busy) ∧
      rdy .goosePubSet (hb 0x0320 2 0 pubBlock) busy ∧
      rdy .goosePubEnable (h0 0x0321 2 0) (onGse (fun g => { g with pubs := [(2, { pub24 with en := .off })] }) busy) ∧
      rdy .goosePubDisable (h0 0x0322 2 0) (onGse (fun g => { g with pubs := [(2, pub24)] }) busy) := by
  decide +kernel

/-- A sample of stream 5 for slot 20, which starts at 5,000,000 ns. -/
def asdu5 : Asdu := { svId := [0x61], smpCnt := 20, samples := [(77, 0)] }
def svFrame (a : SvApdu) : Held :=
  { frame := { etype := 0x88BA, appid := 0x4001, body := .sv a }, info := { flow := 0x40000005, ts := some (5000000 * 65536) } }
def listening (x : Strm) (a : SvApdu) : State := onSw (fun w => { w with se0 := [svFrame a] }) (withStrm x)
def on5 : Strm := { strm5 with en := .on, nextTick := 20, firstTick := 20 }

theorem wit_SampledValuesAndTicks_rx :
    let h := svFrame { asdus := [asdu5] }
    let s := listening on5 { asdus := [asdu5] }
    s.sw.se0 = h :: [] ∧ bits h.info.flow.toNat 31 30 = 1 ∧ bits h.info.flow.toNat 29 13 = 0 ∧ h.info.flow.toNat % 4096 = 5 ∧
      (strmOf 5 s).en = .on ∧ ((strmOf 5 s).srcs.getD 0 {}).valid = true ∧ on5.authReq = false ∧
      (svOf h.frame).sBit = on5.sim ∧ (svOf h.frame).wellFormed = true := by decide +kernel
theorem wit_SampledValuesAndTicks_placed :
    let h := svFrame { asdus := [asdu5] }
    let s := listening on5 { asdus := [asdu5] }
    asdu5.smpCnt < rateHz on5.rate ∧ h.frame.appid = (on5.srcs.getD 0 {}).appid ∧ on5.noasdu = 1 ∧
      asduMatches on5 (on5.srcs.getD 0 {}) asdu5 = true ∧
      nominalOf (rateHz on5.rate) (lineAt s (5000000 * 65536)) asdu5.smpCnt = some 5000000 ∧
      tickAbs (baseRate s.cnp.rate) 5000000 = 20 ∧ sourceIn on5 20 = 0 ∧
      slotTaken 20 20 (extendTicks (baseRate s.cnp.rate) 20 on5).ticks = false ∧
      after (exec .svFrameRx s) (fun t => ((strmOf 5 t).ticks.map fun k => k.slots.map fun q => (q.slot, q.present))
        == [[(20, true)]] && lookD t.sv.cnt 71 0 == 1) = true := by decide +kernel
theorem wit_SampledValuesAndTicks_rejected :
    let u := listening strm5 { asdus := [asdu5] }
    let v := listening { on5 with authReq := true } { asdus := [asdu5] }
    let w := listening { on5 with sim := true } { asdus := [asdu5] }
    let z := listening on5 { wellFormed := false }
    (strmOf 5 u).en = .off ∧ (strmOf 5 v).authReq = true ∧ (strmOf 5 w).sim = true ∧ (strmOf 5 z).sim = false ∧
      after (exec .svFrameRx u) (fun t => t.sv.noSub == 1) = true ∧
      after (exec .svFrameRx v) (fun t => t.sv.cnt == [(70, 1), (73, 1)]) = true ∧
      after (exec .svFrameRx w) (fun t => t.sv.cnt == [(70, 1), (74, 1)]) = true ∧
      after (exec .svFrameRx z) (fun t => t.sv.cnt == [(70, 1), (75, 1)]) = true := by decide +kernel

/-- Tick 18, which is over, with its one slot. -/
def slot18 : SlotSt := { slot := 18 }
def tick18 : OpenTick := { k := 18, start := 4500000, first := 18, slots := [slot18] }
def closing : Strm := { on5 with nextTick := 18, ticks := [{ tick18 with slots := [{ slot18 with passed := true, filtered := true, missing := true }] }] }

theorem wit_SampledValuesAndTicks_deadline :
    let s := withStrm { on5 with nextTick := 18, ticks := [tick18] }
    (strmOf 5 s).en ≠ .off ∧ (strmOf 5 s).ticks = tick18 :: [] ∧
      tickAbsStart (baseRate s.cnp.rate) (18 + 1) + (strmOf 5 s).hold ≤ lineNow s ∧
      after (exec (.svTickDeadline 5 18) s) (fun t => ((strmOf 5 t).ticks.map fun k => k.slots.map fun q => (q.missing, q.passed))
        == [[(true, true)]] && t.flt.work.length == 1) = true := by decide +kernel
theorem wit_SampledValuesAndTicks_close :
    let s := withStrm closing
    (strmOf 5 s).en ≠ .off ∧ ((strmOf 5 s).ticks.map fun k => k.k) = [(strmOf 5 s).nextTick] ∧
      tickAbsStart (baseRate s.cnp.rate) 18 ≤ lineNow s ∧
      ((strmOf 5 s).ticks.all fun k => k.slots.all fun q => q.filtered) = true ∧ ((strmOf 5 s).ticks.all fun k => k.rephase.isNone) = true ∧
      after (exec (.svTickClose 5) s) (fun t => (strmOf 5 t).nextTick == 19 && (strmOf 5 t).loss == 1) = true := by decide +kernel
theorem wit_SampledValuesAndTicks_lost_and_switched :
    let two : List SvSrc := [on5.srcs.getD 0 {}, { on5.srcs.getD 0 {} with smpRate := 1 }]
    let s := withStrm { on5 with loss := 1 }
    let u := onCnp (fun g => { g with tickEnd := 5000000 })
      (withStrm { on5 with autoN := 2, noAct := 2, srcs := two, lastClosed := some 19, stby := [19] })
    (strmOf 5 s).lost = false ∧ (strmOf 5 s).lossN ≤ (strmOf 5 s).loss ∧ arbHeld s = false ∧
      (strmOf 5 u).autoN ≤ (strmOf 5 u).noAct ∧ ((strmOf 5 u).srcs.getD 1 {}).valid = true ∧ u.cnp.tickEnd ≤ lineNow u ∧
      sourceCommand 5 u = false ∧ after (exec (.streamLost 5) s) (fun t => (strmOf 5 t).lost && t.arb.osn == 41) = true ∧
      after (exec (.automaticSourceSwitch 5) u) (fun t => (strmOf 5 t).active == 1 && (strmOf 5 t).switchTick == 20) = true := by
  decide +kernel
theorem wit_SampledValuesAndTicks_filter :
    let w : Work := { stream := 5, tick := 18, slot := 18, cost := 0 }
    let tk : OpenTick := { tick18 with slots := [{ slot18 with passed := true, present := true, samples := [(77, 0)] }] }
    let s := onFlt (fun f => { f with work := [w] }) (withStrm { on5 with nextTick := 18, ticks := [tk] })
    s.flt.work = w :: [] ∧ tickOfWork w (strmOf w.stream s) = some tk ∧
      after (exec .filterSlot s) (fun t => ((strmOf 5 t).ticks.all fun k => k.slots.all fun q => q.filtered) && t.flt.work.isEmpty) = true ∧
      after (exec .rephase (onSv (fun v => { v with rephase := true }) s)) (fun t => !t.sv.rephase && t.flt.work.isEmpty) = true := by
  decide +kernel

/-- A GOOSE message for subscription 6. -/
def gooseH (g : GoosePdu) : Held := { frame := { etype := 0x88B8, appid := 0x4001, body := .goose g }, info := { flow := 0x80000006 } }
def sub6 : GSub := { subAt gsBlock with dests := [] }
def msg6 : GoosePdu := { gocbRef := [0x61], stNum := 9, sqNum := 3, tal := 2000 }
def gooseIn (x : GSub) (g : GoosePdu) : State :=
  onGse (fun e => { e with subs := [(6, x)] }) (onSw (fun w => { w with se0 := [gooseH g] }) live)

theorem wit_GooseMessages_accepted :
    (gooseIn sub6 msg6).sw.se0 = gooseH msg6 :: [] ∧ bits (gooseH msg6).info.flow.toNat 31 30 = 2 ∧
      bits (gooseH msg6).info.flow.toNat 29 11 = 0 ∧ look (gooseIn sub6 msg6).gse.subs 6 ≠ none ∧
      (gooseH msg6).frame.appid = sub6.appid ∧ msg6.gocbRef = sub6.ref ∧ sub6.chkRev = false ∧ sub6.any = false ∧
      sub6.authReq = false ∧ msg6.sBit = sub6.sim ∧ msg6.allData.length ≤ sub6.maxData ∧
      after (exec .gooseFrameRx (gooseIn sub6 msg6)) (fun t => (subOf 6 t).stNum == 9 &&
        (subOf 6 t).expiry == 5000000 + 2000000000 && t.gse.cnt == [(66, 1), (67, 1)]) = true := by decide +kernel
theorem wit_GooseMessages_newer_and_rejected :
    let x := { sub6 with any := true, stNum := 8 }
    0 < (msg6.stNum - x.stNum).toInt ∧
      after (exec .gooseFrameRx (gooseIn x msg6)) (fun t => (subOf 6 t).stNum == 9) = true ∧
      after (exec .gooseFrameRx (gooseIn { sub6 with authReq := true } msg6)) (fun t => t.gse.cnt == [(66, 1), (72, 1)]) = true ∧
      after (exec .gooseFrameRx (gooseIn { sub6 with sim := true } msg6)) (fun t => t.gse.cnt == [(66, 1), (73, 1)]) = true ∧
      after (exec .gooseFrameRx (gooseIn sub6 { msg6 with wellFormed := false })) (fun t => t.gse.cnt == [(66, 1), (74, 1)]) = true ∧
      after (exec .gooseFrameRx (onGse (fun e => { e with subs := [] }) (gooseIn sub6 msg6))) (fun t => t.sv.noSub == 1) = true := by
  decide +kernel
theorem wit_GooseMessages_expiry :
    let s := gooseIn { sub6 with any := true, stNum := 8, expiry := 4 } msg6
    (subOf 6 s).any = true ∧ (subOf 6 s).stale = false ∧ (subOf 6 s).expiry < s.clk.frc ∧
      after (exec (.talExpiry 6) s) (fun t => (subOf 6 t).stale && lookD t.gse.cnt 76 0 == 1) = true := by decide +kernel
theorem wit_GooseMessages_retransmission :
    let s := publishing { pubDone with vals := { pubDone.vals with nextAt := 4000000 } }
    (pubOf 2 s).en = .on ∧ (pubOf 2 s).published = true ∧ (pubOf 2 s).vals.nextAt ≤ s.clk.frc ∧ gateOpen s = true ∧
      pubAuth (pubOf 2 s) = 0 ∧
      after (exec (.gooseRetransmission 2) s) (fun t => (pubOf 2 t).vals.sqNum == 1 && (lookD t.sw.store 48 []).length == 1) = true := by
  decide +kernel

/-! ### Time bases and precision time -/

/-- Words of a set-up block: word 0, `PORTS`, guard 1,000 ns, logs 0 and `ANN_TMO` 2. -/
def tbWords (w0 : Nat) : List Nat := [w0, 32, 0, 1000, 0x02000000, 65536, 0, 0, 0, 0, 0, 0, 0, 0, 0, 0]

/-- A time base of that set-up that is ON. -/
def tbOn (w0 : Nat) : TBase := { cfg := some ((tbWords w0).map (BitVec.ofNat 32)), en := .on }

/-- Time base 1 is `b`. -/
def withTb (b : TBase) (s : State) : State := onTim (fun t => { t with bases := [(1, b)] }) s

theorem wit_TimeBaseCommands :
    let off := withTb { tbOn 0 with en := .off } live
    rdy .tbConfig (hb 0x0501 1 0 (wds (tbWords 0))) live ∧ rdy .tbEnable (h0 0x0502 1 0) off ∧ (tbOf 1 off).en = .off ∧
      tbSource (tbOf 1 off) = 0 ∧ arbHeld off = false ∧
      rdy .tbEnable (h0 0x0502 1 0) (withTb { tbOn 1 with en := .off } live) ∧ tbSource (tbOn 1) ≠ 0 := by decide +kernel
theorem wit_TimeBaseCommands_disable_rearm_pps :
    let s := withTb (tbOn 1) live
    rdy .tbDisable (h0 0x0503 1 0) s ∧ rdy .tbRearm (h0 0x0504 1 0) s ∧ (tbOf 1 s).acq ≠ .refused ∧
      rdy .tbRearm (h0 0x0504 1 0) (withTb { tbOn 1 with acq := .refused } live) ∧
      rdy .tbPps (hb 0x0505 0 1 (wds [1, 0, 0, 0])) s := by decide +kernel
theorem wit_TimeBaseCommands_pps_out :
    rdy .tbPps (hb 0x0505 1 1 (wds [1, 1000, 0, 0])) (withTb (tbOn 1) live) ∧ (tbOf 1 (withTb (tbOn 1) live)).en = .on ∧
      rdy .tbPps (hb 0x0505 1 1 (wds [1, 1000, 0, 0])) live ∧ (tbOf 1 live).en ≠ .on ∧
      run .tbPps (hb 0x0505 1 1 (wds [1, 1000, 0, 0])) live (fun t => t.tim.ppsOut.width == 1000) = true := by decide +kernel
theorem test_tb_config_no_ports :
    tbRanges (wds ((tbWords 1).set 1 0)) = false ∧ tbRanges (wds (tbWords 9)) = false ∧
      tbRanges (wds ((tbWords 1).set 3 99)) = false := by decide

/-- A time base that follows port 9 of clock 77 through port 5, its path delay known, and a copy of a message. -/
def slave : TBase := { tbOn 1 with master := some (77, 9, 5), delays := [0] }
def copyOf (m : PtpMsg) : PtpCopy := { port := 5, ts := some (5000000 * 65536), msg := { m with clock := 77, portNum := 9 } }
def withCopy (b : TBase) (c : PtpCopy) : State := onTim (fun t => { t with inbox := [c] }) (withTb b live)

theorem wit_TimeFollowsItsMaster_announce :
    let c := copyOf { kind := .announce, gmId := 78 }
    let s := withCopy (tbOn 1) c
    c ∈ s.tim.inbox ∧ c.msg.kind = .announce ∧ ((users c s).filter fun k => ptpCfg (tbOf k s)) = [1] ∧ c.msg.steps < 255 ∧
      tbSource (tbOf 1 s) = 1 := by decide
theorem wit_TimeFollowsItsMaster_announce_foreign :
    ((List.range 4).any fun k => clockId k == 77 || clockId k == 78) = false := by
  rw [List.any_eq_false]
  intro k _
  have h : 78 < clockId k := by
    show 78 < Config.mac0.toNat / 2 ^ 24 * 2 ^ 40 + (0xFFF0 + k) * 2 ^ 24 + Config.mac0.toNat % 2 ^ 24
    omega
  have a : clockId k ≠ 77 := by omega
  have b : clockId k ≠ 78 := by omega
  simp [a, b]
theorem wit_TimeFollowsItsMaster_sync :
    let c := copyOf { kind := .sync, origin := 1000 }
    let s := withCopy slave c
    c ∈ s.tim.inbox ∧ ((users c s).filter fun k => fromMaster (tbOf k s) c) = [1] ∧ (tbOf 1 s).syncWait = [] ∧
      c.msg.twoStep = false ∧ pathDelay (tbOf 1 s) c.port s = some 0 ∧ (tbOf 1 s).acq = .unacquired ∧
      after (exec (.syncRx c) s) (fun t => (tbOf 1 t).acq == .locked && tbAt (tbOf 1 t) (frcNow s) == 1000 * 65536) = true := by
  decide +kernel
theorem wit_TimeFollowsItsMaster_follow_up :
    let w := copyOf { kind := .sync, twoStep := true, seq := 3 }
    let c := copyOf { kind := .followUp, seq := 3, origin := 1000 }
    let s := withCopy { slave with syncWait := [(w, 4999000)] } c
    let u := withCopy slave w
    let v := withCopy slave { w with ts := none }
    c ∈ s.tim.inbox ∧ ((users c s).filter fun k => fromMaster (tbOf k s) c) = [1] ∧ (tbOf 1 s).syncWait = [(w, 4999000)] ∧
      w.msg.seq = c.msg.seq ∧ s.clk.frc ≤ 4999000 + logNs w.msg.logInt ∧ pathDelay (tbOf 1 s) c.port s = some 0 ∧
      ((users w u).filter fun k => fromMaster (tbOf k u) w) = [1] ∧
      after (exec (.syncRx w) u) (fun t => (tbOf 1 t).syncWait == [(w, 5000000)]) = true ∧
      after (exec (.syncRx { w with ts := none }) v) (fun t => lookD t.tim.cnt 10 0 == 1) = true := by decide +kernel
theorem wit_TimeFollowsItsMaster_delay_resp :
    let c : PtpCopy := copyOf { kind := .delayResp, seq := 4, reqPort := 6, reqClock := clockId 1, origin := 2000 }
    let s := withCopy { slave with e2e := some (4, some 7), syncM := some 9 } c
    c ∈ s.tim.inbox ∧ ((users c s).filter fun k => fromMaster (tbOf k s) c) = [1] ∧ (tbOf 1 s).e2e = some (4, some 7) ∧
      (tbOf 1 s).syncM = some 9 ∧ c.msg.seq = 4 ∧ c.msg.reqClock = clockId 1 ∧ c.msg.reqPort = c.port + 1 :=
  ⟨List.mem_cons_self, rfl, rfl, rfl, rfl, rfl, rfl⟩

/-- Time base 1 is a grandmaster on port 5, which is UP. -/
def grand (l : List PtpCopy) : State :=
  withPort { port5 with link := .up, en := .on } (onTim (fun t => { t with inbox := l, pdly := 3 }) (withTb { tbOn 8 with acq := .locked } live))

/-- A queue of COLD has room for a short frame. -/
theorem room_of_cold (s : State) (h : occQ (5 * 8 + 7) s = 0) (k : (queueAt (5 * 8 + 7) s).min = 64) :
    ∀ f : Frame, f.len ≤ 128 → occQ (5 * 8 + 7) s + cellsOf f ≤ (queueAt (5 * 8 + 7) s).min := by
  intro f hf
  simp only [h, k, cellsOf]
  omega

theorem wit_TimeMessagesAndHoldover_delay_req :
    let s := withTb slave live
    (tbOf 1 s).master = some (77, 9, 5) ∧ (tbOf 1 s).en ≠ .off ∧ tbSource (tbOf 1 s) = 1 ∧ tbP2p (tbOf 1 s) = false ∧
      (tbOf 1 s).nextDreq ≤ s.clk.frc := by decide
theorem wit_TimeMessagesAndHoldover_grandmaster :
    let s := grand []
    gmActive (tbOf 1 s) = true ∧ onPort (tbOf 1 s) 5 = true ∧ portUp 5 s = true ∧ quietNow (tbOf 1 s) 5 s = false ∧
      (lookD (tbOf 1 s).due 5 (0, 0)).1 ≤ s.clk.frc := by decide
theorem wit_TimeMessagesAndHoldover_answers :
    let c := copyOf { kind := .delayReq, seq := 4 }
    let d := copyOf { kind := .pdelayReq, seq := 4 }
    let s := grand [c, d]
    c ∈ s.tim.inbox ∧ users c s = [1] ∧ d ∈ s.tim.inbox ∧ s.tim.pdly.getLsbD 1 = true ∧ occQ (5 * 8 + 7) s = 0 ∧
      (queueAt (5 * 8 + 7) s).min = 64 := by decide
theorem wit_TimeMessagesAndHoldover_peer_delay :
    (grand []).tim.pdly.getLsbD 0 = true ∧ (portOf 5 (grand [])).pdelayAt ≤ (grand []).clk.frc := by decide
theorem wit_TimeMessagesAndHoldover_peer_answer :
    let c : PtpCopy := copyOf { kind := .pdelayResp, seq := 4, reqPort := 6, reqClock := clockId 0 }
    let s := withPort { port5 with pdelay := some (4, some 100), pdelayAt := 6000000 } (withCopy slave c)
    c ∈ s.tim.inbox ∧ (portOf c.port s).pdelay = some (4, some 100) ∧ s.clk.frc < (portOf c.port s).pdelayAt ∧
      c.msg.reqClock = clockId 0 ∧ c.msg.reqPort = c.port + 1 :=
  ⟨List.mem_cons_self, rfl, by decide, rfl, rfl⟩
theorem wit_TimeMessagesAndHoldover_loss :
    let s := withTb { tbOn 1 with acq := .locked } live
    (tbOf 1 s).cfg ≠ none ∧ sourceLost (tbOf 1 s) s = true ∧ bestMaster (tbOf 1 s) s.clk.frc = none ∧ arbHeld s = false ∧
      after (exec (.sourceLoss 1) s) (fun t => (tbOf 1 t).acq == .holdover && t.arb.osn == 41) = true := by decide +kernel
theorem wit_TimeMessagesAndHoldover_stale :
    let f : Foreign := { port := 5, ann := { kind := .announce, clock := 77, portNum := 9 }, last := 5000000, ok := true }
    let s := withTb { tbOn 1 with foreign := [f] } live
    (tbOf 1 s).cfg ≠ none ∧ (tbOf 1 s).en ≠ .off ∧ masterStale (tbOf 1 s) s = true ∧
      bestMaster (tbOf 1 s) s.clk.frc = some f ∧
      after (exec (.sourceLoss 1) s) (fun t => (tbOf 1 t).master == some (masterName f)) = true := by decide +kernel

/-- Compare 4 of time base 1 is at its target. -/
def comparing (u : CmpUse) (b : TBase) : State :=
  onTim (fun t => { t with cmps := [{ id := 4, tb := 1, target := 0, use := u }] }) (withTb b live)

theorem wit_ComparesAndPulses_fire :
    let c : Cmp := { id := 4, tb := 1, target := 0, use := .trigger 2 3 }
    ((comparing (.trigger 2 3) (tbOn 0)).tim.cmps.find? fun x => x.id == c.id) = some c ∧
      cmpDiff c (comparing (.trigger 2 3) (tbOn 0)) ≤ fireLead c ∧
      after (exec (.compareFire 4) (comparing (.trigger 2 3) (tbOn 0))) (fun t => t.tim.cmps.isEmpty &&
        t.acq.changes.map (fun e => e.recs) == [some (2, 3)]) = true := by decide +kernel
theorem wit_ComparesAndPulses_uses :
    let s := onKey (fun k => { k with slots := [(9, { st := .rollPending, succ := 10 })] }) (comparing (.rollover 9) (tbOn 0))
    let p : Pps := { tb := 1, en := true, width := 1000 }
    let u := onTim (fun t => { t with ppsOut := p }) (comparing .ppsOut (tbOn 0))
    let v := onTim (fun t => { t with ppsNext := some p }) (comparing .ppsSet (tbOn 0))
    (slotOf 9 s).st = .rollPending ∧ arbHeld s = false ∧ ppsFree u = true ∧ v.tim.ppsNext = some p ∧
      after (exec (.compareFire 4) s) (fun t => (slotOf 9 t).st == .rollOverlap && t.arb.osn == 41) = true ∧
      after (exec (.compareFire 4) u) (fun t => t.tim.ppsHigh && t.tim.ppsFall == 5001000) = true ∧
      after (exec (.compareFire 4) v) (fun t => t.tim.ppsOut == p) = true := by decide +kernel
theorem wit_ComparesAndPulses_edge :
    let s := onTim (fun t => { t with ppsIn := { tb := 1, en := true } }) (withTb (tbOn 2) live)
    let u := onTim (fun t => { t with ppsLast := some 0 }) s
    s.tim.ppsIn.en = true ∧ ppsEarly (tdcTime (5000000 * 65536)) s = false ∧ ppsEarly (tdcTime (499999999 * 65536)) u = true ∧
      ppsEarly (tdcTime (500000000 * 65536)) u = false ∧ tdcTime 8200 = 8192 ∧
      ((List.range 4).filter fun j => (tbOf j s).en != .off && tbSource (tbOf j s) == 2) = [1] ∧ (tbOf 1 s).acq = .unacquired ∧
      after (exec (.ppsInEdge (5000000 * 65536)) s) (fun t => (tbOf 1 t).acq == .locked) = true := by decide +kernel
theorem wit_ComparesAndPulses_fall :
    let s := onTim (fun t => { t with ppsHigh := true, ppsFall := 5000000 }) live
    s.tim.ppsHigh = true ∧ s.tim.ppsFall ≤ s.clk.frc := by decide

/-! ### The key store -/

/-- Slots: a Branch in 4 with a Leaf in 9, and a Leaf in 10 that may succeed it. -/
def branch4 : KSlot := sealSlot Config.root { st := .valid, level := 1, usage := 0x13, key := List.replicate 32 7 }
def leafIn4 (id : Nat) : KSlot :=
  sealSlot Config.root { st := .valid, level := 2, alg := 1, usage := 3, parent := 4, keyId := id }
def keyed : State := onTim (fun t => { t with bases := [(1, tbOn 0)] }) (onKey (fun k => { k with
  slots := [(4, branch4), (9, leafIn4 77), (10, leafIn4 78), (12, { st := .bad })] }) live)

/-- The header of a wrapped grove Branch. -/
def keyBlock : Bytes := wds ((List.range 16).map fun i => if i = 0 then 0x10000101 else 0)

theorem wit_KeysSweepAndOverlap_load :
    rdy .keyLoad (hb 0x0601 20 0 keyBlock) live ∧ checks (keyCases keyBlock 0 0 live) = stDenied ∧
      rdy .keyQuery (h0 0x0603 4 0) live ∧ checkHolds live.mram.root (slotOf 4 live) = true ∧
      rdy .keyInvalidate (h0 0x0602 12 0) keyed ∧ coldHeld live = false ∧
      run .keyQuery (h0 0x0603 4 0) live (fun t => t.hw.exec.isNone) = true := by decide +kernel

/-- An AES-128 Leaf of Key ID 77, wrapped under the key of Branch 4, and the same with its last wrapped byte changed. -/
def leafKey : Bytes := List.replicate 16 9 ++ List.replicate 16 0
def leafBlock : Bytes :=
  toBe 56 0x01020101000000004d000000000000007722648735eb82ccb8aeacbd27965d7ecd692c82f768385a80ac5a9744c11f46f43c77f3e7bbd817 ++
    List.replicate 8 0
def leafBlockBad : Bytes := leafBlock.set 55 0x18
def cLoad (b : Bytes) : Cmd := hb 0x0601 20 (2 + 4 * 256) b

theorem wit_KeysSweepAndOverlap_leaf :
    rdy .keyLoad (cLoad leafBlock) keyed ∧ rdy .keyLoad (cLoad leafBlockBad) keyed ∧
      testSlot 4 (inExec (cLoad leafBlock) keyed) = inExec (cLoad leafBlock) keyed ∧
      testSlot 4 (inExec (cLoad leafBlockBad) keyed) = inExec (cLoad leafBlockBad) keyed ∧
      checks (keyCases leafBlock 2 4 keyed) = stOk ∧ checks (keyCases leafBlockBad 2 4 keyed) = stOk := by
  refine ⟨by decide +kernel, by decide +kernel, if_pos (sealed_holds _ _), if_pos (sealed_holds _ _), by decide +kernel,
    by decide +kernel⟩
theorem wit_KeysSweepAndOverlap_unwrap :
    unwrapKw (wrapKey 2 4 leafBlock keyed) ((leafBlock.drop 16).take 40) = some leafKey := by decide +kernel
theorem wit_KeysSweepAndOverlap_unwrap_fails :
    unwrapKw (wrapKey 2 4 leafBlockBad keyed) ((leafBlockBad.drop 16).take 40) = none := by decide +kernel
theorem wit_KeysSweepAndOverlap_invalidate :
    rdy .keyInvalidate (h0 0x0602 4 0) keyed ∧ keysRise keyed.key.slots ∧ checkHolds keyed.mram.root (slotOf 4 keyed) = true ∧
      usable (slotOf 4 keyed) = true ∧ leavesOf 4 keyed = [9, 10] ∧ (slotOf 4 keyed).level = 1 ∧
      checkHolds keyed.mram.root (slotOf 12 keyed) = true ∧ usable (slotOf 12 keyed) = false := by
  refine ⟨by decide +kernel, by decide, sealed_holds _ _, by decide, by decide, by decide, by decide, by decide⟩
theorem wit_KeysSweepAndOverlap_rollover :
    let c := hb 0x0604 9 (10 + 2 ^ 30) (toLe 8 2000000000)
    rdy .keyRollover c keyed ∧ checkHolds keyed.mram.root (slotOf 9 keyed) = true ∧ checkHolds keyed.mram.root (slotOf 10 keyed) = true ∧
      (slotOf 9 keyed).st = .valid ∧ (slotOf 10 keyed).st = .valid ∧ (slotOf 9 keyed).alg = (slotOf 10 keyed).alg ∧
      (slotOf 9 keyed).level = 2 ∧ (slotOf 10 keyed).level = 2 ∧ bits (arg1 c.desc) 31 30 = 1 ∧ (tbOf 1 keyed).en = .on := by
  refine ⟨by decide +kernel, sealed_holds _ _, sealed_holds _ _, rfl, rfl, rfl, rfl, rfl, by decide, by decide⟩
theorem wit_KeysSweepAndOverlap_rollover_refused :
    rdy .keyRollover (hb 0x0604 12 10 (toLe 8 2000000000)) keyed ∧ (slotOf 12 keyed).st ≠ .valid ∧
      checkHolds keyed.mram.root (slotOf 12 keyed) = true ∧
      after (exec (.keySweep 2047) keyed) (fun t => lookD t.key.store 2 0 == 1) = true := by decide +kernel
theorem wit_KeysSweepAndOverlap_end :
    let s := onKey (fun k => { k with slots := [(9, { st := .rollOverlap, overlapEnd := 5, succ := 10, key := [1] })] }) live
    (slotOf 9 s).st = .rollOverlap ∧ (slotOf 9 s).overlapEnd ≤ s.clk.frc ∧ arbHeld s = false ∧
      after (exec (.overlapEnd 9) s) (fun t => (slotOf 9 t).st == .rolled && (slotOf 9 t).key.isEmpty && t.arb.osn == 41) = true := by
  decide +kernel

/-! ### Acquisition -/

/-- The block of recorder 1: one channel, 4 MiB, a trigger of `TYPE` 4 and one of `TYPE` 3 with tag 9. -/
def recBlock : Bytes :=
  wds ((List.range 81).map fun i =>
    if i = 0 then 1 else if i = 1 then 3 else if i = 2 then 4 else if i = 3 ∨ i = 4 then 1 else if i = 5 ∨ i = 6 then 2
    else if i = 7 then 4 else if i = 8 then 0x7000 else if i = 16 then 4 else if i = 20 then 3 + 16 else if i = 21 then 9
    else if i = 80 then 5 else 0)

/-- Recorder 1 as that block sets it. -/
def recB : Rec := recordAt recBlock
def withRec (x : Rec) : State :=
  onTim (fun t => { t with bases := [(0, tbOn 0)] }) (onAcq (fun a => { a with recs := [(1, x)] })
    { busy with pgk := { free := 2000, scrub := 0 } })
def waitingRec : Rec := { recB with en := .on, nextRow := 19 }

theorem wit_Recorders_commands :
    rdy .acqConfig (hb 0x0701 1 0 recBlock) (withRec {}) ∧ rdy .acqArm (h0 0x0702 1 0) (withRec recB) ∧
      rdy .acqDisarm (h0 0x0703 1 0) (withRec waitingRec) ∧ rdy .acqTrigger (h0 0x0704 1 0) (withRec waitingRec) ∧
      rdy .acqRelease (h0 0x0705 1 7) (exporting 128 7 64 0x40000) := by decide +kernel
theorem wit_Recorders_states :
    let s := withRec waitingRec
    (recOf 1 (withRec recB)).en = .off ∧ (recOf 1 s).en = .on ∧ (recOf 1 s).cap = .waiting ∧ (recOf 1 s).held = false ∧
      needBytes (recOf 1 s) ≤ (recOf 1 s).freeB ∧ (recOf 1 s).hist = [] ∧ arbHeld s = false ∧
      rdy .acqDisarm (h0 0x0703 1 0) (withRec { waitingRec with cap := .capturing }) ∧
      (storedRec 1 7 (exporting 128 7 64 0x40000)).isSome = true := by decide +kernel
theorem test_acq_trigger :
    run .acqTrigger (h0 0x0704 1 0) (withRec waitingRec) (fun t => (recOf 1 t).cap == .capturing &&
      (recOf 1 t).nextNum == 2 && (recOf 1 t).cur.map (fun r => (r.num, r.trigType, r.openOsn)) == some (1, 5, 41)) = true := by
  decide +kernel
theorem wit_Recorders_change :
    let ch : Change := { type := 4, src := 0, level := true, time := 4999000 * 65536, recs := some (1, 0) }
    let s := onAcq (fun a => { a with changes := [ch] }) (withRec waitingRec)
    s.acq.changes = ch :: [] ∧ (recOf 1 s).trigs[0]? = some { type := 4 } ∧
      after (exec .triggerLevelChange s) (fun t => (recOf 1 t).cur.map (fun r => (r.trigTime, r.trigEntry)) == some (ch.time, 0))
        = true := by decide +kernel
theorem wit_Recorders_goose :
    let h : Held := { frame := { body := .goose { stNum := 6 } }, info := { flow := 0xC0000009 } }
    let g : Held := { h with info := { flow := 0x80000009 } }
    let s := onSw (fun w => { w with se1 := [h] }) (withRec waitingRec)
    let u := onSw (fun w => { w with se1 := [g] }) (withRec waitingRec)
    s.sw.se1 = h :: [] ∧ bits h.info.flow.toNat 31 16 = 0xC000 ∧
      (s.acq.recs.any fun e => e.2.trigs.any (hasTag (h.info.flow.toNat % 65536))) = true ∧ bits g.info.flow.toNat 31 16 ≠ 0xC000 ∧
      after (exec .se1GooseRx s) (fun t => t.acq.stnums == [(9, 6)] && t.acq.noMatch == 0) = true ∧
      after (exec .se1GooseRx u) (fun t => t.acq.stnums.isEmpty && t.acq.noMatch == 1) = true := by decide +kernel
theorem wit_Recorders_goose_again_and_unmatched :
    let h : Held := { frame := { body := .goose { stNum := 6 } }, info := { flow := 0xC0000009 } }
    let g : Held := { h with info := { flow := 0xC0000008 } }
    let s := onAcq (fun a => { a with stnums := [(9, 6)] }) (onSw (fun w => { w with se1 := [h] }) (withRec waitingRec))
    let u := onSw (fun w => { w with se1 := [g] }) (withRec waitingRec)
    look s.acq.stnums 9 = some 6 ∧ (u.acq.recs.any fun e => e.2.trigs.any (hasTag (g.info.flow.toNat % 65536))) = false ∧
      after (exec .se1GooseRx s) (fun t => t.acq == s.acq) = true ∧
      after (exec .se1GooseRx u) (fun t => t.acq.stnums == [(8, 6)] && t.acq.noMatch == 1) = true := by decide +kernel
theorem wit_Recorders_release_while_exported :
    let x : Rec := { set := true, owner := 3, stored := [{ num := 7, data := [1], running := 1 }] }
    let s := onAcq (fun a => { a with recs := [(1, x)] }) busy
    rdy .acqRelease (h0 0x0705 1 7) s ∧ (storedRec 1 7 s).map isIdle = some false ∧
      run .acqRelease (h0 0x0705 1 7) s (fun t => (storedRec 1 7 t).isNone && (recOf 1 t).freeB == (recOf 1 s).freeB) = true := by
  decide +kernel
theorem wit_Recorders_rows :
    let s := withRec waitingRec
    let r : Record := { num := 7, jEnd := 3 }
    let u := withRec { waitingRec with cap := .closing, cur := some r, nextRow := 9 }
    rowReady (recOf 1 s) s = true ∧ (recOf 1 s).cur = none ∧ (recOf 1 u).cur = some r ∧ recDone (recOf 1 u) r u = true ∧
      after (exec (.rowForm 1) s) (fun t => (recOf 1 t).nextRow == 20 && (recOf 1 t).hist.length == 1) = true ∧
      after (exec (.recordStored 1) u) (fun t => (recOf 1 t).cap == .waiting && (recOf 1 t).lastStored == 7 &&
        (recOf 1 t).stored.length == 1) = true := by decide +kernel
theorem test_acq_ranges :
    recordRanges recBlock = true ∧ recordRanges (recBlock.set 12 0) = false ∧ recordRanges (recBlock.set 29 1) = false := by
  decide +kernel

/-! ### The logbook, integrity and observation -/

/-- A record that source 9 has raised. -/
def logR : LogRec := { code := 0x0501, src := 9, sev := 1 }
def logging : State := onLog (fun l => { l with reqs := [logR] }) live

theorem wit_LogbookKeepsRecords :
    rdy .logRead (ho 0x0901 0 1 64) live ∧ rdy .logNote (hb 0x0902 0 0 (List.replicate 48 0x41)) live ∧ live.log.reqs = [] ∧
      live.log.lostSince = 0 ∧ live.log.unfl + 3 ≤ Config.logBufMax ∧
      run .logNote (hb 0x0902 0 0 (List.replicate 48 0x41)) live (fun t => t.log.unfl == 3 && t.arb.osn == 41) = true := by
  decide +kernel
theorem wit_LogbookKeepsRecords_accept :
    (logging.log.reqs.find? fun x => x.src == 9) = some logR ∧ (logGrant logging).1 = [9] ∧ logging.log.unfl < Config.logBufMax ∧
      logging.log.lostSince = 0 ∧
      after (exec (.logbookRecord 9) logging) (fun t => t.log.reqs.isEmpty && t.log.unfl == 1 && t.log.newest == 1) = true ∧
      (let full := onLog (fun l => { l with unfl := Config.logBufMax }) logging
       Config.logBufMax ≤ full.log.unfl ∧
         after (exec (.logbookRecord 9) full) (fun t => t.log.lost == 1 && t.log.newest == 0) = true) := by decide +kernel
theorem wit_LogbookKeepsRecords_flush :
    let s := onLog (fun l => { l with buf := [logR], unfl := 1 }) { live with clk := { live.clk with now := 10000000000 } }
    let u := onLog (fun l => { l with flushing := true, newest := 5 }) s
    s.pow.vaux = true ∧ s.log.unfl ≠ 0 ∧ s.log.oldestAt + 10000000000 ≤ s.clk.now ∧ u.log.flushing = true ∧ u.log.unfl ≠ 0 ∧
      ((s.mram.opsec + 1) % 2 ^ 32) % 60 ≠ 0 ∧
      after (exec .flushTimer s) (fun t => t.log.flushing) = true ∧
      after (exec .flushComplete u) (fun t => t.log.mram == [logR] && t.log.flushed == 5 && t.mram.newest == 5) = true := by
  decide +kernel

theorem wit_MemoryIntegrity :
    let s := { live with
      ecc := { live.ecc with mems := [(3, { level := 15 })] }
      mram := { live.mram with opsec := 60 }
      clk := { live.clk with now := 2000000000 } }
    (eccOf 3 s).thresh ≤ (eccOf 3 s).level + 1 ∧ (eccOf 4 s).level + 1 < (eccOf 4 s).thresh ∧ (eccOf 3 s).late = false ∧
      noReader 3 7 s = false ∧ arbHeld s = false ∧ leakDue s = true ∧ leakDue live = false ∧ scrubStopped 3 s = false ∧
      lapOver 3 s = true ∧ lapOver 0 s = false ∧ lapEnds 3 2000 s = true ∧ lapEnds 3 3000 s = false ∧
      rdy .eccBucket (h0 0x0903 3 5) s ∧ rdy .eccQuery (ho 0x0904 3 0 32) s ∧
      after (exec (.correctableError 3 7) s) (fun t => (eccOf 3 t).level == 0 && (eccOf 3 t).ovf == 1 && t.ecc.evt.getLsbD 3)
        = true ∧
      after (exec .bucketLeak s) (fun t => (eccOf 3 t).level == 14) = true ∧
      after (exec (.scrubLapEnd 3 2000) s) (fun t => (eccOf 3 t).lapMs == 2000 && (eccOf 3 t).lap == 1) = true ∧
      after (exec (.scrubLapLate 3) s) (fun t => (eccOf 3 t).late && t.arb.osn == 41) = true := by decide +kernel
theorem wit_MemoryIntegrity_key :
    let s := onKey (fun k => { k with slots := [(9, { st := .valid })] }) live
    (slotOf (bits (9 : BitVec 64).toNat 10 0) s).st = .valid ∧
      after (exec (.uncorrectableError 7 9) s) (fun t => (slotOf 9 t).st == .bad && t.ecc.evt.getLsbD 23) = true := by
  decide +kernel

/-- Entry 2 of the sensor list. -/
def poll2 : Poll := { addr := 0x48, reg := 1, len := 1, speed := 0, period := 10 }
def tr1 : TrRec := { type := 1 }
def observing (o : Obs) : State := { live with obs := o, hw := { live.hw with polls := [(2, poll2)] } }

theorem wit_ObservationTakesEffect_commands :
    rdy .obsTrace (hb 0x0B01 0 0 (wds [3, 2, 1, 256])) live ∧ rdy .obsSnapshot (ho 0x0B02 0x10000 0 4096) live ∧
      (argBank (ho 0x0B02 0x10000 0 4096) live).isSome = true ∧
      rdy .snsConfig (hb 0x0B03 0 0 ([0x48, 1, 2, 0, 10, 0, 0, 0] ++ List.replicate 120 0)) live ∧
      rdy .snsRead (ho 0x0B04 0 0 128) live := by decide +kernel
theorem wit_ObservationTakesEffect_rows :
    let s := observing { lanes := 1, ready := [tr1], queues := [(0, [tr1])] }
    let u := observing { lanes := 1, ready := [tr1], queues := [(0, List.replicate 1024 tr1)] }
    look s.hw.polls 2 = some poll2 ∧ s.rst.phase = .started ∧ pollDue poll2 s = true ∧ s.obs.ready = tr1 :: [] ∧
      leastLane s (lanesOf s.obs.lanes) = some 0 ∧ (laneQueue 0 s).length < 1024 ∧ 1024 ≤ (laneQueue 0 u).length ∧
      leastLane u (lanesOf u.obs.lanes) = some 0 ∧ laneQueue 0 s = tr1 :: [] ∧ tbit s.obs.lanes 0 = true ∧ s.pow.sdclk = true ∧
      after (exec (.sensorPoll 2 true 0x1234) s) (fun t => (look t.hw.polls 2).map (fun p => p.value) == some 0x34) = true ∧
      after (exec .traceRecord u) (fun t => t.obs.dropped == 1) = true ∧
      after (exec (.traceUnit 0) s) (fun t => t.obs.lseq == [(0, 1)] && t.obs.sent.length == 1) = true := by decide +kernel
theorem wit_ObservationTakesEffect_clear :
    let s := onRst (fun r => { r with pcieAt := some 0 }) (observing { dropped := 9 })
    (0xFFFF0000 : Word).toNat / 65536 = 65535 ∧ (0x0000FFFF : Word).toNat / 65536 ≠ 65535 ∧ s.rst.pcieAt ≠ none ∧
      after (exec (.obsStatClear 0xFFFF0000) s) (fun t => t.obs.dropped == 0) = true := by decide

/-! ### The Graft pair -/

/-- An ACTIVE and a STANDBY of a pair. -/
def gActive : State := onGft (fun g => { g with
  role := .active, phase := .active, driving := true, line := false, lanes := [0, 1], watching := true }) busy
def gStandby : State := onGft (fun g => { g with
  role := .standby, phase := .shadowing, line := false, lanes := [0], watching := true }) busy

theorem wit_GraftCommandsAndLink_commands :
    rdy .gftUnpair (h0 0x0802 0 0) gActive ∧ rdy .gftStatus (ho 0x0805 0 0 64) gActive ∧
      run .gftUnpair (h0 0x0802 0 0) gActive (fun t => t.gft.phase == .unpaired && t.gft.role == .active) = true := by
  decide +kernel
theorem wit_GraftCommandsAndLink_at_tick :
    let c := hb 0x0803 3 0 (wds [0])
    let d := h0 0x0804 0 0
    let s := onHw (fun h => { h with tWait := some (c, 5) }) gActive
    let u := onHw (fun h => { h with tWait := some (d, 5) }) gActive
    s.hw.tWait = some (c, 5) ∧ 5 + 20000 ≤ s.clk.now ∧ opOf c.desc = 0x0803 ∧ argPart c = 3 ∧ (look s.cnp.parts 3).isSome = true ∧
      u.hw.tWait = some (d, 5) ∧ opOf d.desc = 0x0804 ∧ activePaired u = true ∧ u.gft.resignAt = none ∧
      regionList c.block = [] ∧ gateOpen (tickCommand u) = false ∧ (tickCommand u).gft.switchDue = true := by decide +kernel
theorem wit_GraftCommandsAndLink_lanes :
    0 ∈ gActive.gft.lanes ∧ 1 ∉ gStandby.gft.lanes ∧ coldHeld gActive = false ∧
      (0 : Word) = BitVec.ofNat 32 (lookD gActive.gft.laneRx 0 0) ∧ (3 : Word) ≠ BitVec.ofNat 32 (lookD gActive.gft.laneRx 0 0) ∧
      after (exec (.hello 0 0 (some 77)) gActive) (fun t => t.gft.helloOsn == 77 && t.gft.laneRx == [(0, 1)]) = true ∧
      after (exec (.hello 0 3 (some 77)) gActive) (fun t => t.gft.helloOsn == 0) = true ∧
      after (exec (.hello 0 0 none) gActive) (fun t => t.gft.helloOsn == 0 && lookD t.gft.cnt 11 0 == 1) = true ∧
      after (exec (.graftLaneUp 1) gStandby) (fun t => t.gft.lanes == [0, 1]) = true := by decide +kernel
theorem wit_GraftCommandsAndLink_cold :
    coldHeld (onRst (fun r => { r with reach := some .cold, phase := .held }) gStandby) = true := by decide
theorem wit_GraftCommandsAndLink_ack_and_loss :
    let s := onGft (fun g => { g with queue := [(9, 100)] }) gActive
    let a : OnLink AckInfo := { body := { mark := some 9, shadowing := true, sound := true } }
    linkReady a.link s ∧ s.gft.queue = (9, 100) :: [] ∧ (9 : Nat) = 9 % 2 ^ 48 ∧ linkReady a.link gStandby ∧
      gStandby.gft.txWait = [] ∧ gStandby.gft.rxSince + 1 < 16 ∧
      s.gft.watching = true ∧ s.gft.lastRx + 20000 ≤ s.clk.now ∧ gStandby.gft.watching = true ∧ live.gft.watching = false ∧
      after (exec (.ack 0 0 a) s) (fun t => t.gft.queue.isEmpty && t.gft.partnerOk) = true ∧
      after (exec .partnerLost gStandby) (fun t => t.gft.phase == .detached) = true := by decide +kernel

theorem wit_GraftInterlock :
    let s := onGft (fun g => { g with resignAt := some 5 }) gActive
    let w := onGft (fun g => { g with resignAt := some 5, switchDue := true }) gActive
    gStandby.gft.claimAt = none ∧ gStandby.gft.lanes ≠ [] ∧ coldHeld gStandby = false ∧ s.gft.resignAt = some 5 ∧
      s.gft.switchDue = false ∧ s.gft.lanes ≠ [] ∧ w.gft.switchDue = true ∧ 5 + 2000 ≤ s.clk.now ∧ live.gft.lanes = [] ∧
      after (exec .resign gStandby) (fun t => t.gft.role == .active && decide (2 ^ 24 ≤ t.arb.osn + 1)) = true ∧
      after (exec .taken s) (fun t => t.gft.role == .idle && !gateOpen t) = true ∧
      after (exec .taken w) (fun t => t.gft.role == .standby) = true := by decide +kernel
theorem wit_GraftInterlock_claim :
    let u := onGft (fun g => { g with role := .idle, phase := .unpaired }) live
    let w := onGft (fun g => { g with lineSince := 9999900 }) u
    let v := onGft (fun g => { g with claimAt := some 5, driving := true, line := false }) u
    let x := onGft (fun g => { g with claimAt := some 5, driving := true }) gStandby
    u.rst.phase = .started ∧ u.boot.seedling = false ∧ u.gft.driving = false ∧ u.gft.claimAt = none ∧ waited u = true ∧
      w.gft.line = true ∧ w.gft.lineSince ≠ 0 ∧ w.clk.now < w.gft.lineSince + claimWait w.gft ∧
      v.gft.claimAt = some 5 ∧ 5 + 200 ≤ v.clk.now ∧ x.gft.claimAt = some 5 ∧ x.gft.role = .standby ∧
      after (exec (.claimConfirmation true) v) (fun t => t.gft.role == .active) = true ∧
      after (exec (.claimConfirmation true) x) (fun t => t.gft.role == .active && t.gft.phase == .unpaired) = true ∧
      after (exec (.claimConfirmation false) v) (fun t => t.gft.role == .idle && !t.gft.driving) = true := by decide +kernel
theorem wit_GraftInterlock_lapse :
    let s := onCnp (fun g => { g with tickStart := 4500000, tickEnd := 4750000, tickFrc := 4746000 }) gActive
    s.gft.role = .active ∧ s.gft.driving = true ∧ s.rst.phase = .started ∧
      s.cnp.tickFrc + (s.cnp.tickEnd - s.cnp.tickStart) + 4000 ≤ s.clk.frc ∧
      after (exec .keepaliveLapse (onCnp (fun g => { g with tickFrc := 4746001 }) s)) (fun t => t.gft.role == .active) = true ∧
      after (exec .keepaliveLapse s) (fun t => t.gft.role == .idle) = true := by decide +kernel

/-- Forwarded commands: one that fails on the standby, and one that is done. -/
def fwdBad : Cmd := hb 0x0332 64 0 (wds [8, 1, 2, 3, 4])
def fwdGood : Cmd := hb 0x0332 3 0 (wds [8, 1, 2, 3, 4])

theorem wit_GraftFrames_discarded :
    linkUp { lseq := 5 } gActive ∧ nextOnLane { lseq := 5 } gActive = false ∧ linkUp { crcOk := false } gActive ∧
      nextOnLane { crcOk := false } gActive = false := by decide
theorem wit_GraftFrames_cmd :
    let a : OnLink FwdCmd := { body := { cmd := fwdBad } }
    let b : OnLink FwdCmd := { body := { cmd := fwdGood } }
    linkReady a.link gStandby ∧ gStandby.gft.role = .standby ∧ gStandby.gft.phase = .shadowing ∧ forwards fwdBad = true ∧
      forwards fwdGood = true ∧ gStandby.gft.acks = [] ∧ gStandby.gft.line = false ∧
      judgeCmd { fwdBad with ring := ringFwd } (tookFrame 0 gStandby) = some stBadArg ∧
      judgeCmd { fwdGood with ring := ringFwd } (tookFrame 0 gStandby) = some stOk ∧ b.body.status = stOk ∧
      after (exec (.cmd a) gStandby) (fun t => t.gft.phase == .detached) = true ∧
      after (exec (.cmd { body := { cmd := fwdBad, status := stBadArg } }) gStandby) (fun t => t.gft.phase == .shadowing) = true ∧
      after (exec (.cmd b) gStandby) (fun t => t.flt.coeff == [(3, [1, 2, 3, 4])]) = true := by decide +kernel
theorem test_forwarded_command_runs_once :
    let s := onGft (fun g => { g with acks := [(fwdGood.ring, genField fwdGood.desc, fwdGood.desc.w1, 0)] }) gStandby
    after (exec (.cmd { body := { cmd := fwdGood } }) s) (fun t => t.flt.coeff.isEmpty && t.gft.acks.length == 1) = true := by
  decide +kernel
theorem wit_GraftFrames_cmdack :
    let c : Cmd := { fwdGood with desc := { fwdGood.desc with w0 := 0x01000332 } }
    let e : JRec := { ring := 2049, seq := 0, stage := .started, desc := c.desc }
    let f : Fwd := { cmd := c, status := stOk, result := none }
    let s := onGft (fun g => { g with waitAck := [f] }) (withOp e gActive)
    linkReady {} s ∧ (s.gft.waitAck.find? fun f => f.cmd.ring == 2049 && f.cmd.desc.w1 == 0) = some f ∧
      findEntry 2049 (genOf 2049 s) 0 s = some e ∧ genField f.cmd.desc = genOf 2049 s ∧ e.stage ≠ .finished ∧
      e.replayed = false ∧
      after (exec (.cmdack 2049 0 { body := stOk }) s) (fun t => t.gft.waitAck.isEmpty && t.gft.evt == 0 &&
        (entryOf 2049 0 t).map (fun e => e.stage) == some .finished) = true ∧
      after (exec (.cmdack 2049 0 { body := stBadArg }) s) (fun t => t.gft.evt.getLsbD 4) = true := by decide +kernel
theorem wit_GraftFrames_log :
    let l : OnLink LogInfo := { body := { part := 3, ring := 24, seq := 4 } }
    linkReady l.link gStandby ∧ standbyLive gStandby = true ∧ logKnown l.body gStandby = false ∧
      (gStandby.gft.held.filter fun h => h.ring == l.body.ring && h.seq == l.body.seq) = [] ∧
      (let s := onGft (fun g => { g with logs := [(0, l.body)] }) gStandby
       logKnown l.body s = true ∧ standbyLive s = true) ∧
      after (exec (.log l) gStandby) (fun t => t.gft.logs.length == 1) = true := by decide +kernel

/-- A held SEND of the shadow, and the LOG that matches it. -/
def heldSend : HeldOp := { ring := 24, seq := 2, payload := .frame frameS }
def opS : JRec := { o24 1 0 0 60 0x40000 with stage := .started }
def logS : LogInfo := { part := 3, ring := 24, seq := 2, crc := opCrc opS.desc (some heldSend.payload) }
def shadowing : State := onGft (fun g => { g with held := [heldSend] }) (withB 1 opS [] gStandby)

theorem wit_GraftFrames_log_of_held :
    (shadowing.gft.held.filter fun h => h.ring == logS.ring && h.seq == logS.seq) = [heldSend] ∧ logKnown logS shadowing = false ∧
      (shadowing.gft.logs.find? fun x => x.2.ring == heldSend.ring && x.2.seq == heldSend.seq) = none ∧
      findEntry 24 (genOf 24 shadowing) 2 shadowing = some opS ∧
      shadowing.rng.orphans.any (isEntry 24 (genOf 24 shadowing) 2) = false ∧ opS.replayed = false ∧ opS.stage ≠ .finished ∧
      bindingOf 24 shadowing = 1 ∧ standbyLive shadowing = true ∧ opCrc opS.desc (some heldSend.payload) = logS.crc :=
  ⟨by decide, rfl, by decide, by decide, by decide, by decide, by decide, by decide, by decide, rfl⟩
theorem wit_GraftFrames_mirror_and_sync :
    let f : MirrorFrame := .ringMark []
    let s := onGft (fun g => { g with mirror := [(pageKey 3 64, [])] }) gStandby
    linkReady { mark := 9 } gStandby ∧ standbyLive gStandby = true ∧ notCommitted 9 gStandby = true ∧ gStandby.gft.commits = [] ∧
      (9 % 2 ^ 48, f) ∉ gStandby.gft.staged ∧ syncKnown (pageKey 3 64) 9 gStandby = false ∧
      syncKnown (pageKey 3 64) 9 s = false ∧ (look s.gft.mirror (pageKey 3 64)).isSome = true ∧
      after (exec (.mirrorFrame { mark := 9 } f) gStandby) (fun t => t.gft.staged == [(9, f)]) = true ∧
      after (exec (.sync 3 0x40000 [] { mark := 9 }) gStandby) (fun t => t.gft.phase == .shadowing) = true ∧
      after (exec (.sync 3 0x40000 [] { mark := 9 }) s) (fun t => t.gft.phase == .syncing) = true := by decide +kernel
theorem wit_GraftFrames_commit :
    let c : CommitInfo := { mark := 9, crc := BitVec.ofNat 64 (recordCrc []) }
    let d : CommitInfo := { mark := 9, count := 1 }
    let s := onGft (fun g => { g with phase := .syncing }) gStandby
    linkReady { mark := 9 } gStandby ∧ standbyLive gStandby = true ∧ gStandby.gft.commits = [] ∧ notCommitted 9 gStandby = true ∧
      c.count = 0 ∧ stagedOf c.mark gStandby = [] ∧ c.crc.toNat = recordCrc [] ∧
      (∀ e ∈ mirrored gStandby, e.2.current = false) ∧ (stagedOf d.mark gStandby).length ≠ d.count ∧ s.gft.phase = .syncing ∧
      after (exec (.commit { mark := 9 } c) gStandby) (fun t => lookD t.gft.cnt 0 0 == 1) = true ∧
      after (exec (.commit { mark := 9 } c) s) (fun t => t.gft.phase == .shadowing) = true ∧
      after (exec (.commit { mark := 9 } d) gStandby) (fun t => t.gft.commits == [d]) = true := by decide +kernel
theorem wit_GraftFrames_pair :
    let s := onGft (fun g => { g with role := .idle, phase := .unpaired, lanes := [0] }) live
    linkReady {} s ∧ isPaired s = false ∧ s.gft.role ≠ .standalone ∧ isPaired gStandby = true ∧ gStandby.gft.lanes ≠ [] ∧
      coldHeld gStandby = false ∧
      after (exec .unpair gStandby) (fun t => t.gft.role == .idle) = true := by decide +kernel

/-! ### Supplies, resets and the start -/

theorem wit_SuppliesAndReferences_vaux :
    State.reset.pow.vaux = false ∧ bestCopy State.reset.mram = some {} ∧ live.pow.vaux = true ∧
      after (exec .vauxRise State.reset) (fun t => t.mram.pcyc == 1 && t.log.buf.length == 1) = true ∧
      after (exec .vauxFault live) (fun t => !t.pow.vaux && t.rng.rings.isEmpty) = true := by decide +kernel
theorem wit_SuppliesAndReferences_rails :
    let s := onPow (fun p => { p with rails := railOrder.take 2, risen := true }) live
    railsAhead .vsram s = true ∧ railsAhead .vcore s = false ∧
      .vio33 ∈ s.pow.rails ∧ s.rst.loadFail = false ∧ allGood live = true ∧ live.rst.resetN = true ∧
      live.pow.refclk = true ∧ live.pow.trip = false ∧ live.pow.lastGood + 2000000 ≤ live.clk.now ∧
      after (exec (.railGood .vsram) s) (fun t => t.pow.rails == railOrder.take 3) = true ∧
      (let u := onPow (fun p => { p with vaux := false }) s
       u.pow.vaux = false ∧ .vio33 ∈ u.pow.rails) := by decide +kernel
theorem wit_SuppliesAndReferences_references :
    let s := onPow (fun p => { p with refclk := false, ssdNow := 2640 }) live
    let u := onPow (fun p => { p with refclk := false, refAt := 9000000 }) live
    s.pow.refclk = false ∧ s.pow.refAt + 10000000 ≤ s.clk.now ∧ u.clk.now < u.pow.refAt + 10000000 ∧
      s.pow.trip = false ∧ atLeast s.pow.ssdNow 2640 = true ∧ atLeast 2639 2640 = false ∧
      after (exec .refclkReturn s) (fun t => t.pow.refclk) = true ∧
      s.rst.loadFail = false ∧ live.rst.reach ≠ some .cold ∧
      after (exec .refclkLoss live) (fun t => t.rst.cause.getLsbD 1 && t.log.flushing) = true ∧
      after (exec .temperatureTrip s) (fun t => t.pow.trip && t.rst.cause.getLsbD 2) = true ∧
      after (exec (.tjConversion 2400 5) live) (fun t => t.pow.alm) = true ∧
      after (exec (.pfailN 1000) live) (fun t => t.log.flushing) = true := by decide +kernel

theorem wit_ResetSources_pins :
    let s := onRst (fun r => { r with resetN := false, wrstN := false, sources := [(.resetN, none), (.wrstN, none)] }) live
    live.rst.resetN = true ∧ live.rst.loadFail = false ∧ s.rst.resetN = false ∧ s.rst.wrstN = false ∧
      live.rst.wrstN = true ∧ live.rst.phase = .started ∧
      after (exec (.resetN false 1000) live) (fun t => t.rst.reach == some .cold && t.rst.cause.getLsbD 3) = true ∧
      after (exec (.wrstN false 1000) live) (fun t => t.rst.reach == some .warm && t.rst.cause.getLsbD 6) = true ∧
      after (exec (.resetN true 1000) s) (fun t => t.rst.sources == [(.wrstN, none)]) = true ∧
      pllLocked live = true ∧ live.rst.pcieAt = none ∧
      after (exec (.perstN true) live) (fun t => t.rst.pcieAt == some 10000000) = true := by decide +kernel
theorem wit_ResetSources_timers :
    let s := { live with clk := { live.clk with now := 5000000000 } }
    s.boot.timerOn = true ∧ s.boot.done = false ∧ s.boot.startAt + 5000000000 ≤ s.clk.now ∧
      after (exec .bootTimerExpiry s) (fun t => t.mram.fails == 1 && t.rst.cause.getLsbD 4) = true ∧
      after (exec .watchdogExpiry s) (fun t => t.rst.sources == [(.wdog, some 5000001000)]) = true := by decide +kernel
theorem wit_ResetSources_release :
    let s := onRst (fun r => { r with phase := .held, reach := some .cold }) live
    let u := onRst (fun r => { r with phase := .held, reach := some .warm }) live
    s.rst.strapInvalid = false ∧ s.rst.needAll = false ∧ ((liveSources s).all fun x => sourceReach x.1 == .warm) = true ∧ liveSources u = [] ∧
      (let v := onRst (fun r => { r with needAll := true, sources := [(.wrstN, none)] }) s
       liveSources v ≠ [] ∧ after (exec .resetRelease v) (fun t => t.rst.phase == .held) = true) ∧
      after (exec .resetRelease s) (fun t => t.rst.phase == .trim && t.mram.session == 1) = true ∧
      after (exec .resetRelease u) (fun t => t.rst.phase == .warmHold) = true := by decide +kernel

/-- The module in a phase of its release, 10 ms after VAUX rose. -/
def releasing (p : Phase) : State := onRst (fun r => { r with phase := p, reach := some .cold, phaseAt := 0 }) live
theorem wit_ReleaseAndStart_trim_and_straps :
    (releasing .trim).rst.phaseAt + 492000 ≤ (releasing .trim).clk.now ∧ (releasing .trim).rst.trimAborts < 3 ∧
      (releasing .strap).rst.phaseAt + 36000 ≤ (releasing .strap).clk.now ∧
      strapBinOf (List.replicate 16 7) = some 1 ∧ strapBinOf (7 :: List.replicate 15 8) = none ∧
      strapBinOf (List.replicate 16 63) = some 15 ∧ (releasing .strap).rst.strapTries < 3 ∧
      trimMatches [] 5 = false ∧
      liveSources (releasing .trim) = [] ∧
      (let v := onRst (fun r => { r with sources := [(.wrstN, none)] }) (releasing .trim)
       liveSources v ≠ [] ∧ after (exec (.trimLoadEnd [] 5) v) (fun t => t.rst.phase == .held && t.rst.needAll) = true) ∧
      after (exec (.trimLoadEnd [] 5) (releasing .trim)) (fun t => t.rst.trimAborts == 1 && t.rst.phase == .trim) = true ∧
      after (exec (.trimLoadEnd [] 5) (onRst (fun r => { r with trimAborts := 3 }) (releasing .trim)))
        (fun t => t.rst.loadFail) = true ∧
      after (exec (.strapMeasurementEnd (List.replicate 16 7)) (releasing .strap)) (fun t => t.rst.strapBin == 1) = true ∧
      after (exec (.strapMeasurementEnd (List.replicate 16 63)) (releasing .strap)) (fun t => t.rst.strapInvalid) = true := by
  decide +kernel
theorem trimMatches_of_length {w : List Word} (h : w.length = 6144) :
    trimMatches w (BitVec.ofNat 32 (crc32 (w.flatMap fun x => toLe 4 x.toNat))) = true := by
  simp only [trimMatches, h, BitVec.toNat_ofNat, Nat.mod_eq_of_lt (crc32_lt _), beq_self_eq_true, Bool.and_true]

/-- A fuse array of which every word is 0. -/
theorem wit_ReleaseAndStart_trim_passes : ∃ w crc, trimMatches w crc = true :=
  ⟨_, _, trimMatches_of_length (List.length_replicate (a := (0 : Word)))⟩
theorem wit_ReleaseAndStart_clocks_and_start :
    let s := onRst (fun r => { r with phase := .warmHold, reach := none }) live
    (releasing .pll).rst.phaseAt ≤ (releasing .pll).clk.now ∧ mayHeartwood s = true ∧ s.mram.fails < 3 ∧
      s.rst.strapBin ≠ 0 ∧ strapSources s.rst.strapBin = [0, 1] ∧
      after (exec .pllLock (releasing .pll)) (fun t => t.clk.frcOn && t.clk.frc == 0) = true ∧
      after (exec (.lanesTrained [3]) (releasing .lanes)) (fun t => t.ecc.exhausted) = true ∧
      after (exec .heartwoodStart s) (fun t => t.rst.phase == .started && t.boot.sources == [0, 1] && t.boot.timerOn) = true := by
  decide +kernel

theorem wit_ReleaseAndStart_images :
    let s := onBoot (fun b => { b with running := false, sources := [0, 1], hostOpen := false })
      (onCnp (fun g => { g with parts := [] }) (fused live))
    s.boot.running = false ∧ s.boot.seedling = false ∧ slotPasses 0 goodImage s = true ∧
      s.boot.readAt + readTime 0 goodImage s ≤ s.clk.now ∧ slotPasses 0 {} s = false ∧
      s.boot.readAt + readTime 0 {} s ≤ s.clk.now ∧ ({ answers := false } : ImageSeen).answers = false ∧
      after (exec (.imageSourceDone {}) s) (fun t => t.boot.sources == [1]) = true := by decide +kernel
theorem wit_ReleaseAndStart_host_window :
    let u := onRst (fun r => { r with strapBin := 10 }) (onBoot (fun b => { b with hostOpen := true, sources := [2, 0] })
      { live with clk := { live.clk with now := 2000000000 } })
    strapImage u.rst.strapBin = 3 ∧ hostStarting u = false ∧ u.boot.startAt + 2000000000 ≤ u.clk.now ∧
      u.boot.sources.tail ≠ [] ∧
      after (exec .hostWindowExpiry u) (fun t => t.boot.sources == [0]) = true := by decide +kernel

theorem wit_StartCommandsAndSeedling_commands :
    let s := inExec (h0 0x0130 1 0) live
    rdy .moduleReset (h0 0x0130 1 0) live ∧ earlierFinished (h0 0x0130 1 0) s = true ∧ s.rst.reach = none ∧
      activePaired s = false ∧ rdy .moduleReset (h0 0x0130 2 0) live ∧ rdy .bootComplete (h0 0x0131 0 0) live ∧
      arbHeld live = false ∧
      run .bootComplete (h0 0x0131 0 0) live (fun t => t.boot.done && t.arb.osn == 41) = true := by decide +kernel
theorem wit_StartCommandsAndSeedling_host_load :
    let s := onBoot (fun b => { b with hostOpen := true, running := false, sources := [2] }) live
    rdy .imgHostLoad (hb 0x0913 0 256 [1, 2, 3, 4]) s := by decide +kernel

/-- Seedling, and a request to it for the opcode 0920h. -/
def seedling : State :=
  onPrt (fun g => { g with ports := [(0, port5)] })
    (onBoot (fun b => { b with seedling := true, running := false, timerOn := false }) live)
def seedQ : SeedReq := { serial := serialNat, xid := 5, desc := { w0 := 0x01000920 } }
def seedF : Frame := { da := Config.mac0.toNat, sa := 6, etype := 0x88B5 }
theorem wit_StartCommandsAndSeedling_exit :
    let c := seedCmd { seedQ with serial := 0 }
    ready (.seedlingExit c) c (inExec c seedling) ∧ earlierFinished c seedling = true ∧ activePaired seedling = false := by
  decide +kernel
theorem wit_StartCommandsAndSeedling_request : seedAccepts seedF seedQ = true := by
  simp [seedAccepts, seedF, seedQ]
theorem wit_StartCommandsAndSeedling_frames :
    let s := onBoot (fun b => { b with seedXid := some 5, seedAt := 10000000 }) seedling
    seedling.rst.phase = .started ∧ seedling.boot.seedling = true ∧ seedBusy seedling = false ∧
      portUp 0 seedling = true ∧ judgeCmd (seedCmd { seedQ with serial := 0 }) seedling = some stOk ∧
      flagsOf seedQ.desc / 4 = 0 ∧ iovaOf seedQ.desc = 0 ∧ opOf seedQ.desc = 0x0920 ∧
      seedRetry { seedQ with serial := 0 } seedling = false ∧ seedRetry { seedQ with serial := 0 } s = true ∧
      seedling.hw.exec = none ∧ genField ({ seedQ with serial := 0 } : SeedReq).desc = 1 ∧
      seedling.boot.startAt + seedling.boot.announces * 1000000000 ≤ seedling.clk.now := by decide +kernel

/-! ### Registers, the end of STOPPING, the state after reset -/

theorem wit_RegisterWrites :
    let v := onRst (fun r => { r with pcieAt := some 0 }) live
    let s := onRng (fun g => { g with evt := 0x1F }) v
    live.rst.pcieAt = none ∧ s.rst.pcieAt ≠ none ∧ s.sets = [] ∧ (1 : Word).getLsbD 0 = true ∧ (2 : Word).getLsbD 0 = false ∧ p0Exists s = true ∧
      after (exec (.registerWrite 0x0404 4 5) s) (fun t => t.rng.evt == 0x1A) = true ∧
      after (exec (.registerWrite 0x0404 2 5) s) (fun t => t.rng.evt == 0x1F) = true ∧
      after (exec (.registerWrite 0x1910 4 7) s) (fun t => t.log.sel == 7) = true ∧
      after (exec (.registerWrite 0x0100 4 1) v) (fun t => t.rst.cause == 0x200) = true ∧
      after (exec (.registerWrite 0x0100 4 1) { v with sets := [(0x0100, 0)] }) (fun t => t.rst.cause == 0x201) = true ∧
      after (exec (.cfgLock 2) live) (fun t => !t.rst.cfgLock) = true ∧
      after (exec (.cfgLock 1) (onRst (fun r => { r with phase := .held }) live)) (fun t => !t.rst.cfgLock) = true := by decide +kernel
theorem wit_RegisterWrites_mirror :
    let s := onCnp (fun g => { g with passed := [.mirror 0x0404 {}, .mirror 0x0404 { write := some 3 }, .mirror 0x0404 { width := 2 }] })
      (onRng (fun g => { g with evt := 7 }) live)
    .mirror 0x0404 {} ∈ s.cnp.passed ∧ .mirror 0x0404 { write := some 3 } ∈ s.cnp.passed ∧
      .mirror 0x0404 { width := 2 } ∈ s.cnp.passed ∧ p0Exists s = true ∧
      after (exec (.p0MirrorAccess 0x0404 {}) s) (fun t => t.cnp.lastMirror == 7) = true ∧
      after (exec (.p0MirrorAccess 0x0404 { width := 2 }) s) (fun t => t.cnp.lastMirror == 0) = true ∧
      after (exec (.p0MirrorAccess 0x0404 { write := some 3 }) s) (fun t => t.rng.evt == 4) = true := by decide +kernel

theorem wit_StoppingEnds :
    let p := withRing { ring24 with st := .off } (withPart { part3 with en := .stopping, lastTick := true } live)
    let r := withRing { ring24 with st := .stopping } live
    let x := withStrm { strm5 with en := .stopping }
    arbHeld p = false ∧ partStops 3 p = true ∧ ringStops 24 r = true ∧ streamStops 5 x = true ∧
      ringStops 24 (withRing { ring24 with st := .stopping, held := true } live) = true ∧
      pubStops 2 (onGse (fun g => { g with pubs := [(2, { pub24 with en := .stopping })] }) live) = true ∧
      portStops 5 (withPort { port5 with en := .stopping } live) = true ∧
      tbStops 1 { withTb { tbOn 0 with en := .stopping } live with clk := { live.clk with frc := 1500000000 } } = true ∧
      recStops 1 (withRec { recB with en := .stopping }) = true ∧
      outStops 1 (onOut (fun o => { o with chans := [(1, { pwm with en := .stopping })] }) live) = true ∧
      binStops 4 (withBin { bin4 with en := .stopping, runOpen := false } live) = true ∧
      after (exec (.stoppingEnd 1 3) p) (fun t => t.arb.osn == 41) = true := by decide +kernel
theorem wit_ResetStateAndIdle : State.reset.pending = [] ∧ after (step live) (fun t => t.clk.now == 10000001 && t.clk.frc == 5000001) = true := by
  decide +kernel
theorem wit_ObservationTakesEffect_ident : rdy .obsIdent (ho 0x0B05 0 0 64) live := by decide +kernel

/-! ### The check values of R559, over the ASCII bytes "123456789" -/

/-- The bytes "123456789". -/
def digits : Bytes := [0x31, 0x32, 0x33, 0x34, 0x35, 0x36, 0x37, 0x38, 0x39]

theorem test_crc64_check_value : crc64 digits = 0x6C40DF5F0B497347 := by decide +kernel
theorem test_crc32c_check_value : crc32c digits = 0xE3069283 := by decide +kernel
theorem test_crc32_check_value : crc32 digits = 0xCBF43926 := by decide +kernel

/-! ### Known answers of the standards that the spec names -/

/-- FIPS 197, Appendix C.3. -/
theorem test_aes256_block :
    aes (toBe 32 0x000102030405060708090a0b0c0d0e0f101112131415161718191a1b1c1d1e1f)
      (toBe 16 0x00112233445566778899aabbccddeeff) = toBe 16 0x8ea2b7ca516745bfeafc49904b496089 := by decide +kernel
/-- SP 800-38B, Appendix D.3, example 9: the empty message. -/
theorem test_cmac_of_nothing :
    cmac (toBe 32 0x603deb1015ca71be2b73aef0857d77811f352c073b6108d72d9810a30914dff4) [] =
      toBe 16 0x028962f61b7bf89efc6b551f4667d983 := by decide +kernel
/-- The first test case of the GCM specification: no data under the zero key. -/
theorem test_gcm_of_nothing :
    gcmSeal (List.replicate 16 0) (List.replicate 12 0) [] [] = toBe 16 0x58e2fccefa7e3061367f1d57a4e7455a := by
  decide +kernel
/-- FIPS 180-4: the message "abc". -/
theorem test_sha256_abc :
    sha256 (toBe 3 0x616263) = toBe 32 0xba7816bf8f01cfea414140de5dae2223b00361a396177a9cb410ff61f20015ad := by
  decide +kernel
/-- RFC 4231, test case 2: the key "Jefe". -/
theorem test_hmac_jefe :
    hmac (toBe 4 0x4a656665) (toBe 28 0x7768617420646f2079612077616e7420666f72206e6f7468696e673f) =
      toBe 32 0x5bdcc146bf60754e6a042426089575c75a003f089d2739839dec58b964ec3843 := by decide +kernel

end Sys2Proof.Tests
end

section
/-! SUPPORT. Rings, their commands and their doorbells (R99 to R125, R158): one rule per shared operation, and the
statements settled with them. -/

namespace Sys2Proof.Machine

open Sys2Proof

/-! ### A command whose checks pass -/

/-- Where checks that each fail with a status of their own answer OK, every one of them holds (R107, R146). -/
theorem check_of_checks_ok {l : List (Bool × Nat)} (h : checks l = stOk) (hst : ∀ e ∈ l, e.2 ≠ stOk)
    {e : Bool × Nat} (he : e ∈ l) : e.1 = true := by
  induction l with
  | nil => simp at he
  | cons d r ih =>
    obtain ⟨ok, st⟩ := d
    cases ok with
    | false => exact absurd h (hst _ List.mem_cons_self)
    | true =>
      rcases List.mem_cons.mp he with rfl | hr
      · rfl
      · exact ih h (fun e he => hst e (List.mem_cons_of_mem _ he)) hr

section
variable {i : Instr} {op : Nat} {judge : Cmd → State → Nat} {c : Cmd} {s : State}

/-- The checks of a row whose command is ready answer OK. -/
theorem judge_of_ready (h : ready i c s) (hop : i.opcode? = some op)
    (hj : op = opOf c.desc → judgeCmd c s = some (judge c s)) : judge c s = stOk := by
  obtain ⟨-, hi, -, -, -, hok⟩ := h
  have hopc : op = opOf c.desc := Option.some.inj (hop.symm.trans hi)
  exact Option.some.inj ((hj hopc).symm.trans hok)

/-- A row of class S or M whose command is ready has its effect and completes (R142, R146, R153). -/
theorem runNow_of_ready {eff : Cmd → State → Res} (h : ready i c s) (hop : i.opcode? = some op)
    (hj : op = opOf c.desc → judgeCmd c s = some (judge c s)) :
    runNow op judge eff c s = .next (complete c (eff c s)) := by
  have hok : judge c s = stOk := judge_of_ready h hop hj
  obtain ⟨-, hi, hexec, hfence, -, -⟩ := h
  have hopc : op = opOf c.desc := Option.some.inj (hop.symm.trans hi)
  have hst : statusOf judge c s = stOk := by
    cases hp : s.hw.passed with
    | true => exact statusOf_passed hp
    | false => exact (statusOf_unchecked hp).trans hok
  exact runNow_pass (holds_of hopc hexec hfence) hst
end

section
variable {c : Cmd} {s : State}

theorem exec_ringEnable_of_ready (h : ready (.ringEnable c) c s) :
    exec (.ringEnable c) s = .next (complete c (effRingEnable c s)) :=
  runNow_of_ready h rfl (judgeCmd_ringEnable s)

theorem exec_ringDisable_of_ready (h : ready (.ringDisable c) c s) :
    exec (.ringDisable c) s = .next (complete c (effRingDisable c s)) :=
  runNow_of_ready h rfl (judgeCmd_ringDisable s)

theorem exec_ringShare_of_ready (h : ready (.ringShare c) c s) :
    exec (.ringShare c) s = .next (complete c (effRingShare c s)) :=
  runNow_of_ready h rfl (judgeCmd_ringShare s)

theorem exec_ringQuery_of_ready (h : ready (.ringQuery c) c s) :
    exec (.ringQuery c) s = .next (complete c (effRingQuery c s)) :=
  runNow_of_ready h rfl (judgeCmd_ringQuery s)

theorem exec_ringCreate_of_ready (h : ready (.ringCreate c) c s) :
    exec (.ringCreate c) s = .next (complete c (effRingCreate c s)) :=
  runNow_of_ready h rfl (judgeCmd_ringCreate s)

theorem exec_ringReset_of_ready (h : ready (.ringReset c) c s) :
    exec (.ringReset c) s = .next (complete c (effRingReset c s)) :=
  runNow_of_ready h rfl (judgeCmd_ringReset s)

theorem exec_ringDestroy_of_ready (h : ready (.ringDestroy c) c s) :
    exec (.ringDestroy c) s = .next (complete c (effRingDestroy c s)) :=
  runNow_of_ready h rfl (judgeCmd_ringDestroy s)

theorem exec_partReset_of_ready (h : ready (.partReset c) c s) :
    exec (.partReset c) s = .next (complete c (effPartReset c s)) :=
  runNow_of_ready h rfl (judgeCmd_partReset s)
end

/-- A row that does not stop leaves the state or has its effect. -/
theorem of_named_act {ok b : Bool} {s t u : State} (h : named ok (act b s u) = .next t) : t = s ∨ t = u := by
  cases ok with
  | false => exact nomatch h
  | true =>
    cases b with
    | false => exact .inl (Host.Outcome.next.inj h).symm
    | true => exact .inr (Host.Outcome.next.inj h).symm

/-! ### Tables -/

/-- What `look` finds is listed. -/
theorem mem_of_look {α : Type} {t : Tbl α} {k : Nat} {v : α} (h : look t k = some v) : (k, v) ∈ t := by
  induction t with
  | nil => simp [look] at h
  | cons e r ih =>
    obtain ⟨a, w⟩ := e
    by_cases hak : a = k
    · simp_all [look]
    · rw [look, if_neg hak] at h
      exact List.mem_cons_of_mem _ (ih h)

/-! ### Events of rings, and a ring set anew -/

/-- Whether the arbiter is held depends on the reset alone (R26, R78). -/
theorem arbHeld_congr {s t : State} (h : t.rst = s.rst) : arbHeld t = arbHeld s := by
  simp only [arbHeld, h]

theorem nextOsn_congr {s t : State} (hr : t.rst = s.rst) (ha : t.arb = s.arb) : nextOsn t = nextOsn s := by
  simp only [nextOsn, arbHeld_congr hr, ha]

section
variable (bit code kind r : Nat) (data : Bytes) (sev : Option Nat) (s : State)

@[simp] theorem ringEvent_rings : (ringEvent bit code kind r data sev s).rng.rings = s.rng.rings := rfl
@[simp] theorem ringEvent_jrnl : (ringEvent bit code kind r data sev s).rng.jrnl = s.rng.jrnl := rfl
@[simp] theorem ringEvent_evt :
    (ringEvent bit code kind r data sev s).rng.evt = s.rng.evt ||| BitVec.ofNat 5 (2 ^ bit) := rfl

/-- An event of a ring takes the next OSN; while the arbiter is held none is given (R28, R78). -/
theorem ringEvent_osn :
    (ringEvent bit code kind r data sev s).arb.osn = nextOsn s + (if arbHeld s then s.arb.osn else 0) := by
  have hheld : arbHeld (noteSet 0x0404 bit s) = arbHeld s := rfl
  change (arbNext _ (noteSet 0x0404 bit s)).osn = _
  cases h : arbHeld s <;> simp [arbNext, nextOsn, hheld, h]
end

section
variable (r : Nat) (x : Ring) (s : State)

@[simp] theorem setRing_rng : (setRing r x s).rng = { s.rng with rings := put s.rng.rings r x } := by simp [setRing]
@[simp] theorem setRing_arb : (setRing r x s).arb = s.arb := by simp [setRing]
end

/-! ### Doorbells (R115 to R117) -/

section
variable (e : Emission) (s : State)

@[simp] theorem usePassed_rng : (usePassed e s).rng = s.rng := rfl
@[simp] theorem usePassed_arb : (usePassed e s).arb = s.arb := rfl
@[simp] theorem usePassed_rst : (usePassed e s).rst = s.rst := rfl
end

section
variable (r : Nat) (q ec en : Word) (s : State)

@[simp] theorem sampleLines_rng : (sampleLines r q ec en s).rng = (modRing r (fun x => { x with q := q }) s).rng := by
  unfold sampleLines; split
  · rfl
  · split <;> rfl

@[simp] theorem sampleLines_arb : (sampleLines r q ec en s).arb = s.arb := by
  unfold sampleLines; split
  · rfl
  · split <;> rfl

@[simp] theorem sampleLines_rst : (sampleLines r q ec en s).rst = s.rst := by
  unfold sampleLines; split
  · rfl
  · split <;> rfl

theorem look_sampleLines_self {x : Ring} (h : look s.rng.rings r = some x) :
    look (sampleLines r q ec en s).rng.rings r = some { x with q := q } := by
  simp [modRing, h]

theorem look_sampleLines_other {y : Nat} (h : y ≠ r) :
    look (sampleLines r q ec en s).rng.rings y = look s.rng.rings y := by
  simp [modRing, look_alter_other _ _ h]
end

section
variable {r : Nat} {p : Word} {s : State} {x : Ring}

/-- The judgement of a value on a ring that exists (R117). -/
theorem judgeBell_of_look (h : look s.rng.rings r = some x) :
    judgeBell r p s =
      if (p - x.a).toInt ≤ 0 then s
      else if (p - x.q).toInt ≤ 2 ^ x.log2s then setRing r { x with a := p } s
      else ringEvent 0 0x0210 2 r [] none s := by
  simp only [judgeBell, ringOf, h, ringSize, Nat.cast_pow, Nat.cast_ofNat]

theorem judgeBell_ignored (h : look s.rng.rings r = some x) (ha : (p - x.a).toInt ≤ 0) : judgeBell r p s = s := by
  rw [judgeBell_of_look h, if_pos ha]

theorem judgeBell_accepted (h : look s.rng.rings r = some x) (ha : 0 < (p - x.a).toInt)
    (hq : (p - x.q).toInt ≤ 2 ^ x.log2s) : judgeBell r p s = setRing r { x with a := p } s := by
  rw [judgeBell_of_look h, if_neg ha.not_ge, if_pos hq]

theorem judgeBell_refused (h : look s.rng.rings r = some x) (ha : 0 < (p - x.a).toInt)
    (hq : 2 ^ x.log2s < (p - x.q).toInt) : judgeBell r p s = ringEvent 0 0x0210 2 r [] none s := by
  rw [judgeBell_of_look h, if_neg ha.not_ge, if_neg hq.not_ge]

/-- Whatever the judgement, only the ring of the doorbell changes, and no entry of the journal. -/
theorem judgeBell_others (h : look s.rng.rings r = some x) :
    (∀ y, y ≠ r → look (judgeBell r p s).rng.rings y = look s.rng.rings y) ∧
      (judgeBell r p s).rng.jrnl = s.rng.jrnl := by
  rw [judgeBell_of_look h]
  split
  · simp
  · split
    · exact ⟨fun y hy => by simp [look_put_other _ _ hy], by simp⟩
    · simp

/-- A doorbell value that has passed on an armed ring is judged beside the lines read with it (R113, R116, R117). -/
theorem exec_doorbell_of_passed {q ec en : Word} (hr : r < 2050) (h : look s.rng.rings r = some x) (hst : x.st ≠ .off)
    (hp : r = 2049 ∨ nextBell r s = some p) :
    exec (.doorbell r p q ec en) s =
      .next (judgeBell r p (sampleLines r q ec en (usePassed (.doorbell r p) s))) := by
  have hvote : (!voted r || nextBell r s == some p) = true := by
    rcases hp with rfl | hp
    · rfl
    · simp [hp]
  change execDoorbell r p q ec en s = _
  simp [execDoorbell, named, act, ringOf, hr, h, hst, hvote]

/-- A doorbell row that does not stop either changes nothing or judges its value. -/
theorem exec_doorbell_cases {q ec en : Word} {t : State} (h : exec (.doorbell r p q ec en) s = .next t) :
    t = s ∨ t = judgeBell r p (sampleLines r q ec en (usePassed (.doorbell r p) s)) :=
  of_named_act h
end

/-- What a doorbell leaves as it is: the clocks, the reset, the ports, the streams and the other engines, the pins and
Page Keeper's pool (R117). -/
def BellKeeps (s t : State) : Prop :=
  t.clk = s.clk ∧ t.rst = s.rst ∧ t.prt = s.prt ∧ t.sw = s.sw ∧ t.tim = s.tim ∧ t.sv = s.sv ∧
    t.gse = s.gse ∧ t.flt = s.flt ∧ t.acq = s.acq ∧ t.key = s.key ∧ t.gft = s.gft ∧ t.ecc = s.ecc ∧
    t.mram = s.mram ∧ t.bin = s.bin ∧ t.out = s.out ∧ t.pgk = s.pgk

theorem bellKeeps_refl (s : State) : BellKeeps s s := by simp [BellKeeps]

theorem BellKeeps.trans {s t u : State} (h : BellKeeps s t) (h' : BellKeeps t u) : BellKeeps s u := by
  simp_all [BellKeeps]

theorem bellKeeps_sampleLines (r : Nat) (q ec en : Word) (s : State) : BellKeeps s (sampleLines r q ec en s) := by
  unfold sampleLines; split
  · exact bellKeeps_refl s
  · split <;> exact bellKeeps_refl s

theorem bellKeeps_setRing (r : Nat) (x : Ring) (s : State) : BellKeeps s (setRing r x s) := by
  simp [BellKeeps, setRing]

theorem bellKeeps_judgeBell (r : Nat) (p : Word) (s : State) : BellKeeps s (judgeBell r p s) := by
  unfold judgeBell
  split
  · exact bellKeeps_refl s
  · split
    · exact bellKeeps_refl s
    · split
      · exact bellKeeps_setRing ..
      · exact bellKeeps_refl s

/-- Settles O10: the three judgements of R117 in turn, each on the state in which Q has been read; the frame holds of
the reading and of the judgement alike. -/
theorem doorbellJudgementAndFrame : Obligations.DoorbellJudgementAndFrame := by
  unfold Obligations.DoorbellJudgementAndFrame
  refine ⟨fun r p q ec en s x hr hx hst hp => ?_, fun r p q ec en s t h => ?_⟩
  · have hexec := exec_doorbell_of_passed (q := q) (ec := ec) (en := en) hr hx hst hp
    have hread := look_sampleLines_self r q ec en (usePassed (.doorbell r p) s) hx
    obtain ⟨hother, hjrnl⟩ := judgeBell_others (p := p) hread
    refine ⟨_, hexec, fun ha => ?_, fun ha hq => ?_, fun ha hq => ?_, fun y hy => ?_, ?_⟩
    · rw [judgeBell_ignored hread ha]
      exact ⟨hread, by simp [modRing], by simp⟩
    · rw [judgeBell_accepted hread ha hq]
      exact ⟨by simp, by simp [modRing], by simp⟩
    · refine ⟨⟨_, judgeBell_refused hread ha hq, hread⟩, ?_⟩
      rw [judgeBell_refused hread ha hq, ringEvent_osn]
      have hrst : (sampleLines r q ec en (usePassed (.doorbell r p) s)).rst = s.rst := by simp
      have harb : (sampleLines r q ec en (usePassed (.doorbell r p) s)).arb = s.arb := by simp
      exact ⟨hread, by simp [modRing], by rw [nextOsn_congr hrst harb, arbHeld_congr hrst, harb]⟩
    · rw [hother y hy, look_sampleLines_other _ _ _ _ _ hy, usePassed_rng]
    · rw [hjrnl, sampleLines_rng]
      rfl
  · rcases exec_doorbell_cases h with rfl | rfl
    · exact bellKeeps_refl _
    · exact (bellKeeps_sampleLines r q ec en (usePassed (.doorbell r p) s)).trans (bellKeeps_judgeBell ..)

end Sys2Proof.Machine
end

section
/-! SUPPORT. What the ring commands and a PARTITION reset make of the rings (R105, R119 to R125, R149, R158, R178). -/

namespace Sys2Proof.Machine

open Sys2Proof

/-! ### Enable and disable (R149, R158) -/

section
variable {c : Cmd} {s : State} {x : Ring}

/-- The enable rule on a ring that exists; its shadow line is rewritten whatever the rule says (R114, R149). -/
theorem effRingEnable_of_look (h : look s.rng.rings (argRing c) = some x) :
    effRingEnable c s =
      (setRing (argRing c) { x with st := (enableRule x.st x.held).1, held := (enableRule x.st x.held).2.1 } s,
        (enableRule x.st x.held).2.2, none) := by
  simp only [effRingEnable, ringOf, h, res]

/-- The disable rule on a ring that exists: it leaves its round if it was ON (R124, R149). -/
theorem disableRing_rings {r : Nat} (h : look s.rng.rings r = some x) :
    (disableRing r s).rng.rings =
      put s.rng.rings r { x with
        st := (disableRule x.st x.held).1, held := (disableRule x.st x.held).2
        inRound := x.inRound && decide (x.st ≠ .on) } := by
  have hon : (x.st != .on) = decide (x.st ≠ .on) := by simp [bne, beq_eq_decide]
  simp only [disableRing, h, ringVis_rng, hon]

/-- Generation, state and occupancy of a ring that exists (R158). -/
theorem effRingQuery_of_look (h : look s.rng.rings (argRing c) = some x) :
    effRingQuery c s = resOk s (x.gen + 2 ^ 8 * enCode x.st + 2 ^ 15 * occupancy x) := by
  simp only [effRingQuery, ringOf, h]
end

/-! ### Creation (R101, R105, R158) -/

/-- A first touch maps the same page whichever request Page Keeper granted before it: the pointer of R35 alone tells
the two states apart. -/
theorem touch_pgkAsk (p iova n : Nat) (s : State) : touch p iova (pgkAsk n s) = (touch p iova s).map (pgkAsk n) := by
  unfold touch
  have hcnp : (pgkAsk n s).cnp = s.cnp := rfl
  rw [hcnp]
  split
  · rfl
  · split
    · rfl
    · have hsize (x : Part) : touchSize x iova (pgkAsk n s) = touchSize x iova s := rfl
      have hleft : framesLeft (pgkAsk n s) = framesLeft s := rfl
      simp only [hsize, hleft]
      split <;> rfl

theorem touch_rng {p iova : Nat} {s t : State} (h : touch p iova s = some t) : t.rng = s.rng := by
  unfold touch at h
  split at h
  · exact nomatch h
  · split at h
    · exact Option.some.inj h ▸ rfl
    · dsimp only at h
      split at h
      · exact nomatch h
      · exact Option.some.inj h ▸ rfl

/-- `mapPages` takes its list page by page. -/
theorem mapPages_cons (p g : Nat) (gs : List Nat) (s : State) :
    mapPages p (g :: gs) s = (touch p (g * 4096) s).bind (mapPages p gs) := by
  unfold mapPages
  rw [List.foldl_cons, Option.bind_some]
  cases touch p (g * 4096) s with
  | some t => rfl
  | none =>
    rw [Option.bind_none]
    induction gs with
    | nil => rfl
    | cons g gs ih => exact ih

theorem mapPages_pgkAsk (p n : Nat) (gs : List Nat) (s : State) :
    mapPages p gs (pgkAsk n s) = (mapPages p gs s).map (pgkAsk n) := by
  induction gs generalizing s with
  | nil => rfl
  | cons g gs ih =>
    rw [mapPages_cons, mapPages_cons, touch_pgkAsk]
    cases touch p (g * 4096) s with
    | none => rfl
    | some t => exact ih t

theorem mapPages_rng {p : Nat} {gs : List Nat} {s t : State} (h : mapPages p gs s = some t) : t.rng = s.rng := by
  induction gs generalizing s with
  | nil => exact Option.some.inj h ▸ rfl
  | cons g gs ih =>
    rw [mapPages_cons] at h
    obtain ⟨u, hu, ht⟩ := Option.bind_eq_some_iff.mp h
    exact (ih ht).trans (touch_rng hu)

section
variable {c : Cmd} {s : State}

/-- The last check of `RING_CREATE`: the pages of the ring's regions can be mapped (R158). -/
theorem mapPages_of_judgeRingCreate (h : judgeRingCreate c s = stOk) :
    (mapPages (argRing c / 8) (regionPages (ringRecord c.block)) s).isSome = true := by
  refine check_of_checks_ok h ?_
    (e := ((mapPages (argRing c / 8) (regionPages (ringRecord c.block)) s).isSome, stOverQuota)) (by simp)
  simp [common, stOk, stWrongState, stDenied, stBadArg, stNotFound, stNoResource, stOverQuota]

/-- Where the pages can be mapped, the ring of the record is listed and the answer is generation 1 (R105, R158). -/
theorem effRingCreate_of_mapped
    (h : (mapPages (argRing c / 8) (regionPages (ringRecord c.block)) s).isSome = true) :
    ∃ t, t.rng = s.rng ∧ effRingCreate c s = (setRing (argRing c) (ringRecord c.block) t, stOk, some 1) := by
  obtain ⟨u, hu⟩ := Option.isSome_iff_exists.mp h
  have hrng := mapPages_rng hu
  cases hn : (newPages (argRing c / 8) (ringRecord c.block) s).isEmpty with
  | true => exact ⟨u, hrng, by simp only [effRingCreate, hn, if_true, hu]; rfl⟩
  | false =>
    refine ⟨pgkAsk 16 u, hrng, ?_⟩
    simp only [effRingCreate, hn, Bool.false_eq_true, if_false, mapPages_pgkAsk, hu, Option.map_some]
    rfl
end

/-! ### New generations (R105, R119, R120) -/

section
variable (l : List JRec) (s : State)

@[simp] theorem unmatchedAll_rings : (unmatchedAll l s).rng.rings = s.rng.rings := by
  induction l generalizing s with
  | nil => rfl
  | cons e es ih => exact ih (unmatched e s)

@[simp] theorem unmatchedAll_jrnl : (unmatchedAll l s).rng.jrnl = s.rng.jrnl := by
  induction l generalizing s with
  | nil => rfl
  | cons e es ih => exact ih (unmatched e s)
end

@[simp] theorem newEventLine_rng (r : Nat) (s : State) : (newEventLine r s).rng = s.rng := by
  unfold newEventLine; split <;> simp

/-- A ring as its next generation begins: its indices start again at 0 (R105, R119). -/
def nextGen (x : Ring) : Ring :=
  { x with gen := genAfter x.gen, a := 0, c := 0, k := 0, q := 0, lastOsn := 0, used := 0, inRound := false }

section
variable {r : Nat} {s : State} {x : Ring}

theorem newGeneration_rings (h : look s.rng.rings r = some x) :
    (newGeneration r s).rng.rings = put s.rng.rings r (nextGen x) := by
  simp [newGeneration, h, nextGen]

theorem newGeneration_jrnl (h : look s.rng.rings r = some x) :
    (newGeneration r s).rng.jrnl = s.rng.jrnl.filter fun e => e.ring != r := by
  simp [newGeneration, h]

/-- A new generation leaves every other ring (R120). -/
theorem look_newGeneration_other {y : Nat} (hy : y ≠ r) :
    look (newGeneration r s).rng.rings y = look s.rng.rings y := by
  cases h : look s.rng.rings r with
  | none => simp [newGeneration, h]
  | some x => rw [newGeneration_rings h, look_put_other _ _ hy]

/-- `RING_RESET` answers the generation that it takes (R119, R158). -/
theorem effRingReset_of_look {c : Cmd} (h : look s.rng.rings (argRing c) = some x) :
    effRingReset c s = (newGeneration (argRing c) s, stOk, some (BitVec.ofNat 32 (genAfter x.gen))) := by
  simp [effRingReset, resOk, genOf, newGeneration_rings h, nextGen]
end

/-- `RING_DESTROY` removes the ring and its entries (R158). -/
theorem effRingDestroy_rng (c : Cmd) (s : State) : ∃ u, effRingDestroy c s = (u, stOk, none) ∧
    look u.rng.rings (argRing c) = none ∧ u.rng.jrnl = s.rng.jrnl.filter fun e => e.ring != argRing c :=
  ⟨_, rfl, by simp, by simp⟩

/-! ### The rings at a PARTITION reset (R77, R120, R151) -/

section
variable {r : Nat} {s : State}

/-- The enable state of a ring follows its partition's reset; its generation does not yet (R151). -/
theorem look_ringAtReset_self {x : Ring} (h : look s.rng.rings r = some x) :
    ∃ y, look (ringAtReset r s).rng.rings r = some y ∧ y.gen = x.gen := by
  simp only [ringAtReset, h]
  split
  · exact ⟨{ x with st := afterOff x.held, held := false }, by rw [offEvents_rng, look_put_self], rfl⟩
  · exact ⟨x, h, rfl⟩

theorem look_ringAtReset_other {y : Nat} (hy : y ≠ r) :
    look (ringAtReset r s).rng.rings y = look s.rng.rings y := by
  unfold ringAtReset
  split
  · split
    · rw [offEvents_rng, look_put_other _ _ hy]
    · rfl
  · rfl
end

theorem look_ringsAtReset_other {l : List Nat} {s : State} {y : Nat} (hy : y ∉ l) :
    look (ringsAtReset l s).rng.rings y = look s.rng.rings y := by
  induction l generalizing s with
  | nil => rfl
  | cons r rs ih =>
    obtain ⟨hyr, hyrs⟩ := not_or.mp (mt List.mem_cons.mpr hy)
    rw [ringsAtReset, ih hyrs, look_newGeneration_other hyr, look_ringAtReset_other hyr]

/-- Each ring of a list without repetition takes one new generation (R120). -/
theorem look_ringsAtReset_mem {l : List Nat} {s : State} {r : Nat} {x : Ring} (hl : l.Nodup) (hr : r ∈ l)
    (h : look s.rng.rings r = some x) :
    ∃ y, look (ringsAtReset l s).rng.rings r = some (nextGen y) ∧ y.gen = x.gen := by
  induction l generalizing s with
  | nil => simp at hr
  | cons a l ih =>
    obtain ⟨ha, hl⟩ := List.nodup_cons.mp hl
    rw [ringsAtReset]
    rcases List.mem_cons.mp hr with rfl | hr
    · obtain ⟨y, hy, hgen⟩ := look_ringAtReset_self h
      exact ⟨y, by rw [look_ringsAtReset_other ha, newGeneration_rings hy, look_put_self], hgen⟩
    · have hne : r ≠ a := fun he => ha (he ▸ hr)
      exact ih hl hr (by rw [look_newGeneration_other hne, look_ringAtReset_other hne, h])

section
variable {p : Nat} {s : State}

/-- The rings that follow a reset of partition `p` are listed once each (R99, R144). -/
theorem resetRings_nodup (h : keysRise s.rng.rings) : (resetRings p s).Nodup := by
  have hown : (ringsOf p s).Nodup := h.nodup.sublist (List.filter_sublist.map _)
  have hp0 : Config.ringP0 ∉ ringsOf p s := by simp [ringsOf, Config.ringP0]
  unfold resetRings
  split
  · exact hown.append (by simp) (by simpa using hp0)
  · simpa using hown

/-- An own ring of partition `p` follows its reset, and ring 2,048 that of P0 (R99, R144). -/
theorem mem_resetRings {r : Nat} {x : Ring} (hr : r < 2048 ∧ r / 8 = p ∨ r = 2048 ∧ p = 0)
    (h : look s.rng.rings r = some x) : r ∈ resetRings p s := by
  unfold resetRings
  rcases hr with ⟨hlt, hp⟩ | ⟨rfl, rfl⟩
  · have hmem : r ∈ ringsOf p s := List.mem_map.mpr ⟨(r, x), by simp [mem_of_look h, hlt, hp], rfl⟩
    exact List.mem_append_left _ hmem
  · exact List.mem_append_right _ (by simp [Config.ringP0])
end

/-! ### What a PARTITION reset does beside its rings -/

section
variable (p : Nat) (s : State)

@[simp] theorem freeFrames_rng (n : Nat) : (freeFrames n s).rng = s.rng := by
  unfold freeFrames; dsimp only; split <;> rfl

@[simp] theorem dropRun_rng : (dropRun p s).rng = s.rng := rfl
@[simp] theorem dropPre_rng : (dropPre p s).rng = s.rng := by unfold dropPre; split <;> simp
@[simp] theorem soil_rng : (soil p s).rng = s.rng := by simp [soil]
@[simp] theorem reclaim_rng : (reclaim p s).rng = s.rng := by unfold reclaim; split <;> simp
@[simp] theorem putLoad_rng (dst : Nat) (load : Bytes) : (putLoad p dst load s).rng = s.rng := rfl
@[simp] theorem narrowRecord_rng (source target reach : Nat) : (narrowRecord source target reach s).rng = s.rng := rfl

@[simp] theorem resetPart_rng : (resetPart p s).rng = s.rng := by
  unfold resetPart
  split
  · rfl
  · dsimp only
    split <;> simp
end

section
variable (s : State)

@[simp] theorem keyEvent_rng (code slot : Nat) (bit sev : Option Nat) : (keyEvent code slot bit sev s).rng = s.rng := by
  cases bit <;> rfl

@[simp] theorem keyEvents_rng (code : Nat) (bit sev : Option Nat) (ks : List Nat) :
    (keyEvents code bit sev ks s).rng = s.rng := by
  induction ks generalizing s with
  | nil => rfl
  | cons k ks ih => simp [keyEvents, ih]

@[simp] theorem killSlot_rng (k : Nat) (st : KState) : (killSlot k st s).rng = s.rng := by simp [killSlot, cancelCmps]

@[simp] theorem killSlots_rng (st : KState) (ks : List Nat) : (killSlots st ks s).rng = s.rng := by
  induction ks generalizing s with
  | nil => rfl
  | cons k ks ih => simp [killSlots, ih]

@[simp] theorem invalidateBranch_rng (k : Nat) : (invalidateBranch k s).rng = s.rng := by
  simp [invalidateBranch, orphanLeaves]

@[simp] theorem invalidateBranches_rng (ks : List Nat) : (invalidateBranches ks s).rng = s.rng := by
  induction ks generalizing s with
  | nil => rfl
  | cons k ks ih => simp [invalidateBranches, ih]

@[simp] theorem destsGone_rng (goose : Bool) (ns : List Nat) : (destsGone goose ns s).rng = s.rng := by
  induction ns generalizing s with
  | nil => rfl
  | cons n ns ih => simp [destsGone, ih, destGone]

@[simp] theorem removeDests_rng (p : Nat) : (removeDests p s).rng = s.rng := by simp [removeDests]
end

/-- A PARTITION reset changes the rings where its rings follow it, and nowhere else (R77, R120). -/
theorem partitionReset_rng (p : Nat) (s : State) :
    ∃ t, t.rng = s.rng ∧ (partitionReset p s).rng = (ringsAtReset (resetRings p t) t).rng := by
  refine ⟨reclaim p (soil p (dropPre p (dropRun p (narrowRecord 11 p 4 s)))), by simp, ?_⟩
  simp only [partitionReset, removeDests_rng, invalidateBranches_rng, resetPart_rng]
  split <;> simp

/-- Every ring that follows a PARTITION reset takes one new generation (R105, R120). -/
theorem look_partitionReset {p r : Nat} {s : State} {x : Ring} (hkeys : keysRise s.rng.rings)
    (hr : r < 2048 ∧ r / 8 = p ∨ r = 2048 ∧ p = 0) (h : look s.rng.rings r = some x) :
    ∃ y, look (partitionReset p s).rng.rings r = some (nextGen y) ∧ y.gen = x.gen := by
  obtain ⟨t, ht, hreset⟩ := partitionReset_rng p s
  rw [← ht] at hkeys h
  rw [hreset]
  exact look_ringsAtReset_mem (resetRings_nodup hkeys) (mem_resetRings hr h) h

/-! ### The statement -/

/-- Giving a ring the enable state that it has changes nothing else of it. -/
theorem Ring.with_st_self {x : Ring} {e : Enable} (h : x.st = e) (held inRound : Bool) :
    { x with st := e, held := held, inRound := inRound } = { x with held := held, inRound := inRound } := by
  rw [← h]

/-- Settles O13: the enable rules by the ring's enable state, the others by what their effects make of the rings; a ring
of a reset partition takes one generation because its table lists it once. -/
theorem ringCommandsAndGenerations : Obligations.RingCommandsAndGenerations := by
  unfold Obligations.RingCommandsAndGenerations
  refine ⟨fun c s x (hx : look s.rng.rings (argRing c) = some x) =>
      ⟨fun h => ?enable, fun h => ?disable, fun h => ?share, fun h => ?query⟩,
    fun c s h => ?create, fun c s x (hx : look s.rng.rings (argRing c) = some x) h => ?reset,
    fun c s h => ?destroy, fun c s h hkeys => ?partReset⟩
  case enable =>
    rw [exec_ringEnable_of_ready h, effRingEnable_of_look hx]
    cases hst : x.st with
    | off => rfl
    | stopping => simp only [enableRule, Ring.with_st_self hst]; rfl
    | on => simp only [enableRule, Ring.with_st_self hst]; rfl
  case disable =>
    refine ⟨_, exec_ringDisable_of_ready h, ?_, fun y (hy : y ≠ argRing c) => ?_⟩
    · change look (disableRing (argRing c) s).rng.rings (argRing c) = _
      rw [disableRing_rings hx, look_put_self]
      cases hst : x.st with
      | off => simp [disableRule, Ring.with_st_self hst]
      | stopping => simp [disableRule, Ring.with_st_self hst]
      | on => simp [disableRule]
    · rw [disableRing_rings hx, look_put_other _ _ hy]
  case share => exact exec_ringShare_of_ready h
  case query => rw [exec_ringQuery_of_ready h, effRingQuery_of_look hx]; rfl
  case create =>
    have hmap := mapPages_of_judgeRingCreate (judge_of_ready h rfl (judgeCmd_ringCreate s))
    obtain ⟨t, ht, heff⟩ := effRingCreate_of_mapped hmap
    refine ⟨_, _, by rw [exec_ringCreate_of_ready h, heff], by rw [setRing_rng]; exact look_put_self .., rfl, rfl, rfl,
      rfl, rfl, rfl, rfl, rfl, rfl, rfl, rfl, rfl, rfl, fun y hy => ?_⟩
    rw [setRing_rng, ht]
    exact look_put_other _ _ hy
  case reset =>
    refine ⟨newGeneration (argRing c) s, by rw [exec_ringReset_of_ready h, effRingReset_of_look hx], ?_,
      newGeneration_jrnl hx⟩
    rw [newGeneration_rings hx]
    exact look_put_self ..
  case destroy =>
    obtain ⟨u, heff, hgone, hjrnl⟩ := effRingDestroy_rng c s
    exact ⟨u, by rw [exec_ringDestroy_of_ready h, heff], hgone, hjrnl⟩
  case partReset =>
    refine ⟨_, exec_partReset_of_ready h, fun r y hr hy => ?_⟩
    obtain ⟨z, hz, hgen⟩ := look_partitionReset hkeys hr hy
    exact ⟨nextGen z, hz, congrArg genAfter hgen, rfl, rfl, rfl⟩

end Sys2Proof.Machine
end

section
/-! SUPPORT. The match tables of the switch core and the seed of its hash (R252 to R256, R291): what each command makes
of its table, and the statement settled with it. -/

namespace Sys2Proof.Machine

open Sys2Proof

/-! ### Tables of which a range of keys is cleared -/

/-- A key that a filter on keys rejects is not found afterwards. -/
theorem look_filter_rejected {α : Type} (t : Tbl α) {p : Nat → Bool} {k : Nat} (h : p k = false) :
    look (t.filter fun e => p e.1) k = none := by
  cases hk : look (t.filter fun e => p e.1) k with
  | none => rfl
  | some v => simp [(List.mem_filter.mp (mem_of_look hk)).2] at h

/-- The four counters of a cleared entry read 0 (R254, R256). -/
theorem lookD_clearEntry (e : Nat) (s : State) {i : Nat} (hi : i < 4) :
    lookD (clearEntry e s).sw.cnt (e * 4 + i) 0 = 0 := by
  have hnone : look (clearEntry e s).sw.cnt (e * 4 + i) = none :=
    look_filter_rejected s.sw.cnt (p := fun a => a < e * 4 || e * 4 + 4 ≤ a) (by simp; omega)
  rw [lookD, hnone, Option.getD_none]

/-! ### The exact-match table (R252 to R255) -/

/-- What making room for a new key leaves as it is: the wildcard table, the epochs, the rings and memory (R253). -/
def RoomKeeps (s t : State) : Prop :=
  t.sw.wild = s.sw.wild ∧ t.sw.epochs = s.sw.epochs ∧ t.rng = s.rng ∧ t.mem = s.mem

theorem RoomKeeps.trans {s t u : State} (h : RoomKeeps s t) (h' : RoomKeeps t u) : RoomKeeps s u := by
  simp_all [RoomKeeps]

/-- Displacements move entries of the exact-match table only (R253). -/
theorem roomKeeps_displace (hs : List Nat) (s : State) : RoomKeeps s (displace hs s) := by
  induction hs with
  | nil => exact ⟨rfl, rfl, rfl, rfl⟩
  | cons h hs ih =>
    simp only [displace]
    split
    · exact ih
    · exact ih

/-- The entry of a new key at handle `h` in a free place of bucket `p`, its counters cleared (R253, R254). -/
def placeExact (k : LKey) (a : Action) (h : Nat) (p : Nat × Nat) (s : State) : State :=
  let s1 := clearEntry h s
  let x : Exact := { key := k, act := a, bank := p.1, bucket := p.2, pos := (freePlace p.1 p.2 s1).getD 0 }
  { s1 with sw := { s1.sw with exact := put s1.sw.exact h x } }

/-- A new key is placed at the lowest free handle after the displacements of some chain, for the choice of which a free
value may have been drawn (R253, R254). -/
theorem addExact_eq (k : LKey) (a : Action) (s : State) :
    ∃ p hs u, RoomKeeps s u ∧ addExact k a s =
      resOk (placeExact k a (lowestFree s.sw.exact 0) p (displace hs u)) (lowestFree s.sw.exact 0) := by
  refine ⟨_, _, _, ?_, rfl⟩
  split
  · exact ⟨rfl, rfl, rfl, rfl⟩
  · exact ⟨rfl, rfl, rfl, rfl⟩

section
variable (k : LKey) (a : Action) (h : Nat) (p : Nat × Nat) (s : State)

theorem look_placeExact :
    ∃ x, look (placeExact k a h p s).sw.exact h = some x ∧ x.key = k ∧ x.act = a :=
  ⟨_, look_put_self .., by rfl, by rfl⟩

theorem lookD_placeExact {i : Nat} (hi : i < 4) : lookD (placeExact k a h p s).sw.cnt (h * 4 + i) 0 = 0 :=
  lookD_clearEntry h s hi

theorem roomKeeps_placeExact : RoomKeeps s (placeExact k a h p s) := ⟨rfl, rfl, rfl, rfl⟩
end

/-- A new key has its entry at the lowest free handle, with the action given and its counters at 0, and what making room
leaves as it is stays (R253, R254). -/
theorem addExact_spec (k : LKey) (a : Action) (s : State) :
    ∃ u x, addExact k a s = resOk u (lowestFree s.sw.exact 0) ∧ look u.sw.exact (lowestFree s.sw.exact 0) = some x ∧
      x.key = k ∧ x.act = a ∧ (∀ i, i < 4 → lookD u.sw.cnt (lowestFree s.sw.exact 0 * 4 + i) 0 = 0) ∧
      RoomKeeps s u := by
  obtain ⟨p, hs, u, hdrawn, hadd⟩ := addExact_eq k a s
  obtain ⟨x, hlook, hkey, hact⟩ := look_placeExact k a (lowestFree s.sw.exact 0) p (displace hs u)
  have hroom : RoomKeeps s (displace hs u) := hdrawn.trans (roomKeeps_displace hs u)
  exact ⟨_, x, hadd, hlook, hkey, hact, fun i hi => lookD_placeExact _ _ _ _ _ hi,
    hroom.trans (roomKeeps_placeExact ..)⟩

section
variable {c : Cmd} {s : State}

/-- A key in use keeps its entry and takes the new action (R254). -/
theorem effSwExactAdd_of_found {h : Nat} {x : Exact}
    (hfind : (s.sw.exact.find? fun e => e.2.key == keyAt c.block 0) = some (h, x)) :
    effSwExactAdd c s =
      resOk { s with sw := { s.sw with exact := put s.sw.exact h { x with act := actionAt c.block 3 } } } h := by
  simp only [effSwExactAdd, hfind]

theorem effSwExactAdd_of_new (hfind : (s.sw.exact.find? fun e => e.2.key == keyAt c.block 0) = none) :
    effSwExactAdd c s = addExact (keyAt c.block 0) (actionAt c.block 3) s := by
  simp only [effSwExactAdd, hfind]

theorem exec_swExactAdd_of_ready (h : ready (.swExactAdd c) c s) :
    exec (.swExactAdd c) s = .next (complete c (effSwExactAdd c s)) :=
  runNow_of_ready h rfl (judgeCmd_swExactAdd s)

theorem exec_swExactDel_of_ready (h : ready (.swExactDel c) c s) :
    exec (.swExactDel c) s = .next (complete c (effSwExactDel c s)) :=
  runNow_of_ready h rfl (judgeCmd_swExactDel s)

theorem exec_swWildSet_of_ready (h : ready (.swWildSet c) c s) :
    exec (.swWildSet c) s = .next (complete c (effSwWildSet c s)) :=
  runNow_of_ready h rfl (judgeCmd_swWildSet s)

theorem exec_swWildDel_of_ready (h : ready (.swWildDel c) c s) :
    exec (.swWildDel c) s = .next (complete c (effSwWildDel c s)) :=
  runNow_of_ready h rfl (judgeCmd_swWildDel s)
end

/-! ### The wildcard table (R256) -/

/-- The entry that a block describes (R256). -/
def wildAt (b : Bytes) : Wild :=
  { key := keyAt b 0, mask := keyAt b 3, inports := wordAt b 6 + 2 ^ 32 * wordAt b 7, act := actionAt b 8 }

/-- SW_WILD_SET writes its entry and leaves the exact-match table; only an index in use advances an epoch (R256). -/
theorem effSwWildSet_sw (c : Cmd) (s : State) :
    ∃ u, effSwWildSet c s = res u stOk ∧ u.sw.wild = put s.sw.wild (arg0 c.desc) (wildAt c.block) ∧
      u.sw.exact = s.sw.exact ∧ (look s.sw.wild (arg0 c.desc) = none → u.sw.epochs = s.sw.epochs) := by
  refine ⟨_, rfl, ?_, ?_, fun hnew => ?_⟩
  · cases (look s.sw.wild (arg0 c.desc)).isSome <;> rfl
  · cases (look s.sw.wild (arg0 c.desc)).isSome <;> rfl
  · simp [hnew, clearEntry]

/-! ### The seed of the hash (R291, R561) -/

section
variable {v : Word} {s : State}

/-- The seed changes while the exact-match table is empty, the window is not locked and no reset holds it. -/
theorem writeHash_open (hempty : s.sw.exact = []) (hlock : s.rst.cfgLock = false) (hheld : warmHeld s = false) :
    writeHash v s = { s with sw := { s.sw with seed := v } } := by
  simp [writeHash, hempty, hlock, hheld]

theorem writeHash_closed (h : s.sw.exact ≠ [] ∨ s.rst.cfgLock = true ∨ warmHeld s = true) : writeHash v s = s := by
  rw [writeHash, if_neg]
  rcases h with h | h | h <;> simp [h]

theorem exec_swHash (v : Word) (s : State) : exec (.swHash v) s = act s.rst.pcieAt.isSome s (writeHash v s) := rfl

/-- A write of `SW_HASH` reaches the register where the host's link is up. -/
theorem exec_swHash_of_link (h : s.rst.pcieAt ≠ none) : exec (.swHash v) s = .next (writeHash v s) := by
  rw [exec_swHash, Option.isSome_iff_ne_none.mpr h]
  rfl

/-- A write that the register ignores changes nothing, whether the link is up or not. -/
theorem exec_swHash_of_ignored (h : writeHash v s = s) : exec (.swHash v) s = .next s := by
  rw [exec_swHash, h, act, ite_self]
end

/-- Settles O30: each command by what its effect makes of its table; the seed by the three conditions of R291 and R561. -/
theorem streamMatchCommands : Obligations.StreamMatchCommands := by
  unfold Obligations.StreamMatchCommands
  refine ⟨fun c s => ⟨fun h x hr hfind => ?replaced, fun hr hfind => ?added, fun hr => ?deleted⟩,
    fun c s => ⟨fun hr => ?wildSet, fun hr => ?wildDel⟩,
    fun v s => ⟨fun hempty hlock hphase hlink => ?seed, fun h => ?kept⟩⟩
  case replaced => rw [exec_swExactAdd_of_ready hr, effSwExactAdd_of_found hfind]; rfl
  case added =>
    obtain ⟨u, x, hadd, hlook, hkey, hact, hcnt, hwild, hepochs, hrng, hmem⟩ :=
      addExact_spec (keyAt c.block 0) (actionAt c.block 3) s
    refine ⟨u, x, ?_, hlook, hkey, hact, hcnt, hwild, hepochs, hrng, hmem⟩
    rw [exec_swExactAdd_of_ready hr, effSwExactAdd_of_new hfind, hadd]
    rfl
  case deleted => exact exec_swExactDel_of_ready hr
  case wildSet =>
    obtain ⟨u, heff, hwild, hexact, hepochs⟩ := effSwWildSet_sw c s
    exact ⟨u, wildAt c.block, by rw [exec_swWildSet_of_ready hr, heff]; rfl, by rw [hwild, look_put_self], rfl, rfl, rfl,
      rfl, fun i hi => by rw [hwild, look_put_other _ _ hi], hexact, hepochs⟩
  case wildDel => exact ⟨_, exec_swWildDel_of_ready hr, look_del_self .., lookD_put_self .., rfl⟩
  case seed =>
    have hheld : warmHeld s = false := by simp [warmHeld, hphase]
    rw [exec_swHash_of_link hlink, writeHash_open hempty hlock hheld]
  case kept =>
    refine exec_swHash_of_ignored (writeHash_closed (h.imp_right (Or.imp_right fun hphase => ?_)))
    simp [warmHeld, hphase]

end Sys2Proof.Machine
end

section
/-! ### What every command keeps -/

namespace Sys2Proof.Machine

open Sys2Proof

set_option Elab.async false

/-- The later state keeps the queue of commands, the canonical form of memory and the rising order of the key store; with `isl`
the clocks and the supplies are the same too. -/
structure Keeps (isl : Bool) (s t : State) : Prop where
  pending : t.pending = s.pending
  mem : memOk s → memOk t
  keys : keysRise s.key.slots → keysRise t.key.slots
  clk : isl = true → t.clk = s.clk
  pow : isl = true → t.pow = s.pow

/-- A result of a command keeps what its state keeps. -/
def KeepsRes (isl : Bool) (s : State) (r : Res) : Prop := Keeps isl s r.1

/-- An outcome keeps what its next state keeps, if there is one. -/
def KeepsOut (isl : Bool) (s : State) (o : Out) : Prop := ∀ u, o = .next u → Keeps isl s u

/-- A state that may be missing keeps what it keeps where it is there. -/
def KeepsOpt (isl : Bool) (s : State) (o : Option State) : Prop := ∀ u, o = some u → Keeps isl s u

section
variable {b : Bool} {s t u : State}

theorem Keeps.refl (b : Bool) (s : State) : Keeps b s s := ⟨rfl, id, id, fun _ => rfl, fun _ => rfl⟩

theorem Keeps.trans (h : Keeps b s t) (h' : Keeps b t u) : Keeps b s u where
  pending := h'.pending.trans h.pending
  mem hm := h'.mem (h.mem hm)
  keys hk := h'.keys (h.keys hk)
  clk hb := (h'.clk hb).trans (h.clk hb)
  pow hb := (h'.pow hb).trans (h.pow hb)

theorem Keeps.weaken (h : Keeps true s t) : Keeps b s t := ⟨h.pending, h.mem, h.keys, fun _ => h.clk rfl, fun _ => h.pow rfl⟩

section
variable {free : Nat} {sets : List (Nat × Nat)} {rst : Rst} {boot : Boot} {arb : Arb} {hw : Hw} {rng : Rng} {cnp
    : Cnp} {pgk : Pgk} {prt : Prt} {sw : Sw} {tim : Tim} {sv : Svs} {gse : Gse} {flt : Flt} {acq : Acqn} {key :
    Keys} {gft : Gft} {ecc : Ecc} {log : Logb} {mram : Mram} {bin : Bins} {out : Outs} {obs : Obs}

/-- An update of any other part of the state keeps it all. -/
theorem Keeps.upd (h : Keeps b s t) (hk : key.slots = t.key.slots := by exact rfl) :
    Keeps b s ⟨t.pending, free, sets, t.clk, t.pow, rst, boot, arb, hw, rng, cnp, pgk, t.mem, prt, sw, tim, sv, gse, flt,
      acq, key, gft, ecc, log, mram, bin, out, obs⟩ :=
  ⟨h.pending, h.mem, hk ▸ h.keys, h.clk, h.pow⟩

/-- An update of the island and of other parts keeps the rest. -/
theorem Keeps.updIsle {clk : Clock} {pow : Power} (h : Keeps false s t) (hk : key.slots = t.key.slots := by exact rfl) :
    Keeps false s ⟨t.pending, free, sets, clk, pow, rst, boot, arb, hw, rng, cnp, pgk, t.mem, prt, sw, tim, sv, gse, flt, acq,
      key, gft, ecc, log, mram, bin, out, obs⟩ :=
  ⟨h.pending, h.mem, hk ▸ h.keys, nofun, nofun⟩

/-- An update of memory that keeps its form. -/
theorem Keeps.updMem {mem : List Host.Cell} (h : Keeps b s t) (hm : memOk t → Memory.wf mem = true)
    (hk : key.slots = t.key.slots := by exact rfl) :
    Keeps b s ⟨t.pending, free, sets, t.clk, t.pow, rst, boot, arb, hw, rng, cnp, pgk, mem, prt, sw, tim, sv, gse, flt,
      acq, key, gft, ecc, log, mram, bin, out, obs⟩ :=
  ⟨h.pending, fun hs => hm (h.mem hs), hk ▸ h.keys, h.clk, h.pow⟩

/-- An update of the key store that keeps its order. -/
theorem Keeps.updKeys (h : Keeps b s t) (hk : keysRise t.key.slots → keysRise key.slots) :
    Keeps b s ⟨t.pending, free, sets, t.clk, t.pow, rst, boot, arb, hw, rng, cnp, pgk, t.mem, prt, sw, tim, sv, gse, flt,
      acq, key, gft, ecc, log, mram, bin, out, obs⟩ :=
  ⟨h.pending, h.mem, fun hs => hk (h.keys hs), h.clk, h.pow⟩
end

theorem Keeps.ite {c : Prop} [Decidable c] (ht : Keeps b s t) (hu : Keeps b s u) : Keeps b s (if c then t else u) := by
  split
  · exact ht
  · exact hu

theorem Keeps.ite_fst {α : Type} {c : Prop} [Decidable c] {p q : State × α} (hp : Keeps b s p.1) (hq : Keeps b s q.1) :
    Keeps b s (if c then p else q).1 := by
  split
  · exact hp
  · exact hq

theorem Keeps.ite_snd {α : Type} {c : Prop} [Decidable c] {p q : α × State} (hp : Keeps b s p.2) (hq : Keeps b s q.2) :
    Keeps b s (if c then p else q).2 := by
  split
  · exact hp
  · exact hq

theorem Keeps.foldl {α : Type} {f : State → α → State} (hf : ∀ {t a}, Keeps b s t → Keeps b s (f t a)) {l : List α}
    (h : Keeps b s t) : Keeps b s (l.foldl f t) := by
  induction l generalizing t with
  | nil => exact h
  | cons a l ih => exact ih (hf h)

theorem KeepsRes.ite {c : Prop} [Decidable c] {q r : Res} (hq : KeepsRes b s q) (hr : KeepsRes b s r) :
    KeepsRes b s (if c then q else r) := by
  split
  · exact hq
  · exact hr

theorem KeepsOpt.ite {c : Prop} [Decidable c] {q r : Option State} (hq : KeepsOpt b s q) (hr : KeepsOpt b s r) :
    KeepsOpt b s (if c then q else r) := by
  split
  · exact hq
  · exact hr

theorem KeepsOpt.some (h : Keeps b s t) : KeepsOpt b s (some t) := fun _ hu => Option.some.inj hu ▸ h

theorem KeepsOpt.none : KeepsOpt b s none := fun _ hu => nomatch hu

theorem KeepsOpt.getD {o : Option State} (ho : KeepsOpt b s o) (ht : Keeps b s t) : Keeps b s (o.getD t) := by
  cases o with
  | none => exact ht
  | some u => exact ho u rfl

theorem KeepsOpt.map {f : State → State} {o : Option State} (hf : ∀ {v}, Keeps b s v → Keeps b s (f v))
    (ho : KeepsOpt b s o) : KeepsOpt b s (o.map f) := by
  cases o with
  | none => exact .none
  | some u => exact .some (hf (ho u rfl))

theorem Keeps.of_fst {α : Type} {p : State × α} {a : α} (h : Keeps b s p.1) (e : p = (u, a)) : Keeps b s u := by
  rwa [e] at h

theorem Keeps.of_snd {α : Type} {p : α × State} {a : α} (h : Keeps b s p.2) (e : p = (a, u)) : Keeps b s u := by
  rwa [e] at h

theorem KeepsOut.next (h : Keeps b s t) : KeepsOut b s (.next t) := fun _ hu => Host.Outcome.next.inj hu ▸ h

theorem KeepsOut.fault {f : Fault} : KeepsOut b s (.fault f) := fun _ hu => nomatch hu

theorem KeepsOut.refused {f : Refusal} : KeepsOut b s (.refused f) := fun _ hu => nomatch hu

theorem KeepsOut.ite {c : Prop} [Decidable c] {o q : Out} (ho : KeepsOut b s o) (hq : KeepsOut b s q) :
    KeepsOut b s (if c then o else q) := by
  split
  · exact ho
  · exact hq

theorem KeepsOut.named {ok : Bool} {o : Out} (ho : KeepsOut b s o) : KeepsOut b s (named ok o) := .ite ho .fault

theorem KeepsOut.act {ok : Bool} (ht : Keeps b s t) (hu : Keeps b s u) : KeepsOut b s (act ok t u) := .next (.ite hu ht)
end

/-! ### Tables, events, delivery, rings, the key store, the crypto lanes and the logbook -/

section
variable {b : Bool} {s t : State}

theorem keeps_fresh (h : Keeps b s t) : Keeps b s (fresh t).2 := h.upd

theorem keeps_grant {src : Nat} (h : Keeps b s t) : Keeps b s (grant src t) := h.upd

theorem keeps_trace {part : Option Nat} {r : TrRec} (h : Keeps b s t) : Keeps b s (trace part r t) := h.upd

theorem keeps_raise {e : Ev} (h : Keeps b s t) : Keeps b s (raise e t) :=
  h.updMem fun hm => wf_applyWrites _ _ _ (wf_applyWrites _ _ _ hm)

theorem keeps_recordOnly {e : Ev} (h : Keeps b s t) : Keeps b s (recordOnly e t) := keeps_raise h

theorem keeps_noteSet {off bit : Nat} (h : Keeps b s t) : Keeps b s (noteSet off bit t) := h.upd

theorem keeps_freeFrames {n : Nat} (h : Keeps b s t) : Keeps b s (freeFrames n t) := .ite h.upd h.upd

theorem keeps_modPart {p : Nat} {f : Part → Part} (h : Keeps b s t) : Keeps b s (modPart p f t) := h.upd

theorem keeps_setPart {p : Nat} {x : Part} (h : Keeps b s t) : Keeps b s (setPart p x t) := h.upd

theorem keeps_touch {p iova : Nat} (h : Keeps b s t) : KeepsOpt b s (touch p iova t) := by
  unfold touch
  split
  · exact .none
  · exact .ite (.some h) (.ite .none (.some h.upd))

theorem keeps_pgkAsk {i : Nat} (h : Keeps b s t) : Keeps b s (pgkAsk i t) := h.upd

theorem keeps_ioEvent {i : Nat} {e : Ev} (h : Keeps b s t) : Keeps b s (ioEvent i e t) := keeps_raise h.upd

/-- Pages touched one after the other. -/
theorem keeps_touches {p : Nat} {f : Nat → Nat} {l : List Nat} {o : Option State} (h : KeepsOpt b s o) :
    KeepsOpt b s (l.foldl (fun o i => o.bind (touch p (f i))) o) := by
  induction l generalizing o with
  | nil => exact h
  | cons i l ih =>
    refine ih fun u hu => ?_
    obtain ⟨v, hv, hvu⟩ := Option.bind_eq_some_iff.mp hu
    exact keeps_touch (h v hv) u hvu

theorem keeps_touchRange {p iova n : Nat} (h : Keeps b s t) : KeepsOpt b s (touchRange p iova n t) :=
  keeps_touches (.some h)

theorem keeps_noteLocal {p iova n : Nat} (h : Keeps b s t) : Keeps b s (noteLocal p iova n t) := keeps_modPart h

theorem keeps_deliver {p iova : Nat} {b0 : Bytes} (h : Keeps b s t) : Keeps b s (deliver p iova b0 t) :=
  h.updMem (wf_write _ _ _)

theorem keeps_land {p iova : Nat} {b0 : Bytes} (h : Keeps b s t) : Keeps b s (land p iova b0 t) :=
  .ite (h.updMem (wf_write _ _ _)) (keeps_deliver h)

theorem keeps_visWrite {p iova : Nat} {b0 : Bytes} (h : Keeps b s t) : Keeps b s (visWrite p iova b0 t) := by
  unfold visWrite
  split
  · exact .ite (keeps_modPart h) (keeps_land h)
  · exact h

theorem keeps_landAll {p : Nat} : ∀ (l : List (Nat × Bytes)) {t : State}, Keeps b s t → Keeps b s (landAll p l t)
  | [], _, h => h
  | _ :: l, _, h => keeps_landAll l (keeps_land h)

theorem keeps_flushHeld {p : Nat} (h : Keeps b s t) : Keeps b s (flushHeld p t) := by
  unfold flushHeld
  split
  · exact keeps_landAll _ (keeps_modPart h)
  · exact h

theorem keeps_wakePart {p cause entry : Nat} (h : Keeps b s t) : Keeps b s (wakePart p cause entry t) := h.upd

theorem keeps_fireBinds {type : Nat} {ok : Nat → Bool} (h : Keeps b s t) : Keeps b s (fireBinds type ok t) := h.upd

theorem keeps_modRing {r : Nat} {f : Ring → Ring} (h : Keeps b s t) : Keeps b s (modRing r f t) := h.upd

theorem keeps_ringVis {r iova : Nat} {b0 : Bytes} (h : Keeps b s t) : Keeps b s (ringVis r iova b0 t) := by
  unfold ringVis
  split
  · exact keeps_visWrite h
  · exact h.updMem (wf_write _ _ _)

theorem keeps_writeShadow {r : Nat} (h : Keeps b s t) : Keeps b s (writeShadow r t) := by
  unfold writeShadow
  split
  · exact keeps_ringVis h
  · exact h

theorem keeps_modEntry {r gen : Nat} {seq : Word} {f : JRec → JRec} (h : Keeps b s t) :
    Keeps b s (modEntry r gen seq f t) :=
  .ite h.upd h.upd

theorem keeps_finishOp {r gen : Nat} {seq : Word} {status : Nat} {result : Option Word} {short : Bool} (h : Keeps b s
    t) :
    Keeps b s (finishOp r gen seq status result short t) :=
  h.upd

theorem keeps_finishNow {r : Nat} {seq : Word} {status : Nat} {result : Option Word} (h : Keeps b s t) :
    Keeps b s (finishNow r seq status result t) :=
  keeps_finishOp h

theorem keeps_ringEvent {bit code kind r : Nat} {data : Bytes} {sev : Option Nat} (h : Keeps b s t) :
    Keeps b s (ringEvent bit code kind r data sev t) :=
  keeps_raise (.upd (keeps_noteSet h))

theorem keeps_gftNext {lane : Nat} {f : GFrame} (h : Keeps b s t) : Keeps b s (gftNext lane f t) := h.upd

theorem keeps_startFrame {lane : Nat} (h : Keeps b s t) : Keeps b s (startFrame lane t) := by
  unfold startFrame
  exact .ite h (by split; exacts [h, (.upd (.ite h.upd (keeps_gftNext h.upd)))])

theorem keeps_frameStarts (h : Keeps b s t) : Keeps b s (frameStarts t) := keeps_startFrame (keeps_startFrame h)

theorem keeps_gftQueue {fs : List TxReq} (h : Keeps b s t) : Keeps b s (gftQueue fs t) := keeps_frameStarts h.upd

theorem keeps_gftSend {b0 : GBody} {lanes : List Nat} (h : Keeps b s t) : Keeps b s (gftSend b0 lanes t) :=
  keeps_gftQueue h

theorem keeps_gftSendAll {b0 : GBody} (h : Keeps b s t) : Keeps b s (gftSendAll b0 t) := keeps_gftSend h

theorem keeps_gftSendOne {b0 : GBody} (h : Keeps b s t) : Keeps b s (gftSendOne b0 t) := .ite h (keeps_gftQueue h)

theorem keeps_offEvents {kind index : Nat} {held : Bool} (h : Keeps b s t) :
    Keeps b s (offEvents kind index held t) :=
  .ite (keeps_raise (keeps_raise h)) (keeps_raise h)

theorem keeps_armCmp {tb target : Nat} {use : CmpUse} (h : Keeps b s t) : Keeps b s (armCmp tb target use t) := h.upd

theorem keeps_cancelCmps {p : CmpUse → Bool} (h : Keeps b s t) : Keeps b s (cancelCmps p t) := h.upd

theorem keeps_writeOut {c : Cmd} {b0 : Bytes} (h : Keeps b s t) : KeepsOpt b s (writeOut c b0 t) :=
  .ite (.map (fun h => keeps_deliver h) (keeps_touchRange (keeps_pgkAsk h))) (.ite (.some (h.updMem (wf_write _ _
    _))) (.ite (.some h.upd) (.some h)))

theorem keeps_resOut {c : Cmd} {b0 : Bytes} {x : Option Word} (h : Keeps b s t) : KeepsRes b s (resOut c b0 x t) := by
  unfold resOut
  split
  · exact (keeps_writeOut h _ ‹_›)
  · exact h

theorem keeps_seedRespond {c : Cmd} {st : Nat} {x : Option Word} (h : Keeps b s t) :
    Keeps b s (seedRespond c st x t) :=
  .upd (keeps_grant h)

theorem keeps_finishCmd {c : Cmd} {st : Nat} {x : Option Word} (h : Keeps b s t) : Keeps b s (finishCmd c st x t) :=
  .ite (keeps_seedRespond h) (keeps_finishOp h)

theorem keeps_remember {c : Cmd} {st : Nat} {x : Option Word} (h : Keeps b s t) : Keeps b s (remember c st x t) :=
  .ite h h.upd

theorem keeps_complete {c : Cmd} {r : Res} (h : KeepsRes b s r) : Keeps b s (complete c r) := by
  have hr : Keeps b s (remember c r.2.1 r.2.2 r.1) := keeps_remember h
  exact .ite (keeps_gftSendOne hr.upd) (keeps_finishCmd hr).upd

section
variable {op : Nat} {judge : Cmd → State → Nat} {eff : Cmd → State → Res} {start : Cmd → State → State} {c : Cmd} {k : BKind}

theorem KeepsRes.perform (h : Keeps b s t) (he : KeepsRes b s (eff c t)) : KeepsRes b s (perform judge eff c t) := .ite he h

theorem KeepsOut.runNow (h : Keeps b s t) (he : KeepsRes b s (eff c t)) : KeepsOut b s (runNow op judge eff c t) :=
  .act h (keeps_complete (.perform h he))

theorem KeepsOut.runAtTick (h : Keeps b s t) : KeepsOut b s (runAtTick op judge c t) :=
  .act h (.ite h.upd (keeps_complete h))

theorem KeepsOut.runBeside (h : Keeps b s t) (hs : Keeps b s (start c t)) : KeepsOut b s (runBeside op k judge start c t) :=
  .act h (.ite hs.upd (keeps_complete h))
end

/-- An entry of a table put anew is the new one or one from before. -/
theorem mem_put {α : Type} {x : Tbl α} {k : Nat} {v : α} {e : Nat × α} (h : e ∈ put x k v) : e = (k, v) ∨ e ∈ x := by
  induction x with
  | nil => exact .inl (List.mem_singleton.mp h)
  | cons d r ih =>
    unfold put at h
    split at h
    · exact List.mem_cons.mp h
    · split at h
      · exact (List.mem_cons.mp h).imp_right (List.mem_cons_of_mem _)
      · rcases List.mem_cons.mp h with rfl | h
        · exact .inr List.mem_cons_self
        · exact (ih h).imp_right (List.mem_cons_of_mem _)

/-- A table put anew keeps the rising order of its keys. -/
theorem keysRise_put {α : Type} {x : Tbl α} {k : Nat} {v : α} (h : keysRise x) : keysRise (put x k v) := by
  induction x with
  | nil => simp [keysRise, put]
  | cons e r ih =>
    obtain ⟨hlt, hr⟩ := List.pairwise_cons.mp h
    have hmem : ∀ j ∈ (put r k v).map Prod.fst, j = k ∨ j ∈ r.map Prod.fst := fun j hj => by
      obtain ⟨e, he, rfl⟩ := List.mem_map.mp hj
      exact (mem_put he).imp (congrArg Prod.fst) (fun he => List.mem_map_of_mem he)
    unfold put
    split
    · next hk => exact List.pairwise_cons.mpr ⟨fun j hj => (List.mem_cons.mp hj).elim (· ▸ hk) fun hj => hk.trans (hlt j hj), h⟩
    · split
      · next hk => exact List.pairwise_cons.mpr ⟨fun j hj => hk ▸ hlt j hj, hr⟩
      · refine List.pairwise_cons.mpr ⟨fun j hj => ?_, ih hr⟩
        rcases hmem j hj with rfl | hj
        · show e.1 < j; omega
        · exact hlt j hj

/-- A change of values alone keeps the rising order of the keys. -/
theorem keysRise_map {α : Type} {x : Tbl α} {f : Nat × α → Nat × α} (hf : ∀ e, (f e).1 = e.1) (h : keysRise x) :
    keysRise (x.map f) := by
  have hmap : (x.map f).map Prod.fst = x.map Prod.fst := by simp [hf]
  rwa [keysRise, hmap]

theorem keeps_setSlot {k : Nat} {x : KSlot} (h : Keeps b s t) : Keeps b s (setSlot k x t) := h.updKeys keysRise_put

theorem keeps_latchKey {bit slot : Nat} (h : Keeps b s t) : Keeps b s (latchKey bit slot t) := keeps_noteSet h.upd

theorem keeps_keyEvent {code slot : Nat} {bit sev : Option Nat} (h : Keeps b s t) :
    Keeps b s (keyEvent code slot bit sev t) := by
  unfold keyEvent
  exact keeps_raise (by split; exacts [(keeps_latchKey h), h])

theorem keeps_keyEvents {code : Nat} {bit sev : Option Nat} :
    ∀ (l : List Nat) {t : State}, Keeps b s t → Keeps b s (keyEvents code bit sev l t)
  | [], _, h => h
  | _ :: l, _, h => keeps_keyEvents l (keeps_keyEvent h)

theorem keeps_killSlot {k : Nat} {st : KState} (h : Keeps b s t) : Keeps b s (killSlot k st t) :=
  keeps_keyEvents _ (h.updKeys fun hk => keysRise_put (keysRise_map (fun e => by split <;> rfl) hk))

theorem keeps_killSlots {st : KState} : ∀ (l : List Nat) {t : State}, Keeps b s t → Keeps b s (killSlots st l t)
  | [], _, h => h
  | _ :: l, _, h => keeps_killSlots l (keeps_killSlot h)

theorem keeps_orphanLeaves {k : Nat} (h : Keeps b s t) : Keeps b s (orphanLeaves k t) := keeps_killSlots _ h

theorem keeps_invalidateBranch {k : Nat} (h : Keeps b s t) : Keeps b s (invalidateBranch k t) :=
  keeps_keyEvent (keeps_orphanLeaves (keeps_killSlot h))

theorem keeps_invalidateBranches : ∀ (l : List Nat) {t : State}, Keeps b s t → Keeps b s (invalidateBranches l t)
  | [], _, h => h
  | _ :: l, _, h => keeps_invalidateBranches l (keeps_invalidateBranch h)

theorem keeps_foundBad {k : Nat} (h : Keeps b s t) : Keeps b s (foundBad k t) := by
  unfold foundBad
  exact keeps_keyEvent (.upd (keeps_killSlot h))

theorem keeps_testSlot {k : Nat} (h : Keeps b s t) : Keeps b s (testSlot k t) := .ite h (keeps_foundBad h)

theorem keeps_testSlots : ∀ (l : List Nat) {t : State}, Keeps b s t → Keeps b s (testSlots l t)
  | [], _, h => h
  | _ :: l, _, h => keeps_testSlots l (keeps_testSlot h)

theorem keeps_testGrove (h : Keeps b s t) : Keeps b s (testGrove t) := keeps_testSlots _ h

theorem keeps_writeSlot {k : Nat} {x : KSlot} (h : Keeps b s t) : Keeps b s (writeSlot k x t) := by
  unfold writeSlot
  extract_lets old n s1 s2 s3
  have hs2 : Keeps b s s2 := .ite (keeps_keyEvent (.ite (keeps_orphanLeaves h) h)) (.ite (keeps_orphanLeaves h) h)
  exact .upd (keeps_setSlot hs2)

theorem keeps_effKeyLoad {c : Cmd} (h : Keeps b s t) : KeepsRes b s (effKeyLoad c t) := by
  unfold effKeyLoad
  exact .ite (Keeps.ite (keeps_testSlot h) h) (by split; exacts [(Keeps.upd (.ite (keeps_testSlot h) h)),
    (keeps_writeSlot (.ite (keeps_testSlot h) h))])

theorem keeps_effKeyInvalidate {c : Cmd} (h : Keeps b s t) : KeepsRes b s (effKeyInvalidate c t) :=
  .ite (keeps_testSlot h) (.ite (keeps_invalidateBranch (keeps_testSlot h)) (keeps_killSlot (keeps_testSlot h)))

theorem keeps_effKeyQuery {c : Cmd} (h : Keeps b s t) : KeepsRes b s (effKeyQuery c t) := keeps_testSlot h

theorem keeps_effKeyRollover {c : Cmd} (h : Keeps b s t) : KeepsRes b s (effKeyRollover c t) :=
  .ite (keeps_testSlot (keeps_testSlot h)) (keeps_armCmp (keeps_setSlot (keeps_testSlot (keeps_testSlot h))))

theorem keeps_activateRollover {o : Nat} (h : Keeps b s t) : Keeps b s (activateRollover o t) :=
  .ite (keeps_keyEvent (keeps_setSlot h)) h

theorem keeps_rollSlot {o : Nat} (h : Keeps b s t) : Keeps b s (rollSlot o t) :=
  h.updKeys fun hk => keysRise_put (keysRise_map (fun e => by split <;> rfl) hk)

theorem keeps_execOverlapEnd {slot : Nat} (h : Keeps b s t) : KeepsOut b s (execOverlapEnd slot t) :=
  .named (.act h (keeps_keyEvent (keeps_rollSlot h)))

theorem keeps_execKeySweep {slot : Nat} (h : Keeps b s t) : KeepsOut b s (execKeySweep slot t) :=
  .named (.act h (.ite (.upd (keeps_testSlot h)) (keeps_testSlot h)))

theorem keeps_loadAsk {i : Nat} (h : Keeps b s t) : Keeps b s (loadAsk i t) := h.upd

theorem keeps_setLane {lane : Nat} {j : LaneJob} (h : Keeps b s t) : Keeps b s (setLane lane j t) := h.upd

theorem keeps_freeLane {lane : Nat} (h : Keeps b s t) : Keeps b s (freeLane lane t) := h.upd

theorem keeps_loadVerify {lane : Nat} {h0 : Held} {a : Action} (h : Keeps b s t) :
    Keeps b s (loadVerify lane h0 a t) := by
  unfold loadVerify
  extract_lets s1 s2 k w
  have hs2 : Keeps b s s2 := keeps_testSlots _ (keeps_testSlot (keeps_loadAsk h))
  exact keeps_setLane hs2

theorem keeps_loadTag {lane : Nat} {t0 : TagReq} (h : Keeps b s t) : Keeps b s (loadTag lane t0 t) :=
  keeps_setLane (keeps_testSlot (keeps_loadAsk h))

theorem keeps_startLane {e : Nat × Nat} (h : Keeps b s t) : Keeps b s (startLane t e) := by
  unfold startLane
  exact .ite (by split; exacts [h, (keeps_loadVerify h.upd)]) (by split; exacts [h, (keeps_loadTag h.upd)])

theorem keeps_laneCycle (h : Keeps b s t) : Keeps b s (laneCycle t) := .foldl (fun h => keeps_startLane h) h.upd

theorem keeps_laneCycles : ∀ (n : Nat) {t : State}, Keeps b s t → Keeps b s (laneCycles n t)
  | 0, _, h => h
  | n + 1, _, h => keeps_laneCycles n (keeps_laneCycle h)

theorem keeps_fillLanes (h : Keeps b s t) : Keeps b s (fillLanes t) := keeps_laneCycles _ h

theorem keeps_applyPins (h : Keeps b s t) : Keeps b s (applyPins t) := h.upd

theorem keeps_setOut {n : Nat} {c : OutCh} (h : Keeps b s t) : Keeps b s (setOut n c t) := h.upd

theorem keeps_startFlush (h : Keeps b s t) : Keeps b s (startFlush t) := h.upd

theorem keeps_acceptRec {r : LogRec} (h : Keeps b s t) : Keeps b s (acceptRec r t) := .ite h.upd h.upd

theorem keeps_accept {r : LogRec} (h : Keeps b s t) : Keeps b s (accept r t) :=
  .ite (keeps_acceptRec (keeps_acceptRec (keeps_raise h.upd))) (keeps_acceptRec h)

theorem keeps_acceptAll : ∀ (l : List LogRec) {t : State}, Keeps b s t → Keeps b s (acceptAll l t)
  | [], _, h => h
  | _ :: l, _, h => keeps_acceptAll l (keeps_accept h)

theorem keeps_acceptWaiting (h : Keeps b s t) : Keeps b s (acceptWaiting t) := keeps_acceptAll _ h.upd

theorem keeps_execLogbookRecord {source : Nat} (h : Keeps b s t) : KeepsOut b s (execLogbookRecord source t) := by
  unfold execLogbookRecord
  exact .named (by split; exacts [(.next h), (.act h (keeps_accept h.upd))])

theorem keeps_execFlushTimer (h : Keeps b s t) : KeepsOut b s (execFlushTimer t) := .act h (keeps_startFlush h)

theorem keeps_flushed (h : Keeps b s t) : Keeps b s (flushed t) := h.upd

theorem keeps_execFlushComplete (h : Keeps b s t) : KeepsOut b s (execFlushComplete t) := .act h (keeps_flushed h)

theorem keeps_execOperatingSecond (h : Keeps b s t) : KeepsOut b s (execOperatingSecond t) := .act h h.upd

theorem keeps_effLogRead {c : Cmd} (h : Keeps b s t) : KeepsRes b s (effLogRead c t) := keeps_resOut h

theorem keeps_effLogNote {c : Cmd} (h : Keeps b s t) : KeepsRes b s (effLogNote c t) := by
  unfold effLogNote
  extract_lets osn part s1 s2 s3 s4
  have hs3 : Keeps b s s3 := keeps_accept (keeps_acceptWaiting (keeps_raise h))
  exact .ite (Keeps.upd (keeps_acceptAll _ hs3)) (keeps_acceptAll _ hs3)

theorem keeps_logFrame {r : Nat} {e : JRec} (h : Keeps b s t) : Keeps b s (logFrame r e t) := by
  unfold logFrame
  split
  · exact .ite (keeps_gftSendOne h.upd) h
  · exact h

theorem keeps_noteInput {p kind obj seq : Nat} {b0 : Bytes} (h : Keeps b s t) :
    Keeps b s (noteInput p kind obj seq b0 t) :=
  keeps_modPart h

theorem keeps_noteCompl {r : Nat} {y : Ring} {e : JRec} {flags : Nat} (h : Keeps b s t) :
    Keeps b s (noteCompl r y e flags t) := by
  unfold noteCompl
  split
  · exact h
  · exact keeps_noteInput h

theorem keeps_localCompl {r : Nat} {x : Ring} {e : JRec} {slot : Nat} (h : Keeps b s t) :
    Keeps b s (localCompl r x e slot t) := by
  unfold localCompl
  split
  · exact h
  · exact .ite (keeps_noteLocal (keeps_noteLocal (keeps_noteLocal h))) (keeps_noteLocal (keeps_noteLocal h))

theorem keeps_writeCompl {r : Nat} {x : Ring} {e : JRec} (h : Keeps b s t) : Keeps b s (writeCompl r x e t) := by
  unfold writeCompl
  extract_lets osn woke flags y slot s1 s2 _ s3 s4 s5
  have hs1 : Keeps b s s1 := keeps_grant (keeps_noteCompl (keeps_localCompl h))
  have hs2 : Keeps b s s2 := by
    simp only [s2]
    split
    · split
      · exact keeps_land hs1
      · exact hs1.updMem (wf_write _ _ _)
    · exact hs1
  have hs5 : Keeps b s s5 := keeps_logFrame (keeps_trace (keeps_ringVis (keeps_ringVis hs2.upd)))
  exact .ite (keeps_wakePart hs5) hs5

theorem keeps_complEvents {r : Nat} {e : JRec} (h : Keeps b s t) : Keeps b s (complEvents r e t) :=
  .ite (keeps_ringEvent h) (.ite (keeps_ringEvent h) h)

theorem keeps_writeNext {r : Nat} (h : Keeps b s t) : Keeps b s (writeNext r t) := by
  unfold writeNext
  split
  · exact keeps_complEvents (keeps_writeCompl h)
  · exact h

theorem keeps_execCompletionWrite {ring : Nat} (h : Keeps b s t) : KeepsOut b s (execCompletionWrite ring t) :=
  .named (.next (keeps_writeNext h))

theorem keeps_restoreRing {r : Nat} (h : Keeps b s t) : Keeps b s (restoreRing r t) := by
  unfold restoreRing
  split
  · exact h
  · exact h.upd.upd

theorem keeps_restoreRings : ∀ (l : List Nat) {t : State}, Keeps b s t → Keeps b s (restoreRings l t)
  | [], _, h => h
  | _ :: l, _, h => keeps_restoreRings l (keeps_restoreRing h)

theorem keeps_unmatched {e : JRec} (h : Keeps b s t) : Keeps b s (unmatched e t) := keeps_ringEvent h

theorem keeps_unmatchedAll : ∀ (l : List JRec) {t : State}, Keeps b s t → Keeps b s (unmatchedAll l t)
  | [], _, h => h
  | _ :: l, _, h => keeps_unmatchedAll l (keeps_unmatched h)

theorem keeps_newEventLine {r : Nat} (h : Keeps b s t) : Keeps b s (newEventLine r t) := .ite (keeps_visWrite h.upd) h

theorem keeps_newGeneration {r : Nat} (h : Keeps b s t) : Keeps b s (newGeneration r t) := by
  unfold newGeneration
  split
  · exact h
  · exact keeps_unmatchedAll _ (keeps_newEventLine (keeps_writeShadow h.upd))

theorem keeps_payloadLost {r : Nat} {seq : Word} (h : Keeps b s t) : Keeps b s (payloadLost r seq t) := by
  unfold payloadLost
  split
  · exact h
  · exact keeps_modEntry h

end

/-! ### Resets, supplies and partitions -/

section
variable {b : Bool} {s t : State}

theorem keeps_clearWarm (h : Keeps b s t) : Keeps b s (clearWarm t) :=
  keeps_applyPins (keeps_invalidateBranches _ (h.updMem fun _ => rfl))

/-- COLD reach empties memory and the key store, and clears the clocks and some registers of the island. -/
theorem keeps_clearCold (h : Keeps false s t) : Keeps false s (clearCold t) :=
  ⟨h.pending, fun _ => rfl, fun _ => .nil, nofun, nofun⟩

theorem keeps_sourceRecord {src : Source} (h : Keeps b s t) : Keeps b s (sourceRecord src t) := keeps_recordOnly h

theorem keeps_trimAbort {why words : Nat} (h : Keeps b s t) : Keeps b s (trimAbort why words t) :=
  .ite (keeps_recordOnly h.upd) (keeps_startFlush (keeps_acceptWaiting (keeps_recordOnly (.upd (keeps_recordOnly
    h.upd)))))

/-- What the assertion of a source leaves to its reach (R78, R85). -/
theorem keeps_assertSource_of {src : Source} {until_ : Option Nat} (h : Keeps b s t)
    (hcold : sourceReach src = .cold → ∀ {v}, Keeps b s v → Keeps b s (clearCold v)) :
    Keeps b s (assertSource src until_ t) := by
  unfold assertSource
  extract_lets cold governed s1 _ s2 _ s3 s4
  have h1 : Keeps b s s1 := h.upd
  have h2 : Keeps b s s2 := by
    simp only [s2]
    split
    · next hc => exact .upd (hcold (by simpa [cold] using hc) h1)
    · exact .ite h1 (keeps_clearWarm h1)
  have h4 : Keeps b s s4 := keeps_sourceRecord h2.upd
  exact .ite h (.ite (keeps_trimAbort h4) h4)

theorem keeps_assertSource {src : Source} {until_ : Option Nat} (h : Keeps false s t) :
    Keeps false s (assertSource src until_ t) :=
  keeps_assertSource_of h fun _ => keeps_clearCold

/-- A source of WARM reach leaves the island (R77). -/
theorem keeps_assertSource_warm {src : Source} {until_ : Option Nat} (hw : sourceReach src = .warm) (h : Keeps b s t) :
    Keeps b s (assertSource src until_ t) :=
  keeps_assertSource_of h fun hc => nomatch hw.symm.trans hc

theorem keeps_pulseSource {src : Source} (h : Keeps false s t) : Keeps false s (pulseSource src t) :=
  keeps_assertSource h

theorem keeps_pulseSource_warm {src : Source} (hw : sourceReach src = .warm) (h : Keeps b s t) :
    Keeps b s (pulseSource src t) :=
  keeps_assertSource_warm hw h

theorem keeps_releaseSource {src : Source} (h : Keeps b s t) : Keeps b s (releaseSource src t) := h.upd

theorem keeps_failedStart {why : Nat} (h : Keeps false s t) : Keeps false s (failedStart why t) :=
  keeps_pulseSource (keeps_recordOnly h.upd)

theorem keeps_execResetN {high : Bool} {ns : Nat} (h : Keeps false s t) : KeepsOut false s (execResetN high ns t) :=
  .act h (.ite (keeps_releaseSource h.upd) (keeps_assertSource h.upd))

theorem keeps_execWrstN {high : Bool} {ns : Nat} (h : Keeps b s t) : KeepsOut b s (execWrstN high ns t) :=
  .act h (.ite (keeps_releaseSource h.upd) (keeps_assertSource_warm rfl h.upd))

theorem keeps_execPerstN {high : Bool} (h : Keeps b s t) : KeepsOut b s (execPerstN high t) := .next h.upd

theorem keeps_execBootTimerExpiry (h : Keeps false s t) : KeepsOut false s (execBootTimerExpiry t) :=
  .act h (keeps_failedStart h)

theorem keeps_execWatchdogExpiry (h : Keeps b s t) : KeepsOut b s (execWatchdogExpiry t) :=
  .act h (keeps_pulseSource_warm rfl h)

theorem keeps_releaseCold (h : Keeps b s t) : Keeps b s (releaseCold t) := h.upd

theorem keeps_releaseWarm (h : Keeps b s t) : Keeps b s (releaseWarm t) := keeps_applyPins h.upd

theorem keeps_execResetRelease (h : Keeps b s t) : KeepsOut b s (execResetRelease t) :=
  .act h (.ite (keeps_releaseCold h) (keeps_releaseWarm h))

theorem keeps_execVauxRise (h : Keeps false s t) : KeepsOut false s (execVauxRise t) :=
  .act h (keeps_sourceRecord (keeps_acceptWaiting (keeps_recordOnly (keeps_clearCold h.updIsle))))

theorem keeps_execRailGood {r : Rail} (h : Keeps false s t) : KeepsOut false s (execRailGood r t) :=
  .ite (.next h.updIsle) .fault

theorem keeps_execPorRelease (h : Keeps b s t) : KeepsOut b s (execPorRelease t) :=
  .act h (keeps_releaseSource (keeps_releaseSource (keeps_releaseSource h)))

theorem keeps_execRailFault {r : Rail} (h : Keeps false s t) : KeepsOut false s (execRailFault r t) :=
  .act h (.ite (keeps_startFlush (keeps_assertSource h.updIsle)) h.updIsle)

theorem keeps_execVauxFault (h : Keeps false s t) : KeepsOut false s (execVauxFault t) :=
  .act h (.updIsle (keeps_clearCold h))

theorem keeps_execRefclkLoss (h : Keeps false s t) : KeepsOut false s (execRefclkLoss t) :=
  .act h (.ite (keeps_startFlush (keeps_assertSource h.updIsle)) h.updIsle)

theorem keeps_execRefclkReturn (h : Keeps false s t) : KeepsOut false s (execRefclkReturn t) := .act h h.updIsle

theorem keeps_execTemperatureTrip (h : Keeps false s t) : KeepsOut false s (execTemperatureTrip t) :=
  .act h (keeps_startFlush (keeps_assertSource h.updIsle))

theorem keeps_execTjConversion {ssd cmp : BitVec 16} (h : Keeps false s t) :
    KeepsOut false s (execTjConversion ssd cmp t) := by
  unfold execTjConversion
  extract_lets cold hot trip _ s1 src _ s2
  have hs2 : Keeps false s s2 := .updIsle (.ite (keeps_noteSet h.updIsle) h.updIsle)
  exact .act h (.ite h.updIsle (.ite (keeps_raise hs2) hs2))

theorem keeps_execPfailN {ns : Nat} (h : Keeps b s t) : KeepsOut b s (execPfailN ns t) :=
  .act h (keeps_startFlush (keeps_acceptWaiting (keeps_raise h)))

theorem keeps_putLoad {p dst : Nat} {load : Bytes} (h : Keeps b s t) : Keeps b s (putLoad p dst load t) :=
  h.updMem (wf_write _ _ _)

theorem keeps_createPart {p : Nat} {r : PartRec} {load : Bytes} (h : Keeps b s t) :
    Keeps b s (createPart p r load t) :=
  keeps_putLoad (keeps_setPart h)

theorem keeps_effPartCreate {c : Cmd} (h : Keeps b s t) : KeepsRes b s (effPartCreate c t) := keeps_createPart h

theorem keeps_createP0 {quota dirty entry : Nat} {body : Bytes} (h : Keeps b s t) :
    Keeps b s (createP0 quota dirty entry body t) :=
  keeps_writeShadow (.upd (keeps_putLoad (keeps_setPart h)))

theorem keeps_effPartStart {c : Cmd} (h : Keeps b s t) : KeepsRes b s (effPartStart c t) := by
  unfold effPartStart
  extract_lets
  split
  · exact h
  · exact keeps_setPart h

theorem keeps_disableRing {r : Nat} (h : Keeps b s t) : Keeps b s (disableRing r t) := by
  unfold disableRing
  split
  · exact h
  · exact keeps_ringVis h.upd

theorem keeps_disableRings : ∀ (l : List Nat) {t : State}, Keeps b s t → Keeps b s (disableRings l t)
  | [], _, h => h
  | _ :: l, _, h => keeps_disableRings l (keeps_disableRing h)

theorem keeps_effPartStop {c : Cmd} (h : Keeps b s t) : KeepsRes b s (effPartStop c t) := by
  unfold effPartStop
  extract_lets
  split
  · exact h
  · exact .ite (keeps_setPart h) (keeps_disableRings _ (keeps_setPart h))

theorem keeps_destGone {goose : Bool} {n : Nat} (h : Keeps b s t) : Keeps b s (destGone goose n t) :=
  keeps_raise (.upd (keeps_noteSet h))

theorem keeps_destsGone {goose : Bool} : ∀ (l : List Nat) {t : State}, Keeps b s t → Keeps b s (destsGone goose l t)
  | [], _, h => h
  | _ :: l, _, h => keeps_destsGone l (keeps_destGone h)

theorem keeps_removeDests {p : Nat} (h : Keeps b s t) : Keeps b s (removeDests p t) :=
  keeps_destsGone _ (keeps_destsGone _ h.upd)

theorem keeps_dropRun {p : Nat} (h : Keeps b s t) : Keeps b s (dropRun p t) := h.upd

theorem keeps_reclaim {p : Nat} (h : Keeps b s t) : Keeps b s (reclaim p t) := by
  unfold reclaim
  split
  · exact h
  · exact keeps_freeFrames (h.updMem (wf_zero _ _ _))

theorem keeps_dropPre {p : Nat} (h : Keeps b s t) : Keeps b s (dropPre p t) := by
  unfold dropPre
  split
  · exact h
  · exact keeps_setPart h.upd

theorem keeps_ringAtReset {r : Nat} (h : Keeps b s t) : Keeps b s (ringAtReset r t) := by
  unfold ringAtReset
  split
  · exact .ite (keeps_offEvents h.upd) h
  · exact h

theorem keeps_ringsAtReset : ∀ (l : List Nat) {t : State}, Keeps b s t → Keeps b s (ringsAtReset l t)
  | [], _, h => h
  | _ :: l, _, h => keeps_ringsAtReset l (keeps_newGeneration (keeps_ringAtReset h))

theorem keeps_resetPart {p : Nat} (h : Keeps b s t) : Keeps b s (resetPart p t) := by
  unfold resetPart
  split
  · exact h
  · exact .ite (keeps_offEvents (keeps_setPart h)) (keeps_setPart h)

theorem keeps_narrowRecord {source target reach : Nat} (h : Keeps b s t) :
    Keeps b s (narrowRecord source target reach t) :=
  keeps_recordOnly h

theorem keeps_soil {p : Nat} (h : Keeps b s t) : Keeps b s (soil p t) := keeps_modPart h

theorem keeps_partitionReset {p : Nat} (h : Keeps b s t) : Keeps b s (partitionReset p t) := by
  unfold partitionReset
  extract_lets load s1 s2 s3 s4
  have hs3 : Keeps b s s3 :=
    keeps_ringsAtReset _ (keeps_reclaim (keeps_soil (keeps_dropPre (keeps_dropRun (keeps_narrowRecord h)))))
  have hs4 : Keeps b s s4 := by
    simp only [s4]
    clear_value load
    split
    · exact keeps_soil (keeps_putLoad hs3)
    · exact hs3
  exact keeps_removeDests (keeps_invalidateBranches _ (keeps_resetPart hs4))

theorem keeps_effPartReset {c : Cmd} (h : Keeps b s t) : KeepsRes b s (effPartReset c t) := keeps_partitionReset h

theorem keeps_destroyPart {p : Nat} (h : Keeps b s t) : Keeps b s (destroyPart p t) := by
  unfold destroyPart
  extract_lets n s1 _ s2
  have hs2 : Keeps b s s2 := keeps_freeFrames (.updMem (keeps_dropPre (keeps_dropRun h)) (wf_zero _ _ _))
  exact keeps_removeDests (keeps_invalidateBranches _ hs2)

theorem keeps_effPartDestroy {c : Cmd} (h : Keeps b s t) : KeepsRes b s (effPartDestroy c t) := keeps_destroyPart h

theorem keeps_effPartQuota {c : Cmd} (h : Keeps b s t) : KeepsRes b s (effPartQuota c t) := by
  unfold effPartQuota
  split
  · exact h
  · exact keeps_setPart h

theorem keeps_outOfRounds {p : Nat} (h : Keeps b s t) : Keeps b s (outOfRounds p t) := h.upd

theorem keeps_effPartFreeze {c : Cmd} (h : Keeps b s t) : KeepsRes b s (effPartFreeze c t) :=
  keeps_modPart (keeps_outOfRounds h)

theorem keeps_reExecute {p : Nat} (h : Keeps b s t) : Keeps b s (reExecute p t) := h.upd

theorem keeps_effPartThaw {c : Cmd} (h : Keeps b s t) : KeepsRes b s (effPartThaw c t) :=
  keeps_reExecute (keeps_modPart h)

end

/-! ### Canopy, Page Keeper, blobs, rings and start -/

section
variable {b : Bool} {s t : State}

theorem keeps_setTriad {t0 : Nat} {x : Triad} (h : Keeps b s t) : Keeps b s (setTriad t0 x t) := h.upd

theorem keeps_cnpLatch {bit t0 : Nat} {p : Option Nat} (h : Keeps b s t) : Keeps b s (cnpLatch bit t0 p t) :=
  .upd (keeps_noteSet h)

theorem keeps_cnpEvent {code kind index : Nat} {sev : Option Nat} (h : Keeps b s t) :
    Keeps b s (cnpEvent code kind index sev t) :=
  keeps_raise h

theorem keeps_abandonEach {n : Nat} : ∀ (l : List Chan) {t : State}, Keeps b s t → Keeps b s (abandonEach n l t)
  | [], _, h => h
  | _ :: l, _, h => keeps_abandonEach l (keeps_cnpEvent h)

theorem keeps_abandonJoins {t0 : Nat} (h : Keeps b s t) : Keeps b s (abandonJoins t0 t) :=
  keeps_abandonEach _ (keeps_setTriad h)

theorem keeps_replayPayloads {few : Bool} :
    ∀ (l : List (Nat × Word)) {t : State}, Keeps b s t → Keeps b s (replayPayloads few l t)
  | [], _, h => h
  | _ :: l, _, h => keeps_replayPayloads l (.ite (keeps_payloadLost h) (keeps_modEntry h))

theorem keeps_dropCopies {t0 : Nat} {c : Chan} {few : Bool} (h : Keeps b s t) : Keeps b s (dropCopies t0 c few t) :=
  h.upd

theorem keeps_isolate {t0 cause : Nat} {c : Chan} (h : Keeps b s t) : Keeps b s (isolate t0 cause c t) :=
  .ite (keeps_abandonJoins (keeps_cnpEvent (keeps_cnpLatch (keeps_replayPayloads _ (keeps_dropCopies (keeps_setTriad
    h)))))) (.ite (keeps_abandonJoins h) h)

theorem keeps_isolateLane {c : Chan} : ∀ (l : List Nat) {t : State}, Keeps b s t → Keeps b s (isolateLane c l t)
  | [], _, h => h
  | _ :: l, _, h => keeps_isolateLane l (keeps_isolate h)

theorem keeps_laneLeaves {c : Chan} (h : Keeps b s t) : Keeps b s (laneLeaves c t) :=
  .ite (keeps_isolateLane _ h.upd) h

theorem keeps_isolateAll {n cause : Nat} :
    ∀ (l : List Chan) {t : State}, Keeps b s t → Keeps b s (isolateAll n cause l t)
  | [], _, h => h
  | _ :: l, _, h => keeps_isolateAll l (keeps_isolate h)

theorem keeps_resign (h : Keeps b s t) : Keeps b s (resign t) := .ite (keeps_gftSendAll (keeps_applyPins h.upd)) h

theorem keeps_traceEnd {t0 : Nat} {r : Run} {why : RunEnd} (h : Keeps b s t) : Keeps b s (traceEnd t0 r why t) :=
  keeps_grant (keeps_trace h.upd)

theorem keeps_endRun {t0 : Nat} {why : RunEnd} {saved : Option (List Nat × Ctx)} (h : Keeps b s t) :
    Keeps b s (endRun t0 why saved t) := by
  unfold endRun
  split
  · exact h
  · exact keeps_flushHeld (keeps_modPart (keeps_setTriad (keeps_traceEnd h)))

theorem keeps_effCnpSchedule {c : Cmd} (h : Keeps b s t) : KeepsRes b s (effCnpSchedule c t) := h.upd

theorem keeps_effCnpBudget {c : Cmd} (h : Keeps b s t) : KeepsRes b s (effCnpBudget c t) := h.upd

theorem keeps_effCnpWake {c : Cmd} (h : Keeps b s t) : KeepsRes b s (effCnpWake c t) := keeps_modPart h

theorem keeps_effCnpSpare {c : Cmd} (h : Keeps b s t) : KeepsRes b s (effCnpSpare c t) := h.upd

theorem keeps_effCnpTick {c : Cmd} (h : Keeps b s t) : KeepsRes b s (effCnpTick c t) := h.upd

theorem keeps_effTriadReset {c : Cmd} (h : Keeps b s t) : KeepsRes b s (effTriadReset c t) := by
  unfold effTriadReset
  extract_lets t s1 s2 x s3
  have hs2 : Keeps b s s2 := by
    simp only [s2]
    split
    · exact keeps_flushHeld (keeps_dropRun (keeps_narrowRecord h))
    · exact keeps_narrowRecord h
  exact Keeps.upd (keeps_setTriad hs2)

theorem keeps_effTriadRejoin {c : Cmd} (h : Keeps b s t) : KeepsRes b s (effTriadRejoin c t) :=
  .ite (keeps_setTriad h) h

theorem keeps_execRejoinComplete {triad : Nat} (h : Keeps b s t) : KeepsOut b s (execRejoinComplete triad t) := by
  unfold execRejoinComplete
  extract_lets
  exact .named (by split; exacts [(.next h), (.act h (keeps_cnpEvent (keeps_cnpLatch (keeps_setTriad h.upd))))])

theorem keeps_restorePart {p : Nat} (h : Keeps b s t) : Keeps b s (restorePart p t) := by
  unfold restorePart
  extract_lets
  split
  · exact keeps_flushHeld h
  · exact keeps_restoreRings _ (.updMem (keeps_setPart (keeps_flushHeld h)) fun hm => wf_fill _ _ (wf_filter _ _ hm))

theorem keeps_giveParts {t0 u : Nat} (h : Keeps b s t) : Keeps b s (giveParts t0 u t) := h.upd

theorem keeps_strand {t0 : Nat} (h : Keeps b s t) : Keeps b s (strand t0 t) := h.upd

theorem keeps_failTriad {t0 : Nat} (h : Keeps b s t) : Keeps b s (failTriad t0 t) :=
  .upd (keeps_setTriad (keeps_endRun h))

theorem keeps_dropPassed {p : Nat} (h : Keeps b s t) : Keeps b s (dropPassed p t) := h.upd

theorem keeps_takeOver {t0 u owner : Nat} (h : Keeps b s t) : Keeps b s (takeOver t0 u owner t) :=
  keeps_cnpEvent (keeps_cnpLatch (keeps_giveParts (keeps_setTriad h)))

theorem keeps_move {t0 owner : Nat} (h : Keeps b s t) : Keeps b s (move t0 owner t) := by
  unfold move
  extract_lets u s1 s2
  have hs1 : Keeps b s s1 := keeps_dropPassed (keeps_restorePart (keeps_failTriad (keeps_abandonJoins h)))
  exact .ite (keeps_takeOver (keeps_cnpEvent hs1)) (keeps_resign (keeps_cnpEvent (keeps_cnpLatch (keeps_strand
    (keeps_cnpEvent hs1)))))

theorem keeps_giveFrom {t0 : Nat} (h : Keeps b s t) : Keeps b s (giveFrom t t0) :=
  .ite h (.ite (keeps_giveParts h) (.ite (keeps_giveParts h) h))

theorem keeps_giveStranded (h : Keeps b s t) : Keeps b s (giveStranded t) := .foldl (fun h => keeps_giveFrom h) h

theorem keeps_traceVote {v : Vote} {e : Emission} {passed : Bool} (h : Keeps b s t) :
    Keeps b s (traceVote v e passed t) :=
  keeps_grant (keeps_trace h.upd)

theorem keeps_voteStep {others : List Vote} {old v : Vote} {e : Emission} (h : Keeps b s t) :
    Keeps b s (voteStep others old v e t) := by
  unfold voteStep
  split
  · exact keeps_traceVote h.upd.upd
  · exact h.upd

theorem keeps_noteBell {ch : Chan} {e : Emission} (h : Keeps b s t) : Keeps b s (noteBell ch e t) := by
  unfold noteBell
  split
  · exact h.upd
  · exact h

theorem keeps_execVote {triad : Nat} {ch : Chan} {e : Emission} (h : Keeps b s t) :
    KeepsOut b s (execVote triad ch e t) := by
  unfold execVote
  extract_lets
  exact .named (.act h (by split <;> exact keeps_voteStep (keeps_noteBell h)))

theorem keeps_judgeVote {v : Vote} (h : Keeps b s t) : Keeps b s (judgeVote v t) := by
  unfold judgeVote
  split
  · exact keeps_isolateAll _ (keeps_isolateAll _ h)
  · split
    · exact h
    · split
      · exact keeps_payloadLost (keeps_traceVote h)
      · exact .ite (keeps_pulseSource_warm rfl (keeps_traceVote h)) (keeps_move (keeps_traceVote h))

theorem keeps_execVoteToleranceEnd {triad : Nat} (h : Keeps b s t) : KeepsOut b s (execVoteToleranceEnd triad t) := by
  unfold execVoteToleranceEnd
  exact .named (by split; exacts [(.next h), (.act h (keeps_judgeVote h.upd))])

theorem keeps_startRun {t0 : Nat} {r : Run} (h : Keeps b s t) : Keeps b s (startRun t0 r t) :=
  keeps_setTriad (keeps_modPart (keeps_grant (keeps_trace h)))

theorem keeps_movePtr {t0 : Nat} {r : Run} (h : Keeps b s t) : Keeps b s (movePtr t0 r t) := .ite (keeps_setTriad h) h

theorem keeps_execDispatch {triad : Nat} (h : Keeps b s t) : KeepsOut b s (execDispatch triad t) := by
  unfold execDispatch
  exact .named (by split; exacts [(.next h), (.act h (keeps_startRun (keeps_movePtr h)))])

theorem keeps_execRunEnd {triad : Nat} {why : RunEnd} {counts : List Nat} {ctx : Ctx} (h : Keeps b s t) :
    KeepsOut b s (execRunEnd triad why counts ctx t) := by
  unfold execRunEnd
  exact .named (by split; exacts [(.next h), (.act h (keeps_endRun h))])

theorem keeps_execWake (h : Keeps b s t) : KeepsOut b s (execWake t) := by
  unfold execWake
  split
  · exact .next h
  · exact .next (keeps_modPart h.upd)

theorem keeps_takeTrap {p : Nat} {vu : Bool} {t0 : Nat × Nat} {ctx : Ctx} (h : Keeps b s t) :
    Keeps b s (takeTrap p vu t0 ctx t) :=
  keeps_modPart h

theorem keeps_execYield {triad : Nat} {by_ : YieldBy} {ctx : Ctx} (h : Keeps b s t) :
    KeepsOut b s (execYield triad by_ ctx t) := by
  unfold execYield
  exact .named (by split; exacts [(.next h), (.act h (.ite (keeps_takeTrap h) (keeps_endRun h)))])

theorem keeps_execPwakeClear {part : Nat} {write : PwWrite} (h : Keeps b s t) :
    KeepsOut b s (execPwakeClear part write t) :=
  .named (.act h (.ite (keeps_takeTrap h) (keeps_modPart h)))

theorem keeps_execFirstTouch {part : Nat} {addr : Touch} {kind : Access} (h : Keeps b s t) :
    KeepsOut b s (execFirstTouch part addr kind t) := by
  unfold execFirstTouch
  exact .named (by split; exacts [(.next h), (.ite (.next (KeepsOpt.getD (keeps_touch (keeps_pgkAsk h)) h)) (.act h
    (by split; exacts [(keeps_takeTrap (keeps_setPart h)), (KeepsOpt.getD (keeps_touch (keeps_pgkAsk h)) h)])))])

theorem keeps_cpuStore {p iova : Nat} {data : Bytes} (h : Keeps b s t) : Keeps b s (cpuStore p iova data t) :=
  h.updMem (wf_write _ _ _)

theorem keeps_dirtyStall {p : Nat} {ctx : Ctx} (h : Keeps b s t) : Keeps b s (dirtyStall p ctx t) :=
  keeps_raise (keeps_cnpLatch (keeps_endRun h))

theorem keeps_execFirstStore {part iova : Nat} {data : Bytes} {ctx : Ctx} (h : Keeps b s t) :
    KeepsOut b s (execFirstStore part iova data ctx t) := by
  unfold execFirstStore
  exact .named (by split; exacts [(.next h), (.act h (.ite (keeps_dirtyStall h) (keeps_cpuStore (.upd (keeps_modPart
    (KeepsOpt.getD (keeps_touch (keeps_pgkAsk h)) h))))))])

theorem keeps_endAll : ∀ (l : List (Nat × List Nat × Ctx)) {t : State}, Keeps b s t → Keeps b s (endAll l t)
  | [], _, h => h
  | _ :: l, _, h => keeps_endAll l (keeps_endRun h)

theorem keeps_endRest : ∀ (l : List Nat) {t : State}, Keeps b s t → Keeps b s (endRest l t)
  | [], _, h => h
  | _ :: l, _, h => keeps_endRest l (keeps_endRun h)

theorem keeps_execTailStart {saved : List (Nat × List Nat × Ctx)} (h : Keeps b s t) :
    KeepsOut b s (execTailStart saved t) :=
  .act h (.upd (keeps_endRest _ (keeps_endAll _ h)))

theorem keeps_takeAllMarks (h : Keeps b s t) : Keeps b s (takeAllMarks t) := h.upd

theorem keeps_restoreBudgets (h : Keeps b s t) : Keeps b s (restoreBudgets t) := h.upd

theorem keeps_markRephase {cur end_ : Nat} (h : Keeps b s t) : Keeps b s (markRephase cur end_ t) := h.upd

theorem keeps_nextTick (h : Keeps b s t) : Keeps b s (nextTick t) := by
  unfold nextTick
  exact .ite (keeps_markRephase (.upd (by split <;> exact h.upd))) (.upd (by split <;> exact h.upd))

theorem keeps_rephaseTick (h : Keeps b s t) : Keeps b s (rephaseTick t) := keeps_markRephase (.upd (keeps_noteSet h))

theorem keeps_canopyStep {n : Nat} (h : Keeps b s t) : Keeps b s (canopyStep n t) := .ite (keeps_rephaseTick h) h

theorem keeps_canopyLeave {n : Nat} {old : State} (h : Keeps b s t) : Keeps b s (canopyLeave n old t) := .ite h.upd h

theorem keeps_testKeys {p : Nat} (h : Keeps b s t) : Keeps b s (testKeys p t) := keeps_testSlots _ (keeps_testGrove h)

theorem keeps_startSave {c : Cmd} (h : Keeps b s t) : Keeps b s (startSave c t) := .upd (keeps_modPart h)

theorem keeps_finishSave {c : Cmd} (h : Keeps b s t) : KeepsRes b s (finishSave c t) := by
  unfold finishSave
  extract_lets
  split
  · exact .ite (keeps_modPart (keeps_testKeys h)) (keeps_resOut (keeps_modPart (.upd (keeps_testKeys h))))
  · exact keeps_modPart (keeps_testKeys h)
  · exact keeps_testKeys h

theorem wf_fillPages {p : Nat} {l : List (Nat × Nat × Bytes)} : ∀ {m : List Host.Cell}, Memory.wf m = true →
    Memory.wf (fillPages p l m) = true := by
  induction l with
  | nil => exact id
  | cons e es ih => exact fun hm => ih (wf_write _ _ _ hm)

theorem keeps_placeKeys {p : Nat} {gsk : Bytes} : ∀ (bs : List Bytes) (ks : List Nat) {branch : Nat} {t : State},
    Keeps b s t → Keeps b s (placeKeys p gsk bs ks branch t)
  | [], _, _, _, h => h
  | _ :: _, [], _, _, h => h
  | _ :: bs, _ :: ks, _, _, h => keeps_placeKeys bs ks (keeps_writeSlot h)

theorem keeps_restored {p : Nat} {o : Opened} {gsk : Bytes} (h : Keeps b s t) : Keeps b s (restored p o gsk t) := by
  unfold restored
  extract_lets
  exact keeps_placeKeys _ _ (.updMem (keeps_setPart h) wf_fillPages)

theorem keeps_startRestore {c : Cmd} (h : Keeps b s t) : Keeps b s (startRestore c t) := keeps_setPart h

theorem keeps_finishRestore {c : Cmd} (h : Keeps b s t) : KeepsRes b s (finishRestore c t) := by
  unfold finishRestore
  extract_lets
  split
  · exact Keeps.upd (keeps_testGrove h)
  · exact .ite (Keeps.upd (keeps_testGrove h)) (.ite (Keeps.upd (keeps_testGrove h)) (by split; exacts [(Keeps.upd
      (keeps_testGrove h)), (.ite (Keeps.upd (keeps_testGrove h)) (keeps_restored (.upd (keeps_testGrove h))))]))

theorem keeps_mapPages {p : Nat} {pages : List Nat} (h : Keeps b s t) : KeepsOpt b s (mapPages p pages t) :=
  keeps_touches (.some h)

theorem keeps_effRingCreate {c : Cmd} (h : Keeps b s t) : KeepsRes b s (effRingCreate c t) := by
  unfold effRingCreate
  extract_lets
  split
  · exact h
  · exact keeps_writeShadow (.upd ((keeps_mapPages (.ite h (keeps_pgkAsk h)) _ ‹_›)))

theorem keeps_setRing {r : Nat} {x : Ring} (h : Keeps b s t) : Keeps b s (setRing r x t) := keeps_writeShadow h.upd

theorem keeps_effRingEnable {c : Cmd} (h : Keeps b s t) : KeepsRes b s (effRingEnable c t) := by
  unfold effRingEnable
  split
  · exact h
  · exact keeps_setRing h

theorem keeps_effRingDisable {c : Cmd} (h : Keeps b s t) : KeepsRes b s (effRingDisable c t) := keeps_disableRing h

theorem keeps_effRingReset {c : Cmd} (h : Keeps b s t) : KeepsRes b s (effRingReset c t) := keeps_newGeneration h

theorem keeps_effRingDestroy {c : Cmd} (h : Keeps b s t) : KeepsRes b s (effRingDestroy c t) :=
  keeps_unmatchedAll _ h.upd

theorem keeps_effRingShare {c : Cmd} (h : Keeps b s t) : KeepsRes b s (effRingShare c t) := keeps_modRing h

theorem keeps_effRingQuery {c : Cmd} (h : Keeps b s t) : KeepsRes b s (effRingQuery c t) := by
  unfold effRingQuery
  split <;> exact h

theorem keeps_usePassed {e : Emission} (h : Keeps b s t) : Keeps b s (usePassed e t) := h.upd

theorem keeps_sampleLines {r : Nat} {ccons econs een : Word} (h : Keeps b s t) :
    Keeps b s (sampleLines r ccons econs een t) :=
  .ite (.upd (keeps_modRing h)) (.ite (.upd (keeps_modRing h)) (keeps_modRing h))

theorem keeps_judgeBell {r : Nat} {prod : Word} (h : Keeps b s t) : Keeps b s (judgeBell r prod t) := by
  unfold judgeBell
  split
  · exact h
  · exact .ite h (.ite (keeps_setRing h) (keeps_ringEvent h))

theorem keeps_execDoorbell {ring : Nat} {prod ccons econs een : Word} (h : Keeps b s t) :
    KeepsOut b s (execDoorbell ring prod ccons econs een t) :=
  .named (.act h (keeps_judgeBell (keeps_sampleLines (keeps_usePassed h))))

theorem keeps_newRound {eng : Nat} (h : Keeps b s t) : Keeps b s (newRound eng t) := h.upd

theorem keeps_leaveRound {eng : Nat} (h : Keeps b s t) : Keeps b s (leaveRound eng t) := h.upd

theorem keeps_roundFor {eng : Nat} (h : Keeps b s t) : Keeps b s (roundFor eng t) :=
  .ite (keeps_newRound h) (keeps_leaveRound h)

theorem keeps_markStarted {r : Nat} {seq : Word} (h : Keeps b s t) : Keeps b s (markStarted r seq t) :=
  keeps_modEntry h

theorem keeps_markStale {p : Nat} (h : Keeps b s t) : Keeps b s (markStale p t) := keeps_modPart h

theorem keeps_holdOp {r : Nat} {seq : Word} {p : Payload} (h : Keeps b s t) : Keeps b s (holdOp r seq p t) :=
  .ite (keeps_markStale (keeps_markStarted h)) (.upd (keeps_markStarted h))

theorem keeps_noteCrc {b0 r : Nat} {seq : Word} {p : Option Payload} (h : Keeps b s t) :
    Keeps b s (noteCrc b0 r seq p t) :=
  .ite (keeps_modEntry h) h

/-- The row of an emitting operation keeps what its effect keeps. -/
theorem KeepsOut.emitRow {k op ring : Nat} {seq : Word} {p : Option Payload} {eff : State → State} (h : Keeps b s t)
    (he : ∀ {v}, Keeps b s v → Keeps b s (eff v)) : KeepsOut b s (emitRow k op ring seq p t eff) := by
  have hu : Keeps b s (if p.isSome then usePassed (.payload ring seq (p.getD (.bytes []))) t else t) := .ite (keeps_usePassed h) h
  exact .named (.act h (.ite (keeps_holdOp hu) (he (keeps_noteCrc (keeps_markStarted hu)))))

theorem keeps_execNop {ring : Nat} {seq : Word} (h : Keeps b s t) : KeepsOut b s (execNop ring seq t) := by
  unfold execNop
  exact .named (.ite (.act h (keeps_finishNow h)) (by split; exacts [(.act h (keeps_complete h)), (.next h)]))

theorem keeps_toPhase {p : Phase} (h : Keeps b s t) : Keeps b s (toPhase p t) := h.upd

theorem keeps_trimDone (h : Keeps b s t) : Keeps b s (trimDone t) := keeps_toPhase h.upd

theorem keeps_trimMismatch (h : Keeps b s t) : Keeps b s (trimMismatch t) :=
  .ite (keeps_trimAbort h) (.ite (keeps_toPhase (keeps_trimAbort h)) (keeps_toPhase (.upd (keeps_trimAbort h))))

theorem keeps_execTrimLoadEnd {words : List Word} {crc : Word} (h : Keeps b s t) :
    KeepsOut b s (execTrimLoadEnd words crc t) :=
  .act h (.ite (keeps_trimDone h.upd) (keeps_trimMismatch h.upd))

theorem keeps_strapHold (h : Keeps b s t) : Keeps b s (strapHold t) := keeps_toPhase h.upd

theorem keeps_strapAccept {bin code : Nat} (h : Keeps b s t) : Keeps b s (strapAccept bin code t) :=
  keeps_toPhase h.upd

theorem keeps_execStrapMeasurementEnd {codes : List Nat} (h : Keeps b s t) :
    KeepsOut b s (execStrapMeasurementEnd codes t) := by
  unfold execStrapMeasurementEnd
  exact .act h (by split; exacts [(.ite (keeps_strapHold h) (keeps_strapAccept h)), (.ite (keeps_strapHold h.upd)
    (keeps_toPhase h.upd))])

theorem keeps_execPllLock (h : Keeps false s t) : KeepsOut false s (execPllLock t) :=
  .act h (.ite (keeps_raise (.upd (keeps_toPhase h.updIsle))) (keeps_toPhase h.updIsle))

theorem keeps_noSpares : ∀ (l : List Nat) {t : State}, Keeps b s t → Keeps b s (noSpares l t)
  | [], _, h => h
  | _ :: l, _, h => keeps_noSpares l (keeps_raise h)

theorem keeps_execLanesTrained {noSpare : List Nat} (h : Keeps b s t) : KeepsOut b s (execLanesTrained noSpare t) :=
  .act h (keeps_noSpares _ (keeps_toPhase h.upd))

theorem keeps_turnTo {sources : List Nat} (h : Keeps false s t) : Keeps false s (turnTo sources t) :=
  .ite (keeps_failedStart h.upd) h.upd

theorem keeps_seedPort (h : Keeps b s t) : Keeps b s (seedPort t) := .ite h h.upd

theorem keeps_heartwoodStart (h : Keeps false s t) : Keeps false s (heartwoodStart t) :=
  .ite (keeps_applyPins (keeps_seedPort (keeps_writeShadow h.upd.upd))) (keeps_turnTo (keeps_writeShadow h.upd.upd))

theorem keeps_acceptImage {slot : Nat} {h0 body : Bytes} (h : Keeps b s t) :
    Keeps b s (acceptImage slot h0 body t) :=
  .upd (keeps_createP0 h)

theorem keeps_refuseImage {st : Nat} (h : Keeps false s t) : Keeps false s (refuseImage st t) := keeps_turnTo h.upd

theorem keeps_execImageSourceDone {seen : ImageSeen} (h : Keeps false s t) :
    KeepsOut false s (execImageSourceDone seen t) := by
  unfold execImageSourceDone
  split
  · exact .next h
  · exact .act h (.ite (keeps_refuseImage h) (.ite (keeps_acceptImage h.upd) (keeps_refuseImage h.upd)))

theorem keeps_execHostWindowExpiry (h : Keeps false s t) : KeepsOut false s (execHostWindowExpiry t) :=
  .act h (keeps_turnTo h)

theorem keeps_writeReady {r : Nat} : ∀ (n : Nat) {t : State}, Keeps b s t → Keeps b s (writeReady r n t)
  | 0, _, h => h
  | n + 1, _, h => keeps_writeReady n (keeps_writeNext h)

theorem keeps_completeThenPulse {c : Cmd} {src : Source} {r : Res} (h : KeepsRes false s r) :
    Keeps false s (completeThenPulse c src r) := by
  have hc : Keeps false s (complete c r) := keeps_complete h
  exact .ite (keeps_pulseSource (keeps_writeReady _ hc)) hc

theorem keeps_effModuleReset {_c : Cmd} (h : Keeps b s t) : KeepsRes b s (effModuleReset _c t) := h

theorem keeps_execModuleReset {c : Cmd} (h : Keeps false s t) : KeepsOut false s (execModuleReset c t) :=
  .act h (keeps_completeThenPulse (.perform h (keeps_effModuleReset h)))

theorem keeps_effBootComplete {_c : Cmd} (h : Keeps b s t) : KeepsRes b s (effBootComplete _c t) := keeps_raise h.upd

theorem keeps_effSeedlingExit {_c : Cmd} (h : Keeps b s t) : KeepsRes b s (effSeedlingExit _c t) := h.upd

theorem keeps_execSeedlingExit {c : Cmd} (h : Keeps false s t) : KeepsOut false s (execSeedlingExit c t) :=
  .act h (keeps_completeThenPulse (.perform h (keeps_effSeedlingExit h)))

theorem keeps_setFlash {slot : Nat} {f : FlashSlot} (h : Keeps b s t) : Keeps b s (setFlash slot f t) := h.upd

theorem keeps_startImgErase {c : Cmd} (h : Keeps b s t) : Keeps b s (startImgErase c t) := keeps_setFlash h

theorem keeps_finishImgErase {c : Cmd} {r : BReply} (h : Keeps b s t) : KeepsRes b s (finishImgErase c r t) :=
  .ite (keeps_setFlash h) (keeps_setFlash h)

theorem keeps_startImgWrite {c : Cmd} (h : Keeps b s t) : Keeps b s (startImgWrite c t) := keeps_setFlash h

theorem keeps_finishImgWrite {c : Cmd} {r : BReply} (h : Keeps b s t) : KeepsRes b s (finishImgWrite c r t) :=
  .ite (keeps_setFlash h) h

theorem keeps_finishImgCheck {c : Cmd} {r : BReply} (h : Keeps b s t) : KeepsRes b s (finishImgCheck c r t) :=
  .ite h (.ite h h)

theorem keeps_effImgHostLoad {c : Cmd} (h : Keeps b s t) : KeepsRes b s (effImgHostLoad c t) := h.upd

theorem keeps_startImgHostStart {_c : Cmd} (h : Keeps b s t) : Keeps b s (startImgHostStart _c t) := h.upd

theorem keeps_finishImgHostStart (h : Keeps false s t) : KeepsRes false s (finishImgHostStart t) :=
  .ite (keeps_acceptImage h.upd) (.ite (keeps_refuseImage h.upd) h.upd.upd)

theorem keeps_finishImgFloor {c : Cmd} (h : Keeps b s t) : KeepsRes b s (finishImgFloor c t) := keeps_recordOnly h.upd

theorem keeps_effObsIdent {c : Cmd} (h : Keeps b s t) : KeepsRes b s (effObsIdent c t) := keeps_resOut h

theorem keeps_execSeedlingAnnounce (h : Keeps b s t) : KeepsOut b s (execSeedlingAnnounce t) := .act h h.upd

end

/-! ### Memory integrity, inputs and outputs, the switch core, time -/

section
variable {b : Bool} {s t : State}

theorem keeps_setEcc {m : Nat} {x : EccMem} (h : Keeps b s t) : Keeps b s (setEcc m x t) := h.upd

theorem keeps_eccEvent {code m : Nat} {data : Bytes} {sev : Option Nat} (h : Keeps b s t) :
    Keeps b s (eccEvent code m data sev t) :=
  keeps_raise h

theorem keeps_fillBucket {m : Nat} (h : Keeps b s t) : Keeps b s (fillBucket m t) :=
  .ite (keeps_setEcc h) (keeps_eccEvent (.upd (keeps_noteSet (keeps_setEcc h))))

theorem keeps_addRepair {m : Nat} {loc : BitVec 64} (h : Keeps b s t) : Keeps b s (addRepair m loc t) :=
  .ite h (keeps_eccEvent h.upd)

theorem keeps_noteSuspect {m : Nat} {loc : BitVec 64} (h : Keeps b s t) : Keeps b s (noteSuspect m loc t) :=
  keeps_setEcc h

theorem keeps_idleAsk {i lane : Nat} (h : Keeps b s t) : Keeps b s (idleAsk i lane t) := h.upd

theorem keeps_patrolAsk {m : Nat} (h : Keeps b s t) : Keeps b s (patrolAsk m t) := .ite (keeps_idleAsk h) h

theorem keeps_execCorrectableError {mem : Nat} {loc : BitVec 64} (h : Keeps b s t) :
    KeepsOut b s (execCorrectableError mem loc t) :=
  .named (.act h (keeps_noteSuspect (.ite (keeps_addRepair (keeps_fillBucket (keeps_setEcc h))) (keeps_fillBucket
    (keeps_setEcc h)))))

theorem keeps_lapLate {m : Nat} (h : Keeps b s t) : Keeps b s (lapLate m t) :=
  .ite (keeps_eccEvent (keeps_setEcc h)) h

theorem keeps_execScrubLapEnd {mem ms : Nat} (h : Keeps b s t) : KeepsOut b s (execScrubLapEnd mem ms t) :=
  .named (.act h (keeps_setEcc (keeps_patrolAsk (keeps_lapLate h))))

theorem keeps_execScrubLapLate {mem : Nat} (h : Keeps b s t) : KeepsOut b s (execScrubLapLate mem t) :=
  .named (.act h (keeps_lapLate h))

theorem keeps_execBucketLeak (h : Keeps b s t) : KeepsOut b s (execBucketLeak t) := .act h h.upd

theorem keeps_execFrameScrubbed (h : Keeps b s t) : KeepsOut b s (execFrameScrubbed t) :=
  .act h (.foldl (fun h => keeps_idleAsk h) h.upd)

theorem keeps_effEccBucket {c : Cmd} (h : Keeps b s t) : KeepsRes b s (effEccBucket c t) := keeps_setEcc h

theorem keeps_effEccQuery {c : Cmd} (h : Keeps b s t) : KeepsRes b s (effEccQuery c t) := keeps_resOut h

theorem keeps_setBin {n : Nat} {x : BinIn} (h : Keeps b s t) : Keeps b s (setBin n x t) := h.upd

theorem keeps_countBin {n i : Nat} (h : Keeps b s t) : Keeps b s (countBin n i t) := h.upd

theorem keeps_effBinConfig {c : Cmd} (h : Keeps b s t) : KeepsRes b s (effBinConfig c t) := keeps_setBin h

theorem keeps_levelChange {type src : Nat} {level : Bool} (h : Keeps b s t) :
    Keeps b s (levelChange type src level t) :=
  h.upd

theorem keeps_effBinEnable {c : Cmd} (h : Keeps b s t) : KeepsRes b s (effBinEnable c t) :=
  Keeps.ite (keeps_levelChange (keeps_setBin h)) (keeps_setBin h)

theorem keeps_effBinDisable {c : Cmd} (h : Keeps b s t) : KeepsRes b s (effBinDisable c t) := keeps_setBin h

theorem keeps_writeLine {x : BinIn} {osn : Nat} (h : Keeps b s t) : Keeps b s (writeLine x osn t) :=
  .ite (keeps_visWrite h) h

theorem keeps_binWakes {n : Nat} {rise : Bool} (h : Keeps b s t) : Keeps b s (binWakes n rise t) := keeps_fireBinds h

theorem keeps_binChange {n : Nat} {v : Bool} {f : Nat} (h : Keeps b s t) : Keeps b s (binChange n v f t) := by
  unfold binChange
  extract_lets x good time lineTime osn tell y s1 s2
  have hs1 : Keeps b s s1 := keeps_ioEvent (keeps_countBin (keeps_setBin h))
  exact keeps_writeLine (keeps_binWakes hs1.upd)

theorem keeps_endRunOf {n : Nat} (h : Keeps b s t) : Keeps b s (endRunOf n t) :=
  .ite (keeps_binChange h) (keeps_countBin (keeps_setBin h))

theorem keeps_settleBin {n f : Nat} (h : Keeps b s t) : Keeps b s (settleBin n f t) := .ite (keeps_endRunOf h) h

theorem keeps_execBinTransition {input : Nat} {level : Bool} {instant : Nat} (h : Keeps b s t) :
    KeepsOut b s (execBinTransition input level instant t) :=
  .named (.next (.ite (keeps_setBin (.ite h (keeps_settleBin h))) (.ite (keeps_binChange (keeps_setBin (.ite h
    (keeps_settleBin h)))) (keeps_setBin (keeps_setBin (.ite h (keeps_settleBin h)))))))

theorem keeps_execBinFilterWindowEnd {input : Nat} (h : Keeps b s t) :
    KeepsOut b s (execBinFilterWindowEnd input t) :=
  .named (.act h (keeps_endRunOf h))

theorem keeps_stopBin {n : Nat} (h : Keeps b s t) : Keeps b s (stopBin n t) :=
  keeps_levelChange (keeps_offEvents (keeps_setBin h))

theorem keeps_countOut {n i : Nat} (h : Keeps b s t) : Keeps b s (countOut n i t) := h.upd

theorem keeps_effOutConfig {c : Cmd} (h : Keeps b s t) : KeepsRes b s (effOutConfig c t) := keeps_setOut h

theorem keeps_effOutEnable {c : Cmd} (h : Keeps b s t) : KeepsRes b s (effOutEnable c t) := keeps_setOut h

theorem keeps_effOutDisable {c : Cmd} (h : Keeps b s t) : KeepsRes b s (effOutDisable c t) := keeps_setOut h

theorem keeps_latchInh (h : Keeps b s t) : Keeps b s (latchInh t) :=
  .ite h (.ite (.upd (keeps_applyPins h.upd)) (keeps_raise (keeps_applyPins h.upd)))

theorem keeps_execOutinhN {high : Bool} {ns : Nat} (h : Keeps b s t) : KeepsOut b s (execOutinhN high ns t) :=
  .next (.ite h.upd (keeps_latchInh h.upd))

theorem keeps_effOutInhClear {_c : Cmd} (h : Keeps b s t) : KeepsRes b s (effOutInhClear _c t) :=
  .ite (keeps_noteSet h.upd) (.ite h (keeps_raise (keeps_applyPins h.upd)))

theorem keeps_suppress {n : Nat} (h : Keeps b s t) : Keeps b s (suppress n t) :=
  .ite h (.ite (keeps_setOut h) (keeps_ioEvent (keeps_setOut h)))

theorem keeps_loadDone {q : Pend} (h : Keeps b s t) : Keeps b s (loadDone q t) := by
  unfold loadDone
  split
  · exact h
  · exact .ite (keeps_finishOp (keeps_cancelCmps h.upd)) h

theorem keeps_channelDone {q : Pend} {n : Nat} {loaded lost : Bool} (h : Keeps b s t) :
    Keeps b s (channelDone q n loaded lost t) :=
  keeps_loadDone h.upd

theorem keeps_releasePend {n : Nat} {lost : Bool} (h : Keeps b s t) : Keeps b s (releasePend n lost t) := by
  unfold releasePend
  extract_lets
  split
  · exact h
  · exact keeps_channelDone (keeps_setOut h)

theorem keeps_countPeriod {n : Nat} {c : OutCh} (h : Keeps b s t) : Keeps b s (countPeriod n c t) := by
  unfold countPeriod
  extract_lets s1 s2
  have hs2 : Keeps b s s2 := .ite (keeps_countOut (keeps_countOut h)) (keeps_countOut h)
  exact .ite (keeps_suppress (keeps_countOut hs2)) (.ite (keeps_suppress (keeps_countOut hs2)) hs2)

theorem keeps_beginPeriod {n t0 : Nat} (h : Keeps b s t) : Keeps b s (beginPeriod n t0 t) :=
  keeps_countPeriod (keeps_setOut h)

theorem keeps_takeLoad {n t0 : Nat} {q : Pend} (h : Keeps b s t) : Keeps b s (takeLoad n t0 q t) := by
  unfold takeLoad
  extract_lets c y econ s1 s2
  have hs2 : Keeps b s s2 := .ite (keeps_setOut (keeps_countOut h)) (.ite (keeps_setOut (keeps_countOut h))
    (keeps_beginPeriod (keeps_setOut (keeps_countOut h))))
  exact keeps_channelDone hs2

theorem keeps_stageEff {r : Nat} {seq : Word} (h : Keeps b s t) : Keeps b s (stageEff r seq t) := by
  unfold stageEff
  split
  · exact h
  · exact keeps_finishNow (keeps_setOut h)

theorem keeps_stageRow {ring : Nat} {seq : Word} (h : Keeps b s t) : KeepsOut b s (stageRow ring seq t) :=
  .emitRow h (fun h => keeps_stageEff h)

theorem keeps_loadChan {q : Pend} {when_ n : Nat} (h : Keeps b s t) : Keeps b s (loadChan q when_ t n) :=
  .ite (keeps_takeLoad (keeps_releasePend h)) (keeps_setOut (keeps_releasePend h))

theorem keeps_loadEff {r : Nat} {seq : Word} {block : Bytes} (h : Keeps b s t) :
    Keeps b s (loadEff r seq block t) := by
  unfold loadEff
  split
  · exact h
  · exact .ite (keeps_finishNow h) (.foldl (fun h => keeps_loadChan h) (.ite (keeps_armCmp h.upd) h.upd))

theorem keeps_loadRow {ring : Nat} {seq : Word} {block : Bytes} (h : Keeps b s t) :
    KeepsOut b s (loadRow ring seq block t) :=
  .emitRow h (fun h => keeps_loadEff h)

theorem keeps_fireLoad {ring gen : Nat} {seq : Word} (h : Keeps b s t) : Keeps b s (fireLoad ring gen seq t) := by
  unfold fireLoad
  exact .foldl (fun h => by split; exacts [(.ite (keeps_setOut h) h), h]) h

theorem keeps_cancelLoad {ring gen : Nat} {seq : Word} (h : Keeps b s t) : Keeps b s (cancelLoad ring gen seq t) := by
  unfold cancelLoad
  exact .foldl (fun h => by split; exacts [(.ite (keeps_releasePend h) h), h]) h

theorem keeps_pulseEff {r : Nat} {seq : Word} (h : Keeps b s t) : Keeps b s (pulseEff r seq t) := by
  unfold pulseEff
  split
  · exact h
  · exact .ite (keeps_finishNow h) (.ite (keeps_suppress (keeps_countOut (keeps_countOut (keeps_setOut h))))
      (keeps_countOut (keeps_setOut h)))

theorem keeps_pulseRow {ring : Nat} {seq : Word} (h : Keeps b s t) : KeepsOut b s (pulseRow ring seq t) :=
  .emitRow h (fun h => keeps_pulseEff h)

theorem keeps_execPulseEnd {ch : Nat} (h : Keeps b s t) : KeepsOut b s (execPulseEnd ch t) := by
  unfold execPulseEnd
  extract_lets
  exact .named (by split; exacts [(.next h), (.act h (keeps_finishOp (keeps_setOut h)))])

theorem keeps_execPeriodStart {ch : Nat} (h : Keeps b s t) : KeepsOut b s (execPeriodStart ch t) := by
  unfold execPeriodStart
  extract_lets
  exact .named (by split; exacts [(.act h (keeps_takeLoad h)), (.act h (by split; exacts [(.ite (keeps_beginPeriod h)
    (keeps_takeLoad h)), (keeps_beginPeriod h)]))])

theorem keeps_execPhaseEnd {ch : Nat} (h : Keeps b s t) : KeepsOut b s (execPhaseEnd ch t) :=
  .named (.act h (keeps_setOut h))

theorem keeps_execDeadTimeEnd {ch : Nat} (h : Keeps b s t) : KeepsOut b s (execDeadTimeEnd ch t) :=
  .named (.act h (keeps_setOut h))

theorem keeps_execPullInEnd {ch : Nat} (h : Keeps b s t) : KeepsOut b s (execPullInEnd ch t) :=
  .named (.act h (keeps_beginPeriod (keeps_setOut h)))

theorem keeps_stopOut {n : Nat} (h : Keeps b s t) : Keeps b s (stopOut n t) :=
  keeps_offEvents (keeps_setOut (keeps_releasePend h))

theorem keeps_setPort {n : Nat} {x : Port} (h : Keeps b s t) : Keeps b s (setPort n x t) := h.upd

theorem keeps_addPort {n i k : Nat} (h : Keeps b s t) : Keeps b s (addPort n i k t) := h.upd

theorem keeps_countPort {n i : Nat} (h : Keeps b s t) : Keeps b s (countPort n i t) := keeps_addPort h

theorem keeps_noteFifo {n : Nat} (h : Keeps b s t) : Keeps b s (noteFifo n t) := h.upd

theorem keeps_sdclkBack (h : Keeps false s t) : Keeps false s (sdclkBack t) := .ite h h.updIsle

theorem keeps_countQueue {q i : Nat} (h : Keeps b s t) : Keeps b s (countQueue q i t) := h.upd

theorem keeps_countRed {inst side i : Nat} (h : Keeps b s t) : Keeps b s (countRed inst side i t) := h.upd

theorem keeps_countSw {i : Nat} (h : Keeps b s t) : Keeps b s (countSw i t) := h.upd

theorem keeps_latchSw {bit : Nat} (h : Keeps b s t) : Keeps b s (latchSw bit t) := .upd (keeps_noteSet h)

theorem keeps_countEntry {m : FMeta} {i n : Nat} (h : Keeps b s t) : Keeps b s (countEntry m i n t) :=
  .ite h.upd (keeps_latchSw h.upd)

theorem keeps_finishSends : ∀ (l : List SendOp) {t : State}, Keeps b s t → Keeps b s (finishSends l t)
  | [], _, h => h
  | _ :: l, _, h => keeps_finishSends l (keeps_finishOp h)

theorem keeps_settle {m : FMeta} {f : Fate} (h : Keeps b s t) : Keeps b s (settle m f t) := keeps_finishSends _ h.upd

theorem keeps_setQueue {q : Nat} {x : Queue} (h : Keeps b s t) : Keeps b s (setQueue q x t) := h.upd

theorem keeps_noteLow (h : Keeps b s t) : Keeps b s (noteLow t) := h.upd

theorem keeps_redDrops {q colour : Nat} (h : Keeps b s t) : Keeps b s (redDrops q colour t).2 :=
  .ite_snd h (.ite_snd h (keeps_fresh h))

theorem keeps_admitCode {q c colour : Nat} (h : Keeps b s t) : Keeps b s (admitCode q c colour t).2 :=
  .ite_snd h (.ite_snd h (.ite_snd h (.ite_snd h (.ite_snd (keeps_redDrops h) h))))

theorem keeps_notePause {n : Nat} (h : Keeps b s t) : Keeps b s (notePause n t) :=
  .ite (.ite (keeps_setPort h) (keeps_countPort (keeps_setPort h))) h

theorem keeps_enqueue {h0 : Held} {q colour : Nat} (h : Keeps b s t) : Keeps b s (enqueue h0 q colour t) :=
  .ite (keeps_notePause (keeps_noteLow (keeps_setQueue (keeps_countQueue (keeps_admitCode h))))) (keeps_settle (.ite
    (keeps_latchSw (keeps_countQueue (keeps_admitCode h))) (keeps_countQueue (keeps_admitCode h))))

theorem keeps_flushFrames {q : Nat} : ∀ (l : List Held) {t : State}, Keeps b s t → Keeps b s (flushFrames q l t)
  | [], _, h => h
  | _ :: l, _, h => keeps_flushFrames l (keeps_settle (keeps_countQueue h))

theorem keeps_flushQueue {q : Nat} (h : Keeps b s t) : Keeps b s (flushQueue q t) :=
  .ite h (keeps_flushFrames _ (keeps_setQueue h))

theorem keeps_flushPort {n : Nat} (h : Keeps b s t) : Keeps b s (flushPort n t) :=
  .foldl (fun h => keeps_flushQueue h) h

theorem keeps_deliverPages {p : Nat} : ∀ (n : Nat) {iova : Nat} {d : Bytes} {t : State},
    Keeps b s t → Keeps b s (deliverPages p n iova d t).1
  | 0, _, _, _, h => h
  | n + 1, iova, d, t, h => by
    unfold deliverPages
    split
    · exact h
    · next u hu => exact keeps_deliverPages n (keeps_deliver (keeps_touch (.ite h (keeps_pgkAsk h)) u hu))

theorem keeps_deliverOp {p iova : Nat} {b0 : Bytes} (h : Keeps b s t) : Keeps b s (deliverOp p iova b0 t).1 :=
  keeps_deliverPages _ h

theorem keeps_localHeader {p iova : Nat} (h : Keeps b s t) : Keeps b s (localHeader p iova t) :=
  keeps_noteLocal (keeps_noteLocal h)

theorem keeps_fillRecv {r : Nat} (h : Keeps b s t) : Keeps b s (fillRecv r t) := by
  unfold fillRecv
  split
  · exact .ite (keeps_finishOp (keeps_deliverOp (keeps_localHeader (keeps_noteInput h.upd)))) (keeps_finishOp
      (keeps_deliverOp (keeps_localHeader (keeps_noteInput h.upd))))
  · exact h

theorem keeps_ringDrop {h0 : Held} (h : Keeps b s t) : Keeps b s (ringDrop h0 t) := keeps_settle (keeps_countEntry h)

theorem keeps_toRing {h0 : Held} {r : Nat} (h : Keeps b s t) : Keeps b s (toRing h0 r t) :=
  .ite (keeps_fillRecv (keeps_settle h.upd)) (keeps_ringDrop h)

theorem keeps_toSe0 {h0 : Held} (h : Keeps b s t) : Keeps b s (toSe0 h0 t) :=
  .ite (keeps_settle h.upd) (keeps_ringDrop h)

theorem keeps_toSe1 {h0 : Held} (h : Keeps b s t) : Keeps b s (toSe1 h0 t) :=
  .ite (keeps_settle h.upd) (keeps_ringDrop h)

theorem keeps_holdPps (h : Keeps b s t) : Keeps b s (holdPps t) := h.upd

theorem keeps_setTb {n : Nat} {b0 : TBase} (h : Keeps b s t) : Keeps b s (setTb n b0 t) := keeps_holdPps h.upd

theorem keeps_addTb {n i k : Nat} (h : Keeps b s t) : Keeps b s (addTb n i k t) := h.upd

theorem keeps_countTs {n i : Nat} (h : Keeps b s t) : Keeps b s (countTs n i t) := h.upd

theorem keeps_effTbConfig {c : Cmd} (h : Keeps b s t) : KeepsRes b s (effTbConfig c t) := keeps_setTb h

theorem keeps_latchTb {bit n : Nat} (h : Keeps b s t) : Keeps b s (latchTb bit n t) := .upd (keeps_noteSet h)

theorem keeps_tbEvent {code n : Nat} {data : Bytes} {sev : Option Nat} (h : Keeps b s t) :
    Keeps b s (tbEvent code n data sev t) :=
  keeps_raise h

theorem keeps_armPps {t0 : Nat} (h : Keeps b s t) : Keeps b s (armPps t0 t) := .ite (keeps_armCmp h) h

theorem keeps_rearmPps {n t0 : Nat} (h : Keeps b s t) : Keeps b s (rearmPps n t0 t) :=
  .ite (keeps_armPps (keeps_cancelCmps h)) h

theorem keeps_applyPps {t0 : Nat} (h : Keeps b s t) : Keeps b s (applyPps t0 t) := by
  unfold applyPps
  split
  · exact h
  · exact keeps_armPps (keeps_holdPps (keeps_cancelCmps h.upd))

theorem keeps_rewaitPps {n : Nat} (h : Keeps b s t) : Keeps b s (rewaitPps n t) :=
  .ite (.ite (keeps_armCmp (keeps_cancelCmps h)) (keeps_applyPps h)) h

theorem keeps_effTbPps {c : Cmd} (h : Keeps b s t) : KeepsRes b s (effTbPps c t) := by
  unfold effTbPps
  extract_lets n w _ p s1 x
  have hs1 : Keeps b s s1 := keeps_cancelCmps h.upd
  exact .ite h.upd (.ite (keeps_armCmp hs1) (keeps_applyPps hs1))

theorem keeps_ppsRise {target : Nat} (h : Keeps b s t) : Keeps b s (ppsRise target t) :=
  .ite (.upd (.ite (keeps_armCmp h) h)) (.ite (keeps_armCmp h) h)

theorem keeps_execPpsOutFall (h : Keeps b s t) : KeepsOut b s (execPpsOutFall t) := .act h h.upd

theorem keeps_leaveHold {n : Nat} (h : Keeps b s t) : Keeps b s (leaveHold n t) := .ite (keeps_addTb h) h

theorem keeps_stepTb {n : Nat} {d : Int} {code bit : Nat} (h : Keeps b s t) : Keeps b s (stepTb n d code bit t) :=
  keeps_canopyStep (keeps_rewaitPps (keeps_rearmPps (keeps_tbEvent (keeps_latchTb (keeps_setTb h)))))

theorem keeps_setRate {n : Nat} {r : Int} (h : Keeps b s t) : Keeps b s (setRate n r t) := keeps_setTb h

theorem keeps_servo {n : Nat} {theta : Int} {f delta : Nat} (h : Keeps b s t) :
    Keeps b s (servo n theta f delta t) :=
  keeps_setRate (keeps_setTb (.ite (keeps_fresh h) h))

theorem keeps_refuseStep {n : Nat} {theta : Int} (h : Keeps b s t) : Keeps b s (refuseStep n theta t) :=
  keeps_tbEvent (keeps_latchTb (keeps_addTb (keeps_setTb (keeps_leaveHold h))))

theorem keeps_follow {n : Nat} {theta : Int} {beyond : Bool} {f delta : Nat} (h : Keeps b s t) :
    Keeps b s (follow n theta beyond f delta t) :=
  .ite (.ite (keeps_refuseStep h) (keeps_setTb h)) (keeps_servo (keeps_setTb (keeps_leaveHold h)))

theorem keeps_refusedMeas {n : Nat} {theta : Int} {beyond : Bool} (h : Keeps b s t) :
    Keeps b s (refusedMeas n theta beyond t) :=
  .ite (keeps_stepTb h) (.ite (keeps_tbEvent (keeps_setTb h)) (keeps_setTb h))

theorem keeps_measure {n : Nat} {theta : Int} {f delta : Nat} (h : Keeps b s t) :
    Keeps b s (measure n theta f delta t) := by
  unfold measure
  extract_lets
  split
  · exact keeps_stepTb (keeps_setTb h)
  · exact keeps_refusedMeas (keeps_setTb h)
  · exact keeps_follow (keeps_setTb h)

theorem keeps_startTb {n : Nat} (h : Keeps b s t) : Keeps b s (startTb n t) := by
  unfold startTb
  extract_lets old y s1 s2
  have hs2 : Keeps b s s2 := .ite (keeps_stepTb (keeps_setTb h)) (keeps_setTb h)
  exact keeps_rearmPps hs2

theorem keeps_effTbEnable {c : Cmd} (h : Keeps b s t) : KeepsRes b s (effTbEnable c t) :=
  Keeps.ite (keeps_startTb h) (keeps_setTb h)

theorem keeps_effTbDisable {c : Cmd} (h : Keeps b s t) : KeepsRes b s (effTbDisable c t) :=
  keeps_canopyLeave (keeps_setTb h)

theorem keeps_effTbRearm {c : Cmd} (h : Keeps b s t) : KeepsRes b s (effTbRearm c t) :=
  .ite (keeps_recordOnly (keeps_addTb (keeps_setTb h))) h

theorem keeps_cancelUse {u : CmpUse} (h : Keeps b s t) : Keeps b s (cancelUse u t) := by
  unfold cancelUse
  split
  · exact .ite (keeps_keyEvent (keeps_setSlot h)) h
  · exact h
  · exact keeps_applyPps h
  · exact keeps_cancelLoad h
  · exact keeps_raise h.upd

theorem keeps_cancelUses : ∀ (l : List Cmp) {t : State}, Keeps b s t → Keeps b s (cancelUses l t)
  | [], _, h => h
  | _ :: l, _, h => keeps_cancelUses l (keeps_cancelUse h)

theorem keeps_lapse {n : Nat} {all : Bool} (h : Keeps b s t) : Keeps b s (lapse n all t) :=
  .ite h (keeps_addTb (keeps_setTb h))

theorem keeps_stopTb {n : Nat} (h : Keeps b s t) : Keeps b s (stopTb n t) := by
  unfold stopTb
  extract_lets s0 x f y gone _ s1 armed s2 s3
  have hs1 : Keeps b s s1 := keeps_setTb (.upd (keeps_lapse (keeps_leaveHold h)))
  have hs2 : Keeps b s s2 := .ite hs1 (keeps_tbEvent (keeps_latchTb (keeps_addTb hs1)))
  exact .ite (keeps_startTb (keeps_offEvents (keeps_cancelUses _ hs2))) (keeps_offEvents (keeps_cancelUses _ hs2))

theorem keeps_sendPtp {n port : Nat} {f : Frame} {ts : Option Nat} (h : Keeps b s t) :
    Keeps b s (sendPtp n port f ts t) :=
  keeps_enqueue (keeps_countTs h)

theorem keeps_sendFrom {n port len : Nat} {event : Bool} {m : PtpMsg} (h : Keeps b s t) :
    Keeps b s (sendFrom n port len event m t) :=
  keeps_sendPtp (keeps_setTb h)

theorem keeps_setDue {n port : Nat} {d : Nat × Nat} (h : Keeps b s t) : Keeps b s (setDue n port d t) := keeps_setTb h

theorem keeps_execGmAnnounceSyncTx {tb port : Nat} (h : Keeps b s t) :
    KeepsOut b s (execGmAnnounceSyncTx tb port t) :=
  .named (.act h (keeps_setDue (.ite (keeps_sendFrom (.ite (keeps_sendFrom h) h)) (.ite (keeps_sendFrom h) h))))

theorem keeps_execDelayReqTx {tb : Nat} (h : Keeps b s t) : KeepsOut b s (execDelayReqTx tb t) := by
  unfold execDelayReqTx
  extract_lets
  exact .named (by split; exacts [(.next h), (.act h (keeps_sendFrom (keeps_setTb (keeps_fresh h))))])

theorem keeps_takeCopy {c : PtpCopy} (h : Keeps b s t) : Keeps b s (takeCopy c t) :=
  .ite (.upd (keeps_countTs h)) (keeps_countTs (keeps_countTs h))

theorem KeepsOut.copyRow {k : PtpKind} {c : PtpCopy} {eff : State → State} (h : Keeps b s t)
    (he : ∀ {v}, Keeps b s v → Keeps b s (eff v)) : KeepsOut b s (copyRow k c t eff) :=
  .act h (he h.upd)

theorem keeps_eachTb {eff : Nat → State → State} (he : ∀ {n v}, Keeps b s v → Keeps b s (eff n v)) :
    ∀ (ns : List Nat) {t : State}, Keeps b s t → Keeps b s (eachTb eff ns t)
  | [], _, h => h
  | _ :: ns, _, h => keeps_eachTb he ns (he h)

theorem keeps_noteVals {n : Nat} (h : Keeps b s t) : Keeps b s (noteVals n t) := keeps_setTb h

theorem keeps_selectMaster {n : Nat} (h : Keeps b s t) : Keeps b s (selectMaster n t) := by
  unfold selectMaster
  extract_lets
  split
  · exact keeps_setTb (.ite h (keeps_lapse h))
  · exact .ite (keeps_setTb (.ite h (keeps_lapse h))) (keeps_tbEvent (keeps_latchTb (keeps_addTb (keeps_setTb (.ite h
      (keeps_lapse h))))))

theorem keeps_takeAnnounce {c : PtpCopy} {n : Nat} (h : Keeps b s t) : Keeps b s (takeAnnounce c n t) :=
  .ite (keeps_addTb h) (.ite (keeps_noteVals (keeps_selectMaster (keeps_setTb (keeps_addTb h)))) (keeps_setTb
    (keeps_addTb h)))

theorem keeps_execAnnounceRx {c : PtpCopy} (h : Keeps b s t) : KeepsOut b s (execAnnounceRx c t) :=
  .copyRow h (fun h => keeps_eachTb (fun h => keeps_takeAnnounce h) _ h)

theorem keeps_offsetOf {n port t1 : Nat} {cs log : Int} {ts : Nat} (h : Keeps b s t) :
    Keeps b s (offsetOf n port t1 cs log ts t) := by
  unfold offsetOf
  extract_lets
  split
  · exact keeps_addTb (keeps_setTb h)
  · exact keeps_measure (keeps_addTb (keeps_setTb (keeps_setTb h)))

theorem keeps_takeSync {c : PtpCopy} {n : Nat} (h : Keeps b s t) : Keeps b s (takeSync c n t) := by
  unfold takeSync
  split
  · exact keeps_addTb (keeps_lapse h)
  · exact .ite (keeps_setTb (keeps_lapse h)) (keeps_offsetOf (keeps_lapse h))

theorem keeps_execSyncRx {c : PtpCopy} (h : Keeps b s t) : KeepsOut b s (execSyncRx c t) :=
  .copyRow h (fun h => keeps_eachTb (fun h => keeps_takeSync h) _ h)

theorem keeps_takeFollowUp {c : PtpCopy} {n : Nat} (h : Keeps b s t) : Keeps b s (takeFollowUp c n t) := by
  unfold takeFollowUp
  extract_lets
  split
  · exact keeps_lapse h
  · exact keeps_offsetOf (keeps_setTb (keeps_lapse h))

theorem keeps_execFollowUpRx {c : PtpCopy} (h : Keeps b s t) : KeepsOut b s (execFollowUpRx c t) :=
  .copyRow h (fun h => keeps_eachTb (fun h => keeps_takeFollowUp h) _ h)

theorem keeps_takeDelayResp {c : PtpCopy} {n : Nat} (h : Keeps b s t) : Keeps b s (takeDelayResp c n t) := by
  unfold takeDelayResp
  extract_lets
  split
  · exact .ite (keeps_setTb h) h
  · exact h

theorem keeps_execDelayRespRx {c : PtpCopy} (h : Keeps b s t) : KeepsOut b s (execDelayRespRx c t) :=
  .copyRow h (fun h => keeps_eachTb (fun h => keeps_noteVals h) _ (keeps_eachTb (fun h => keeps_takeDelayResp h) _ h))

theorem keeps_takeDelayReq {c : PtpCopy} {n : Nat} (h : Keeps b s t) : Keeps b s (takeDelayReq c n t) := by
  unfold takeDelayReq
  split
  · exact h
  · exact .ite (keeps_sendPtp h) h

theorem keeps_execDelayReqRx {c : PtpCopy} (h : Keeps b s t) : KeepsOut b s (execDelayReqRx c t) :=
  .copyRow h (fun h => keeps_eachTb (fun h => keeps_takeDelayReq h) _ h)

theorem keeps_execSourceLoss {tb : Nat} (h : Keeps b s t) : KeepsOut b s (execSourceLoss tb t) :=
  .named (.act h (.ite (keeps_tbEvent (keeps_latchTb (keeps_setTb (.ite (keeps_selectMaster h) h)))) (.ite
    (keeps_selectMaster h) h)))

theorem keeps_failPdelay {n : Nat} (h : Keeps b s t) : Keeps b s (failPdelay n t) :=
  .ite (keeps_countTs (keeps_setPort h)) h

theorem keeps_execPdelayReqTx {port : Nat} (h : Keeps b s t) : KeepsOut b s (execPdelayReqTx port t) :=
  .named (.act (keeps_failPdelay h) (keeps_sendPtp (keeps_setPort (keeps_failPdelay h))))

theorem keeps_execPdelayReqRx {c : PtpCopy} (h : Keeps b s t) : KeepsOut b s (execPdelayReqRx c t) :=
  .copyRow h (fun h => .ite (keeps_sendPtp (keeps_countTs h)) h)

theorem keeps_execPdelayRespRx {c : PtpCopy} (h : Keeps b s t) : KeepsOut b s (execPdelayRespRx c t) := by
  refine .copyRow h fun h => ?_
  extract_lets u p
  have hu : Keeps b s u := keeps_failPdelay h
  split
  · exact .ite (keeps_eachTb (fun h => keeps_noteVals h) _ (keeps_setPort hu)) hu
  · exact hu

theorem keeps_ppsMeasure {f : Nat} {delta : Option Nat} {n : Nat} (h : Keeps b s t) :
    Keeps b s (ppsMeasure f delta n t) := by
  unfold ppsMeasure
  exact .ite (keeps_stepTb (keeps_setTb h)) (by split; exacts [h, (keeps_measure h)])

theorem keeps_execPpsInEdge {instant : Nat} (h : Keeps b s t) : KeepsOut b s (execPpsInEdge instant t) :=
  .act h (.ite (keeps_latchTb (keeps_addTb h)) (keeps_eachTb (fun h => keeps_ppsMeasure h) _ (.ite (keeps_tbEvent
    (keeps_setTb h.upd)) (keeps_setTb h.upd))))

theorem keeps_fireUse {c : Cmp} (h : Keeps b s t) : Keeps b s (fireUse c t) := by
  unfold fireUse
  split
  · exact keeps_activateRollover h
  · exact keeps_ppsRise h
  · exact keeps_applyPps h
  · exact keeps_fireLoad h
  · exact h.upd

theorem keeps_execCompareFire {id : Nat} (h : Keeps b s t) : KeepsOut b s (execCompareFire id t) := by
  unfold execCompareFire
  split
  · exact .next h
  · exact .act h (keeps_fireUse h.upd)

theorem keeps_execCapture {value : Word} (h : Keeps b s t) : KeepsOut b s (execCapture value t) :=
  .act h (.ite h.upd h)

end

/-! ### Ports and the switch -/

section
variable {b : Bool} {s t : State}

theorem keeps_effPortConfig {c : Cmd} (h : Keeps b s t) : KeepsRes b s (effPortConfig c t) := keeps_setPort h

theorem keeps_effPortFilter {c : Cmd} (h : Keeps b s t) : KeepsRes b s (effPortFilter c t) := keeps_setPort h

theorem keeps_pathMoved {g : Nat} (h : Keeps b s t) : Keeps b s (pathMoved g t) := keeps_raise (keeps_latchSw h)

theorem keeps_memberDown {g m : Nat} {x : PathGrp} (h : Keeps b s t) : Keeps b s (memberDown g m x t) :=
  .ite h.upd (keeps_pathMoved h.upd)

theorem keeps_pathLink {n : Nat} {up : Bool} (h : Keeps b s t) : Keeps b s (pathLink n up t) := by
  unfold pathLink
  split
  · exact h
  · exact .ite h.upd (keeps_memberDown h)

theorem keeps_execPathReturn {group member : Nat} (h : Keeps b s t) :
    KeepsOut b s (execPathReturn group member t) := by
  unfold execPathReturn
  exact .named (by split; exacts [(.next h), (.act h (keeps_pathMoved h.upd))])

theorem keeps_portNote {code n : Nat} {sev : Option Nat} (h : Keeps b s t) : Keeps b s (portNote code n sev t) :=
  keeps_raise h

theorem keeps_portEvent {code n : Nat} (h : Keeps b s t) : Keeps b s (portEvent code n t) := keeps_portNote h

theorem keeps_latchLink {n : Nat} (h : Keeps b s t) : Keeps b s (latchLink n t) := .upd (keeps_noteSet h)

theorem keeps_endWait {n : Nat} (h : Keeps b s t) : Keeps b s (endWait n t) := by
  unfold endWait
  extract_lets
  split
  · exact keeps_addPort (keeps_setPort h)
  · exact h

theorem keeps_abortTx {n : Nat} (h : Keeps b s t) : Keeps b s (abortTx n t) :=
  .foldl (fun h => keeps_settle (keeps_countPort h)) (keeps_setPort h)

theorem keeps_linkGone {n cause : Nat} (h : Keeps b s t) : Keeps b s (linkGone n cause t) :=
  .ite h (.ite (keeps_pathLink (keeps_portNote (keeps_latchLink (keeps_countPort (keeps_flushPort (keeps_setPort
    (keeps_abortTx (keeps_endWait h)))))))) (keeps_setPort h))

theorem keeps_execLinkDown {port : Nat} {cause : DownCause} (h : Keeps b s t) :
    KeepsOut b s (execLinkDown port cause t) :=
  .named (.act h (keeps_linkGone h))

theorem keeps_execSignalDetect {port : Nat} (h : Keeps false s t) : KeepsOut false s (execSignalDetect port t) :=
  .named (.act h (keeps_sdclkBack (keeps_setPort h)))

theorem keeps_execPcsUp {port : Nat} (h : Keeps false s t) : KeepsOut false s (execPcsUp port t) :=
  .named (.act h (keeps_sdclkBack (keeps_setPort (keeps_fresh h))))

theorem keeps_execPcsDrop {port : Nat} (h : Keeps b s t) : KeepsOut b s (execPcsDrop port t) :=
  .named (.act h (keeps_setPort h))

theorem keeps_execUpHoldExpiry {port : Nat} (h : Keeps b s t) : KeepsOut b s (execUpHoldExpiry port t) :=
  .named (.act h (keeps_pathLink (keeps_portEvent (keeps_latchLink (keeps_setPort h)))))

theorem keeps_execAnegResult {port speed : Nat} {full ok : Bool} (h : Keeps b s t) :
    KeepsOut b s (execAnegResult port speed full ok t) :=
  .named (.act h (.ite (keeps_setPort h) (keeps_portEvent (keeps_noteSet (keeps_setPort h)))))

theorem keeps_execVerifyMpacketTimer {port : Nat} (h : Keeps b s t) :
    KeepsOut b s (execVerifyMpacketTimer port t) :=
  .named (.act h (.ite (keeps_setPort h) (keeps_portEvent (keeps_countPort (keeps_setPort h)))))

theorem keeps_execRespondMpacketRx {port : Nat} (h : Keeps b s t) : KeepsOut b s (execRespondMpacketRx port t) :=
  .named (.act h (.ite (keeps_countPort h) (.ite (keeps_portEvent (keeps_setPort h)) h)))

theorem keeps_execVerifyMpacketRx {port : Nat} (h : Keeps b s t) : KeepsOut b s (execVerifyMpacketRx port t) :=
  .named (.act h (.ite (keeps_setPort h) (keeps_countPort h)))

theorem keeps_startPort {n : Nat} (h : Keeps b s t) : Keeps b s (startPort n t) := keeps_setPort h

theorem keeps_effPortEnable {c : Cmd} (h : Keeps b s t) : KeepsRes b s (effPortEnable c t) :=
  Keeps.ite (keeps_startPort h) (keeps_setPort h)

theorem keeps_dropDeferred {n : Nat} (h : Keeps b s t) : Keeps b s (dropDeferred n t) := by
  unfold dropDeferred
  extract_lets
  split
  · exact .ite (keeps_settle (keeps_countPort (keeps_setPort h))) h
  · exact h

theorem keeps_dropRest {n : Nat} (h : Keeps b s t) : Keeps b s (dropRest n t) := by
  unfold dropRest
  extract_lets
  split
  · exact keeps_settle (keeps_countPort (keeps_setPort h))
  · exact h

theorem keeps_effPortDisable {c : Cmd} (h : Keeps b s t) : KeepsRes b s (effPortDisable c t) :=
  Keeps.ite (keeps_flushPort (keeps_dropRest (keeps_dropDeferred (keeps_endWait (keeps_setPort h))))) (keeps_setPort
    h)

theorem keeps_stopPort {n : Nat} (h : Keeps b s t) : Keeps b s (stopPort n t) := by
  unfold stopPort
  extract_lets held s1 _ s2 s3
  have hs3 : Keeps b s s3 := keeps_offEvents (keeps_setPort (keeps_linkGone h))
  exact .ite (keeps_startPort hs3) hs3

theorem keeps_effPortReset {c : Cmd} (h : Keeps b s t) : KeepsRes b s (effPortReset c t) := by
  unfold effPortReset
  extract_lets n s1 f _ s2 p s3
  have hf : Keeps b s f := keeps_noteFifo (keeps_linkGone (keeps_narrowRecord h))
  have hs2 : Keeps b s s2 := keeps_flushPort (keeps_abortTx hf.upd)
  have hs3 : Keeps b s s3 := keeps_setPort hs2

  dsimp only [KeepsRes, res]
  split
  · exact keeps_stopPort hs3
  · exact hs3

theorem keeps_loseTs {n : Nat} (h : Keeps b s t) : Keeps b s (loseTs n t) :=
  .ite (keeps_countTs (.upd (keeps_noteSet h))) (keeps_raise (keeps_setPort (keeps_countTs (.upd (keeps_noteSet h)))))

theorem keeps_takePause {n quanta : Nat} (h : Keeps b s t) : Keeps b s (takePause n quanta t) :=
  .ite (keeps_setPort (keeps_endWait h)) (keeps_notePause (keeps_setPort h))

theorem keeps_macControl {n : Nat} {f : Frame} (h : Keeps b s t) : Keeps b s (macControl n f t) := by
  unfold macControl
  split
  · exact .ite (.ite (keeps_takePause (keeps_countPort h)) (keeps_countPort h)) (keeps_countPort h)
  · exact keeps_countPort h

theorem keeps_rxOk {n : Nat} {h0 : Held} (h : Keeps b s t) : Keeps b s (rxOk n h0 t) :=
  keeps_countPort (keeps_addPort (keeps_countPort (.upd (keeps_noteFifo h))))

theorem keeps_stampRx {n : Nat} {f : RxFrame} (h : Keeps b s t) : Keeps b s (stampRx n f t).1 :=
  .ite_fst (keeps_setPort h) (.ite_fst (keeps_countTs (keeps_setPort (keeps_setPort h))) (keeps_loseTs (keeps_setPort
    h)))

theorem keeps_releaseTs {n : Nat} {i : Option Nat} (h : Keeps b s t) : Keeps b s (releaseTs n i t) := keeps_setPort h

theorem keeps_checkRx {n : Nat} {f : RxFrame} {cut : Bool} (h : Keeps b s t) : Keeps b s (checkRx n f cut t) := by
  unfold checkRx
  exact .ite (keeps_addPort (keeps_countPort h)) (by split; exacts [(keeps_countPort (keeps_releaseTs (keeps_stampRx
    h))), (.ite (keeps_macControl (keeps_releaseTs (keeps_stampRx h))) (keeps_rxOk (keeps_stampRx h)))])

theorem keeps_reassemble {n : Nat} {f : RxFrame} {cut : Bool} (h : Keeps b s t) :
    Keeps b s (reassemble n f cut t) :=
  .ite (keeps_addPort h) (.ite (keeps_countPort h) (.ite (keeps_countPort (keeps_addPort h)) (keeps_checkRx (.ite
    (keeps_addPort h) (keeps_countPort (keeps_addPort h))))))

theorem keeps_execFrameRx {port : Nat} {f : RxFrame} (h : Keeps b s t) : KeepsOut b s (execFrameRx port f t) :=
  .named (.act h (keeps_reassemble h))

theorem keeps_execPauseTimerExpiry {port : Nat} (h : Keeps b s t) : KeepsOut b s (execPauseTimerExpiry port t) :=
  .named (.act h (keeps_setPort (keeps_endWait h)))

theorem keeps_learnProxy {h0 : Held} {n i : Nat} {r : Redun} (h : Keeps b s t) :
    Keeps b s (learnProxy h0 n i r t) :=
  .ite h.upd h

theorem keeps_tellCopies {uid i q : Nat} (h : Keeps b s t) : Keeps b s (tellCopies uid i q t) := h.upd

theorem keeps_takeSeq {h0 : Held} {way i : Nat} (h : Keeps b s t) : Keeps b s (takeSeq h0 way i t).2 := by
  unfold takeSeq
  split
  · exact h
  · exact h
  · split
    · exact h
    · exact keeps_tellCopies h.upd

theorem keeps_redEgress {n : Nat} {h0 : Held} (h : Keeps b s t) : Keeps b s (redEgress n h0 t).2 := by
  unfold redEgress
  split
  · exact h
  · exact .ite_snd h (keeps_takeSeq (keeps_learnProxy h))

theorem keeps_handOver {n q : Nat} (h : Keeps b s t) : Keeps b s (handOver n q t) := by
  unfold handOver
  extract_lets
  split
  · exact h
  · exact .ite (keeps_settle (keeps_setQueue h)) (keeps_setPort (keeps_redEgress (keeps_setQueue h)))

theorem keeps_execEgress {port : Nat} (h : Keeps b s t) : KeepsOut b s (execEgress port t) := by
  unfold execEgress
  exact .named (.act h (by split; exacts [(keeps_handOver h), (by split; exacts [(keeps_setPort h), h])]))

theorem keeps_tcCorrect {m : PtpMsg} {i : FMeta} {sfd : Nat} (h : Keeps b s t) : Keeps b s (tcCorrect m i sfd t).2 :=
  keeps_countSw (.ite_snd h (keeps_fresh h))

theorem keeps_onTheFly {f : Held} {sfd : Nat} (h : Keeps b s t) : Keeps b s (onTheFly f sfd t).2 := by
  unfold onTheFly
  extract_lets
  refine .ite_snd ?_ (.ite_snd ?_ h)
  · split
    · exact .ite_snd h (.ite_snd h h)
    · exact h
  · split
    · next m _ => exact .ite_snd (keeps_tcCorrect (m := m) (sfd := sfd) h) h
    · exact .ite_snd (keeps_latchSw (keeps_countSw h)) h

theorem keeps_learnTx {n : Nat} {h0 : Held} {sfd : Nat} (h : Keeps b s t) : Keeps b s (learnTx n h0 sfd t) := by
  unfold learnTx
  exact .ite h (by split; exacts [h, (.ite (keeps_setTb h) (.ite (keeps_setPort h) h))])

theorem keeps_countHalf {n : Nat} {t0 : TxFrame} (h : Keeps b s t) : Keeps b s (countHalf n t0 t) :=
  .ite h (.ite (.ite (keeps_countPort h) h) (keeps_countPort h))

theorem keeps_txSent {n : Nat} {t0 : TxFrame} {sfd : Nat} (h : Keeps b s t) : Keeps b s (txSent n t0 sfd t) := by
  unfold txSent
  extract_lets d len _ _ s1 s2 s3
  have hs2 : Keeps b s s2 := .ite (keeps_setPort (keeps_onTheFly h)) (keeps_countPort (keeps_countPort (keeps_setPort
    (keeps_onTheFly h))))
  have hs3 : Keeps b s s3 := keeps_countPort (keeps_addPort (keeps_countPort (keeps_countHalf hs2)))
  exact keeps_notePause (keeps_settle (keeps_learnTx hs3))

theorem keeps_txDrop {n counter : Nat} {t0 : TxFrame} (h : Keeps b s t) : Keeps b s (txDrop n counter t0 t) :=
  keeps_notePause (keeps_settle (keeps_countPort (keeps_setPort h)))

theorem keeps_execFrameTx {port sfd : Nat} {meets : TxMoment} (h : Keeps b s t) :
    KeepsOut b s (execFrameTx port sfd meets t) := by
  unfold execFrameTx
  extract_lets
  exact .named (by split; exacts [(.next h), (.act h (.ite (keeps_txDrop h) (.ite (keeps_setPort h) (by split; exacts
    [(keeps_notePause (keeps_countPort (keeps_setPort h))), (keeps_txSent h)]))))])

theorem keeps_execCollision {port bits : Nat} (h : Keeps b s t) : KeepsOut b s (execCollision port bits t) := by
  unfold execCollision
  extract_lets
  exact .named (by split; exacts [(.next h), (.act h (.ite (keeps_txDrop (keeps_countPort h)) (.ite (keeps_txDrop
    (keeps_countPort h)) (keeps_setPort (keeps_fresh (keeps_countPort h))))))])

theorem keeps_execBackoffExpiry {port : Nat} (h : Keeps b s t) : KeepsOut b s (execBackoffExpiry port t) := by
  unfold execBackoffExpiry
  extract_lets
  exact .named (by split; exacts [(.next h), (.act h (keeps_setPort h))])

theorem keeps_displace (hs : List Nat) (h : Keeps b s t) : Keeps b s (displace hs t) := by
  induction hs with
  | nil => exact h
  | cons k ks ih =>
    simp only [displace]
    split
    · exact ih.upd
    · exact ih

theorem keeps_clearEntry {e : Nat} (h : Keeps b s t) : Keeps b s (clearEntry e t) := h.upd

theorem keeps_nextEpoch {e : Nat} (h : Keeps b s t) : Keeps b s (nextEpoch e t) := h.upd

theorem keeps_addExact {k : LKey} {a : Action} (h : Keeps b s t) : KeepsRes b s (addExact k a t) := by
  unfold addExact
  extract_lets cs d c k s1 x
  have hs1 : Keeps b s s1 := keeps_clearEntry (keeps_displace _ (.ite_snd h (keeps_fresh h)))
  exact hs1.upd

theorem keeps_effSwExactAdd {c : Cmd} (h : Keeps b s t) : KeepsRes b s (effSwExactAdd c t) := by
  unfold effSwExactAdd
  extract_lets
  split
  · exact h.upd
  · exact keeps_addExact h

theorem keeps_effSwExactDel {c : Cmd} (h : Keeps b s t) : KeepsRes b s (effSwExactDel c t) := keeps_nextEpoch h.upd

theorem keeps_effSwWildSet {c : Cmd} (h : Keeps b s t) : KeepsRes b s (effSwWildSet c t) :=
  Keeps.upd (keeps_clearEntry (.ite (keeps_nextEpoch h) h))

theorem keeps_effSwWildDel {c : Cmd} (h : Keeps b s t) : KeepsRes b s (effSwWildDel c t) := keeps_nextEpoch h.upd

theorem keeps_effSwQueue {c : Cmd} (h : Keeps b s t) : KeepsRes b s (effSwQueue c t) :=
  keeps_noteLow (keeps_setQueue h)

theorem keeps_effSwRed {c : Cmd} (h : Keeps b s t) : KeepsRes b s (effSwRed c t) := h.upd

theorem keeps_effSwPaths {c : Cmd} (h : Keeps b s t) : KeepsRes b s (effSwPaths c t) := h.upd

theorem keeps_effSwRedun {c : Cmd} (h : Keeps b s t) : KeepsRes b s (effSwRedun c t) := .ite h.upd h.upd

theorem keeps_setNode {k : Nat} {x : Node} (h : Keeps b s t) : Keeps b s (setNode k x t) := h.upd

theorem keeps_tableFull (h : Keeps b s t) : Keeps b s (tableFull t) := keeps_raise (keeps_latchSw (keeps_countSw h))

theorem keeps_discard {inst side sa seq : Nat} (h : Keeps b s t) : Keeps b s (discard inst side sa seq t).2 := by
  unfold discard
  split
  · exact keeps_tableFull h
  · extract_lets
    split
    · exact keeps_countRed (keeps_setNode h)
    · exact keeps_countRed (keeps_setNode h)
    · exact keeps_countRed (keeps_countRed (keeps_setNode h))

theorem keeps_passOn {inst side sa seq : Nat} (h : Keeps b s t) : Keeps b s (passOn inst side sa seq t).2 := by
  unfold passOn
  split
  · exact h
  · exact keeps_setNode h

theorem keeps_wrongLan {inst side port : Nat} (h : Keeps b s t) : Keeps b s (wrongLan inst side port t) :=
  .ite (keeps_countRed h) (keeps_raise (keeps_setPort (keeps_countRed h)))

theorem keeps_refreshNode {inst : Nat} {f : Frame} (h : Keeps b s t) : Keeps b s (refreshNode inst f t) := by
  unfold refreshNode
  split
  · split
    · exact keeps_setNode h
    · exact h
  · exact h

theorem keeps_tcBlocks {f : Frame} (h : Keeps b s t) : Keeps b s (tcBlocks f t).2 := by
  unfold tcBlocks
  exact .ite_snd (by split; exacts [(.ite_snd (keeps_countSw h) h), h]) h

theorem keeps_prpIn {i side : Nat} {f : Held} (h : Keeps b s t) : Keeps b s (prpIn i side f t).2 := by
  unfold prpIn
  split
  · exact h
  · exact keeps_discard (.ite h (keeps_wrongLan h))

theorem keeps_hsrForward {i side : Nat} {r : Redun} {h0 : Held} {seq : Option Nat} (h : Keeps b s t) :
    Keeps b s (hsrForward i side r h0 seq t) := by
  unfold hsrForward
  exact .ite h (.ite (keeps_enqueue (keeps_countRed (keeps_tcBlocks (by split; exacts [(keeps_passOn h), h])))) (.ite
    (keeps_tcBlocks (by split; exacts [(keeps_passOn h), h])) (by split; exacts [(keeps_passOn h), h])))

theorem keeps_hsrIn {i side : Nat} {r : Redun} {h0 : Held} (h : Keeps b s t) : Keeps b s (hsrIn i side r h0 t).2 := by
  unfold hsrIn
  exact .ite_snd (keeps_countRed h) (by split; exacts [(keeps_hsrForward h), (keeps_discard (keeps_hsrForward h))])

theorem keeps_redIngress {h0 : Held} (h : Keeps b s t) : Keeps b s (redIngress h0 t).2 := by
  unfold redIngress
  exact .ite_snd h (by split; exacts [h, (.ite_snd (keeps_hsrIn (keeps_countRed (keeps_refreshNode h))) (keeps_prpIn
    (keeps_countRed (keeps_refreshNode h))))])

theorem keeps_nameCopies {ports : List Nat} {h0 : Held} (h : Keeps b s t) : Keeps b s (nameCopies ports h0 t).2 :=
  .ite_snd h.upd h

theorem keeps_admitPorts {a : Action} {f : Held} :
    ∀ (l : List Nat) {t : State}, Keeps b s t → Keeps b s (admitPorts a f l t)
  | [], _, h => h
  | _ :: l, _, h => keeps_admitPorts l (keeps_enqueue h)

theorem keeps_setLeft {m : FMeta} {n : Nat} (h : Keeps b s t) : Keeps b s (setLeft m n t) := h.upd

theorem keeps_endSend {m : FMeta} {status : Nat} (h : Keeps b s t) : Keeps b s (endSend m status t) := by
  unfold endSend
  split
  · exact keeps_finishOp (.upd (keeps_setLeft h))
  · exact keeps_setLeft h

theorem keeps_endSendFree {m : FMeta} (h : Keeps b s t) : Keeps b s (endSendFree m t) :=
  .ite (keeps_endSend (keeps_fresh h)) (keeps_endSend h)

theorem keeps_toInside {a : Action} {h0 : Held} (h : Keeps b s t) : Keeps b s (toInside a h0 t) := by
  unfold toInside
  extract_lets s1 s2
  have hs2 : Keeps b s s2 := .ite (keeps_toSe1 (.ite (keeps_toSe0 h) h)) (.ite (keeps_toSe0 h) h)
  exact .ite (keeps_toRing hs2) hs2

theorem keeps_applyAction {a : Action} {f : Held} (h : Keeps b s t) : Keeps b s (applyAction a f t) := by
  unfold applyAction
  extract_lets s1 d ports n q
  have h1 : Keeps b s s1 := keeps_countEntry (keeps_countEntry h)
  have hd : Keeps b s d.2 := by
    simp only [d]
    split
    · exact keeps_tcBlocks h1
    · exact h1
  exact .ite (.ite (keeps_endSendFree hd) (keeps_endSend hd)) (keeps_toInside (keeps_admitPorts _ (keeps_setLeft (keeps_nameCopies hd))))

theorem keeps_classified {a : Action} {h0 : Held} (h : Keeps b s t) : Keeps b s (classified a h0 t) :=
  .ite (keeps_applyAction h) (.ite (keeps_endSendFree (keeps_noteSet h.upd)) (keeps_fillLanes h.upd))

theorem keeps_missed {h0 : Held} (h : Keeps b s t) : Keeps b s (missed h0 t) := keeps_endSend (keeps_latchSw h.upd)

theorem keeps_classify {h0 : Held} (h : Keeps b s t) : Keeps b s (classify h0 t) := by
  unfold classify
  split
  · exact keeps_missed h
  · exact keeps_classified h

theorem keeps_commitTs {h0 : Held} (h : Keeps b s t) : Keeps b s (commitTs h0 t).2 := .ite_snd (keeps_releaseTs h) h

theorem keeps_copyPtp {h0 : Held} (h : Keeps b s t) : Keeps b s (copyPtp h0 t) := by
  unfold copyPtp
  exact .ite (by split; exacts [(keeps_takeCopy h), (.ite (keeps_takeCopy h) h), h]) h

theorem keeps_ingress {h0 : Held} (h : Keeps b s t) : Keeps b s (ingress h0 t) := by
  unfold ingress
  extract_lets
  split
  · exact keeps_enqueue h
  · split
    · exact keeps_classify (.of_snd (keeps_redIngress (keeps_copyPtp (keeps_commitTs h))) ‹_›)
    · exact .of_snd (keeps_redIngress (keeps_copyPtp (keeps_commitTs h))) ‹_›

theorem keeps_execSwitchIngress {source : Nat} (h : Keeps b s t) : KeepsOut b s (execSwitchIngress source t) := by
  unfold execSwitchIngress
  exact .named (by split; exacts [(.next h), (.ite (.act h (keeps_endSend h.upd)) (.act h (keeps_ingress h.upd)))])

theorem keeps_submit {h0 : Held} {slot auth owner : Nat} (h : Keeps b s t) :
    Keeps b s (submit h0 slot auth owner t) :=
  .ite h.upd (keeps_fillLanes h.upd)

theorem keeps_sendEff {r : Nat} {seq : Word} {f : Frame} (h : Keeps b s t) : Keeps b s (sendEff r seq f t) := by
  unfold sendEff
  split
  · exact h
  · exact .ite (keeps_finishNow h) (.ite (keeps_finishNow h) (keeps_submit h.upd))

theorem keeps_sendRow {ring : Nat} {seq : Word} {frame : Frame} (h : Keeps b s t) :
    KeepsOut b s (sendRow ring seq frame t) :=
  .emitRow h (fun h => keeps_sendEff h)

theorem keeps_recvEff {r : Nat} {seq : Word} (h : Keeps b s t) : Keeps b s (recvEff r seq t) := by
  unfold recvEff
  split
  · exact h
  · exact .ite (keeps_fillRecv (keeps_markStarted h)) (keeps_finishOp h)

theorem keeps_execRecv {ring : Nat} {seq : Word} (h : Keeps b s t) : KeepsOut b s (execRecv ring seq t) :=
  .named (.act h (keeps_recvEff h))

theorem keeps_execEntryForget {node : Nat} (h : Keeps b s t) : KeepsOut b s (execEntryForget node t) := by
  unfold execEntryForget
  exact .named (by split; exacts [(.next h), (.act h h.upd)])

theorem keeps_execNodeForget {node : Nat} (h : Keeps b s t) : KeepsOut b s (execNodeForget node t) := by
  unfold execNodeForget
  exact .named (by split; exacts [(.next h), (.act h (keeps_raise h.upd))])

theorem keeps_sendSup {i : Nat} {f : Frame} (h : Keeps b s t) : Keeps b s (sendSup i f t) := by
  unfold sendSup
  split
  · exact h
  · exact (keeps_enqueue (keeps_enqueue (keeps_nameCopies h)).upd).upd

theorem keeps_execSupervisionTx {inst : Nat} (h : Keeps b s t) : KeepsOut b s (execSupervisionTx inst t) := by
  unfold execSupervisionTx
  exact .named (by split; exacts [(.next h), (.act h (.foldl (fun h => keeps_sendSup h) h.upd))])

end

/-! ### Crypto lanes, recorders, streams -/

section
variable {b : Bool} {s t : State}

theorem keeps_countSlot {k i : Nat} (h : Keeps b s t) : Keeps b s (countSlot k i t) := h.upd

theorem keeps_afterVerdict {h0 : Held} {a : Action} {pass : Bool} (h : Keeps b s t) :
    Keeps b s (afterVerdict h0 a pass t) :=
  .ite (keeps_applyAction h) (.ite (keeps_endSendFree (keeps_countEntry (keeps_countEntry (keeps_countEntry h))))
    (keeps_applyAction (keeps_countEntry h)))

theorem keeps_execVerificationVerdict {lane : Nat} (h : Keeps b s t) :
    KeepsOut b s (execVerificationVerdict lane t) := by
  unfold execVerificationVerdict
  exact .named (by split; exacts [(.next h), (by split; exacts [(.next h), (.next (keeps_fillLanes
    (keeps_afterVerdict (keeps_countSlot (keeps_freeLane h)))))])])

theorem keeps_nextIv (h : Keeps b s t) : Keeps b s (nextIv t) := .ite h.upd h.upd

theorem keeps_refuseTag {k : Nat} (h : Keeps b s t) : Keeps b s (refuseTag k t) :=
  .ite (keeps_countSlot (keeps_latchKey h)) (keeps_keyEvent (.upd (keeps_countSlot (keeps_latchKey h))))

theorem keeps_finishPub {t0 : TagReq} {status : Nat} (h : Keeps b s t) : Keeps b s (finishPub t0 status t) := by
  unfold finishPub
  split
  · exact keeps_finishOp h
  · exact h

theorem keeps_toSe0Tx {e : Nat} {h0 : Held} (h : Keeps b s t) : Keeps b s (toSe0Tx e h0 t) := h.upd

theorem keeps_sendTagged {t0 : TagReq} {f : Frame} (h : Keeps b s t) : Keeps b s (sendTagged t0 f t) := by
  unfold sendTagged
  split
  · exact keeps_submit h
  · exact keeps_finishPub (.ite (keeps_toSe0Tx h) h)

theorem keeps_execTag {lane : Nat} (h : Keeps b s t) : KeepsOut b s (execTag lane t) := by
  refine .named ?_
  split
  · exact .next h
  · split
    · exact .next h
    · extract_lets s1 s2
      have hs1 : Keeps b s s1 := keeps_freeLane h
      refine .next (keeps_fillLanes (.ite (keeps_sendTagged (keeps_countSlot (.ite (keeps_nextIv hs1) hs1))) ?_))
      split
      · exact keeps_finishPub (keeps_refuseTag hs1)
      · exact keeps_endSend (keeps_refuseTag hs1)

theorem keeps_setRec {n : Nat} {x : Rec} (h : Keeps b s t) : Keeps b s (setRec n x t) := h.upd

theorem keeps_countRec {n i k : Nat} (h : Keeps b s t) : Keeps b s (countRec n i k t) := h.upd

theorem keeps_latchRec {n bit : Nat} (h : Keeps b s t) : Keeps b s (latchRec n bit t) := .upd (keeps_noteSet h)

theorem keeps_acqEvent {code n : Nat} (h : Keeps b s t) : Keeps b s (acqEvent code n t) := keeps_raise h

theorem keeps_acqAsk {i : Nat} (h : Keeps b s t) : Keeps b s (acqAsk i t) := h.upd

theorem keeps_writeStatus {n : Nat} (h : Keeps b s t) : Keeps b s (writeStatus n t) := by
  unfold writeStatus
  extract_lets
  split
  · exact .ite (keeps_visWrite h) h
  · exact h

theorem keeps_reblind {n : Nat} (h : Keeps b s t) : Keeps b s (reblind n t) := by
  unfold reblind
  exact keeps_writeStatus (by split; exacts [(keeps_setRec h), (keeps_countRec (keeps_setRec h)), h])

theorem keeps_noteSteps {n k : Nat} {first : Bool} (h : Keeps b s t) : Keeps b s (noteSteps n k first t) :=
  .ite h (.ite (keeps_acqEvent (keeps_latchRec (keeps_countRec h))) (keeps_latchRec (keeps_countRec h)))

theorem keeps_recordRow {n : Nat} {row : Row} (h : Keeps b s t) : Keeps b s (recordRow n row t) := by
  unfold recordRow
  extract_lets
  split
  · exact h
  · exact .ite h (.ite (keeps_reblind (.ite (keeps_setRec h) (.ite (keeps_setRec h) (keeps_noteSteps (keeps_setRec
      h))))) (.ite (keeps_setRec h) (.ite (keeps_setRec h) (keeps_noteSteps (keeps_setRec h)))))

theorem keeps_recordRows {n : Nat} : ∀ (l : List Row) {t : State}, Keeps b s t → Keeps b s (recordRows n l t)
  | [], _, h => h
  | _ :: l, _, h => keeps_recordRows l (keeps_recordRow h)

theorem keeps_loseTrig {n : Nat} (h : Keeps b s t) : Keeps b s (loseTrig n t) := by
  unfold loseTrig
  extract_lets x recent s1
  have hs1 : Keeps b s s1 := keeps_latchRec (keeps_countRec (keeps_setRec h))
  exact .ite hs1 (keeps_acqEvent hs1)

theorem keeps_overwriteOne {n : Nat} (h : Keeps b s t) : Keeps b s (overwriteOne n t) := by
  unfold overwriteOne
  extract_lets
  split
  · exact h
  · exact keeps_acqEvent (keeps_latchRec (keeps_countRec (keeps_setRec h)))

theorem keeps_makeRoom {n : Nat} : ∀ (k : Nat) {t : State}, Keeps b s t → Keeps b s (makeRoom n k t)
  | 0, _, h => h
  | k + 1, _, h => .ite h (keeps_makeRoom k (keeps_overwriteOne h))

theorem keeps_openRecord {n : Nat} {f : Fire} (h : Keeps b s t) : Keeps b s (openRecord n f t) :=
  keeps_reblind (keeps_recordRows _ (keeps_acqEvent (keeps_setRec h)))

theorem keeps_reTrig {n : Nat} {f : Fire} {r : Record} (h : Keeps b s t) : Keeps b s (reTrig n f r t) :=
  .ite h.upd (.ite h.upd (.ite h.upd h.upd))

theorem keeps_fireTrig {n : Nat} {f : Fire} (h : Keeps b s t) : Keeps b s (fireTrig n f t) := by
  unfold fireTrig
  exact .ite h (by split; exacts [(.ite (keeps_openRecord (keeps_makeRoom _ h)) (keeps_loseTrig (keeps_makeRoom _
    h))), (keeps_reTrig h), (keeps_loseTrig h)])

theorem keeps_stepGroups {n time : Nat} {subst : Bool} {hit : Trig → Bool} (h : Keeps b s t) :
    Keeps b s (stepGroups n time subst hit t) :=
  .foldl (fun h => keeps_fireTrig h) (keeps_setRec h)

theorem keeps_stepAll {time : Nat} {subst : Bool} {hit : Trig → Bool} :
    ∀ (l : List Nat) {t : State}, Keeps b s t → Keeps b s (stepAll time subst hit l t)
  | [], _, h => h
  | _ :: l, _, h => keeps_stepAll l (keeps_stepGroups h)

theorem keeps_logDet {c : Change} (h : Keeps b s t) : Keeps b s (logDet c t) := .ite h h.upd

theorem keeps_fireTime {n e : Nat} {c : Change} (h : Keeps b s t) : Keeps b s (fireTime n e c t) := by
  unfold fireTime
  extract_lets
  split
  · exact h
  · exact .ite h (keeps_fireTrig (keeps_setRec h))

theorem keeps_evalGoose {tag verdict : Nat} {data : Bytes} {c : Change} (h : Keeps b s t) :
    Keeps b s (evalGoose tag verdict data c t) :=
  keeps_stepAll _ (.upd (.foldl (fun h => keeps_countRec h) h))

theorem keeps_takeChange {c : Change} (h : Keeps b s t) : Keeps b s (takeChange c t) := by
  unfold takeChange
  split
  · exact keeps_fireTime h
  · exact keeps_evalGoose h
  · exact keeps_stepAll _ (keeps_logDet h)

theorem keeps_formRow {n : Nat} (h : Keeps b s t) : Keeps b s (formRow n t) :=
  keeps_recordRow (keeps_acqAsk (keeps_setRec h))

theorem keeps_formRows {n : Nat} : ∀ (k : Nat) {t : State}, Keeps b s t → Keeps b s (formRows n k t)
  | 0, _, h => h
  | k + 1, _, h => keeps_formRows k (keeps_formRow h)

theorem keeps_acqTick {n : Nat} {st : Strm} {t0 : OpenTick} (h : Keeps b s t) : Keeps b s (acqTick n st t0 t) := h.upd

theorem keeps_acqCycles {stream ch : Nat} {l : List Cyc} (h : Keeps b s t) : Keeps b s (acqCycles stream ch l t) :=
  .ite h h.upd

theorem keeps_markSwitch {stream : Nat} (h : Keeps b s t) : Keeps b s (markSwitch stream t) := h.upd

theorem keeps_recRephase {first : Nat → Nat} {n : Nat} (h : Keeps b s t) : Keeps b s (recRephase first n t) := by
  unfold recRephase
  extract_lets
  exact .ite h (by split; exacts [(keeps_latchRec (keeps_reblind (keeps_setRec (keeps_formRows _ h)))), (keeps_setRec
    (keeps_formRows _ h)), (keeps_setRec (keeps_formRows _ h))])

theorem keeps_recsRephase {first : Nat → Nat} :
    ∀ (l : List Nat) {t : State}, Keeps b s t → Keeps b s (recsRephase first l t)
  | [], _, h => h
  | _ :: l, _, h => keeps_recsRephase l (keeps_recRephase h)

theorem keeps_storeRecord {n : Nat} {r : Record} (h : Keeps b s t) : Keeps b s (storeRecord n r t) :=
  keeps_reblind (keeps_fireBinds (keeps_countRec (keeps_acqEvent (keeps_acqAsk (keeps_setRec h)))))

theorem keeps_setStrm {n : Nat} {x : Strm} (h : Keeps b s t) : Keeps b s (setStrm n x t) := h.upd

theorem keeps_countSv {n i k : Nat} (h : Keeps b s t) : Keeps b s (countSv n i k t) := h.upd

theorem keeps_latchSv {bit n : Nat} (h : Keeps b s t) : Keeps b s (latchSv bit n t) := .upd (keeps_noteSet h)

theorem keeps_svEvent {code n : Nat} (h : Keeps b s t) : Keeps b s (svEvent code n t) := keeps_raise h

theorem keeps_deliverRec {depth len : Nat} {body : Bytes} {d : Dest} (h : Keeps b s t) :
    Keeps b s (deliverRec depth len body d t) :=
  keeps_deliver (keeps_noteLocal h)

theorem keeps_deliverReady {time osn : Nat} {d : Dest} (h : Keeps b s t) : Keeps b s (deliverReady time osn d t) :=
  keeps_visWrite (keeps_noteLocal h)

theorem keeps_noteDelivery {kind obj : Nat} {body : Bytes} {d : Dest} (h : Keeps b s t) :
    Keeps b s (noteDelivery kind obj body d t) :=
  keeps_noteInput h

theorem keeps_eachDest {f : Dest → State → State} (hf : ∀ {d v}, Keeps b s v → Keeps b s (f d v)) :
    ∀ (l : List Dest) {t : State}, Keeps b s t → Keeps b s (eachDest f l t)
  | [], _, h => h
  | _ :: l, _, h => keeps_eachDest hf l (hf h)

theorem keeps_deliverAll {l : List Dest} {depth len time kind index : Nat} {body : Bytes} (h : Keeps b s t) :
    Keeps b s (deliverAll l depth len time kind index body t) := by
  have hnoted : Keeps b s (eachDest (noteDelivery (if kind = 3 then 0 else 1) index body)
      (l.filter fun d => !destSkips d t) t) := keeps_eachDest keeps_noteDelivery _ h
  exact keeps_eachDest keeps_deliverReady _ (keeps_recordOnly (keeps_eachDest keeps_deliverRec _ hnoted))

theorem keeps_effSvSubscribe {c : Cmd} (h : Keeps b s t) : KeepsRes b s (effSvSubscribe c t) := keeps_setStrm h.upd

theorem keeps_effSvEnable {c : Cmd} (h : Keeps b s t) : KeepsRes b s (effSvEnable c t) :=
  Keeps.ite (keeps_levelChange (keeps_setStrm h)) (keeps_setStrm h)

theorem keeps_effSvDisable {c : Cmd} (h : Keeps b s t) : KeepsRes b s (effSvDisable c t) := keeps_setStrm h

theorem keeps_stopStream {n : Nat} (h : Keeps b s t) : Keeps b s (stopStream n t) :=
  keeps_levelChange (keeps_offEvents (keeps_setStrm h.upd))

theorem keeps_effSvRemove {c : Cmd} (h : Keeps b s t) : KeepsRes b s (effSvRemove c t) := keeps_destsGone _ h.upd

theorem keeps_switchSource {n src : Nat} (h : Keeps b s t) : Keeps b s (switchSource n src t) :=
  .ite h (keeps_markSwitch (keeps_svEvent (keeps_latchSv (keeps_countSv (keeps_setStrm h)))))

theorem keeps_effSvSource {c : Cmd} (h : Keeps b s t) : KeepsRes b s (effSvSource c t) :=
  Keeps.ite (keeps_switchSource h) h

theorem keeps_execAutomaticSourceSwitch {stream : Nat} (h : Keeps b s t) :
    KeepsOut b s (execAutomaticSourceSwitch stream t) :=
  .named (.act h (keeps_switchSource h))

theorem keeps_openTicks (h : Keeps b s t) : Keeps b s (openTicks t) := h.upd

theorem keeps_queueWork {l : List Work} {n : Nat} (h : Keeps b s t) : Keeps b s (queueWork l n t) :=
  .ite h (.upd (.ite (keeps_noteSet h) h))

theorem keeps_advance {n : Nat} {dead : OpenTick → Bool} (h : Keeps b s t) : Keeps b s (advance n dead t) :=
  keeps_queueWork (keeps_countSv (keeps_setStrm h))

theorem keeps_placeAsdu {n src : Nat} {f : Held} {d : Asdu} (h : Keeps b s t) :
    Keeps b s (placeAsdu n src f d t) := by
  -- written out without a comparison of two matches, for which the kernel would count to 250,000
  have hbody : placeAsdu = placeAsdu := rfl
  conv at hbody => rhs; delta placeAsdu
  generalize nominalOf = nominal at hbody
  rw [hbody]
  beta_reduce
  extract_lets -underBinder x fs rate a s1
  have hs1 : Keeps b s s1 := .ite (keeps_countSv h) h
  clear_value s1
  split
  · exact keeps_countSv hs1
  · extract_lets -underBinder
    split
    · exact h
    · split
      · split
        · exact keeps_countSv hs1
        · exact keeps_latchSv (keeps_countSv hs1)
      · split
        · exact keeps_countSv (keeps_setStrm hs1)
        · exact keeps_advance (keeps_countSv (keeps_countSv (keeps_setStrm hs1)))

theorem keeps_placeAsdus {n src : Nat} {f : Held} :
    ∀ (l : List Asdu) {t : State}, Keeps b s t → Keeps b s (placeAsdus n src f l t)
  | [], _, h => h
  | _ :: l, _, h => by
    unfold placeAsdus
    exact keeps_placeAsdus l (keeps_placeAsdu h)

theorem keeps_idMismatch {n : Nat} (h : Keeps b s t) : Keeps b s (idMismatch n t) :=
  .ite (keeps_latchSv (keeps_countSv h)) (keeps_svEvent (keeps_setStrm (keeps_latchSv (keeps_countSv h))))

theorem keeps_noSub {flow : Nat} (h : Keeps b s t) : Keeps b s (noSub flow t) := keeps_latchSv h.upd

theorem keeps_noteStandby {n src : Nat} {h0 : Held} {a : SvApdu} (h : Keeps b s t) :
    Keeps b s (noteStandby n src h0 a t) := by
  unfold noteStandby
  extract_lets
  split
  · exact .ite (keeps_countSv (keeps_setStrm h)) h
  · exact h

theorem keeps_useFrame {n src : Nat} {h0 : Held} {a : SvApdu} (h : Keeps b s t) :
    Keeps b s (useFrame n src h0 a t) :=
  keeps_placeAsdus _ (keeps_noteStandby h)

theorem keeps_takeSv {h0 : Held} (h : Keeps b s t) : Keeps b s (takeSv h0 t) :=
  .ite (keeps_noSub h) (.ite (keeps_countSv (keeps_countSv h)) (.ite (keeps_countSv (keeps_countSv h)) (.ite
    (keeps_countSv (keeps_countSv h)) (.ite (keeps_idMismatch (keeps_countSv h)) (keeps_useFrame (keeps_countSv
    h))))))

theorem keeps_execSvFrameRx (h : Keeps b s t) : KeepsOut b s (execSvFrameRx t) := by
  unfold execSvFrameRx
  split
  · exact .next h
  · exact .act h (keeps_takeSv h.upd)

theorem keeps_execSvTickDeadline {stream tick : Nat} (h : Keeps b s t) :
    KeepsOut b s (execSvTickDeadline stream tick t) :=
  .named (.act h (keeps_advance h))

theorem keeps_latchFlt {n ch : Nat} {sat lim : Bool} (h : Keeps b s t) : Keeps b s (latchFlt n ch sat lim t) :=
  .ite h (.upd (.ite (keeps_noteSet (.ite (keeps_noteSet h) h)) (.ite (keeps_noteSet h) h)))

theorem keeps_latchSats {n : Nat} : ∀ (l : List Nat) {t : State}, Keeps b s t → Keeps b s (latchSats n l t)
  | [], _, h => h
  | _ :: l, _, h => keeps_latchSats l (keeps_latchFlt h)

theorem keeps_snapTick {n : Nat} {t0 : OpenTick} (h : Keeps b s t) : Keeps b s (snapTick n t0 t) :=
  keeps_latchSats _ (keeps_setStrm h)

theorem keeps_snapTicks {n : Nat} : ∀ (l : List OpenTick) {t : State}, Keeps b s t → Keeps b s (snapTicks n l t)
  | [], _, h => h
  | _ :: l, _, h => keeps_snapTicks l (keeps_snapTick h)

theorem keeps_filterCh {n t0 : Nat} {q : SlotSt} {ch : Nat} (h : Keeps b s t) : Keeps b s (filterCh n t0 q t ch) :=
  keeps_latchFlt (keeps_acqCycles (.upd (keeps_setStrm h)))

theorem keeps_filterWork {w : Work} (h : Keeps b s t) : Keeps b s (filterWork w t) := by
  unfold filterWork
  extract_lets
  split
  · exact h
  · split
    · exact h
    · exact .ite (keeps_snapTick (keeps_setStrm (.upd (.foldl (fun h => keeps_filterCh h) (.ite (keeps_setStrm
        (keeps_snapTicks _ h)) (keeps_snapTicks _ h)))))) (keeps_setStrm (.upd (.foldl (fun h => keeps_filterCh h)
        (.ite (keeps_setStrm (keeps_snapTicks _ h)) (keeps_snapTicks _ h)))))

theorem keeps_execFilterSlot (h : Keeps b s t) : KeepsOut b s (execFilterSlot t) := by
  unfold execFilterSlot
  split
  · exact .next h
  · exact .next (keeps_filterWork h.upd)

theorem keeps_raiseDet {n : Nat} {e : DetEv} (h : Keeps b s t) : Keeps b s (raiseDet n e t) :=
  .ite (keeps_fireBinds (keeps_raise h)) (keeps_raise h)

theorem keeps_raiseDets {n : Nat} : ∀ (l : List DetEv) {t : State}, Keeps b s t → Keeps b s (raiseDets n l t)
  | [], _, h => h
  | _ :: l, _, h => keeps_raiseDets l (keeps_raiseDet h)

theorem keeps_closeTick {n : Nat} {t0 : OpenTick} (h : Keeps b s t) : Keeps b s (closeTick n t0 t) := by
  unfold closeTick
  extract_lets
  split
  · exact .ite (keeps_snapTick h) h
  · exact .ite (keeps_svEvent (keeps_raiseDets _ (keeps_acqTick (keeps_countSv (keeps_setStrm (keeps_fireBinds
      (keeps_deliverAll (.ite (keeps_snapTick h) h)))))))) (keeps_raiseDets _ (keeps_acqTick (keeps_countSv
      (keeps_setStrm (keeps_fireBinds (keeps_deliverAll (.ite (keeps_snapTick h) h)))))))

theorem keeps_execSvTickClose {stream : Nat} (h : Keeps b s t) : KeepsOut b s (execSvTickClose stream t) := by
  unfold execSvTickClose
  exact .named (by split; exacts [(.next h), (.next (keeps_closeTick h))])

theorem keeps_execStreamLost {stream : Nat} (h : Keeps b s t) : KeepsOut b s (execStreamLost stream t) :=
  .named (.act h (keeps_svEvent (keeps_latchSv (keeps_setStrm h))))

theorem keeps_resolveOld : ∀ (l : List Nat) {t : State}, Keeps b s t → Keeps b s (resolveOld l t)
  | [], _, h => h
  | _ :: l, _, h => keeps_resolveOld l (keeps_advance h)

theorem keeps_drainWork : ∀ (l : List Work) {t : State}, Keeps b s t → Keeps b s (drainWork l t)
  | [], _, h => h
  | _ :: l, _, h => keeps_drainWork l (keeps_filterWork h)

theorem keeps_closeOld {n : Nat} : ∀ (l : List OpenTick) {t : State}, Keeps b s t → Keeps b s (closeOld n l t)
  | [], _, h => h
  | _ :: l, _, h => by
    unfold closeOld
    split
    · exact h
    · exact keeps_closeOld l (keeps_closeTick h)

theorem keeps_closeOlds : ∀ (l : List Nat) {t : State}, Keeps b s t → Keeps b s (closeOlds l t)
  | [], _, h => h
  | _ :: l, _, h => keeps_closeOlds l (.ite (keeps_closeOld _ h) (keeps_setStrm (keeps_closeOld _ h)))

theorem keeps_execRephase (h : Keeps b s t) : KeepsOut b s (execRephase t) :=
  .act h (.upd (keeps_recsRephase _ (keeps_closeOlds _ (keeps_drainWork _ (.upd (keeps_resolveOld _ h))))))

end

/-! ### GOOSE, filter chain, acquisition, the Graft operations -/

section
variable {b : Bool} {s t : State}

theorem keeps_setSub {n : Nat} {x : GSub} (h : Keeps b s t) : Keeps b s (setSub n x t) := h.upd

theorem keeps_countSub {n i : Nat} (h : Keeps b s t) : Keeps b s (countSub n i t) := h.upd

theorem keeps_subEvent {code n : Nat} (h : Keeps b s t) : Keeps b s (subEvent code n t) := keeps_raise h

theorem keeps_effGooseSubscribe {c : Cmd} (h : Keeps b s t) : KeepsRes b s (effGooseSubscribe c t) := keeps_setSub h

theorem keeps_effGooseUnsubscribe {c : Cmd} (h : Keeps b s t) : KeepsRes b s (effGooseUnsubscribe c t) :=
  keeps_destsGone _ h.upd

theorem keeps_deliverImage {n : Nat} {g : GoosePdu} {arr flags : Nat} (h : Keeps b s t) :
    Keeps b s (deliverImage n g arr flags t) :=
  keeps_fireBinds (keeps_setSub (keeps_deliverAll h))

theorem keeps_acceptGoose {n : Nat} {h0 : Held} {g : GoosePdu} {deliver_ restart : Bool} (h : Keeps b s t) :
    Keeps b s (acceptGoose n h0 g deliver_ restart t) := by
  unfold acceptGoose
  extract_lets x y s1 s2
  have hs2 : Keeps b s s2 := .ite (keeps_deliverImage (keeps_setSub h)) (keeps_setSub h)
  exact .ite (keeps_subEvent hs2) hs2

theorem keeps_judgeGoose {n : Nat} {h0 : Held} {g : GoosePdu} (h : Keeps b s t) : Keeps b s (judgeGoose n h0 g t) :=
  .ite (keeps_acceptGoose (keeps_countSub h)) (.ite (.ite (keeps_acceptGoose (keeps_countSub h)) (keeps_countSub h))
    (.ite (keeps_subEvent (keeps_acceptGoose (keeps_countSub h))) (keeps_countSub h)))

theorem keeps_subMismatch {n : Nat} (h : Keeps b s t) : Keeps b s (subMismatch n t) :=
  .ite (keeps_latchSv (keeps_countSub h)) (keeps_subEvent (keeps_setSub (keeps_latchSv (keeps_countSub h))))

theorem keeps_takeGoose {h0 : Held} (h : Keeps b s t) : Keeps b s (takeGoose h0 t) :=
  .ite (keeps_noSub h) (.ite (keeps_countSub (keeps_countSub h)) (.ite (keeps_countSub (keeps_countSub h)) (.ite
    (keeps_countSub (keeps_countSub h)) (.ite (keeps_subMismatch (keeps_countSub h)) (keeps_judgeGoose
    (keeps_countSub h))))))

theorem keeps_execGooseFrameRx (h : Keeps b s t) : KeepsOut b s (execGooseFrameRx t) := by
  unfold execGooseFrameRx
  split
  · exact .next h
  · exact .act h (keeps_takeGoose h.upd)

theorem keeps_staleImage {n : Nat} (h : Keeps b s t) : Keeps b s (staleImage n t) := by
  unfold staleImage
  extract_lets
  split
  · exact keeps_fireBinds (keeps_setSub (keeps_deliverAll h))
  · exact h

theorem keeps_execTalExpiry {sub : Nat} (h : Keeps b s t) : KeepsOut b s (execTalExpiry sub t) :=
  .named (.act h (keeps_subEvent (keeps_latchSv (keeps_countSub (keeps_staleImage (keeps_setSub h))))))

theorem keeps_setPub {n : Nat} {x : GPub} (h : Keeps b s t) : Keeps b s (setPub n x t) := h.upd

theorem keeps_countPub {n i : Nat} (h : Keeps b s t) : Keeps b s (countPub n i t) := h.upd

theorem keeps_effGoosePubSet {c : Cmd} (h : Keeps b s t) : KeepsRes b s (effGoosePubSet c t) :=
  keeps_setPub (.ite h (keeps_testSlot h))

theorem keeps_effGoosePubEnable {c : Cmd} (h : Keeps b s t) : KeepsRes b s (effGoosePubEnable c t) := keeps_setPub h

theorem keeps_dropTags {e : Nat} (h : Keeps b s t) : Keeps b s (dropTags e t) :=
  keeps_fillLanes (.foldl (fun h => keeps_finishPub h) h.upd)

theorem keeps_effGoosePubDisable {c : Cmd} (h : Keeps b s t) : KeepsRes b s (effGoosePubDisable c t) :=
  Keeps.ite (keeps_dropTags (keeps_setPub h)) (keeps_setPub h)

theorem keeps_stopPub {n : Nat} (h : Keeps b s t) : Keeps b s (stopPub n t) := keeps_offEvents (keeps_setPub h)

theorem keeps_sendPub {e gap : Nat} {op : Option (Nat × Nat × Word)} (h : Keeps b s t) :
    Keeps b s (sendPub e gap op t) :=
  .ite (keeps_finishPub h) (.ite (keeps_finishPub (keeps_toSe0Tx h)) (keeps_fillLanes h.upd))

theorem keeps_publishEff {r : Nat} {seq : Word} {data : Bytes} (h : Keeps b s t) :
    Keeps b s (publishEff r seq data t) := by
  unfold publishEff
  split
  · exact h
  · exact .ite (keeps_finishNow h) (.ite (keeps_finishNow (keeps_countPub h)) (keeps_sendPub (keeps_countPub
      (keeps_setPub h))))

theorem keeps_publishRow {ring : Nat} {seq : Word} {data : Bytes} (h : Keeps b s t) :
    KeepsOut b s (publishRow ring seq data t) :=
  .emitRow h (fun h => keeps_publishEff h)

theorem keeps_execGooseRetransmission {entry : Nat} (h : Keeps b s t) :
    KeepsOut b s (execGooseRetransmission entry t) :=
  .named (.act h (keeps_sendPub (keeps_setPub h)))

theorem keeps_setChan {n ch : Nat} {c : FCh} (h : Keeps b s t) : Keeps b s (setChan n ch c t) := keeps_setStrm h

theorem keeps_effFltCoeff {c : Cmd} (h : Keeps b s t) : KeepsRes b s (effFltCoeff c t) := h.upd

theorem keeps_effFltChannel {c : Cmd} (h : Keeps b s t) : KeepsRes b s (effFltChannel c t) :=
  keeps_levelChange (keeps_setChan h)

theorem keeps_effFltThreshold {c : Cmd} (h : Keeps b s t) : KeepsRes b s (effFltThreshold c t) :=
  keeps_levelChange (keeps_setChan h)

theorem keeps_swapBuffer {old new : Nat} (h : Keeps b s t) : Keeps b s (swapBuffer old new t) :=
  .ite h.upd (keeps_freeFrames h.upd)

theorem keeps_endExports {l : List XOp} (h : Keeps b s t) : Keeps b s (endExports l t) :=
  .upd (.foldl (fun h => keeps_finishOp h) h)

theorem keeps_effAcqConfig {c : Cmd} (h : Keeps b s t) : KeepsRes b s (effAcqConfig c t) :=
  keeps_reblind (keeps_setRec (.upd (keeps_swapBuffer (keeps_endExports h))))

theorem keeps_armTimes {n : Nat} : ∀ (l : List (Trig × Nat)) {t : State}, Keeps b s t → Keeps b s (armTimes n l t)
  | [], _, h => h
  | _ :: l, _, h => keeps_armTimes l (.ite h (.ite (keeps_armCmp h) (keeps_cancelUse h)))

theorem keeps_startRec {n : Nat} (h : Keeps b s t) : Keeps b s (startRec n t) :=
  keeps_reblind (keeps_armTimes _ (keeps_setRec h))

theorem keeps_offRec {n : Nat} (h : Keeps b s t) : Keeps b s (offRec n t) := by
  unfold offRec
  extract_lets x mine s1 s2
  have hs1 : Keeps b s s1 := keeps_reblind (keeps_setRec (keeps_cancelCmps h))
  exact .ite (keeps_startRec (keeps_offEvents hs1)) (keeps_offEvents hs1)

theorem keeps_effAcqArm {c : Cmd} (h : Keeps b s t) : KeepsRes b s (effAcqArm c t) :=
  Keeps.ite (keeps_startRec h) (keeps_setRec h)

theorem keeps_effAcqDisarm {c : Cmd} (h : Keeps b s t) : KeepsRes b s (effAcqDisarm c t) :=
  Keeps.ite (keeps_offRec h) (keeps_reblind (keeps_setRec h))

theorem keeps_effAcqTrigger {c : Cmd} (h : Keeps b s t) : KeepsRes b s (effAcqTrigger c t) := by
  unfold effAcqTrigger
  extract_lets
  split
  · exact keeps_fireTrig h
  · exact keeps_fresh (keeps_fireTrig h)

theorem keeps_modStored {n num : Nat} {f : SRec → SRec} (h : Keeps b s t) : Keeps b s (modStored n num f t) :=
  keeps_setRec h

theorem keeps_freeRec {n : Nat} {r : SRec} (h : Keeps b s t) : Keeps b s (freeRec n r t) := keeps_setRec h

theorem keeps_effAcqRelease {c : Cmd} (h : Keeps b s t) : KeepsRes b s (effAcqRelease c t) := by
  unfold effAcqRelease
  extract_lets
  split
  · exact h
  · exact keeps_reblind (.ite (keeps_freeRec h) (keeps_modStored h))

theorem keeps_execTriggerLevelChange (h : Keeps b s t) : KeepsOut b s (execTriggerLevelChange t) := by
  unfold execTriggerLevelChange
  split
  · exact .next h
  · exact .next (keeps_takeChange h.upd)

theorem keeps_se1Miss (h : Keeps b s t) : Keeps b s (se1Miss t) := h.upd

theorem keeps_takeSe1 {h0 : Held} (h : Keeps b s t) : Keeps b s (takeSe1 h0 t) := by
  unfold takeSe1
  split
  · exact .ite (keeps_se1Miss h) (.ite (.ite h (keeps_se1Miss h)) (.ite h.upd.upd (keeps_se1Miss h.upd)))
  · exact keeps_se1Miss h

theorem keeps_execSe1GooseRx (h : Keeps b s t) : KeepsOut b s (execSe1GooseRx t) := by
  unfold execSe1GooseRx
  split
  · exact .next h
  · exact .next (keeps_takeSe1 h.upd)

theorem keeps_execRowForm {rec : Nat} (h : Keeps b s t) : KeepsOut b s (execRowForm rec t) :=
  .named (.act h (keeps_formRow h))

theorem keeps_execRecordStored {rec : Nat} (h : Keeps b s t) : KeepsOut b s (execRecordStored rec t) := by
  unfold execRecordStored
  extract_lets
  exact .named (by split; exacts [(.next h), (.act h (.ite (keeps_offRec (keeps_storeRecord h)) (keeps_storeRecord
    h)))])

theorem keeps_quitExport {x : XOp} (h : Keeps b s t) : Keeps b s (quitExport x t) := by
  unfold quitExport
  extract_lets
  split
  · exact .ite (keeps_reblind (keeps_freeRec (keeps_modStored h.upd))) (keeps_modStored h.upd)
  · exact keeps_modStored h.upd

theorem keeps_endExport {st : Nat} {x : XOp} (h : Keeps b s t) : Keeps b s (endExport st x t) :=
  keeps_finishOp (keeps_quitExport h)

theorem keeps_exportStep {x : XOp} (h : Keeps b s t) : Keeps b s (exportStep x t) :=
  .ite (keeps_endExport (keeps_deliverOp (keeps_acqAsk h))) (.ite (keeps_endExport (keeps_countRec (.upd
    (keeps_deliverOp (keeps_acqAsk h))))) (keeps_countRec (.upd (keeps_deliverOp (keeps_acqAsk h)))))

theorem keeps_exportEff {r : Nat} {seq : Word} (h : Keeps b s t) : Keeps b s (exportEff r seq t) := by
  unfold exportEff
  split
  · exact h
  · extract_lets d n u
    have hu : Keeps b s u := .foldl keeps_quitExport h
    split
    · exact keeps_finishNow hu
    · exact keeps_exportStep (keeps_modStored hu.upd)

theorem keeps_execExportRec {ring : Nat} {seq : Word} (h : Keeps b s t) : KeepsOut b s (execExportRec ring seq t) := by
  unfold execExportRec
  exact .ite (.emitRow h (fun h => keeps_exportEff h)) (by split; exacts [(.named (.next (keeps_exportStep h))),
    (.emitRow h (fun h => keeps_exportEff h))])

theorem keeps_gftEvent {code kind index : Nat} {bit : Option Nat} {data : Bytes} (h : Keeps b s t) :
    Keeps b s (gftEvent code kind index bit data t) := by
  unfold gftEvent
  exact keeps_raise (by split; exacts [(.upd (keeps_noteSet h)), h])

theorem keeps_countGft {i n : Nat} (h : Keeps b s t) : Keeps b s (countGft i n t) := h.upd

theorem keeps_heardPeer (h : Keeps b s t) : Keeps b s (heardPeer t) := h.upd

theorem keeps_modMirrored {f : Part → Part} (h : Keeps b s t) : Keeps b s (modMirrored f t) := h.upd

theorem keeps_modMirrored' {f : Nat → Part → Part} (h : Keeps b s t) : Keeps b s (modMirrored' f t) := h.upd

theorem keeps_noteComplete (h : Keeps b s t) : Keeps b s (noteComplete t) := .ite h (keeps_gftEvent h.upd)

theorem keeps_endFwd {f : Fwd} (h : Keeps b s t) : Keeps b s (endFwd f t) := .upd (keeps_finishCmd h)

theorem keeps_endFwds : ∀ (l : List Fwd) {t : State}, Keeps b s t → Keeps b s (endFwds l t)
  | [], _, h => h
  | _ :: l, _, h => keeps_endFwds l (keeps_endFwd h)

theorem keeps_unpaired (h : Keeps b s t) : Keeps b s (unpaired t) := .upd (keeps_endFwds _ h.upd)

theorem keeps_quitExports {p : Nat} (h : Keeps b s t) : Keeps b s (quitExports p t) :=
  .foldl (fun h => keeps_quitExport h) h

theorem keeps_destroyShadow {p : Nat} (h : Keeps b s t) : Keeps b s (destroyShadow p t) :=
  keeps_destroyPart (.upd (keeps_quitExports h))

theorem keeps_destroyShadows : ∀ (l : List Nat) {t : State}, Keeps b s t → Keeps b s (destroyShadows l t)
  | [], _, h => h
  | _ :: l, _, h => keeps_destroyShadows l (keeps_destroyShadow h)

theorem keeps_dropImage (h : Keeps b s t) : Keeps b s (dropImage t) := keeps_freeFrames h.upd

theorem keeps_unpairNow (h : Keeps b s t) : Keeps b s (unpairNow t) :=
  .ite (.upd (keeps_destroyShadows _ (keeps_dropImage (keeps_unpaired h)))) (keeps_noteComplete (.upd (keeps_unpaired
    h)))

theorem keeps_detach (h : Keeps b s t) : Keeps b s (detach t) :=
  .ite h (keeps_modMirrored (.upd (.foldl (fun h => keeps_dropRun h) h)))

theorem keeps_imagePage {p page : Nat} {data : Bytes} (h : Keeps b s t) : Keeps b s (imagePage p page data t) :=
  .upd (.ite h h.upd)

theorem keeps_imageLines {p page : Nat} {lines : List (Nat × Bytes)} (h : Keeps b s t) :
    Keeps b s (imageLines p page lines t) := by
  unfold imageLines
  split
  · exact h.upd
  · exact h

theorem keeps_applyFrame {f : MirrorFrame} (h : Keeps b s t) : Keeps b s (applyFrame t f) := by
  unfold applyFrame
  split
  · exact keeps_imageLines h
  · exact h.upd
  · exact h.upd
  · exact h.upd
  · exact h.upd

theorem keeps_takePub {n : Nat} {v : PubValues} (h : Keeps b s t) : Keeps b s (takePub n v t) := keeps_setPub h

theorem keeps_stateItem {from_ : Nat} {a : StateItem} (h : Keeps b s t) : Keeps b s (stateItem from_ t a) := by
  unfold stateItem
  split
  · exact .ite h (keeps_takePub h)
  · exact .ite h (keeps_setOut h)
  · exact h

theorem keeps_opEffect {b0 : Nat} {h0 : HeldOp} {d : Desc} (h : Keeps b s t) : Keeps b s (opEffect b0 h0 d t) := by
  unfold opEffect
  extract_lets
  split
  · exact keeps_sendEff h
  · exact keeps_publishEff h
  · exact keeps_stageEff h
  · exact keeps_loadEff h
  · exact keeps_pulseEff h

theorem keeps_applyLog {h0 : HeldOp} {l : LogInfo} {d : Desc} (h : Keeps b s t) : Keeps b s (applyLog h0 l d t) := by
  unfold applyLog
  exact .ite (keeps_countGft (keeps_finishNow h)) (by split; exacts [(.ite (keeps_countGft (keeps_finishNow h))
    (keeps_takePub (keeps_countGft (keeps_finishNow h)))), (.upd (keeps_opEffect (keeps_countGft (keeps_finishNow
    h)))), (keeps_countGft (keeps_finishNow h))])

theorem keeps_meetLog {h0 : HeldOp} {l : LogInfo} (h : Keeps b s t) : Keeps b s (meetLog h0 l t) := by
  unfold meetLog
  split
  · exact h.upd
  · exact .ite (keeps_applyLog h.upd) (keeps_markStale h.upd)

theorem keeps_matchLogs : ∀ (l : List HeldOp) {t : State}, Keeps b s t → Keeps b s (matchLogs l t)
  | [], _, h => h
  | _ :: l, _, h => by
    unfold matchLogs
    refine keeps_matchLogs l ?_
    split
    · exact keeps_meetLog h
    · exact h

theorem keeps_dropUnmatched {from_ : Nat} (h : Keeps b s t) : Keeps b s (dropUnmatched from_ t) :=
  .foldl (fun h => keeps_countGft (keeps_markStale h)) h.upd

theorem keeps_pageBack {p : Nat} {e : Nat × List Host.Cell} (h : Keeps b s t) : Keeps b s (pageBack p t e) := by
  unfold pageBack
  split
  · exact h
  · exact .ite (h.updMem fun hm => wf_fill _ _ (wf_zero _ _ _ hm)) (keeps_setPart (h.updMem fun hm => wf_fill _ _
      (wf_zero _ _ _ hm)))

theorem keeps_dropUndo {p : Nat} (h : Keeps b s t) : Keeps b s (dropUndo p t) := h.upd

theorem keeps_imageBack {p : Nat} (h : Keeps b s t) : Keeps b s (imageBack p t) := by
  unfold imageBack
  extract_lets mine s1 s2 jrnl
  have hs1 : Keeps b s s1 := .foldl (fun h => keeps_pageBack h) (keeps_quitExports (keeps_dropUndo (keeps_dropRun h)))
  exact .upd (keeps_modPart hs1)

theorem keeps_reseed {p : Nat} (h : Keeps b s t) : Keeps b s (reseed p t) :=
  keeps_setTriad (keeps_countGft (keeps_imageBack h))

theorem keeps_reseeds : ∀ (l : List Nat) {t : State}, Keeps b s t → Keeps b s (reseeds l t)
  | [], _, h => h
  | _ :: l, _, h => keeps_reseeds l (keeps_reseed h)

theorem keeps_restoreOld {p : Nat} (h : Keeps b s t) : Keeps b s (restoreOld p t) := by
  unfold restoreOld
  exact keeps_gftEvent (keeps_modPart (keeps_imageBack h))

theorem keeps_takePart {e : Nat × Part} (h : Keeps b s t) : Keeps b s (takePart t e) :=
  .ite h (.ite (keeps_restoreOld h) (keeps_partitionReset h))

theorem keeps_runHeld {h0 : HeldOp} (h : Keeps b s t) : Keeps b s (runHeld t h0) := by
  unfold runHeld
  split
  · exact h
  · exact keeps_countGft (.ite (keeps_opEffect (keeps_modEntry h)) (keeps_finishNow (keeps_modEntry h)))

theorem keeps_resumeRedun (h : Keeps b s t) : Keeps b s (resumeRedun t) := h.upd

theorem keeps_switchOver {handover : Bool} (h : Keeps b s t) : Keeps b s (switchOver handover t) := by
  unfold switchOver
  extract_lets osn late s0 _ s1 s2 _ s3 s4 _ s5
  have hs0 : Keeps b s s0 := keeps_matchLogs _ h
  have hs2 : Keeps b s s2 := .foldl keeps_takePart (keeps_applyPins hs0.upd)
  have hs3 : Keeps b s s3 := keeps_resumeRedun hs2.upd
  have hs4 : Keeps b s s4 := keeps_dropImage (.foldl keeps_runHeld hs3)
  exact keeps_gftEvent (keeps_countGft (keeps_modMirrored hs4.upd))

theorem keeps_startCopy (h : Keeps b s t) : Keeps b s (startCopy t) := h.upd

theorem keeps_pagesToCopy (h : Keeps b s t) : Keeps b s (pagesToCopy t) := h.upd

theorem keeps_copyOn (h : Keeps b s t) : Keeps b s (copyOn t) := h.upd

theorem keeps_sendMirror (h : Keeps b s t) : Keeps b s (sendMirror t) :=
  .ite (keeps_gftQueue (keeps_countGft (keeps_countGft h.upd))) (.ite (keeps_unpaired (keeps_countGft (keeps_countGft
    h.upd))) (keeps_startCopy (keeps_modMirrored (keeps_countGft (keeps_countGft h.upd)))))

theorem keeps_takeInputs (h : Keeps b s t) : Keeps b s (takeInputs t) := h.upd

theorem keeps_mirrorTick (h : Keeps b s t) : Keeps b s (mirrorTick t) :=
  .ite h (.ite (keeps_copyOn (keeps_pagesToCopy h)) (.ite (keeps_gftEvent (keeps_countGft (keeps_sendMirror (.upd
    (keeps_pagesToCopy h))))) (keeps_sendMirror (.upd (keeps_pagesToCopy h)))))

theorem keeps_ownMark (h : Keeps b s t) : Keeps b s (ownMark t) := .ite h h.upd

theorem keeps_shadowTick (h : Keeps b s t) : Keeps b s (shadowTick t) := .ite h h.upd

end

/-! ### The Graft pair, observation, integrity, Heartwood, the tick and the registers -/

section
variable {b : Bool} {s t : State}

theorem keeps_startPair {c : Cmd} (h : Keeps b s t) : Keeps b s (startPair c t) := keeps_gftSendOne h.upd

theorem keeps_forwardConfig (h : Keeps b s t) : Keeps b s (forwardConfig t) := keeps_countGft (keeps_gftQueue h)

theorem keeps_pairUp (h : Keeps b s t) : Keeps b s (pairUp t) :=
  .ite (keeps_startCopy (keeps_forwardConfig h.upd.upd)) h.upd.upd

theorem keeps_pairFailed (h : Keeps b s t) : Keeps b s (pairFailed t) := h.upd

theorem keeps_finishPair {_c : Cmd} (h : Keeps b s t) : KeepsRes b s (finishPair _c t) := by
  unfold finishPair
  split
  · exact keeps_pairFailed h
  · exact .ite (keeps_pairFailed h) (.ite (keeps_pairFailed h) (keeps_pairUp h))

theorem keeps_effGftUnpair {_c : Cmd} (h : Keeps b s t) : KeepsRes b s (effGftUnpair _c t) :=
  keeps_unpairNow (keeps_gftSendAll h)

theorem keeps_trimImage {p : Nat} (h : Keeps b s t) : Keeps b s (trimImage p t) := keeps_freeFrames h.upd

theorem keeps_effGftMirror {c : Cmd} (h : Keeps b s t) : KeepsRes b s (effGftMirror c t) := by
  unfold effGftMirror
  extract_lets p l standby u t
  have ht : Keeps b s t := .ite (keeps_trimImage (keeps_modPart h)) (.ite (keeps_pagesToCopy (.upd (keeps_modPart
    h))) (keeps_modPart h))
  exact keeps_noteComplete ht

theorem keeps_effGftSwitch {_c : Cmd} (h : Keeps b s t) : KeepsRes b s (effGftSwitch _c t) :=
  Keeps.upd (keeps_resign h)

theorem keeps_effGftStatus {c : Cmd} (h : Keeps b s t) : KeepsRes b s (effGftStatus c t) := keeps_resOut h

theorem keeps_laneEvent {lane : Nat} (h : Keeps b s t) : Keeps b s (laneEvent lane t) :=
  keeps_noteComplete (keeps_gftEvent h)

theorem keeps_execGraftLaneUp {lane : Nat} (h : Keeps false s t) : KeepsOut false s (execGraftLaneUp lane t) :=
  .named (.act h (keeps_frameStarts (keeps_laneEvent (keeps_sdclkBack h.upd))))

theorem keeps_moveUnacked {lane : Nat} (h : Keeps b s t) : Keeps b s (moveUnacked lane t) :=
  .ite (keeps_countGft (keeps_gftQueue h.upd.upd)) h.upd

theorem keeps_laneDown {lane : Nat} (h : Keeps b s t) : Keeps b s (laneDown lane t) :=
  .ite (keeps_laneEvent (keeps_moveUnacked h.upd)) h

theorem keeps_execGraftLaneDown {lane : Nat} (h : Keeps b s t) : KeepsOut b s (execGraftLaneDown lane t) :=
  .named (.next (keeps_laneDown h))

theorem keeps_sendAck {mark : Option Nat} (h : Keeps b s t) : Keeps b s (sendAck mark t) := keeps_gftSendOne h.upd

theorem keeps_linkTimers (h : Keeps b s t) : Keeps b s (linkTimers t) := .ite h (keeps_sendAck (keeps_gftSend h.upd))

theorem keeps_tookFrame {lane : Nat} (h : Keeps b s t) : Keeps b s (tookFrame lane t) :=
  .ite (keeps_sendAck (keeps_heardPeer h.upd)) (keeps_heardPeer h.upd)

theorem KeepsOut.onLane {l : GLink} {f : State → State} (h : Keeps b s t)
    (hf : ∀ {v}, Keeps b s v → Keeps b s (f v)) : KeepsOut b s (onLane l t f) :=
  .named (.act h (.ite (hf (keeps_tookFrame h)) (.ite h h.upd)))

theorem keeps_onLanes {f : State → State} (h : Keeps b s t) (hf : ∀ {v}, Keeps b s v → Keeps b s (f v)) :
    Keeps b s (onLanes t f) :=
  .ite h (hf (.foldl (fun h => keeps_tookFrame h) h))

theorem keeps_execHello {lane : Nat} {lseq : Word} {osn : Option Nat} (h : Keeps b s t) :
    KeepsOut b s (execHello lane lseq osn t) :=
  .onLane h (fun h => h.upd)

theorem keeps_takeAck {lane0 lane1 : Word} (h : Keeps b s t) : Keeps b s (takeAck lane0 lane1 t) :=
  keeps_countGft (keeps_gftQueue h.upd)

theorem keeps_mirrorDone {mark : Nat} (h : Keeps b s t) : Keeps b s (mirrorDone mark t) := by
  unfold mirrorDone
  split
  · exact h
  · exact keeps_countGft h.upd

theorem keeps_peerState {a : AckInfo} (h : Keeps b s t) : Keeps b s (peerState a t) := keeps_modMirrored' h.upd

theorem keeps_execAck {lane0 lane1 : Word} {a : OnLink AckInfo} (h : Keeps b s t) :
    KeepsOut b s (execAck lane0 lane1 a t) := by
  unfold execAck
  exact .onLane h (fun h => .ite (keeps_takeAck h) (keeps_noteComplete (.ite (keeps_peerState (by split; exacts
    [(keeps_mirrorDone (keeps_takeAck h)), (keeps_takeAck h)])) (by split; exacts [(keeps_mirrorDone (keeps_takeAck
    h)), (keeps_takeAck h)]))))

theorem keeps_execPartnerLost (h : Keeps b s t) : KeepsOut b s (execPartnerLost t) :=
  .act h (.ite (keeps_detach (keeps_gftEvent h.upd)) (.ite (keeps_noteComplete (keeps_unpaired (keeps_gftEvent
    h.upd))) (keeps_gftEvent h.upd)))

theorem keeps_execResign (h : Keeps b s t) : KeepsOut b s (execResign t) :=
  .next (keeps_onLanes h (fun h => .ite (keeps_gftSendAll (keeps_switchOver h)) h))

theorem keeps_selfImage (h : Keeps b s t) : Keeps b s (selfImage t) := h.upd

theorem keeps_oldActive (h : Keeps b s t) : Keeps b s (oldActive t) :=
  keeps_modMirrored (.upd (keeps_selfImage h.upd))

theorem keeps_undrive (h : Keeps b s t) : Keeps b s (undrive t) := h.upd

theorem keeps_toIdle (h : Keeps b s t) : Keeps b s (toIdle t) :=
  keeps_applyPins (keeps_noteComplete (.upd (keeps_unpaired h)))

theorem keeps_execTaken (h : Keeps b s t) : KeepsOut b s (execTaken t) :=
  .next (keeps_onLanes h (fun h => .ite (.ite (keeps_applyPins (keeps_noteComplete (keeps_oldActive (keeps_endFwds _
    (.upd (keeps_undrive h)))))) (keeps_toIdle (keeps_undrive h))) h))

theorem keeps_execTakenTimeout (h : Keeps b s t) : KeepsOut b s (execTakenTimeout t) :=
  .act h (keeps_toIdle (.upd (keeps_undrive h)))

theorem keeps_execActiveNHigh (h : Keeps b s t) : KeepsOut b s (execActiveNHigh t) := .act h h.upd

theorem keeps_claimed (h : Keeps b s t) : Keeps b s (claimed t) := .ite (keeps_switchOver h) (keeps_applyPins h.upd)

theorem keeps_execClaimConfirmation {low : Bool} (h : Keeps b s t) : KeepsOut b s (execClaimConfirmation low t) :=
  .act h (.ite (keeps_claimed h) (keeps_gftEvent (.upd (keeps_undrive h))))

theorem keeps_execKeepaliveLapse (h : Keeps b s t) : KeepsOut b s (execKeepaliveLapse t) :=
  .act h (keeps_toIdle (.upd (keeps_undrive (.ite (keeps_gftSendAll h) h))))

theorem keeps_noteFwd {ring : Nat} {seq : Word} (h : Keeps b s t) : Keeps b s (noteFwd ring seq t) := h.upd

theorem keeps_cmdDiffers (h : Keeps b s t) : Keeps b s (cmdDiffers t) := keeps_noteComplete (keeps_gftEvent h.upd)

theorem keeps_execCmdack {ring : Nat} {seq : Word} {status : OnLink Nat} (h : Keeps b s t) :
    KeepsOut b s (execCmdack ring seq status t) := by
  unfold execCmdack
  exact .onLane h (fun h => by split; exacts [(.ite (keeps_endFwd (keeps_noteFwd h.upd)) (keeps_cmdDiffers
    (keeps_endFwd (keeps_noteFwd h.upd)))), (by split; exacts [(.ite h (keeps_cmdDiffers h)), h])])

theorem keeps_execLog {l : OnLink LogInfo} (h : Keeps b s t) : KeepsOut b s (execLog l t) :=
  .onLane h (fun h => .ite h (keeps_matchLogs _ h.upd))

theorem KeepsOut.matchHeld {ring : Nat} {seq : Word} {row : State → Out} (h : Keeps b s t)
    (hr : ∀ {v}, Keeps b s v → KeepsOut b s (row v)) : KeepsOut b s (matchHeld ring seq row t) := by
  refine .ite (hr h) ?_
  split
  · next u hu => exact .next (keeps_matchLogs _ (hr h u hu))
  · exact .fault
  · exact .refused

theorem keeps_compareShadow {c : CommitInfo} {frames : List MirrorFrame} {e : Nat × Part} (h : Keeps b s t) :
    Keeps b s (compareShadow c frames t e) :=
  .ite (keeps_countGft h) (.ite (keeps_countGft (keeps_markStale h)) (keeps_gftEvent (keeps_countGft (.upd
    (keeps_markStale h)))))

theorem keeps_applyState {from_ : Nat} {f : MirrorFrame} (h : Keeps b s t) : Keeps b s (applyState from_ t f) := by
  unfold applyState
  split
  · exact .foldl (fun h => keeps_stateItem h) h
  · exact h
  · exact h
  · exact h
  · exact h

theorem keeps_commitRecord {c : CommitInfo} {frames : List MirrorFrame} (h : Keeps b s t) :
    Keeps b s (commitRecord c frames t) := by
  unfold commitRecord
  extract_lets start _ s1 pages bytes s2
  have hs1 : Keeps b s s1 := .foldl keeps_applyFrame h.upd
  have hs2 : Keeps b s s2 := keeps_countGft (keeps_countGft (keeps_countGft hs1))
  exact .foldl keeps_applyState hs2.upd

theorem keeps_commitShadows {c : CommitInfo} {frames : List MirrorFrame} (h : Keeps b s t) :
    Keeps b s (commitShadows c frames t) := by
  unfold commitShadows
  extract_lets start late s1 cur clean s2 s3 s4
  have hs2 : Keeps b s s2 := .ite (keeps_modMirrored (keeps_matchLogs _ h)) (.ite (keeps_matchLogs _ h) (.foldl (fun
    h => keeps_compareShadow h) (keeps_matchLogs _ h)))
  have hs4 : Keeps b s s4 := .ite (keeps_dropUnmatched hs2) (keeps_reseeds _ (keeps_dropUnmatched hs2))
  exact hs4.upd

theorem keeps_commitTick {c : CommitInfo} (h : Keeps b s t) : Keeps b s (commitTick c t) :=
  keeps_sendAck (keeps_commitShadows (keeps_commitRecord h))

theorem keeps_commitWhole : ∀ (n : Nat) {t : State}, Keeps b s t → Keeps b s (commitWhole n t)
  | 0, _, h => h
  | n + 1, _, h => by
    unfold commitWhole
    split
    · exact h
    · exact .ite (keeps_commitWhole n (keeps_commitTick h)) h

theorem keeps_tryCommits (h : Keeps b s t) : Keeps b s (tryCommits t) := keeps_commitWhole _ h

theorem keeps_execMirrorFrame {link : GLink} {f : MirrorFrame} (h : Keeps b s t) :
    KeepsOut b s (execMirrorFrame link f t) :=
  .onLane h (fun h => .ite h (keeps_tryCommits h.upd))

theorem keeps_execCommit {link : GLink} {c : CommitInfo} (h : Keeps b s t) : KeepsOut b s (execCommit link c t) :=
  .onLane h (fun h => .ite h (keeps_tryCommits h.upd))

theorem keeps_syncAgain (h : Keeps b s t) : Keeps b s (syncAgain t) := keeps_modMirrored h.upd

theorem keeps_execSync {part iova : Nat} {data : Bytes} {link : GLink} (h : Keeps b s t) :
    KeepsOut b s (execSync part iova data link t) :=
  .onLane h (fun h => .ite h (.upd (keeps_imagePage (.ite (keeps_syncAgain h) h))))

theorem keeps_execPair {p : OnLink PairInfo} (h : Keeps b s t) : KeepsOut b s (execPair p t) :=
  .onLane h (fun h => .ite h h.upd)

theorem keeps_execUnpair (h : Keeps b s t) : KeepsOut b s (execUnpair t) :=
  .next (keeps_onLanes h (fun h => .ite (keeps_unpairNow h) h))

theorem keeps_execSend {ring : Nat} {seq : Word} {frame : Frame} (h : Keeps b s t) :
    KeepsOut b s (execSend ring seq frame t) :=
  .matchHeld h (fun h => keeps_sendRow h)

theorem keeps_execPublish {ring : Nat} {seq : Word} {data : Bytes} (h : Keeps b s t) :
    KeepsOut b s (execPublish ring seq data t) :=
  .matchHeld h (fun h => keeps_publishRow h)

theorem keeps_execStage {ring : Nat} {seq : Word} (h : Keeps b s t) : KeepsOut b s (execStage ring seq t) :=
  .matchHeld h (fun h => keeps_stageRow h)

theorem keeps_execLoad {ring : Nat} {seq : Word} {block : Bytes} (h : Keeps b s t) :
    KeepsOut b s (execLoad ring seq block t) :=
  .matchHeld h (fun h => keeps_loadRow h)

theorem keeps_execPulse {ring : Nat} {seq : Word} (h : Keeps b s t) : KeepsOut b s (execPulse ring seq t) :=
  .matchHeld h (fun h => keeps_pulseRow h)

theorem keeps_effObsTrace {c : Cmd} (h : Keeps b s t) : KeepsRes b s (effObsTrace c t) := h.upd

theorem keeps_dropRecord (h : Keeps b s t) : Keeps b s (dropRecord t) := h.upd

theorem keeps_queueRecord {r : TrRec} (h : Keeps b s t) : Keeps b s (queueRecord r t) := by
  unfold queueRecord
  split
  · exact keeps_dropRecord h
  · exact .ite (keeps_dropRecord h) h.upd

theorem keeps_execTraceRecord (h : Keeps b s t) : KeepsOut b s (execTraceRecord t) := by
  unfold execTraceRecord
  split
  · exact .next h
  · exact .next (keeps_queueRecord h.upd)

theorem keeps_sendUnit {t0 : Nat} {r : TrRec} (h : Keeps b s t) : Keeps b s (sendUnit t0 r t) := h.upd

theorem keeps_execTraceUnit {lane : Nat} (h : Keeps false s t) : KeepsOut false s (execTraceUnit lane t) := by
  unfold execTraceUnit
  exact .named (by split; exacts [(.next h), (.act h (keeps_sendUnit (.upd (keeps_sdclkBack h))))])

theorem keeps_execObsStatClear {value : Word} (h : Keeps b s t) : KeepsOut b s (execObsStatClear value t) :=
  .act h h.upd

theorem keeps_effObsSnapshot {c : Cmd} (h : Keeps b s t) : KeepsRes b s (effObsSnapshot c t) := keeps_resOut h

theorem keeps_effSnsConfig {c : Cmd} (h : Keeps b s t) : KeepsRes b s (effSnsConfig c t) := h.upd

theorem keeps_effSnsRead {c : Cmd} (h : Keeps b s t) : KeepsRes b s (effSnsRead c t) := keeps_resOut h.upd

theorem keeps_unreadValue {p : Poll} (h : Keeps b s t) : Keeps b s (unreadValue p t).2 := .ite_snd h (keeps_fresh h)

theorem keeps_execSensorPoll {entry : Nat} {acked : Bool} {value : BitVec 16} (h : Keeps b s t) :
    KeepsOut b s (execSensorPoll entry acked value t) := by
  refine .named ?_
  split
  · exact .next h
  · exact .act h (.upd (.ite_snd h (keeps_unreadValue h)))

theorem keeps_pick {n : Nat} (h : Keeps b s t) : Keeps b s (pick n t).2 := keeps_fresh h

theorem keeps_payloadError {c : Chan} (h : Keeps b s t) : Keeps b s (payloadError c t) := by
  unfold payloadError
  extract_lets
  split
  · exact h
  · exact keeps_payloadLost (.upd (keeps_pick h))

theorem keeps_laneError {m loc ue : Nat} (h : Keeps b s t) : Keeps b s (laneError m loc ue t) :=
  .ite (keeps_laneLeaves h) (.ite (keeps_isolate h) (.ite (keeps_payloadError h) (keeps_patrolAsk h)))

theorem keeps_keyError {k : Nat} (h : Keeps b s t) : Keeps b s (keyError k t) := .ite h (keeps_foundBad h)

theorem keeps_bufferError (h : Keeps b s t) : Keeps b s (bufferError t) := by
  unfold bufferError
  extract_lets
  split
  · exact keeps_setQueue (keeps_pick h)
  · exact .upd (keeps_pick h)

theorem keeps_tableError {entry : Nat} (h : Keeps b s t) : Keeps b s (tableError entry t) := .upd (keeps_fresh h)

theorem keeps_streamError {n ch : Nat} (h : Keeps b s t) : Keeps b s (streamError n ch t) := by
  unfold streamError
  extract_lets
  split
  · exact h
  · exact keeps_setStrm (keeps_pick h)

theorem keeps_recorderError {n : Nat} (h : Keeps b s t) : Keeps b s (recorderError n t) := by
  unfold recorderError
  split
  · exact h
  · exact .upd (keeps_pick (keeps_pick h))

theorem keeps_fifoError {n : Nat} {queue : Bool} (h : Keeps b s t) : Keeps b s (fifoError n queue t) := by
  unfold fifoError
  extract_lets
  split
  · exact keeps_pick h
  · exact keeps_countPort (keeps_releaseTs (.upd (keeps_pick h)))

theorem keeps_recordError {num : Nat} (h : Keeps b s t) : Keeps b s (recordError num t) := h.upd

theorem keeps_mramError {a : Nat} (h : Keeps b s t) : Keeps b s (mramError a t) := .ite h.upd (.ite h.upd h.upd)

theorem keeps_errorAction {m loc ue : Nat} (h : Keeps b s t) : Keeps b s (errorAction m loc ue t) := by
  unfold errorAction
  split
  · exact keeps_laneError h
  · exact keeps_laneError h
  · exact keeps_laneError h
  · exact keeps_isolate h
  · exact keeps_isolate h
  · exact keeps_isolate h
  · exact keeps_pulseSource_warm rfl h
  · exact keeps_pulseSource_warm rfl h
  · exact keeps_keyError h
  · exact keeps_bufferError h
  · exact keeps_tableError h
  · exact keeps_streamError h
  · exact keeps_recorderError h
  · exact keeps_fifoError h
  · exact keeps_recordError h
  · exact keeps_mramError h

theorem keeps_noteError {m : Nat} {loc : BitVec 64} (h : Keeps b s t) : Keeps b s (noteError m loc t) :=
  keeps_eccEvent (.upd (keeps_noteSet (keeps_setEcc h)))

theorem keeps_hardError {m : Nat} {loc : BitVec 64} (h : Keeps b s t) : Keeps b s (hardError m loc t) :=
  .ite (keeps_addRepair h) (keeps_setEcc h)

theorem keeps_execUncorrectableError {mem : Nat} {loc : BitVec 64} (h : Keeps b s t) :
    KeepsOut b s (execUncorrectableError mem loc t) :=
  .named (.act h (keeps_errorAction (keeps_hardError (keeps_noteError h))))

theorem keeps_portsGone : ∀ (l : List Nat) {t : State}, Keeps b s t → Keeps b s (portsGone l t)
  | [], _, h => h
  | _ :: l, _, h => keeps_portsGone l (keeps_linkGone h)

theorem keeps_execSdclkLoss (h : Keeps false s t) : KeepsOut false s (execSdclkLoss t) := by
  unfold execSdclkLoss
  extract_lets t
  have ht : Keeps false s t := keeps_laneDown (keeps_laneDown (keeps_portsGone _ h))
  exact .next ht.updIsle

theorem keeps_stopPart {p : Nat} (h : Keeps b s t) : Keeps b s (stopPart p t) := by
  unfold stopPart
  split
  · exact keeps_offEvents (keeps_setPart h)
  · exact h

theorem keeps_stopRing {r : Nat} (h : Keeps b s t) : Keeps b s (stopRing r t) := by
  unfold stopRing
  split
  · exact keeps_offEvents (keeps_setRing h)
  · exact h

theorem keeps_execStoppingEnd {kind index : Nat} (h : Keeps b s t) : KeepsOut b s (execStoppingEnd kind index t) := by
  unfold execStoppingEnd
  split
  · exact .named (.act h (keeps_stopPart h))
  · exact .named (.act h (keeps_stopRing h))
  · exact .named (.act h (keeps_stopStream h))
  · exact .named (.act h (keeps_stopPub h))
  · exact .named (.act h (keeps_stopPort h))
  · exact .named (.act h (keeps_stopTb h))
  · exact .named (.act h (keeps_offRec h))
  · exact .named (.act h (keeps_stopOut h))
  · exact .named (.act h (keeps_stopBin h))
  · exact .fault

theorem keeps_effAtTick {c : Cmd} (h : Keeps b s t) : KeepsRes b s (effAtTick c t) := by
  unfold effAtTick
  split
  · exact keeps_effPartFreeze h
  · exact keeps_effPartThaw h
  · exact keeps_effCnpSchedule h
  · exact keeps_effCnpBudget h
  · exact keeps_effCnpWake h
  · exact keeps_effTriadRejoin h
  · exact keeps_effSvSource h
  · exact keeps_effFltThreshold h
  · exact keeps_effGftMirror h
  · exact keeps_effGftSwitch h
  · exact h

theorem keeps_effForwarded {c : Cmd} (h : Keeps b s t) : KeepsRes b s (effForwarded c t) := by
  unfold effForwarded
  split
  · exact keeps_effPartCreate h
  · exact keeps_effPartStart h
  · exact keeps_effPartStop h
  · exact keeps_effPartReset h
  · exact keeps_effPartDestroy h
  · exact keeps_effPartQuota h
  · exact keeps_finishSave (keeps_startSave h)
  · exact keeps_finishRestore (keeps_startRestore h)
  · exact keeps_effCnpTick h
  · exact keeps_effRingCreate h
  · exact keeps_effRingEnable h
  · exact keeps_effRingDisable h
  · exact keeps_effRingReset h
  · exact keeps_effRingDestroy h
  · exact keeps_effRingShare h
  · exact keeps_effRingQuery h
  · exact keeps_effSvSubscribe h
  · exact keeps_effSvEnable h
  · exact keeps_effSvDisable h
  · exact keeps_effSvRemove h
  · exact keeps_effGooseSubscribe h
  · exact keeps_effGooseUnsubscribe h
  · exact keeps_effGoosePubSet h
  · exact keeps_effGoosePubEnable h
  · exact keeps_effGoosePubDisable h
  · exact keeps_effFltChannel h
  · exact keeps_effFltCoeff h
  · exact keeps_effPortConfig h
  · exact keeps_effPortEnable h
  · exact keeps_effPortDisable h
  · exact keeps_effPortFilter h
  · exact keeps_effSwExactAdd h
  · exact keeps_effSwExactDel h
  · exact keeps_effSwWildSet h
  · exact keeps_effSwWildDel h
  · exact keeps_effSwQueue h
  · exact keeps_effSwRed h
  · exact keeps_effSwRedun h
  · exact keeps_effSwPaths h
  · exact keeps_effTbConfig h
  · exact keeps_effTbEnable h
  · exact keeps_effTbDisable h
  · exact keeps_effTbRearm h
  · exact keeps_effTbPps h
  · exact keeps_effKeyLoad h
  · exact keeps_effKeyInvalidate h
  · exact keeps_effKeyQuery h
  · exact keeps_effKeyRollover h
  · exact keeps_effAcqConfig h
  · exact keeps_effAcqArm h
  · exact keeps_effAcqDisarm h
  · exact keeps_effAcqTrigger h
  · exact keeps_effAcqRelease h
  · exact keeps_effOutConfig h
  · exact keeps_effOutEnable h
  · exact keeps_effOutDisable h
  · exact keeps_effOutInhClear h
  · exact keeps_effBinConfig h
  · exact keeps_effBinEnable h
  · exact keeps_effBinDisable h
  · exact keeps_effAtTick h

theorem keeps_consume {r : Nat} {x : Ring} {e : JRec} (h : Keeps b s t) : Keeps b s (consume r x e t) :=
  .upd (.upd (keeps_setRing h))

theorem keeps_startCmd {c : Cmd} (h : Keeps b s t) : Keeps b s (startCmd c t) := h.upd

theorem keeps_consumeCmd {r : Nat} {x : Ring} {d : Desc} {block : Bytes} (h : Keeps b s t) :
    Keeps b s (consumeCmd r x d block t) :=
  .ite (keeps_startCmd (keeps_consume h)) (keeps_finishOp (keeps_consume h))

theorem keeps_consumeOp {r : Nat} {x : Ring} {d : Desc} (h : Keeps b s t) : Keeps b s (consumeOp r x d t) :=
  .ite (keeps_finishOp (keeps_consume h)) (.ite (keeps_consume h) (keeps_finishOp (.ite (keeps_noteCrc (keeps_consume
    h)) (keeps_consume h))))

theorem keeps_matchLoose {r : Nat} {x : Ring} {e : JRec} {d : Desc} (h : Keeps b s t) :
    Keeps b s (matchLoose r x e d t) :=
  .ite (keeps_modEntry (keeps_setRing h)) (.ite (keeps_finishOp (keeps_consume (keeps_unmatched h.upd))) (.upd
    (keeps_finishOp (keeps_consume (keeps_unmatched h.upd)))))

theorem keeps_stallJournal (h : Keeps b s t) : Keeps b s (stallJournal t) := .ite h (keeps_ringEvent h.upd)

theorem keeps_useFetch {r : Nat} {x : Ring} {d : Desc} {block : Bytes} (h : Keeps b s t) :
    Keeps b s (useFetch r x d block t) :=
  .ite (keeps_usePassed (keeps_usePassed h)) h

theorem keeps_roundOf {r : Nat} {x : Ring} (h : Keeps b s t) : Keeps b s (roundOf r x t) := .ite (keeps_roundFor h) h

theorem keeps_pastRing {r : Nat} {x : Ring} (h : Keeps b s t) : Keeps b s (pastRing r x t) := .ite h.upd h.upd

theorem keeps_takeDesc {r : Nat} {x : Ring} {d : Desc} {block : Bytes} (h : Keeps b s t) :
    Keeps b s (takeDesc r x d block t) := by
  unfold takeDesc
  split
  · exact .ite (keeps_matchLoose h) (keeps_consumeOp h)
  · exact .ite (keeps_consumeCmd h) (keeps_consumeOp h)

theorem keeps_execDescriptorConsume {ring : Nat} {d : Desc} {block : Bytes} (h : Keeps b s t) :
    KeepsOut b s (execDescriptorConsume ring d block t) := by
  unfold execDescriptorConsume
  exact .named (by split; exacts [(.next h), (.act h (.ite (keeps_stallJournal h) (keeps_takeDesc (keeps_useFetch
    (keeps_pastRing (keeps_roundOf h))))))])

theorem keeps_finishB {b0 : BCmd} {r : BReply} (h : Keeps false s t) : KeepsRes false s (finishB b0 r t) := by
  unfold finishB
  split
  · exact keeps_finishSave h
  · exact keeps_finishRestore h
  · exact keeps_finishPair h
  · exact keeps_finishImgErase h
  · exact keeps_finishImgWrite h
  · exact keeps_finishImgCheck h
  · exact keeps_finishImgHostStart h
  · exact keeps_finishImgFloor h

theorem keeps_classBEvent {c : Cmd} (h : Keeps b s t) : Keeps b s (classBEvent c t) := .ite (keeps_raise h) h

theorem keeps_endB {b0 : BCmd} {r : BReply} (h : Keeps false s t) : Keeps false s (endB b0 r t) :=
  keeps_classBEvent (keeps_complete (keeps_finishB h.upd))

theorem keeps_execClassBFinish {kind : BKind} {reply : BReply} (h : Keeps false s t) :
    KeepsOut false s (execClassBFinish kind reply t) := by
  unfold execClassBFinish
  split
  · exact .next h
  · exact .act h (keeps_endB h)

theorem keeps_execHeartwoodStart (h : Keeps false s t) : KeepsOut false s (execHeartwoodStart t) :=
  .act h (keeps_heartwoodStart h)

theorem keeps_seedRun {f : Frame} {q : SeedReq} (h : Keeps b s t) : Keeps b s (seedRun f q t) :=
  .ite (keeps_startCmd h.upd) (keeps_seedRespond h.upd)

theorem keeps_execSeedlingFrameRx {frame : Frame} {q : SeedReq} (h : Keeps b s t) :
    KeepsOut b s (execSeedlingFrameRx frame q t) :=
  .act h (.ite h (.ite h.upd (.ite h (keeps_seedRun h))))

theorem keeps_runForwarded {w : FwdCmd} (h : Keeps b s t) : Keeps b s (runForwarded w t) := by
  unfold runForwarded
  extract_lets c f st r _ _ v u
  have hr : KeepsRes b s r := .ite (keeps_effForwarded h) h
  have hv : Keeps b s v := keeps_gftSendOne (keeps_remember (Keeps.upd hr))
  have hu : Keeps b s u := .ite (keeps_noteFwd hv) hv
  exact .ite hu (keeps_detach hu)

theorem keeps_execCmd {c : OnLink FwdCmd} (h : Keeps b s t) : KeepsOut b s (execCmd c t) := by
  unfold execCmd
  exact .onLane h (fun h => .ite h (by split; exacts [(keeps_gftSendOne h), (keeps_runForwarded h)]))

theorem keeps_tickCommand (h : Keeps b s t) : Keeps b s (tickCommand t) := by
  unfold tickCommand
  split
  · exact keeps_complete (keeps_effAtTick h.upd)
  · exact h

theorem keeps_inputsAtTick (h : Keeps b s t) : Keeps b s (inputsAtTick t) := h.upd

theorem keeps_boundary (h : Keeps b s t) : Keeps b s (boundary t) :=
  keeps_noteComplete (keeps_inputsAtTick (keeps_openTicks (keeps_nextTick (keeps_giveStranded (keeps_restoreBudgets
    (keeps_tickCommand (keeps_takeAllMarks (keeps_ownMark (keeps_shadowTick (keeps_mirrorTick (keeps_takeInputs
    h)))))))))))

theorem keeps_execTickBoundary (h : Keeps b s t) : KeepsOut b s (execTickBoundary t) := .act h (keeps_boundary h)

theorem keeps_writeLock {v : Word} (h : Keeps b s t) : Keeps b s (writeLock v t) := .ite h.upd h

theorem keeps_writeTjAlm {v : Word} (h : Keeps false s t) : Keeps false s (writeTjAlm v t) := h.updIsle

theorem keeps_writePort {n : Nat} {v : Word} (h : Keeps b s t) : Keeps b s (writePort n v t) :=
  .ite (keeps_setPort h) h

theorem keeps_writeLink {hi : Bool} {v : Word} (h : Keeps b s t) : Keeps b s (writeLink hi v t) := h.upd

theorem keeps_writeTc {v : Word} (h : Keeps b s t) : Keeps b s (writeTc v t) := .ite h h.upd

theorem keeps_writeHash {v : Word} (h : Keeps b s t) : Keeps b s (writeHash v t) := .ite h.upd h

theorem keeps_execSwHash {value : Word} (h : Keeps b s t) : KeepsOut b s (execSwHash value t) :=
  .act h (keeps_writeHash h)

theorem keeps_writeSnap {v : Word} (h : Keeps b s t) : Keeps b s (writeSnap v t) := .ite h.upd h

theorem keeps_writeObs {v : Word} (h : Keeps b s t) : Keeps b s (writeObs v t) := .ite h.upd h

theorem keeps_writeAt {o : Nat} {v : Word} (h : Keeps false s t) : Keeps false s (writeAt o v t) := by
  unfold writeAt
  split
  · exact keeps_writeLock h
  · exact keeps_writeTjAlm h
  · exact h.upd
  · exact h.upd
  · exact h.upd
  · exact keeps_writeLink h
  · exact keeps_writeLink h
  · exact h.upd
  · exact keeps_writeTc h
  · exact keeps_writeHash h
  · exact h.upd
  · exact keeps_writeSnap h
  · exact h.upd
  · exact h.upd
  · exact h.upd
  · exact h.upd
  · exact h.upd
  · exact h.upd
  · exact h.upd
  · exact h.upd
  · exact h.upd
  · exact h.upd
  · exact keeps_writeObs h
  · exact h

theorem keeps_writeReg {offset width : Nat} {v : Word} (h : Keeps false s t) :
    Keeps false s (writeReg offset width v t) :=
  .ite (.ite (keeps_writePort h) (keeps_writeAt h)) h

theorem keeps_execRegisterWrite {offset width : Nat} {value : Word} (h : Keeps false s t) :
    KeepsOut false s (execRegisterWrite offset width value t) :=
  .act h (keeps_writeReg h)

theorem keeps_execCfgLock {value : Word} (h : Keeps b s t) : KeepsOut b s (execCfgLock value t) :=
  .act h (keeps_writeLock h)

theorem keeps_execP0MirrorAccess {offset : Nat} {access : MirrorAccess} (h : Keeps false s t) :
    KeepsOut false s (execP0MirrorAccess offset access t) := by
  unfold execP0MirrorAccess
  exact .named (.act h (by split; exacts [(keeps_writeReg (keeps_usePassed h)), (.upd (keeps_usePassed h))]))

end

/-! ### Every command -/

theorem Keeps.rfl {b : Bool} {s : State} : Keeps b s s := .refl b s

/-- Every command keeps the queue, the form of memory and the order of the key store; only the rows of the island touch
the clocks and the supplies. -/
theorem keeps_exec (s : State) : ∀ i : Instr, KeepsOut (!i.islandRow) s (exec i s)
  | .nop .. => keeps_execNop .rfl
  | .partCreate .. => .runNow .rfl (keeps_effPartCreate .rfl)
  | .partStart .. => .runNow .rfl (keeps_effPartStart .rfl)
  | .partStop .. => .runNow .rfl (keeps_effPartStop .rfl)
  | .partReset .. => .runNow .rfl (keeps_effPartReset .rfl)
  | .partDestroy .. => .runNow .rfl (keeps_effPartDestroy .rfl)
  | .partQuota .. => .runNow .rfl (keeps_effPartQuota .rfl)
  | .partFreeze .. => .runAtTick .rfl
  | .partSave .. => .runBeside .rfl (keeps_startSave .rfl)
  | .partRestore .. => .runBeside .rfl (keeps_startRestore .rfl)
  | .partThaw .. => .runAtTick .rfl
  | .cnpSchedule .. => .runAtTick .rfl
  | .cnpBudget .. => .runAtTick .rfl
  | .cnpWake .. => .runAtTick .rfl
  | .cnpSpare .. => .runNow .rfl (keeps_effCnpSpare .rfl)
  | .cnpTick .. => .runNow .rfl (keeps_effCnpTick .rfl)
  | .triadReset .. => .runNow .rfl (keeps_effTriadReset .rfl)
  | .triadRejoin .. => .runAtTick .rfl
  | .moduleReset .. => keeps_execModuleReset .rfl
  | .bootComplete .. => .runNow .rfl (keeps_effBootComplete .rfl)
  | .ringCreate .. => .runNow .rfl (keeps_effRingCreate .rfl)
  | .ringEnable .. => .runNow .rfl (keeps_effRingEnable .rfl)
  | .ringDisable .. => .runNow .rfl (keeps_effRingDisable .rfl)
  | .ringReset .. => .runNow .rfl (keeps_effRingReset .rfl)
  | .ringDestroy .. => .runNow .rfl (keeps_effRingDestroy .rfl)
  | .ringShare .. => .runNow .rfl (keeps_effRingShare .rfl)
  | .ringQuery .. => .runNow .rfl (keeps_effRingQuery .rfl)
  | .svSubscribe .. => .runNow .rfl (keeps_effSvSubscribe .rfl)
  | .svEnable .. => .runNow .rfl (keeps_effSvEnable .rfl)
  | .svDisable .. => .runNow .rfl (keeps_effSvDisable .rfl)
  | .svRemove .. => .runNow .rfl (keeps_effSvRemove .rfl)
  | .svSource .. => .runAtTick .rfl
  | .gooseSubscribe .. => .runNow .rfl (keeps_effGooseSubscribe .rfl)
  | .gooseUnsubscribe .. => .runNow .rfl (keeps_effGooseUnsubscribe .rfl)
  | .goosePubSet .. => .runNow .rfl (keeps_effGoosePubSet .rfl)
  | .goosePubEnable .. => .runNow .rfl (keeps_effGoosePubEnable .rfl)
  | .goosePubDisable .. => .runNow .rfl (keeps_effGoosePubDisable .rfl)
  | .fltChannel .. => .runNow .rfl (keeps_effFltChannel .rfl)
  | .fltThreshold .. => .runAtTick .rfl
  | .fltCoeff .. => .runNow .rfl (keeps_effFltCoeff .rfl)
  | .portConfig .. => .runNow .rfl (keeps_effPortConfig .rfl)
  | .portEnable .. => .runNow .rfl (keeps_effPortEnable .rfl)
  | .portDisable .. => .runNow .rfl (keeps_effPortDisable .rfl)
  | .portReset .. => .runNow .rfl (keeps_effPortReset .rfl)
  | .portFilter .. => .runNow .rfl (keeps_effPortFilter .rfl)
  | .swExactAdd .. => .runNow .rfl (keeps_effSwExactAdd .rfl)
  | .swExactDel .. => .runNow .rfl (keeps_effSwExactDel .rfl)
  | .swWildSet .. => .runNow .rfl (keeps_effSwWildSet .rfl)
  | .swWildDel .. => .runNow .rfl (keeps_effSwWildDel .rfl)
  | .swQueue .. => .runNow .rfl (keeps_effSwQueue .rfl)
  | .swRed .. => .runNow .rfl (keeps_effSwRed .rfl)
  | .swRedun .. => .runNow .rfl (keeps_effSwRedun .rfl)
  | .swPaths .. => .runNow .rfl (keeps_effSwPaths .rfl)
  | .tbConfig .. => .runNow .rfl (keeps_effTbConfig .rfl)
  | .tbEnable .. => .runNow .rfl (keeps_effTbEnable .rfl)
  | .tbDisable .. => .runNow .rfl (keeps_effTbDisable .rfl)
  | .tbRearm .. => .runNow .rfl (keeps_effTbRearm .rfl)
  | .tbPps .. => .runNow .rfl (keeps_effTbPps .rfl)
  | .keyLoad .. => .runNow .rfl (keeps_effKeyLoad .rfl)
  | .keyInvalidate .. => .runNow .rfl (keeps_effKeyInvalidate .rfl)
  | .keyQuery .. => .runNow .rfl (keeps_effKeyQuery .rfl)
  | .keyRollover .. => .runNow .rfl (keeps_effKeyRollover .rfl)
  | .acqConfig .. => .runNow .rfl (keeps_effAcqConfig .rfl)
  | .acqArm .. => .runNow .rfl (keeps_effAcqArm .rfl)
  | .acqDisarm .. => .runNow .rfl (keeps_effAcqDisarm .rfl)
  | .acqTrigger .. => .runNow .rfl (keeps_effAcqTrigger .rfl)
  | .acqRelease .. => .runNow .rfl (keeps_effAcqRelease .rfl)
  | .gftPair .. => .runBeside .rfl (keeps_startPair .rfl)
  | .gftUnpair .. => .runNow .rfl (keeps_effGftUnpair .rfl)
  | .gftMirror .. => .runAtTick .rfl
  | .gftSwitch .. => .runAtTick .rfl
  | .gftStatus .. => .runNow .rfl (keeps_effGftStatus .rfl)
  | .logRead .. => .runNow .rfl (keeps_effLogRead .rfl)
  | .logNote .. => .runNow .rfl (keeps_effLogNote .rfl)
  | .eccBucket .. => .runNow .rfl (keeps_effEccBucket .rfl)
  | .eccQuery .. => .runNow .rfl (keeps_effEccQuery .rfl)
  | .imgErase .. => .runBeside .rfl (keeps_startImgErase .rfl)
  | .imgWrite .. => .runBeside .rfl (keeps_startImgWrite .rfl)
  | .imgCheck .. => .runBeside (start := fun _ t => t) .rfl .rfl
  | .imgHostLoad .. => .runNow .rfl (keeps_effImgHostLoad .rfl)
  | .imgHostStart .. => .runBeside .rfl (keeps_startImgHostStart .rfl)
  | .imgFloor .. => .runBeside (start := fun _ t => t) .rfl .rfl
  | .seedlingExit .. => keeps_execSeedlingExit .rfl
  | .outConfig .. => .runNow .rfl (keeps_effOutConfig .rfl)
  | .outEnable .. => .runNow .rfl (keeps_effOutEnable .rfl)
  | .outDisable .. => .runNow .rfl (keeps_effOutDisable .rfl)
  | .outInhClear .. => .runNow .rfl (keeps_effOutInhClear .rfl)
  | .binConfig .. => .runNow .rfl (keeps_effBinConfig .rfl)
  | .binEnable .. => .runNow .rfl (keeps_effBinEnable .rfl)
  | .binDisable .. => .runNow .rfl (keeps_effBinDisable .rfl)
  | .obsTrace .. => .runNow .rfl (keeps_effObsTrace .rfl)
  | .obsSnapshot .. => .runNow .rfl (keeps_effObsSnapshot .rfl)
  | .snsConfig .. => .runNow .rfl (keeps_effSnsConfig .rfl)
  | .snsRead .. => .runNow .rfl (keeps_effSnsRead .rfl)
  | .obsIdent .. => .runNow .rfl (keeps_effObsIdent .rfl)
  | .classBFinish .. => keeps_execClassBFinish .rfl
  | .send .. => keeps_execSend .rfl
  | .recv .. => keeps_execRecv .rfl
  | .publish .. => keeps_execPublish .rfl
  | .exportRec .. => keeps_execExportRec .rfl
  | .stage .. => keeps_execStage .rfl
  | .load .. => keeps_execLoad .rfl
  | .pulse .. => keeps_execPulse .rfl
  | .doorbell .. => keeps_execDoorbell .rfl
  | .descriptorConsume .. => keeps_execDescriptorConsume .rfl
  | .completionWrite .. => keeps_execCompletionWrite .rfl
  | .tickBoundary => keeps_execTickBoundary .rfl
  | .tailStart .. => keeps_execTailStart .rfl
  | .dispatch .. => keeps_execDispatch .rfl
  | .runEnd .. => keeps_execRunEnd .rfl
  | .wake => keeps_execWake .rfl
  | .yield .. => keeps_execYield .rfl
  | .pwakeClear .. => keeps_execPwakeClear .rfl
  | .firstTouch .. => keeps_execFirstTouch .rfl
  | .firstStore .. => keeps_execFirstStore .rfl
  | .vote .. => keeps_execVote .rfl
  | .voteToleranceEnd .. => keeps_execVoteToleranceEnd .rfl
  | .rejoinComplete .. => keeps_execRejoinComplete .rfl
  | .p0MirrorAccess .. => keeps_execP0MirrorAccess .rfl
  | .registerWrite .. => keeps_execRegisterWrite .rfl
  | .cfgLock .. => keeps_execCfgLock .rfl
  | .swHash .. => keeps_execSwHash .rfl
  | .capture .. => keeps_execCapture .rfl
  | .obsStatClear .. => keeps_execObsStatClear .rfl
  | .vauxRise => keeps_execVauxRise .rfl
  | .railGood .. => keeps_execRailGood .rfl
  | .porRelease => keeps_execPorRelease .rfl
  | .railFault .. => keeps_execRailFault .rfl
  | .refclkLoss => keeps_execRefclkLoss .rfl
  | .refclkReturn => keeps_execRefclkReturn .rfl
  | .sdclkLoss => keeps_execSdclkLoss .rfl
  | .perstN .. => keeps_execPerstN .rfl
  | .temperatureTrip => keeps_execTemperatureTrip .rfl
  | .tjConversion .. => keeps_execTjConversion .rfl
  | .pfailN .. => keeps_execPfailN .rfl
  | .resetN .. => keeps_execResetN .rfl
  | .wrstN .. => keeps_execWrstN .rfl
  | .bootTimerExpiry => keeps_execBootTimerExpiry .rfl
  | .watchdogExpiry => keeps_execWatchdogExpiry .rfl
  | .resetRelease => keeps_execResetRelease .rfl
  | .trimLoadEnd .. => keeps_execTrimLoadEnd .rfl
  | .strapMeasurementEnd .. => keeps_execStrapMeasurementEnd .rfl
  | .pllLock => keeps_execPllLock .rfl
  | .lanesTrained .. => keeps_execLanesTrained .rfl
  | .heartwoodStart => keeps_execHeartwoodStart .rfl
  | .imageSourceDone .. => keeps_execImageSourceDone .rfl
  | .hostWindowExpiry => keeps_execHostWindowExpiry .rfl
  | .seedlingFrameRx .. => keeps_execSeedlingFrameRx .rfl
  | .seedlingAnnounce => keeps_execSeedlingAnnounce .rfl
  | .stoppingEnd .. => keeps_execStoppingEnd .rfl
  | .signalDetect .. => keeps_execSignalDetect .rfl
  | .pcsUp .. => keeps_execPcsUp .rfl
  | .upHoldExpiry .. => keeps_execUpHoldExpiry .rfl
  | .linkDown .. => keeps_execLinkDown .rfl
  | .anegResult .. => keeps_execAnegResult .rfl
  | .frameRx .. => keeps_execFrameRx .rfl
  | .pauseTimerExpiry .. => keeps_execPauseTimerExpiry .rfl
  | .frameTx .. => keeps_execFrameTx .rfl
  | .collision .. => keeps_execCollision .rfl
  | .backoffExpiry .. => keeps_execBackoffExpiry .rfl
  | .verifyMpacketTimer .. => keeps_execVerifyMpacketTimer .rfl
  | .respondMpacketRx .. => keeps_execRespondMpacketRx .rfl
  | .switchIngress .. => keeps_execSwitchIngress .rfl
  | .verificationVerdict .. => keeps_execVerificationVerdict .rfl
  | .egress .. => keeps_execEgress .rfl
  | .pathReturn .. => keeps_execPathReturn .rfl
  | .entryForget .. => keeps_execEntryForget .rfl
  | .nodeForget .. => keeps_execNodeForget .rfl
  | .supervisionTx .. => keeps_execSupervisionTx .rfl
  | .syncRx .. => keeps_execSyncRx .rfl
  | .announceRx .. => keeps_execAnnounceRx .rfl
  | .delayRespRx .. => keeps_execDelayRespRx .rfl
  | .sourceLoss .. => keeps_execSourceLoss .rfl
  | .delayReqTx .. => keeps_execDelayReqTx .rfl
  | .gmAnnounceSyncTx .. => keeps_execGmAnnounceSyncTx .rfl
  | .delayReqRx .. => keeps_execDelayReqRx .rfl
  | .pdelayReqTx .. => keeps_execPdelayReqTx .rfl
  | .pdelayReqRx .. => keeps_execPdelayReqRx .rfl
  | .pdelayRespRx .. => keeps_execPdelayRespRx .rfl
  | .compareFire .. => keeps_execCompareFire .rfl
  | .ppsInEdge .. => keeps_execPpsInEdge .rfl
  | .ppsOutFall => keeps_execPpsOutFall .rfl
  | .svFrameRx => keeps_execSvFrameRx .rfl
  | .svTickDeadline .. => keeps_execSvTickDeadline .rfl
  | .svTickClose .. => keeps_execSvTickClose .rfl
  | .streamLost .. => keeps_execStreamLost .rfl
  | .automaticSourceSwitch .. => keeps_execAutomaticSourceSwitch .rfl
  | .rephase => keeps_execRephase .rfl
  | .gooseFrameRx => keeps_execGooseFrameRx .rfl
  | .talExpiry .. => keeps_execTalExpiry .rfl
  | .gooseRetransmission .. => keeps_execGooseRetransmission .rfl
  | .filterSlot => keeps_execFilterSlot .rfl
  | .triggerLevelChange => keeps_execTriggerLevelChange .rfl
  | .se1GooseRx => keeps_execSe1GooseRx .rfl
  | .rowForm .. => keeps_execRowForm .rfl
  | .recordStored .. => keeps_execRecordStored .rfl
  | .keySweep .. => keeps_execKeySweep .rfl
  | .overlapEnd .. => keeps_execOverlapEnd .rfl
  | .tag .. => keeps_execTag .rfl
  | .graftLaneUp .. => keeps_execGraftLaneUp .rfl
  | .graftLaneDown .. => keeps_execGraftLaneDown .rfl
  | .hello .. => keeps_execHello .rfl
  | .ack .. => keeps_execAck .rfl
  | .partnerLost => keeps_execPartnerLost .rfl
  | .resign => keeps_execResign .rfl
  | .taken => keeps_execTaken .rfl
  | .takenTimeout => keeps_execTakenTimeout .rfl
  | .activeNHigh => keeps_execActiveNHigh .rfl
  | .claimConfirmation .. => keeps_execClaimConfirmation .rfl
  | .keepaliveLapse => keeps_execKeepaliveLapse .rfl
  | .cmd .. => keeps_execCmd .rfl
  | .cmdack .. => keeps_execCmdack .rfl
  | .log .. => keeps_execLog .rfl
  | .mirrorFrame .. => keeps_execMirrorFrame .rfl
  | .commit .. => keeps_execCommit .rfl
  | .pair .. => keeps_execPair .rfl
  | .sync .. => keeps_execSync .rfl
  | .unpair => keeps_execUnpair .rfl
  | .correctableError .. => keeps_execCorrectableError .rfl
  | .uncorrectableError .. => keeps_execUncorrectableError .rfl
  | .scrubLapEnd .. => keeps_execScrubLapEnd .rfl
  | .scrubLapLate .. => keeps_execScrubLapLate .rfl
  | .bucketLeak => keeps_execBucketLeak .rfl
  | .operatingSecond => keeps_execOperatingSecond .rfl
  | .logbookRecord .. => keeps_execLogbookRecord .rfl
  | .flushTimer => keeps_execFlushTimer .rfl
  | .flushComplete => keeps_execFlushComplete .rfl
  | .binTransition .. => keeps_execBinTransition .rfl
  | .binFilterWindowEnd .. => keeps_execBinFilterWindowEnd .rfl
  | .periodStart .. => keeps_execPeriodStart .rfl
  | .phaseEnd .. => keeps_execPhaseEnd .rfl
  | .deadTimeEnd .. => keeps_execDeadTimeEnd .rfl
  | .pullInEnd .. => keeps_execPullInEnd .rfl
  | .pulseEnd .. => keeps_execPulseEnd .rfl
  | .outinhN .. => keeps_execOutinhN .rfl
  | .sensorPoll .. => keeps_execSensorPoll .rfl
  | .traceUnit .. => keeps_execTraceUnit .rfl
  | .traceRecord => keeps_execTraceRecord .rfl
  | .vauxFault => keeps_execVauxFault .rfl
  | .pcsDrop .. => keeps_execPcsDrop .rfl
  | .followUpRx .. => keeps_execFollowUpRx .rfl
  | .verifyMpacketRx .. => keeps_execVerifyMpacketRx .rfl
  | .frameScrubbed => keeps_execFrameScrubbed .rfl

theorem keeps_idle (s : State) : Keeps false s (idle s) := keeps_frameStarts (keeps_linkTimers (Keeps.rfl.updIsle))

/-- A step keeps what `idle` or the command at the front of the queue keeps. -/
theorem step_keeps {s t : State} (h : step s = .next t) :
    (memOk s → memOk t) ∧ (keysRise s.key.slots → keysRise t.key.slots) := by
  unfold step at h
  split at h
  · obtain rfl := Host.Outcome.next.inj h
    exact ⟨(keeps_idle s).mem, (keeps_idle s).keys⟩
  · have hk := keeps_exec _ _ _ h
    exact ⟨hk.mem, hk.keys⟩

/-- Settles O2: no function that a command calls names the queue. -/
theorem everyCommandLeavesTheQueue : Obligations.EveryCommandLeavesTheQueue :=
  fun i s _ h => (keeps_exec s i _ h).pending

/-- Settles O3: memory changes only by bytes written, cells put back and ranges emptied. -/
theorem stepKeepsMemoryForm : Obligations.StepKeepsMemoryForm := fun _ _ hm h => (step_keeps h).1 hm

/-- Settles O4: the key store changes only by `put`, by a change of values, and by being emptied. -/
theorem stepKeepsKeyOrder : Obligations.StepKeepsKeyOrder := fun _ _ hk h => (step_keeps h).2 hk

/-- Settles O5. -/
theorem onlyIslandRowsTouchTheIsland : Obligations.OnlyIslandRowsTouchTheIsland := by
  intro i s t hi h
  have hk := keeps_exec s i t h
  exact ⟨hk.clk (by simp [hi]), hk.pow (by simp [hi])⟩

end Sys2Proof.Machine
end

section
/-! Proofs of the statements on commands and rings in general: a failing command, a completion, a descriptor. -/

namespace Sys2Proof.Machine

open Sys2Proof

set_option Elab.async false

/-! ### What the operations on rings leave unchanged -/

section
variable (p i r : Nat) (b : Bytes) (x : Ring) (d : Desc) (s : State)

/-- A write that lands in a partition touches memory and the partitions only (R180, R195). -/
theorem land_frame : ∃ m c, land p i b s = { s with mem := m, cnp := c } := by
  unfold land
  split <;> exact ⟨_, _, rfl⟩

/-- A write in the region of a ring touches memory and the partitions only (R104). -/
theorem ringVis_frame : ∃ m c, ringVis r i b s = { s with mem := m, cnp := c } := by
  unfold ringVis visWrite
  split
  · split
    · split
      · exact ⟨_, _, rfl⟩
      · exact land_frame _ _ _ _
    · exact ⟨_, _, rfl⟩
  · exact ⟨_, _, rfl⟩

/-- Setting a ring writes its shadow line and the table of rings, and nothing else (R114). -/
theorem setRing_frame :
    ∃ m c, setRing r x s = { s with rng := { s.rng with rings := put s.rng.rings r x }, mem := m, cnp := c } := by
  unfold setRing writeShadow
  rw [look_put_self]
  exact ringVis_frame _ _ _ _

/-- The use of the passed votes changes the voter only (R35). -/
theorem useFetch_frame : ∃ l, useFetch r x d b s = { s with cnp := { s.cnp with passed := l } } := by
  unfold useFetch
  split <;> exact ⟨_, rfl⟩

/-- Heartwood's fetcher moves its own pointer only (R124). -/
theorem pastRing_frame_of_command (h : ¬ r < 2048) : ∃ p, pastRing r x s = { s with hw := { s.hw with ptr := p } } := by
  unfold pastRing
  rw [if_neg h]
  exact ⟨_, rfl⟩

/-- What the fetcher of a command ring changes where it takes a descriptor (R35, R124). -/
theorem fetched_frame_of_command (h : ¬ r < 2048) :
    ∃ p c, fetched r x d b s = { s with hw := { s.hw with ptr := p }, cnp := c } := by
  obtain ⟨p, hp⟩ := pastRing_frame_of_command r x s h
  obtain ⟨l, hl⟩ := useFetch_frame r b x d (pastRing r x s)
  exact ⟨p, _, by rw [fetched, hl, hp]⟩
end

/-! ### A command of a command ring whose checks fail -/

section
variable {r : Nat} {x : Ring} {d : Desc} {b : Bytes} {s : State}

/-- The fetcher of a command ring that is offered a descriptor hands it to the executor's checks (R107, R124). -/
theorem exec_descriptorConsume_of_offers (h : offers r x d b s) :
    exec (.descriptorConsume r d b) s = .next (consumeCmd r x d b (fetched r x d b s)) := by
  obtain ⟨hr, hx, hmay, hpass, hgrant, hroom, hnone, -, -, -⟩ := h
  have hr50 : r < 2050 := by omega
  have hr48 : ¬ r < 2048 := by omega
  have hr48' : 2048 ≤ r := by omega
  have hfull : ¬ Config.journalMax ≤ jrnlUsed s := by rw [Config.journalMax, jrnlUsed]; exact Nat.not_le.mpr hroom
  have hfind : findEntry r x.gen x.c (fetched r x d b s) = none := by
    obtain ⟨p, c, hfetched⟩ := fetched_frame_of_command r b x d s hr48
    rw [hfetched]
    exact hnone
  show execDescriptorConsume r d b s = _
  simp only [execDescriptorConsume, named, hr50, decide_true, if_true, ringOf, hx, roundOf, if_neg hr48,
    Option.getD_some, act, hmay, hpass, hgrant, Bool.and_self, if_neg hfull, takeDesc, hfind, if_pos hr48']

/-- The descriptor of a defined command that a command ring may execute passes the checks of R107. -/
theorem descChecks_of_offers (h : offers r x d b s) : descChecks x d true = stOk := by
  obtain ⟨-, -, -, -, -, -, -, hgen, hseq, hflags⟩ := h
  simp [descChecks, checks, hgen, hseq, hflags, stOk]

/-- Finishing the operation that was consumed last leaves the entries before it as they are. -/
theorem finish_map_append {gen : Nat} {seq : Word} {l : List JRec} {e : JRec} {f : JRec → JRec}
    (h : l.find? (isEntry r gen seq) = none) (hf : ∀ j, isEntry r gen seq j = false → f j = j) :
    (l ++ [e]).map f = l ++ [f e] := by
  rw [List.map_append, List.map_cons, List.map_nil]
  congr 1
  refine List.map_congr_left (fun j hj => hf j ?_) |>.trans (List.map_id l)
  simpa using List.find?_eq_none.mp h j hj

/-- A command that fails its checks where it is consumed completes there and then (R107, R142, R146). -/
theorem failsAtOnce_of_judged {st : Nat} (h : offers r x d b s)
    (hj : judgeCmd { ring := r, desc := d, block := b } (fetched r x d b s) = some st) (hst : st ≠ stOk) :
    failsAtOnce r x d b st s := by
  have hexec := exec_descriptorConsume_of_offers h
  have hcons : consumeCmd r x d b (fetched r x d b s) =
      finishOp r x.gen x.c st none false (consume r x (entryFor r x d) (fetched r x d b s)) := by
    simp only [consumeCmd, hj, Option.isSome_some, descChecks_of_offers h, if_true, Option.getD_some, if_neg hst]
  rw [hcons] at hexec
  obtain ⟨hr, -, -, -, -, -, hnone, -, -, -⟩ := h
  have hr48 : ¬ r < 2048 := by omega
  obtain ⟨p, c, hfetched⟩ := fetched_frame_of_command r b x d s hr48
  obtain ⟨m, c', hset⟩ := setRing_frame r (pastDesc x) (fetched r x d b s)
  rw [consume, hset, hfetched] at hexec
  dsimp only [finishOp] at hexec
  refine ⟨_, _, hexec, ?_, rfl, look_put_self _ _ _, rfl, ?_, rfl, rfl, rfl, rfl, rfl, rfl, rfl, rfl, rfl, rfl, rfl,
    rfl, rfl, rfl, rfl, rfl, rfl, rfl⟩
  · refine (finish_map_append (e := entryFor r x d) hnone fun j hj => by simp [hj]).trans ?_
    simp [entryFor, isEntry, b2n]
  · exact fun y hy => look_put_other _ _ hy
end

/-! ### A row that meets a command whose checks are still to be made -/

/-- The executor holds the command `c` of the row `i`, its fence has passed, no command of class T waits, and its checks
are still to be made. -/
abbrev meetsRow (i : Instr) (c : Cmd) (s : State) : Prop :=
  i.cmd? = some c ∧ i.opcode? = some (opOf c.desc) ∧ s.hw.exec = some c ∧ fenceReady c s = true ∧
    s.hw.tWait = none ∧ s.hw.passed = false

/-- The outcome `o` completes the command `c` with the status of its checks where they fail (R146). -/
def refusesAs (o : Out) (c : Cmd) (s : State) : Prop :=
  ∃ st, judgeCmd c s = some st ∧ (st ≠ stOk → o = .next (complete c (s, st, none)))

section
variable {i : Instr} {c : Cmd} {s : State} {op : Nat} {judge : Cmd → State → Nat}

/-- A row whose opcode is `op` and which meets its command holds it, and its status is that of its checks. -/
theorem holds_and_judged_of_meetsRow (h : meetsRow i c s) (hop : i.opcode? = some op)
    (hj : op = opOf c.desc → judgeCmd c s = some (judge c s)) :
    holds op c s = true ∧ statusOf judge c s = judge c s ∧ judgeCmd c s = some (judge c s) := by
  obtain ⟨-, hi, hexec, hfence, -, hpassed⟩ := h
  have hopc : op = opOf c.desc := Option.some.inj (hop.symm.trans hi)
  exact ⟨holds_of hopc hexec hfence, statusOf_unchecked hpassed, hj hopc⟩

theorem runNow_refuses {eff : Cmd → State → Res} (h : meetsRow i c s) (hop : i.opcode? = some op)
    (hj : op = opOf c.desc → judgeCmd c s = some (judge c s)) : refusesAs (runNow op judge eff c s) c s := by
  obtain ⟨hheld, hstatus, hjudge⟩ := holds_and_judged_of_meetsRow h hop hj
  exact ⟨_, hjudge, fun hst => by rw [runNow_fail hheld (by rwa [hstatus]), hstatus]⟩

theorem runAtTick_refuses (h : meetsRow i c s) (hop : i.opcode? = some op)
    (hj : op = opOf c.desc → judgeCmd c s = some (judge c s)) : refusesAs (runAtTick op judge c s) c s := by
  obtain ⟨hheld, hstatus, hjudge⟩ := holds_and_judged_of_meetsRow h hop hj
  obtain ⟨-, -, -, -, htick, -⟩ := h
  exact ⟨_, hjudge, fun hst => by rw [runAtTick_fail hheld htick (by rwa [hstatus]), hstatus]⟩

theorem runBeside_refuses {kind : BKind} {start : Cmd → State → State} (h : meetsRow i c s)
    (hop : i.opcode? = some op) (hj : op = opOf c.desc → judgeCmd c s = some (judge c s)) :
    refusesAs (runBeside op kind judge start c s) c s := by
  obtain ⟨hheld, hstatus, hjudge⟩ := holds_and_judged_of_meetsRow h hop hj
  exact ⟨_, hjudge, fun hst => by rw [runBeside_fail hheld (by rwa [hstatus]), hstatus]⟩

/-- A command that pulses a reset source when it passes asserts nothing when it fails (R146, R157). -/
theorem pulse_refuses {src : Source} {eff : Cmd → State → Res} (h : meetsRow i c s) (hop : i.opcode? = some op)
    (hj : op = opOf c.desc → judgeCmd c s = some (judge c s)) :
    refusesAs (act (holds op c s && (statusOf judge c s != stOk || earlierFinished c s)) s
      (completeThenPulse c src (perform judge eff c s))) c s := by
  obtain ⟨hheld, hstatus, hjudge⟩ := holds_and_judged_of_meetsRow h hop hj
  exact ⟨_, hjudge, fun hst => by
    simp [act, hheld, hstatus, bne_iff_ne.mpr hst, completeThenPulse, perform, hst, res]⟩

/-- Whichever of the 94 commands a row meets, it completes it with the status of the first check that fails (R146). -/
theorem exec_refuses (hrow : meetsRow i c s) : refusesAs (exec i s) c s := by
  have hcmd : i.cmd? = some c := hrow.1
  cases i
  all_goals
    cases hcmd
  case partCreate => exact runNow_refuses hrow rfl (judgeCmd_partCreate s)
  case partStart => exact runNow_refuses hrow rfl (judgeCmd_partStart s)
  case partStop => exact runNow_refuses hrow rfl (judgeCmd_partStop s)
  case partReset => exact runNow_refuses hrow rfl (judgeCmd_partReset s)
  case partDestroy => exact runNow_refuses hrow rfl (judgeCmd_partDestroy s)
  case partQuota => exact runNow_refuses hrow rfl (judgeCmd_partQuota s)
  case partFreeze => exact runAtTick_refuses hrow rfl (judgeCmd_partFreeze s)
  case partSave => exact runBeside_refuses hrow rfl (judgeCmd_partSave s)
  case partRestore => exact runBeside_refuses hrow rfl (judgeCmd_partRestore s)
  case partThaw => exact runAtTick_refuses hrow rfl (judgeCmd_partThaw s)
  case cnpSchedule => exact runAtTick_refuses hrow rfl (judgeCmd_cnpSchedule s)
  case cnpBudget => exact runAtTick_refuses hrow rfl (judgeCmd_cnpBudget s)
  case cnpWake => exact runAtTick_refuses hrow rfl (judgeCmd_cnpWake s)
  case cnpSpare => exact runNow_refuses hrow rfl (judgeCmd_cnpSpare s)
  case cnpTick => exact runNow_refuses hrow rfl (judgeCmd_cnpTick s)
  case triadReset => exact runNow_refuses hrow rfl (judgeCmd_triadReset s)
  case triadRejoin => exact runAtTick_refuses hrow rfl (judgeCmd_triadRejoin s)
  case moduleReset => exact pulse_refuses hrow rfl (judgeCmd_moduleReset s)
  case bootComplete => exact runNow_refuses hrow rfl (judgeCmd_bootComplete s)
  case ringCreate => exact runNow_refuses hrow rfl (judgeCmd_ringCreate s)
  case ringEnable => exact runNow_refuses hrow rfl (judgeCmd_ringEnable s)
  case ringDisable => exact runNow_refuses hrow rfl (judgeCmd_ringDisable s)
  case ringReset => exact runNow_refuses hrow rfl (judgeCmd_ringReset s)
  case ringDestroy => exact runNow_refuses hrow rfl (judgeCmd_ringDestroy s)
  case ringShare => exact runNow_refuses hrow rfl (judgeCmd_ringShare s)
  case ringQuery => exact runNow_refuses hrow rfl (judgeCmd_ringQuery s)
  case svSubscribe => exact runNow_refuses hrow rfl (judgeCmd_svSubscribe s)
  case svEnable => exact runNow_refuses hrow rfl (judgeCmd_svEnable s)
  case svDisable => exact runNow_refuses hrow rfl (judgeCmd_svDisable s)
  case svRemove => exact runNow_refuses hrow rfl (judgeCmd_svRemove s)
  case svSource => exact runAtTick_refuses hrow rfl (judgeCmd_svSource s)
  case gooseSubscribe => exact runNow_refuses hrow rfl (judgeCmd_gooseSubscribe s)
  case gooseUnsubscribe => exact runNow_refuses hrow rfl (judgeCmd_gooseUnsubscribe s)
  case goosePubSet => exact runNow_refuses hrow rfl (judgeCmd_goosePubSet s)
  case goosePubEnable => exact runNow_refuses hrow rfl (judgeCmd_goosePubEnable s)
  case goosePubDisable => exact runNow_refuses hrow rfl (judgeCmd_goosePubDisable s)
  case fltChannel => exact runNow_refuses hrow rfl (judgeCmd_fltChannel s)
  case fltThreshold => exact runAtTick_refuses hrow rfl (judgeCmd_fltThreshold s)
  case fltCoeff => exact runNow_refuses hrow rfl (judgeCmd_fltCoeff s)
  case portConfig => exact runNow_refuses hrow rfl (judgeCmd_portConfig s)
  case portEnable => exact runNow_refuses hrow rfl (judgeCmd_portEnable s)
  case portDisable => exact runNow_refuses hrow rfl (judgeCmd_portDisable s)
  case portReset => exact runNow_refuses hrow rfl (judgeCmd_portReset s)
  case portFilter => exact runNow_refuses hrow rfl (judgeCmd_portFilter s)
  case swExactAdd => exact runNow_refuses hrow rfl (judgeCmd_swExactAdd s)
  case swExactDel => exact runNow_refuses hrow rfl (judgeCmd_swExactDel s)
  case swWildSet => exact runNow_refuses hrow rfl (judgeCmd_swWildSet s)
  case swWildDel => exact runNow_refuses hrow rfl (judgeCmd_swWildDel s)
  case swQueue => exact runNow_refuses hrow rfl (judgeCmd_swQueue s)
  case swRed => exact runNow_refuses hrow rfl (judgeCmd_swRed s)
  case swRedun => exact runNow_refuses hrow rfl (judgeCmd_swRedun s)
  case swPaths => exact runNow_refuses hrow rfl (judgeCmd_swPaths s)
  case tbConfig => exact runNow_refuses hrow rfl (judgeCmd_tbConfig s)
  case tbEnable => exact runNow_refuses hrow rfl (judgeCmd_tbEnable s)
  case tbDisable => exact runNow_refuses hrow rfl (judgeCmd_tbDisable s)
  case tbRearm => exact runNow_refuses hrow rfl (judgeCmd_tbRearm s)
  case tbPps => exact runNow_refuses hrow rfl (judgeCmd_tbPps s)
  case keyLoad => exact runNow_refuses hrow rfl (judgeCmd_keyLoad s)
  case keyInvalidate => exact runNow_refuses hrow rfl (judgeCmd_keyInvalidate s)
  case keyQuery => exact runNow_refuses hrow rfl (judgeCmd_keyQuery s)
  case keyRollover => exact runNow_refuses hrow rfl (judgeCmd_keyRollover s)
  case acqConfig => exact runNow_refuses hrow rfl (judgeCmd_acqConfig s)
  case acqArm => exact runNow_refuses hrow rfl (judgeCmd_acqArm s)
  case acqDisarm => exact runNow_refuses hrow rfl (judgeCmd_acqDisarm s)
  case acqTrigger => exact runNow_refuses hrow rfl (judgeCmd_acqTrigger s)
  case acqRelease => exact runNow_refuses hrow rfl (judgeCmd_acqRelease s)
  case gftPair => exact runBeside_refuses hrow rfl (judgeCmd_gftPair s)
  case gftUnpair => exact runNow_refuses hrow rfl (judgeCmd_gftUnpair s)
  case gftMirror => exact runAtTick_refuses hrow rfl (judgeCmd_gftMirror s)
  case gftSwitch => exact runAtTick_refuses hrow rfl (judgeCmd_gftSwitch s)
  case gftStatus => exact runNow_refuses hrow rfl (judgeCmd_gftStatus s)
  case logRead => exact runNow_refuses hrow rfl (judgeCmd_logRead s)
  case logNote => exact runNow_refuses hrow rfl (judgeCmd_logNote s)
  case eccBucket => exact runNow_refuses hrow rfl (judgeCmd_eccBucket s)
  case eccQuery => exact runNow_refuses hrow rfl (judgeCmd_eccQuery s)
  case imgErase => exact runBeside_refuses hrow rfl (judgeCmd_imgErase s)
  case imgWrite => exact runBeside_refuses hrow rfl (judgeCmd_imgWrite s)
  case imgCheck => exact runBeside_refuses (start := fun _ t => t) hrow rfl (judgeCmd_imgCheck s)
  case imgHostLoad => exact runNow_refuses hrow rfl (judgeCmd_imgHostLoad s)
  case imgHostStart => exact runBeside_refuses hrow rfl (judgeCmd_imgHostStart s)
  case imgFloor => exact runBeside_refuses (start := fun _ t => t) hrow rfl (judgeCmd_imgFloor s)
  case seedlingExit => exact pulse_refuses hrow rfl (judgeCmd_seedlingExit s)
  case outConfig => exact runNow_refuses hrow rfl (judgeCmd_outConfig s)
  case outEnable => exact runNow_refuses hrow rfl (judgeCmd_outEnable s)
  case outDisable => exact runNow_refuses hrow rfl (judgeCmd_outDisable s)
  case outInhClear => exact runNow_refuses hrow rfl (judgeCmd_outInhClear s)
  case binConfig => exact runNow_refuses hrow rfl (judgeCmd_binConfig s)
  case binEnable => exact runNow_refuses hrow rfl (judgeCmd_binEnable s)
  case binDisable => exact runNow_refuses hrow rfl (judgeCmd_binDisable s)
  case obsTrace => exact runNow_refuses hrow rfl (judgeCmd_obsTrace s)
  case obsSnapshot => exact runNow_refuses hrow rfl (judgeCmd_obsSnapshot s)
  case snsConfig => exact runNow_refuses hrow rfl (judgeCmd_snsConfig s)
  case snsRead => exact runNow_refuses hrow rfl (judgeCmd_snsRead s)
  case obsIdent => exact runNow_refuses hrow rfl (judgeCmd_obsIdent s)

/-- What `judgeCmd` answers is the common checks of R146 and then the command's own. -/
theorem judged_of_judgeCmd {st : Nat} (h : judgeCmd c s = some st) (hop : opOf c.desc ≠ 0) :
    ∃ own, st = judged c s own := by
  rw [judgeCmd, if_neg hop] at h
  cases hlow : judgeLow c s with
  | some st' =>
    rw [hlow, Option.orElse_some] at h
    cases h
    unfold judgeLow at hlow
    split at hlow
    all_goals cases hlow <;> exact ⟨_, rfl⟩
  | none =>
    rw [hlow, Option.orElse_none] at h
    unfold judgeHigh at h
    split at h
    all_goals cases h <;> exact ⟨_, rfl⟩
end

/-- Settles O6: `failsAtOnce_of_judged` where the command is consumed, `exec_refuses` at its row. -/
theorem failedCommandHasNoEffect : Obligations.FailedCommandHasNoEffect := by
  unfold Obligations.FailedCommandHasNoEffect
  refine ⟨fun r x d b s st hoffers hjudge hst => failsAtOnce_of_judged hoffers hjudge hst, ?_⟩
  intro i c s st hpassed hjudged hst
  obtain ⟨hcmd, hop, hexec, hfence, htick, hjudge⟩ := hjudged
  obtain ⟨st', hjudge', hrefuses⟩ := exec_refuses ⟨hcmd, hop, hexec, hfence, htick, hpassed⟩
  obtain rfl : st = st' := Option.some.inj (hjudge.symm.trans hjudge')
  exact hrefuses hst

/-! ### The common checks (R146) -/

section
variable {c : Cmd} {s : State}

/-- A command that is not available in the present mode answers WRONG_STATE (R94, R146). -/
theorem judged_unavailable (h : available (opOf c.desc) s = false) (own : List (Bool × Nat)) :
    judged c s own = stWrongState := by
  simp [judged, common, checks, h]

/-- An available command that the module may not execute answers DENIED (R146, R471). -/
theorem judged_denied (h : available (opOf c.desc) s = true) (ha : authority c s = false) (own : List (Bool × Nat)) :
    judged c s own = stDenied := by
  simp [judged, common, checks, h, ha]

theorem judgeCmd_eq_of_judged {st : Nat} (hsome : judgeCmd c s ≠ none) (hop : opOf c.desc ≠ 0)
    (h : ∀ own, judged c s own = st) : judgeCmd c s = some st := by
  obtain ⟨st', hst'⟩ := Option.ne_none_iff_exists'.mp hsome
  obtain ⟨own, rfl⟩ := judged_of_judgeCmd hst' hop
  rw [hst', h own]

/-- In Seedling only the commands of R94 are available. -/
theorem available_seedling (hseed : s.boot.seedling = true) {op : Nat}
    (hop : op ∉ [0x0901, 0x0910, 0x0911, 0x0912, 0x0913, 0x0914, 0x0915, 0x0920]) : available op s = false := by
  simp only [List.mem_cons, List.not_mem_nil, or_false, not_or] at hop
  obtain ⟨hlog, h0, h1, h2, h3, h4, h5, hexit⟩ := hop
  have hrange : ¬ (0x0910 ≤ op ∧ op ≤ 0x0915) := by omega
  simp [available, hseed, seedlingOp, hlog, hexit] at hrange ⊢
  exact hrange

theorem available_started (hseed : s.boot.seedling = false) {op : Nat} (hop : op ≠ 0x0920) : available op s = true := by
  simp [available, hseed, hop]

/-- On a STANDBY a command of a command ring that R470 forwards has no authority (R471). -/
theorem authority_standby (hrole : s.gft.role = .standby) (hring : c.ring = 2048 ∨ c.ring = 2049)
    (hfwd : forwards c = true) : authority c s = false := by
  have hfrom : fromRing c = true := by rcases hring with h | h <;> rw [fromRing, h] <;> rfl
  simp [authority, hrole, hfrom, hfwd]

/-- Neither opcode 0 nor SEEDLING_EXIT is forwarded (R470). -/
theorem op_ne_of_forwards (hfwd : forwards c = true) : opOf c.desc ≠ 0 ∧ opOf c.desc ≠ 0x0920 := by
  constructor <;> intro h <;> simp [forwards, h] at hfwd
end

/-- Settles O7: a command that R94 does not list is not available, so the first check fails. -/
theorem seedlingRefusesOtherCommands : Obligations.SeedlingRefusesOtherCommands := by
  unfold Obligations.SeedlingRefusesOtherCommands
  constructor
  · intro r x d b s hoffers hseed hop hsome
    obtain ⟨hzero, hrest⟩ := not_or.mp (List.mem_cons.not.mp hop)
    obtain ⟨hr, -⟩ := id hoffers
    obtain ⟨p, c, hfetched⟩ := fetched_frame_of_command r b x d s (by omega)
    have hseed' : (fetched r x d b s).boot.seedling = true := by rw [hfetched]; exact hseed
    exact failsAtOnce_of_judged hoffers
      (judgeCmd_eq_of_judged hsome hzero (judged_unavailable (available_seedling hseed' hrest))) (by decide)
  · intro i c s hcmd hop hexec hpassed hfence htick hseed hlist
    obtain ⟨st, hjudge, hrefuses⟩ := exec_refuses ⟨hcmd, hop, hexec, hfence, htick, hpassed⟩
    have hzero : opOf c.desc ≠ 0 := by
      intro h0
      rw [h0] at hop
      cases i <;> exact nomatch hop
    obtain ⟨own, rfl⟩ := judged_of_judgeCmd hjudge hzero
    rw [judged_unavailable (available_seedling hseed hlist)] at hrefuses
    exact hrefuses (by decide)

/-- Settles O8: the command is available, and the STANDBY has no authority for it. -/
theorem standbyDeniesForwardedCommands : Obligations.StandbyDeniesForwardedCommands := by
  unfold Obligations.StandbyDeniesForwardedCommands
  constructor
  · intro r x d b s hoffers hseed hexit hrole hfwd hsome
    obtain ⟨hr, -⟩ := id hoffers
    obtain ⟨p, c, hfetched⟩ := fetched_frame_of_command r b x d s (by omega)
    have hseed' : (fetched r x d b s).boot.seedling = false := by rw [hfetched]; exact hseed
    have hrole' : (fetched r x d b s).gft.role = .standby := by rw [hfetched]; exact hrole
    exact failsAtOnce_of_judged hoffers
      (judgeCmd_eq_of_judged hsome (op_ne_of_forwards hfwd).1
        (judged_denied (available_started hseed' hexit) (authority_standby hrole' hr hfwd))) (by decide)
  · intro i c s hcmd hop hexec hpassed hfence htick hseed hrole hring hfwd
    obtain ⟨hzero, hexit⟩ := op_ne_of_forwards hfwd
    obtain ⟨st, hjudge, hrefuses⟩ := exec_refuses ⟨hcmd, hop, hexec, hfence, htick, hpassed⟩
    obtain ⟨own, rfl⟩ := judged_of_judgeCmd hjudge hzero
    rw [judged_denied (available_started hseed hexit) (authority_standby hrole hring hfwd)] at hrefuses
    exact hrefuses (by decide)

/-! ### The completion of a command, and of an operation -/

section
variable {c : Cmd} {s : State} {st : Nat} {x : Option Word}

/-- What a completion keeps for a later pairing is part of Heartwood's state (R483). -/
theorem remember_frame (c : Cmd) (st : Nat) (x : Option Word) (s : State) :
    ∃ l, remember c st x s = { s with hw := { s.hw with config := l } } := by
  unfold remember
  extract_lets op o same rest
  split <;> exact ⟨_, rfl⟩

/-- A command that failed is not remembered (R483). -/
theorem remember_of_failed (hok : st ≠ stOk) (hdef : st ≠ stDeferred) : remember c st x s = s := by
  simp [remember, hok, hdef]

/-- A command that R470 does not forward is not remembered (R483). -/
theorem remember_of_not_forwards (h : forwards c = false) : remember c st x s = s := by
  simp [remember, h]

/-- Where it is not forwarded, the completion of a command finishes it and frees the executor (R111, R142). -/
theorem complete_of_not_sent (h : (activePaired s && forwards c) = false) :
    complete c (s, st, x) =
      { finishCmd c st x (remember c st x s) with hw := { (finishCmd c st x (remember c st x s)).hw with
          exec := if (finishCmd c st x (remember c st x s)).hw.exec == some c then none
            else (finishCmd c st x (remember c st x s)).hw.exec } } := by
  obtain ⟨l, hl⟩ := remember_frame c st x s
  have hact : activePaired (remember c st x s) = activePaired s := by rw [hl]; rfl
  rw [complete]
  dsimp only
  rw [hact, h]
  rfl

theorem finishCmd_of_ring (h : c.ring = 2048 ∨ c.ring = 2049) :
    finishCmd c st x s = finishOp c.ring (genField c.desc) c.desc.w1 st x false s := by
  have hne : c.ring ≠ ringSeed := by rw [ringSeed]; omega
  rw [finishCmd, if_neg hne]

/-- The entry of an operation that finishes holds its status and its result (R109, R126). -/
theorem findEntry_finishOp_self {r gen : Nat} {seq : Word} {e : JRec} (h : findEntry r gen seq s = some e)
    (hstage : e.stage ≠ .finished) (hrep : e.replayed = false) :
    findEntry r gen seq (finishOp r gen seq st x false s) =
      some { e with stage := .finished, status := st, result := x } := by
  have hself : isEntry r gen seq e = true := List.find?_some h
  rw [findEntry, finishOp]
  dsimp only
  rw [List.find?_map]
  have hsame : (isEntry r gen seq ∘ fun j => if isEntry r gen seq j && j.stage != .finished then
      { j with stage := .finished, status := if j.replayed then 0x50 else st, result := x,
               cflags := j.cflags + 2 * b2n false } else j) = isEntry r gen seq := by
    funext j
    simp only [Function.comp_apply]
    split <;> rfl
  rw [hsame]
  have hfind : s.rng.jrnl.find? (isEntry r gen seq) = some e := h
  simp [hfind, hself, hstage, hrep, b2n]
end

/-- Settles O9: the completion finishes the entry, frees the executor and remembers the configuration. -/
theorem completingACommand : Obligations.CompletingACommand := by
  unfold Obligations.CompletingACommand
  intro c s st x e hpaired hring hexec hentry hstage hrep
  obtain ⟨l, hl⟩ := remember_frame c st x s
  have hcomplete := complete_of_not_sent (c := c) (st := st) (x := x) (by rw [hpaired]; rfl)
  rw [finishCmd_of_ring hring, hl] at hcomplete
  refine ⟨?_, ?_, ?_, ?_, ?_⟩
  · rw [hcomplete]
    exact findEntry_finishOp_self (s := { s with hw := { s.hw with config := l } }) hentry hstage hrep
  · rw [hcomplete]
    simp [finishOp, hexec]
  · intro hok hdef
    rw [remember_of_failed hok hdef] at hl
    rw [hcomplete]
    exact (congrArg (fun t : State => t.hw.config) hl).symm
  · rw [hcomplete, finishOp]
  · rw [hcomplete, finishOp]

/-- Settles O11: a NOP has no effect of its own, so its row completes it. -/
theorem nopCompletes : Obligations.NopCompletes := by
  unfold Obligations.NopCompletes
  refine ⟨?_, ?_, ?_⟩
  · intro r q s e hr hentry hop hstart
    have hr50 : r < 2050 := by omega
    show execNop r q s = _
    simp [execNop, named, act, hr, hr50, hentry, hop, hstart]
  · intro r q s e c hr hentry hop hexec hring hseq hopc hgen hfence
    have hr50 : r < 2050 := by omega
    have hr48 : ¬ r < 2048 := by omega
    have hheld : holds 0 c s = true := holds_of hopc.symm hexec hfence
    have hfwd : forwards c = false := by simp [forwards, hopc]
    have hcomplete := complete_of_not_sent (s := s) (c := c) (st := stOk) (x := none) (by simp [hfwd])
    rw [finishCmd_of_ring (by rwa [hring]), remember_of_not_forwards hfwd, hring, hgen, hseq] at hcomplete
    show execNop r q s = _
    simp only [execNop, named, act, hr50, hr48, hentry, hop, hheld, hexec, hring, hseq, decide_true, if_true, if_false,
      Option.map_some, Option.getD_some, beq_self_eq_true, Bool.and_self, res]
    rw [hcomplete]
    simp [finishNow, finishOp, hexec]
  · intro r q s e hentry hstage hrep
    exact ⟨findEntry_finishOp_self hentry hstage hrep, rfl, rfl⟩

/-- Settles O1: the step unfolds to the command at the front of the queue. -/
theorem stepRunsFrontCommand : Obligations.StepRunsFrontCommand := by
  unfold Obligations.StepRunsFrontCommand
  intro i rest s h
  rw [step, h]

end Sys2Proof.Machine
end

section
/-! Proofs of the statements on completions and descriptors of rings. -/

namespace Sys2Proof.Machine

open Sys2Proof

set_option Elab.async false

/-! ### The completion of a ring (R109, R111, R114) -/

section
variable (r : Nat) (x : Ring) (e : JRec) (flags slot : Nat) (s : State)

/-- The digest of the inputs is kept with the partitions (R475). -/
theorem noteCompl_frame : ∃ c, noteCompl r x e flags s = { s with cnp := c } := by
  unfold noteCompl
  split <;> exact ⟨_, rfl⟩

/-- What is module-local is kept with the partitions (R475). -/
theorem localCompl_frame : ∃ c, localCompl r x e slot s = { s with cnp := c } := by
  unfold localCompl
  split
  · exact ⟨_, rfl⟩
  · dsimp only
    split <;> exact ⟨_, rfl⟩

@[simp] theorem logFrame_rng : (logFrame r e s).rng = s.rng := by
  unfold logFrame; dsimp only; split
  · split
    · simp
    · rfl
  · rfl

@[simp] theorem logFrame_arb : (logFrame r e s).arb = s.arb := by
  unfold logFrame; dsimp only; split
  · split
    · simp
    · rfl
  · rfl

@[simp] theorem logFrame_rst : (logFrame r e s).rst = s.rst := by
  unfold logFrame; dsimp only; split
  · split
    · simp
    · rfl
  · rfl

@[simp] theorem logFrame_mem : (logFrame r e s).mem = s.mem := by
  unfold logFrame; dsimp only; split
  · split
    · simp
    · rfl
  · rfl

/-- The result word lands in memory and touches neither the rings nor the arbiter. -/
theorem writeCompl_frame : ∃ m c, (match e.result with
    | some w =>
      match ringOwner r with
      | some p => land p (x.submit + 32 * slot + 28) (toLe 4 w.toNat) s
      | none => { s with mem := Memory.write s.mem (Config.bar2Base + x.submit + 32 * slot + 28) (toLe 4 w.toNat) }
    | none => s) = { s with mem := m, cnp := c } := by
  split
  · split
    · exact land_frame _ _ _ _
    · exact ⟨_, _, rfl⟩
  · exact ⟨_, _, rfl⟩

/-- A completion advances K of its ring and marks its entry DONE with the OSN it takes (R109, R126). -/
theorem writeCompl_rng : (writeCompl r x e s).rng = { s.rng with
    rings := put s.rng.rings r { x with k := x.k + 1, lastOsn := nextOsn s }
    jrnl := s.rng.jrnl.map fun j => if isEntry r x.gen x.k j then
      { j with done := true, osn := nextOsn s, cflags := cflagsOf e (wakes r e) } else j } := by
  unfold writeCompl
  extract_lets osn woke flags y slot s1 s2 rng2 s3 s4 s5
  have h1 : s1.rng = s.rng := by
    obtain ⟨c, hc⟩ := localCompl_frame r x e slot s
    obtain ⟨c', hc'⟩ := noteCompl_frame r y e flags { s with cnp := c }
    simp only [s1, hc, hc', grant_rng]
  obtain ⟨m, c, h2⟩ : ∃ m c, s2 = { s1 with mem := m, cnp := c } := writeCompl_frame r x e slot s1
  have h5 : s5.rng = s3.rng := by simp [s5, s4]
  have h3 : s5.rng = { s.rng with
      rings := put s.rng.rings r y
      jrnl := s.rng.jrnl.map fun j =>
        if isEntry r x.gen x.k j then { j with done := true, osn := osn, cflags := flags } else j } := by
    simp only [h5, s3, rng2, h2, h1]
  split
  · rw [wakePart_rng, h3]
  · exact h3

/-- A completion takes one OSN (R109). -/
theorem writeCompl_arb_rst : (writeCompl r x e s).arb = arbNext (if Config.ringP0 ≤ r then 0 else 1) s ∧
    (writeCompl r x e s).rst = s.rst := by
  unfold writeCompl
  extract_lets osn woke flags y slot s1 s2 rng2 s3 s4 s5
  obtain ⟨c, hc⟩ := localCompl_frame r x e slot s
  obtain ⟨c', hc'⟩ := noteCompl_frame r y e flags { s with cnp := c }
  have h1 : s1.arb = arbNext (if Config.ringP0 ≤ r then 0 else 1) s ∧ s1.rst = s.rst := by
    simp only [s1, hc, hc']
    exact ⟨rfl, rfl⟩
  obtain ⟨m, c, h2⟩ : ∃ m c, s2 = { s1 with mem := m, cnp := c } := writeCompl_frame r x e slot s1
  have h5 : s5.arb = s1.arb ∧ s5.rst = s1.rst := by simp [s5, s4, s3, h2]
  rw [← h1.1, ← h1.2]
  split
  · exact h5
  · exact h5
end

section
variable (r : Nat) (e : JRec) (s : State)

@[simp] theorem complEvents_rings : (complEvents r e s).rng.rings = s.rng.rings := by
  unfold complEvents; split
  · rfl
  · split <;> rfl

@[simp] theorem complEvents_jrnl : (complEvents r e s).rng.jrnl = s.rng.jrnl := by
  unfold complEvents; split
  · rfl
  · split <;> rfl

/-- A DIVERGED or VOTE_LOST completion is an event, which takes an OSN of its own (R132, R138, R139). -/
theorem complEvents_osn (h : arbHeld s = false) :
    (complEvents r e s).arb.osn = s.arb.osn + if e.status = 0x201 ∨ e.status = 0x60 then 1 else 0 := by
  unfold complEvents
  by_cases hdiv : e.status = stDiverged
  · simp [hdiv, ringEvent_osn, nextOsn, h, stDiverged]
  · by_cases hlost : e.status = stVoteLost
    · simp [hlost, ringEvent_osn, nextOsn, h, stDiverged, stVoteLost]
    · have hnone : ¬ (e.status = 0x201 ∨ e.status = 0x60) := not_or.mpr ⟨hdiv, hlost⟩
      rw [if_neg hdiv, if_neg hlost, if_neg hnone, Nat.add_zero]

theorem complEvents_of_plain (hdiv : e.status ≠ 0x201) (hlost : e.status ≠ 0x60) : complEvents r e s = s := by
  rw [complEvents, if_neg (show ¬ e.status = stDiverged from hdiv), if_neg (show ¬ e.status = stVoteLost from hlost)]
end

section
variable {r : Nat} {s : State} {x : Ring} {e : JRec}

theorem exec_completionWrite (hr : r < 2050) (hx : look s.rng.rings r = some x) (he : nextEntry r s = some e) :
    exec (.completionWrite r) s = .next (complEvents r e (writeCompl r x e s)) := by
  show execCompletionWrite r s = _
  simp only [execCompletionWrite, named, hr, decide_true, if_true, writeNext, hx, he]

/-- The entry that a ring completes next is the one at K of its present generation (R109). -/
theorem findEntry_of_nextEntry (hx : look s.rng.rings r = some x) (he : nextEntry r s = some e) :
    findEntry r x.gen x.k s = some e := by
  simp only [nextEntry, hx] at he
  split at he
  next j hj =>
    split at he
    · exact he ▸ hj
    · exact nomatch he
  next => exact nomatch he

/-- On the host's ring the completion, its result word and the shadow line are written (R109, R111, R114). -/
theorem writeCompl_host_mem : (writeCompl 2049 x e s).mem =
    Memory.write
      (Memory.write
        (match e.result with
          | some w => Memory.write s.mem (Config.bar2Base + x.submit + 32 * (x.k.toNat % 2 ^ x.log2s) + 28)
              (toLe 4 w.toNat)
          | none => s.mem)
        (Config.bar2Base + (x.compl + 16 * (x.k.toNat % 2 ^ x.log2s)))
        (complBytes e (cflagsOf e (wakes 2049 e)) (nextOsn s)))
      (Config.bar2Base + x.shadow) (shadowBytes { x with k := x.k + 1, lastOsn := nextOsn s }) := by
  have hown : ringOwner 2049 = none := rfl
  have hwoke : wakes 2049 e = false := by simp [wakes, Config.ringHost]
  unfold writeCompl
  extract_lets osn woke flags y slot s1 s2 rng2 s3 s4 s5
  have hs1 : s1.mem = s.mem := by simp [s1, noteCompl, localCompl, hown]
  have hmem2 : s2.mem = match e.result with
      | some w => Memory.write s.mem (Config.bar2Base + x.submit + 32 * slot + 28) (toLe 4 w.toNat)
      | none => s.mem := by
    simp only [s2, hown]
    cases e.result with
    | none => exact hs1
    | some w => exact congrArg (fun m => Memory.write m _ _) hs1
  have hwoke' : woke = false := hwoke
  have hs5 : s5.mem = Memory.write (Memory.write s2.mem (Config.bar2Base + (x.compl + 16 * slot))
      (complBytes e flags osn)) (Config.bar2Base + x.shadow) (shadowBytes y) := by
    simp [s5, s4, ringVis, hown, s3]
  rw [hwoke', if_neg Bool.false_ne_true, hs5, hmem2]
  rfl
end

/-- Settles O12: `writeCompl` gives the ring, the entry and the memory, `complEvents` the second OSN. -/
theorem completionWrites : Obligations.CompletionWrites := by
  unfold Obligations.CompletionWrites
  constructor
  · intro r s x e hr hx he hheld
    have hosn : nextOsn s = s.arb.osn + 1 := by rw [nextOsn, hheld]; rfl
    obtain ⟨harb, hrst⟩ := writeCompl_arb_rst r x e s
    have hheld' : arbHeld (writeCompl r x e s) = false := (arbHeld_congr hrst).trans hheld
    have hosn' : (writeCompl r x e s).arb.osn = s.arb.osn + 1 := by rw [harb, arbNext, hheld]; rfl
    have hentry : s.rng.jrnl.find? (isEntry r x.gen x.k) = some e := findEntry_of_nextEntry hx he
    refine ⟨_, exec_completionWrite hr hx he, ?_, fun r' hr' => ?_, ?_, ?_, ?_⟩
    · rw [complEvents_rings, writeCompl_rng, ← hosn]
      exact look_put_self _ _ _
    · rw [complEvents_rings, writeCompl_rng]
      exact look_put_other _ _ hr'
    · rw [complEvents_osn _ _ _ hheld', hosn']
      split <;> rfl
    · refine ⟨{ e with done := true, osn := nextOsn s, cflags := cflagsOf e (wakes r e) }, ?_, rfl, hosn, rfl, rfl⟩
      rw [findEntry, complEvents_jrnl, writeCompl_rng]
      dsimp only
      rw [List.find?_map]
      have hsame : (isEntry r x.gen x.k ∘ fun j => if isEntry r x.gen x.k j then
          { j with done := true, osn := nextOsn s, cflags := cflagsOf e (wakes r e) } else j) =
          isEntry r x.gen x.k := by
        funext j
        simp only [Function.comp_apply]
        split <;> rfl
      have hself : isEntry r x.gen x.k e = true := List.find?_some hentry
      rw [hsame, hentry, Option.map_some, if_pos hself]
    · rw [complEvents_jrnl, writeCompl_rng]
      exact List.length_map ..
  · intro s x e hx he hdiv hlost
    refine ⟨_, cflagsOf e (wakes 2049 e), exec_completionWrite (by decide) hx he, ?_, ?_⟩
    · rw [complEvents_of_plain _ _ _ hdiv hlost, writeCompl_host_mem]
      rfl
    · have hwoke : wakes 2049 e = false := by simp [wakes, Config.ringHost]
      rw [hwoke, cflagsOf, b2n]
      cases e.rpl <;> cases tbit e.cflags 1 <;> rfl

/-! ### A descriptor of a partition's ring (R107) -/

section
variable {r : Nat} {x : Ring} {d : Desc} {b : Bytes} {s : State}

/-- A service round starts or ends in the table of rings alone (R124). -/
theorem roundOf_frame (r : Nat) (y : Ring) (s : State) :
    ∃ l, roundOf r y s = { s with rng := { s.rng with rings := l } } := by
  unfold roundOf roundFor
  split
  · split <;> exact ⟨_, rfl⟩
  · exact ⟨_, rfl⟩

/-- What the fetcher of a partition's ring changes where it takes a descriptor (R35, R124). -/
theorem fetched_frame_of_ring (hr : r < 2048) (s : State) :
    ∃ p l, fetched r x d b s =
      { s with rng := { s.rng with ptrs := p }, cnp := { s.cnp with passed := l } } := by
  obtain ⟨l, hl⟩ := useFetch_frame r b x d (pastRing r x s)
  have hpast : pastRing r x s =
      { s with rng := { s.rng with ptrs := put s.rng.ptrs (engineOf x) ((r + 1) % 2050) } } := by
    rw [pastRing, if_pos hr]
  exact ⟨_, l, by rw [fetched, hl, hpast]⟩

/-- Consuming a descriptor appends its entry and advances the ring (R107, R126). -/
theorem consume_rng (e : JRec) : (consume r x e s).rng.jrnl = s.rng.jrnl ++ [e] ∧
    (consume r x e s).rng.rings = put s.rng.rings r (pastDesc x) := by
  simp [consume, setRing_rng]

/-- The operation that was consumed last finishes in the journal's last entry. -/
theorem finishOp_jrnl_of_last {gen st : Nat} {seq : Word} {w : Option Word} {l : List JRec} {e : JRec}
    (h : s.rng.jrnl = l ++ [e]) (hl : l.find? (isEntry r gen seq) = none) (he : isEntry r gen seq e = true)
    (hstage : e.stage ≠ .finished) (hrep : e.replayed = false) :
    (finishOp r gen seq st w false s).rng.jrnl = l ++ [{ e with stage := .finished, status := st, result := w }] := by
  rw [finishOp]
  dsimp only
  rw [h, finish_map_append hl fun j hj => by simp [hj]]
  simp [he, hstage, hrep, b2n]

/-- The digest of an emitting operation is kept in its own entry (R474). -/
theorem noteCrc_of_last {gen c : Nat} {seq : Word} {p : Option Payload} {l : List JRec} {e : JRec}
    (h : s.rng.jrnl = l ++ [e]) (hgen : genOf r s = gen) (hl : l.find? (isEntry r gen seq) = none)
    (he : isEntry r gen seq e = true) :
    ∃ crc, (noteCrc c r seq p s).rng.jrnl = l ++ [{ e with crc := crc }] ∧
      (noteCrc c r seq p s).rng.rings = s.rng.rings := by
  unfold noteCrc
  extract_lets mine
  split
  · unfold modEntry
    extract_lets g
    split
    · exact ⟨e.crc, h, rfl⟩
    · refine ⟨some (opCrc e.desc p), ?_, rfl⟩
      dsimp only
      rw [h, finish_map_append hl fun j hj => by simp [g, hgen, hj]]
      simp [g, hgen, he]
  · exact ⟨e.crc, h, rfl⟩

/-- The three checks that every descriptor meets (R107). -/
theorem descChecks_ok {defined : Bool} (hg : genField d = x.gen) (hq : d.w1 = x.c) (hf : flagsOf d / 4 = 0)
    (hd : defined = true) : descChecks x d defined = stOk := by
  simp [descChecks, checks, hg, hq, hf, hd, stOk]

theorem descChecks_stale {defined : Bool} (h : genField d ≠ x.gen) : descChecks x d defined = 0x40 := by
  simp [descChecks, checks, h, stStaleGen]

theorem descChecks_bad {defined : Bool} (hg : genField d = x.gen)
    (h : d.w1 ≠ x.c ∨ flagsOf d / 4 ≠ 0 ∨ defined = false) : descChecks x d defined = 0x10 := by
  by_cases hq : d.w1 = x.c
  · rcases h with h | h | h
    · exact absurd hq h
    · simp [descChecks, checks, hg, hq, h, stBadArg]
    · simp [descChecks, checks, hg, hq, h, stBadArg]
  · simp [descChecks, checks, hg, hq, stBadArg]

/-- A partition's ring whose turn it is takes the descriptor that its voter passed (R35, R107, R124). -/
theorem exec_descriptorConsume_of_turn {y : Ring} (hr : r < 2048) (hy : look s.rng.rings r = some y)
    (hx : look (roundOf r y s).rng.rings r = some x) (hmay : mayConsume r x (roundOf r y s) = true)
    (hgrant : granted r x (roundOf r y s) = true) (hpass : Emission.descriptor r x.c d ∈ s.cnp.passed)
    (hroom : s.rng.jrnl.length < 32768) (hnone : findEntry r x.gen x.c s = none) :
    exec (.descriptorConsume r d b) s = .next (consumeOp r x d (fetched r x d b (roundOf r y s))) := by
  have hr50 : r < 2050 := by omega
  have hr48 : ¬ 2048 ≤ r := by omega
  obtain ⟨l, hround⟩ := roundOf_frame r y s
  obtain ⟨p, c, hfetched⟩ := fetched_frame_of_ring (x := x) (d := d) (b := b) hr (roundOf r y s)
  have hfind : findEntry r x.gen x.c (fetched r x d b (roundOf r y s)) = none := by
    rw [hfetched, hround]
    exact hnone
  have hfetch : fetchPassed r x d b (roundOf r y s) = true := by
    have hcont : s.cnp.passed.contains (Emission.descriptor r x.c d) = true := List.contains_iff_mem.mpr hpass
    rw [hround]
    simp only [fetchPassed, hasPassed, hcont, hr, decide_true, Bool.true_or, Bool.and_self, Bool.or_true]
  have hfull : ¬ Config.journalMax ≤ jrnlUsed s := by rw [Config.journalMax, jrnlUsed]; exact Nat.not_le.mpr hroom
  show execDescriptorConsume r d b s = _
  simp only [execDescriptorConsume, named, hr50, decide_true, if_true, ringOf, hy, hx, Option.getD_some, act, hmay,
    hfetch, hgrant, Bool.and_self, if_neg hfull, takeDesc, hfind, if_neg hr48]

/-- What the consumption of a descriptor does to the rings and to the journal, by the checks it passes (R107, R474). -/
theorem consumeOp_entry (hnone : s.rng.jrnl.find? (isEntry r x.gen x.c) = none) :
    ∃ e : JRec, (consumeOp r x d s).rng.jrnl = s.rng.jrnl ++ [e] ∧ e.ring = r ∧ e.gen = x.gen ∧ e.seq = x.c ∧ e.desc = d ∧
      (consumeOp r x d s).rng.rings = put s.rng.rings r (pastDesc x) ∧
      (descChecks x d (bindingOp x.binding (opOf d)) ≠ stOk →
        e.stage = .finished ∧ e.status = descChecks x d (bindingOp x.binding (opOf d))) ∧
      (descChecks x d (bindingOp x.binding (opOf d)) = stOk → shadowed r s = false →
        (opChecks r x.binding d s = 0 → e.stage = .waiting) ∧
        (opChecks r x.binding d s ≠ 0 → e.stage = .finished ∧ e.status = opChecks r x.binding d s ∧
          e.result = failResult x.binding (opOf d))) := by
  obtain ⟨hjrnl, hrings⟩ := consume_rng (r := r) (x := x) (s := s) (entryFor r x d)
  have hself : isEntry r x.gen x.c (entryFor r x d) = true := by simp [isEntry, entryFor]
  unfold consumeOp
  extract_lets bnd st0 t st
  by_cases h0 : st0 = stOk
  · rw [if_neg (not_not.mpr h0)]
    by_cases hst : st = stOk
    · rw [if_pos hst]
      refine ⟨_, hjrnl, rfl, rfl, rfl, rfl, hrings, fun h => absurd h0 h, fun _ hsh => ⟨fun _ => rfl, fun hne => ?_⟩⟩
      have hop : st = opChecks r x.binding d s := by simp [st, bnd, hsh]
      exact absurd (hop.symm.trans hst) hne
    · rw [if_neg hst]
      have hgen : genOf r t = x.gen := by rw [genOf, hrings, look_put_self]; rfl
      obtain ⟨crc, hcj, hcr⟩ : ∃ crc, (if emits bnd = true then noteCrc bnd r x.c none t else t).rng.jrnl =
          s.rng.jrnl ++ [{ entryFor r x d with crc := crc }] ∧
          (if emits bnd = true then noteCrc bnd r x.c none t else t).rng.rings = t.rng.rings := by
        split
        · exact noteCrc_of_last hjrnl hgen hnone hself
        · exact ⟨_, hjrnl, rfl⟩
      refine ⟨_, finishOp_jrnl_of_last hcj hnone hself nofun rfl, rfl, rfl, rfl, rfl, hcr.trans hrings,
        fun h => absurd h0 h, fun _ hsh => ?_⟩
      have hop : st = opChecks r x.binding d s := by simp [st, bnd, hsh]
      exact ⟨fun h => absurd (hop.trans h) hst, fun _ => ⟨rfl, hop, rfl⟩⟩
  · rw [if_pos h0]
    exact ⟨_, finishOp_jrnl_of_last hjrnl hnone hself nofun rfl, rfl, rfl, rfl, rfl, hrings,
      fun _ => ⟨rfl, rfl⟩, fun h => absurd h h0⟩
end

/-- Settles O14: the entry that `consumeOp` appends, by the checks of R107. -/
theorem descriptorConsumption : Obligations.DescriptorConsumption := by
  unfold Obligations.DescriptorConsumption
  intro r d b s y x hr hy hx hmay hgrant hpass hroom hnone z
  obtain ⟨l, hround⟩ := roundOf_frame r y s
  obtain ⟨p, c, hfetched⟩ := fetched_frame_of_ring (x := x) (d := d) (b := b) hr (roundOf r y s)
  have hjrnl : (fetched r x d b (roundOf r y s)).rng.jrnl = s.rng.jrnl := by rw [hfetched, hround]
  have hnone' : (fetched r x d b (roundOf r y s)).rng.jrnl.find? (isEntry r x.gen x.c) = none := by rw [hjrnl]; exact hnone
  have hshadow : shadowed r (fetched r x d b (roundOf r y s)) = shadowed r s := by
    rw [hfetched, hround]; rfl
  obtain ⟨e, hcons, hring, hgen, hseq, hdesc, hrings, hfail, hpassed⟩ := consumeOp_entry (d := d) hnone'
  refine ⟨_, e, exec_descriptorConsume_of_turn hr hy hx hmay hgrant hpass hroom hnone, ?_, hring, hgen, hseq, hdesc,
    ?_, ?_, ?_, ?_, ?_⟩
  · rw [hcons, hjrnl]
  · rw [hrings, look_put_self]
    rfl
  · intro hg
    have hst := descChecks_stale (x := x) (d := d) (defined := bindingOp x.binding (opOf d)) hg
    exact hst ▸ hfail (by rw [hst]; decide)
  · intro hg hq
    have hst := descChecks_bad (defined := bindingOp x.binding (opOf d)) hg (.inl hq)
    exact hst ▸ hfail (by rw [hst]; decide)
  · intro hg hq hbad
    have hst := descChecks_bad (defined := bindingOp x.binding (opOf d)) hg (.inr hbad)
    exact hst ▸ hfail (by rw [hst]; decide)
  · intro hg hq hflags hop hsh
    exact hpassed (descChecks_ok hg hq hflags hop) (hshadow.trans hsh)

end Sys2Proof.Machine
end

section
/-! Every command whose checks pass: class S and M has its effect and completes, class T waits, class B starts (R153). -/

namespace Sys2Proof.Machine

open Sys2Proof

set_option Elab.async false

section
variable {i : Instr} {op : Nat} {judge : Cmd → State → Nat} {c : Cmd} {s : State}

/-- A row whose command is ready holds it, and its status is OK (R142, R146). -/
theorem holds_and_ok_of_ready (h : ready i c s) (hop : i.opcode? = some op)
    (hj : op = opOf c.desc → judgeCmd c s = some (judge c s)) : holds op c s = true ∧ statusOf judge c s = stOk := by
  have hok : judge c s = stOk := judge_of_ready h hop hj
  obtain ⟨-, hi, hexec, hfence, -, -⟩ := h
  have hopc : op = opOf c.desc := Option.some.inj (hop.symm.trans hi)
  refine ⟨holds_of hopc hexec hfence, ?_⟩
  cases hp : s.hw.passed with
  | true => exact statusOf_passed hp
  | false => exact (statusOf_unchecked hp).trans hok

/-- A command of class T that is ready waits for its tick boundary (R153). -/
theorem runAtTick_of_ready (h : ready i c s) (hop : i.opcode? = some op)
    (hj : op = opOf c.desc → judgeCmd c s = some (judge c s)) :
    runAtTick op judge c s = .next { s with hw := { s.hw with tWait := some (c, s.hw.since) } } := by
  obtain ⟨hheld, hst⟩ := holds_and_ok_of_ready h hop hj
  obtain ⟨-, -, -, -, htick, -⟩ := h
  exact runAtTick_pass hheld htick hst

/-- A command of class B that is ready starts and frees the executor (R153). -/
theorem runBeside_of_ready {kind : BKind} {start : Cmd → State → State} (h : ready i c s) (hop : i.opcode? = some op)
    (hj : op = opOf c.desc → judgeCmd c s = some (judge c s)) :
    runBeside op kind judge start c s = .next { start c s with hw := { (start c s).hw with
      exec := none
      classB := (start c s).hw.classB ++ [{ kind := kind, cmd := c, since := (start c s).clk.now }] } } := by
  obtain ⟨hheld, hst⟩ := holds_and_ok_of_ready h hop hj
  exact runBeside_pass hheld hst
end

/-! ### Events and writes into partitions -/

/-- A partition without the fields that pages, stores and writes into its memory touch. -/
def Part.bare (x : Part) : Part :=
  { x with pages := [], stored := [], pre := [], lines := [], dirtyStop := false, heldWrites := [], inputs := []
           written := [], wrote := [], staged := [], locals := [] }

/-- From `s` to `t` Canopy changes nothing but doorbell copies, and every partition nothing but what writes into its
memory touch. -/
structure Talks (s t : State) : Prop where
  cnp : t.cnp = { s.cnp with parts := t.cnp.parts, bells := t.cnp.bells }
  parts : ∀ p, (look t.cnp.parts p).map Part.bare = (look s.cnp.parts p).map Part.bare

namespace Talks

variable {s t u : State}

theorem refl (s : State) : Talks s s := ⟨rfl, fun _ => rfl⟩

theorem of_cnp (h : t.cnp = s.cnp) : Talks s t := ⟨by rw [h], fun p => by rw [h]⟩

/-- What Canopy says alone decides. -/
theorem of_before (h : Talks t u) (hc : t.cnp = s.cnp) : Talks s u :=
  ⟨by rw [h.cnp, hc], fun p => by rw [h.parts, hc]⟩

theorem trans (h : Talks s t) (h' : Talks t u) : Talks s u :=
  ⟨by rw [h'.cnp, h.cnp], fun p => (h'.parts p).trans (h.parts p)⟩

theorem after (h' : Talks t u) (h : Talks s t) : Talks s u := h.trans h'

/-- A partition that stood before still stands, alike but for its memory. -/
theorem look_some (h : Talks s t) {p : Nat} {x : Part} (hx : look s.cnp.parts p = some x) :
    ∃ y, look t.cnp.parts p = some y ∧ y.bare = x.bare := by
  have hp := h.parts p
  rw [hx, Option.map_some] at hp
  exact Option.map_eq_some_iff.mp hp

theorem look_none (h : Talks s t) {p : Nat} (hx : look s.cnp.parts p = none) : look t.cnp.parts p = none := by
  have hp := h.parts p
  rw [hx, Option.map_none] at hp
  exact Option.map_eq_none_iff.mp hp
end Talks

section
variable (s : State)

/-- A change of one partition that leaves its bare fields. -/
theorem talks_alter {p : Nat} {f : Part → Part} {t : State} (h : t.cnp = { s.cnp with parts := alter s.cnp.parts p f })
    (hf : ∀ x, (f x).bare = x.bare) : Talks s t := by
  refine ⟨by rw [h], fun q => ?_⟩
  rw [h]
  by_cases hq : q = p
  · subst hq
    rw [look_alter_self, Option.map_map]
    congr 1
    funext x
    exact hf x
  · rw [look_alter_other _ _ hq]

theorem bare_noteLines (iova n : Nat) (x : Part) : (noteLines iova n x).bare = x.bare := by
  unfold noteLines; split <;> rfl

theorem bare_stagePage (p : Nat) (mem : List Host.Cell) (x : Part) (k : Nat) : (stagePage p mem x k).bare = x.bare := by
  unfold stagePage; split <;> rfl

theorem bare_stagePages (p iova n : Nat) (mem : List Host.Cell) (x : Part) :
    (stagePages p iova n mem x).bare = x.bare := by
  unfold stagePages
  split
  · rfl
  · rename_i hmirror
    clear hmirror
    generalize (List.range ((iova % 4096 + n + 4095) / 4096)).map (iova / 4096 + ·) = l
    induction l generalizing x with
    | nil => rfl
    | cons k ks ih => exact (ih (stagePage p mem x k)).trans (bare_stagePage p mem x k)

theorem bare_keepPre (p page : Nat) (mem : List Host.Cell) (x : Part) : (keepPre p page mem x).bare = x.bare := by
  unfold keepPre; split <;> rfl

/-- An event writes into P0's event ring, and changes no other field of Canopy (R29). -/
theorem talks_raise (e : Ev) : Talks s (raise e s) := talks_alter s rfl fun _ => rfl

theorem talks_land (p iova : Nat) (b : Bytes) : Talks s (land p iova b s) := by
  unfold land
  split
  · exact talks_alter s rfl fun x => (bare_noteLines _ _ _).trans (bare_keepPre _ _ _ x)
  · exact talks_alter s rfl fun x => (bare_noteLines _ _ _).trans (bare_stagePages _ _ _ _ _)

theorem talks_visWrite (p iova : Nat) (b : Bytes) : Talks s (visWrite p iova b s) := by
  unfold visWrite
  split
  · split
    · exact talks_alter s rfl fun _ => rfl
    · exact talks_land s p iova b
  · exact .refl s

theorem talks_ringVis (r iova : Nat) (b : Bytes) : Talks s (ringVis r iova b s) := by
  unfold ringVis
  split
  · exact talks_visWrite s _ iova b
  · exact .of_cnp rfl

theorem talks_writeShadow (r : Nat) : Talks s (writeShadow r s) := by
  unfold writeShadow
  split
  · exact talks_ringVis s r _ _
  · exact .refl s

theorem talks_ringEvent (bit code kind r : Nat) (data : Bytes) (sev : Option Nat) :
    Talks s (ringEvent bit code kind r data sev s) :=
  (talks_raise _ _).of_before rfl

theorem talks_unmatchedAll (l : List JRec) : Talks s (unmatchedAll l s) := by
  induction l generalizing s with
  | nil => exact .refl s
  | cons e es ih => exact (talks_ringEvent s _ _ _ _ _ _).trans (ih _)

theorem talks_offEvents (kind index : Nat) (held : Bool) : Talks s (offEvents kind index held s) := by
  unfold offEvents
  extract_lets s1
  split
  · exact (talks_raise s _).trans (talks_raise s1 _)
  · exact talks_raise s _

theorem talks_newEventLine (r : Nat) : Talks s (newEventLine r s) := by
  unfold newEventLine
  split
  · exact (talks_visWrite _ _ _ _).of_before rfl
  · exact .refl s

theorem talks_newGeneration (r : Nat) : Talks s (newGeneration r s) := by
  unfold newGeneration
  split
  · exact .refl s
  · refine (talks_unmatchedAll _ _).after ((talks_newEventLine _ r).after ((talks_writeShadow _ r).after ?_))
    exact ⟨rfl, fun _ => rfl⟩

theorem talks_ringAtReset (r : Nat) : Talks s (ringAtReset r s) := by
  unfold ringAtReset
  split
  · split
    · exact (talks_offEvents _ _ _ _).of_before rfl
    · exact .refl s
  · exact .refl s

theorem talks_ringsAtReset (l : List Nat) : Talks s (ringsAtReset l s) := by
  induction l generalizing s with
  | nil => exact .refl s
  | cons r rs ih => exact ((talks_ringAtReset s r).trans (talks_newGeneration _ r)).trans (ih _)

theorem talks_keyEvent (code slot : Nat) (bit sev : Option Nat) : Talks s (keyEvent code slot bit sev s) := by
  unfold keyEvent
  split
  · exact (talks_raise _ _).of_before rfl
  · exact talks_raise s _

theorem talks_keyEvents (code : Nat) (bit sev : Option Nat) (l : List Nat) : Talks s (keyEvents code bit sev l s) := by
  induction l generalizing s with
  | nil => exact .refl s
  | cons k ks ih => exact (talks_keyEvent s _ _ _ _).trans (ih _)

theorem talks_killSlot (k : Nat) (st : KState) : Talks s (killSlot k st s) :=
  (talks_keyEvents _ _ _ _ _).of_before rfl

theorem talks_killSlots (st : KState) (l : List Nat) : Talks s (killSlots st l s) := by
  induction l generalizing s with
  | nil => exact .refl s
  | cons k ks ih => exact (talks_killSlot s k st).trans (ih _)

theorem talks_orphanLeaves (k : Nat) : Talks s (orphanLeaves k s) := talks_killSlots s _ _

theorem talks_invalidateBranches (l : List Nat) : Talks s (invalidateBranches l s) := by
  induction l generalizing s with
  | nil => exact .refl s
  | cons k ks ih =>
    exact ((talks_killSlot s k .invalidated).trans ((talks_orphanLeaves _ k).trans (talks_keyEvent _ _ _ _ _))).trans
      (ih _)

theorem talks_destsGone (goose : Bool) (l : List Nat) : Talks s (destsGone goose l s) := by
  induction l generalizing s with
  | nil => exact .refl s
  | cons n ns ih => exact (ih (destGone goose n s)).after ((talks_raise _ _).of_before rfl)

theorem talks_removeDests (p : Nat) : Talks s (removeDests p s) :=
  (talks_destsGone _ true _).after ((talks_destsGone _ false _).of_before rfl)

theorem talks_freeFrames (n : Nat) : Talks s (freeFrames n s) := by
  unfold freeFrames
  extract_lets h
  split <;> exact .of_cnp rfl

theorem talks_dropPre (p : Nat) : Talks s (dropPre p s) := by
  unfold dropPre
  split
  · exact .refl s
  · rename_i x hx
    refine ⟨rfl, fun q => ?_⟩
    by_cases hq : q = p
    · subst hq
      exact (congrArg _ (look_put_self _ _ _)).trans (congrArg (Option.map Part.bare) hx).symm
    · exact congrArg _ (look_put_other _ _ hq)

theorem talks_soil (p : Nat) : Talks s (soil p s) := by
  refine talks_alter s (p := p) rfl fun x => ?_
  generalize hl : x.pages = l
  clear hl
  induction l generalizing x with
  | nil => rfl
  | cons e es ih => exact (ih _).trans (bare_noteLines _ _ _)

theorem talks_reclaim (p : Nat) : Talks s (reclaim p s) := by
  unfold reclaim
  split
  · exact .refl s
  · rename_i x hx
    refine (talks_freeFrames _ _).after ⟨rfl, fun q => ?_⟩
    by_cases hq : q = p
    · subst hq
      exact (congrArg _ (look_put_self _ _ _)).trans (congrArg (Option.map Part.bare) hx).symm
    · exact congrArg _ (look_put_other _ _ hq)

theorem talks_putLoad (p dst : Nat) (load : Bytes) : Talks s (putLoad p dst load s) :=
  talks_alter s rfl fun _ => rfl

theorem talks_narrowRecord (source target reach : Nat) : Talks s (narrowRecord source target reach s) :=
  talks_raise s _
end

end Sys2Proof.Machine
end

section
/-! Proofs of the statements on the commands of partitions and triads, and on class T. -/

namespace Sys2Proof.Machine

open Sys2Proof

set_option Elab.async false

/-! ### Partitions in the table -/

section
variable (p : Nat) (x : Part) (f : Part → Part) (s : State)

theorem look_setPart_self : look (setPart p x s).cnp.parts p = some x := look_put_self _ _ _

theorem look_setPart_other {q : Nat} (h : q ≠ p) : look (setPart p x s).cnp.parts q = look s.cnp.parts q :=
  look_put_other _ _ h

theorem look_modPart_of {x : Part} (h : look s.cnp.parts p = some x) :
    look (modPart p f s).cnp.parts p = some (f x) :=
  (look_alter_self _ _ _).trans (by rw [h]; rfl)

theorem look_modPart_other {q : Nat} (h : q ≠ p) : look (modPart p f s).cnp.parts q = look s.cnp.parts q :=
  look_alter_other _ _ h
end

/-- Two partitions that are alike but for their memory agree in a field that is no part of it. -/
theorem eq_of_bare {α : Type} {x y : Part} (h : y.bare = x.bare) (f : Part → α) (hf : ∀ z, f z = f z.bare) : f y = f x := by
  rw [hf y, h, ← hf x]

/-! ### PART_STOP: the rings of a partition (R149, R174) -/

section
variable {r : Nat} {s : State}

theorem talks_disableRing (r : Nat) (s : State) : Talks s (disableRing r s) := by
  unfold disableRing
  split
  · exact .refl s
  · exact (talks_ringVis _ _ _ _).of_before rfl

theorem talks_disableRings (l : List Nat) (s : State) : Talks s (disableRings l s) := by
  induction l generalizing s with
  | nil => exact .refl s
  | cons r rs ih => exact (talks_disableRing r s).trans (ih _)

/-- The enable state of ring `r`, where there is one. -/
abbrev ringState (r : Nat) (s : State) : Option Enable := (look s.rng.rings r).map fun z => z.st

/-- A ring that is ON is STOPPING once it is disabled (R149). -/
theorem ringState_disableRing_self (h : ringState r s = some .on ∨ ringState r s = some .stopping) :
    ringState r (disableRing r s) = some .stopping := by
  have hstop (x : Ring) (hx : look s.rng.rings r = some x) (hst : x.st = .on ∨ x.st = .stopping) :
      ringState r (disableRing r s) = some .stopping := by
    rw [ringState, disableRing_rings hx, look_put_self]
    rcases hst with hst | hst <;> simp [hst, disableRule]
  rcases h with h | h
  · obtain ⟨x, hx, hst⟩ := Option.map_eq_some_iff.mp h
    exact hstop x hx (.inl hst)
  · obtain ⟨x, hx, hst⟩ := Option.map_eq_some_iff.mp h
    exact hstop x hx (.inr hst)

theorem ringState_disableRing_other {q : Nat} (h : r ≠ q) : ringState r (disableRing q s) = ringState r s := by
  cases hx : look s.rng.rings q with
  | none => simp only [disableRing, hx]
  | some x => rw [ringState, disableRing_rings hx, look_put_other _ _ h]

/-- A STOPPING ring stays so while rings are disabled. -/
theorem ringState_disableRings_stopping (l : List Nat) (h : ringState r s = some .stopping) :
    ringState r (disableRings l s) = some .stopping := by
  induction l generalizing s with
  | nil => exact h
  | cons q qs ih =>
    by_cases hq : r = q
    · subst hq
      exact ih (ringState_disableRing_self (.inr h))
    · exact ih ((ringState_disableRing_other hq).trans h)

/-- Every ring of the list that is ON is STOPPING afterwards (R174). -/
theorem ringState_disableRings {l : List Nat} (hl : r ∈ l) (h : ringState r s = some .on) :
    ringState r (disableRings l s) = some .stopping := by
  induction l generalizing s with
  | nil => exact nomatch hl
  | cons q qs ih =>
    by_cases hq : r = q
    · subst hq
      exact ringState_disableRings_stopping qs (ringState_disableRing_self (.inl h))
    · rcases List.mem_cons.mp hl with rfl | hl
      · exact absurd rfl hq
      · exact ih hl ((ringState_disableRing_other hq).trans h)

/-- An ON ring of the partition's own is listed by `onRings`. -/
theorem mem_onRings {p : Nat} {y : Ring} (hr : r < 2048) (hp : r / 8 = p) (hy : look s.rng.rings r = some y)
    (hon : y.st = .on) : r ∈ onRings p s := by
  rw [onRings, ringsOf]
  refine List.mem_filter.mpr ⟨List.mem_map.mpr ⟨(r, y), List.mem_filter.mpr ⟨mem_of_look hy, ?_⟩, rfl⟩, ?_⟩
  · simp [hr, hp]
  · simp [hy, hon]
end

/-! ### PARTITION reset (R178) -/

/-- Ending a run leaves every field of a partition that is no state of its run. -/
theorem look_dropRun {p : Nat} {s : State} {x : Part} (hx : look s.cnp.parts p = some x) :
    look (dropRun p s).cnp.parts p = some (if x.st == .running then { x with st := .ready } else x) := by
  unfold dropRun
  dsimp only
  rw [look_alter_self, hx]
  rfl

/-- What a PARTITION reset changes before it resets the context is the run and the memory of the partition. -/
theorem partitionReset_before (p : Nat) (s : State) {x : Part} (hx : look s.cnp.parts p = some x) :
    ∃ v w, partitionReset p s = removeDests p (invalidateBranches (partBranches (some p) v) (resetPart p v)) ∧
      look v.cnp.parts p = some w ∧ w.bare = (if x.st == .running then { x with st := .ready } else x).bare := by
  unfold partitionReset
  extract_lets load s1 s2 s3 s4
  obtain ⟨x1, hx1, hb1⟩ := (talks_narrowRecord s 11 p 4).look_some hx
  have htalks : Talks (dropRun p s1) s4 := by
    have h3 : Talks (dropRun p s1) s3 :=
      (talks_ringsAtReset s2 _).after ((talks_reclaim _ p).after ((talks_soil _ p).after (talks_dropPre _ p)))
    cases hl : load with
    | some l => simpa only [s4, hl] using (talks_soil _ p).after ((talks_putLoad s3 p l.1 l.2).after h3)
    | none => simpa only [s4, hl] using h3
  obtain ⟨w, hw, hbw⟩ := htalks.look_some (look_dropRun hx1)
  refine ⟨s4, w, rfl, hw, hbw.trans ?_⟩
  have hst : x1.st = x.st := eq_of_bare hb1 Part.st fun _ => rfl
  rw [hst]
  cases x.st == .running with
  | true => exact congrArg (fun z : Part => { z with st := PState.ready }) hb1
  | false => exact hb1

/-- The partition that `resetPart` leaves: the counted reset, the entry state, nothing pending (R178). -/
theorem look_resetPart {p : Nat} {v : State} {w : Part} (hw : look v.cnp.parts p = some w) :
    ∃ y, look (resetPart p v).cnp.parts p = some y ∧ y.resets = min (w.resets + 1) 255 ∧
      y.ctx = entryCtx w.entry p (min (w.resets + 1) 255) ∧ y.markCtx = y.ctx ∧ y.instret = 0 ∧ y.pwake = 0 ∧
      y.pfault = 0 ∧ y.quota = w.quota ∧ y.dirty = w.dirty ∧ y.triad = w.triad ∧ y.home = w.home ∧
      y.entry = w.entry := by
  unfold resetPart
  rw [partOf, hw]
  dsimp only
  split
  · obtain ⟨y, hy, hb⟩ := (talks_offEvents _ 1 p w.held).look_some (look_setPart_self p _ v)
    exact ⟨y, hy, eq_of_bare hb Part.resets fun _ => rfl, eq_of_bare hb Part.ctx fun _ => rfl,
      (eq_of_bare hb Part.markCtx fun _ => rfl).trans (eq_of_bare hb Part.ctx fun _ => rfl).symm,
      eq_of_bare hb Part.instret fun _ => rfl, eq_of_bare hb Part.pwake fun _ => rfl,
      eq_of_bare hb Part.pfault fun _ => rfl, eq_of_bare hb Part.quota fun _ => rfl,
      eq_of_bare hb Part.dirty fun _ => rfl, eq_of_bare hb Part.triad fun _ => rfl,
      eq_of_bare hb Part.home fun _ => rfl, eq_of_bare hb Part.entry fun _ => rfl⟩
  · exact ⟨_, look_setPart_self p _ v, rfl, rfl, rfl, rfl, rfl, rfl, rfl, rfl, rfl, rfl, rfl⟩

/-- A PARTITION reset counts itself, sets the context to the entry state and leaves the record's fields (R178). -/
theorem look_partitionReset_part {p : Nat} {s : State} {x : Part} (hx : look s.cnp.parts p = some x) :
    ∃ y, look (partitionReset p s).cnp.parts p = some y ∧ y.resets = min (x.resets + 1) 255 ∧
      y.ctx = entryCtx x.entry p y.resets ∧ y.markCtx = y.ctx ∧ y.instret = 0 ∧ y.pwake = 0 ∧ y.pfault = 0 ∧
      y.quota = x.quota ∧ y.dirty = x.dirty ∧ y.triad = x.triad ∧ y.home = x.home := by
  obtain ⟨v, w, heq, hw, hbw⟩ := partitionReset_before p s hx
  have hfield {α : Type} (f : Part → α) (hf : ∀ z, f z = f z.bare) (hst : ∀ z : Part, f { z with st := .ready } = f z) :
      f w = f x := by
    refine (eq_of_bare hbw f hf).trans ?_
    split
    · exact hst x
    · rfl
  obtain ⟨z, hz, hresets, hctx, hmark, hinst, hwake, hfault, hquota, hdirty, htriad, hhome, -⟩ := look_resetPart hw
  have htalks : Talks (resetPart p v) (partitionReset p s) := by
    rw [heq]
    exact (talks_removeDests _ p).after (talks_invalidateBranches _ _)
  obtain ⟨y, hy, hby⟩ := htalks.look_some hz
  have hr : y.resets = min (x.resets + 1) 255 := by
    rw [eq_of_bare hby Part.resets fun _ => rfl, hresets, hfield Part.resets (fun _ => rfl) fun _ => rfl]
  have hc : y.ctx = z.ctx := eq_of_bare hby Part.ctx fun _ => rfl
  refine ⟨y, hy, hr, ?_, ?_, ?_, ?_, ?_, ?_, ?_, ?_, ?_⟩
  · rw [hc, hctx, hr, hfield Part.resets (fun _ => rfl) fun _ => rfl, hfield Part.entry (fun _ => rfl) fun _ => rfl]
  · rw [hc, eq_of_bare hby Part.markCtx fun _ => rfl, hmark]
  · rw [eq_of_bare hby Part.instret fun _ => rfl, hinst]
  · rw [eq_of_bare hby Part.pwake fun _ => rfl, hwake]
  · rw [eq_of_bare hby Part.pfault fun _ => rfl, hfault]
  · rw [eq_of_bare hby Part.quota fun _ => rfl, hquota, hfield Part.quota (fun _ => rfl) fun _ => rfl]
  · rw [eq_of_bare hby Part.dirty fun _ => rfl, hdirty, hfield Part.dirty (fun _ => rfl) fun _ => rfl]
  · rw [eq_of_bare hby Part.triad fun _ => rfl, htriad, hfield Part.triad (fun _ => rfl) fun _ => rfl]
  · rw [eq_of_bare hby Part.home fun _ => rfl, hhome, hfield Part.home (fun _ => rfl) fun _ => rfl]

/-! ### Destruction (R176, R204) -/

theorem destroyPart_cnp (p : Nat) (s : State) :
    ∃ v, Talks v (destroyPart p s) ∧ v.cnp.parts = del (dropPre p (dropRun p s)).cnp.parts p ∧
      v.cnp.sched = (dropPre p (dropRun p s)).cnp.sched.filter (fun e => e.part != p) := by
  unfold destroyPart
  exact ⟨_, (talks_removeDests _ p).after ((talks_invalidateBranches _ _).after (talks_freeFrames _ _)), rfl, rfl⟩

theorem destroyPart_rng (p : Nat) (s : State) : (destroyPart p s).rng = s.rng := by
  simp [destroyPart]

/-- Settles O15: each command's effect, `look_partitionReset_part` for the reset and `Talks` for what events leave. -/
theorem partitionCommandsTakeEffect : Obligations.PartitionCommandsTakeEffect := by
  unfold Obligations.PartitionCommandsTakeEffect
  refine ⟨fun c s x hx => ⟨fun h => ?_, fun h hst => ?_, fun h hst hen => ?_, fun h => ?_⟩, fun c s h => ?_,
    fun c s x h hx => ?_, fun c s h => ?_⟩
  case refine_1 =>
    have hexec : exec (.partStart c) s = .next (complete c (effPartStart c s)) :=
      runNow_of_ready h rfl (judgeCmd_partStart s)
    rw [hexec, effPartStart]
    dsimp only
    rw [partOf, argPart, hx]
    dsimp only
    cases partEnable x <;> simp [enableRule, res, stOk, stDeferred]
  case refine_2 =>
    have hexec : exec (.partStop c) s = .next (complete c (effPartStop c s)) :=
      runNow_of_ready h rfl (judgeCmd_partStop s)
    have hcond : (x.st == .frozen || x.st == .migrating) = true := by rcases hst with h | h <;> simp [h]
    rw [hexec, effPartStop]
    dsimp only
    rw [partOf, argPart, hx]
    dsimp only
    rw [hcond]
    rfl
  case refine_3 =>
    have hexec : exec (.partStop c) s = .next (complete c (effPartStop c s)) :=
      runNow_of_ready h rfl (judgeCmd_partStop s)
    have hcond : (x.st == .frozen || x.st == .migrating) = false := by rcases hst with h | h <;> simp [h]
    have hpen : partEnable x = .on := by rcases hst with h | h <;> simp [partEnable, h, hen]
    rw [effPartStop] at hexec
    dsimp only at hexec
    rw [partOf, argPart, hx] at hexec
    dsimp only at hexec
    rw [hcond, hpen] at hexec
    refine ⟨_, hexec, ?_, fun r y hr hp hy hon => ?_⟩
    · obtain ⟨z, hz, hb⟩ := (talks_disableRings _ _).look_some (look_setPart_self _ _ s)
      rw [hz, Option.map_some, eq_of_bare hb Part.en fun _ => rfl, eq_of_bare hb Part.st fun _ => rfl]
      rfl
    · exact ringState_disableRings (mem_onRings hr hp hy hon) (by simp [ringState, setPart, hy, hon])
  case refine_4 =>
    have hexec : exec (.partQuota c) s = .next (complete c (effPartQuota c s)) :=
      runNow_of_ready h rfl (judgeCmd_partQuota s)
    rw [hexec, effPartQuota, partOf, argPart, hx]
    rfl
  case refine_5 =>
    have hexec : exec (.partCreate c) s = .next (complete c (effPartCreate c s)) :=
      runNow_of_ready h rfl (judgeCmd_partCreate s)
    refine ⟨_, _, hexec, look_modPart_of _ _ _ (look_setPart_self _ _ s), rfl, rfl, rfl, rfl, rfl, rfl, rfl, rfl,
      rfl, rfl, fun p hp => ?_, rfl⟩
    have hp' : p ≠ argPart c := hp
    unfold createPart putLoad
    dsimp only
    rw [look_alter_other _ _ hp', look_setPart_other _ _ _ hp']
  case refine_6 =>
    have hexec : exec (.partReset c) s = .next (complete c (effPartReset c s)) := exec_partReset_of_ready h
    obtain ⟨y, hy, hfields⟩ := look_partitionReset_part hx
    exact ⟨_, y, hexec, hy, hfields⟩
  case refine_7 =>
    have hexec : exec (.partDestroy c) s = .next (complete c (effPartDestroy c s)) :=
      runNow_of_ready h rfl (judgeCmd_partDestroy s)
    obtain ⟨v, htalks, hparts, hsched⟩ := destroyPart_cnp (argPart c) s
    refine ⟨_, hexec, htalks.look_none ?_, fun e he => ?_, by rw [destroyPart_rng]⟩
    · rw [hparts]
      exact look_del_self _ _
    · rw [htalks.cnp, hsched] at he
      have hne : e.part ≠ argPart c := by simpa using (List.mem_filter.mp he).2
      exact hne

/-! ### The spare, the tick binding, and a TRIAD reset (R157, R190, R192) -/

theorem talks_landAll (p : Nat) (l : List (Nat × Bytes)) (s : State) : Talks s (landAll p l s) := by
  induction l generalizing s with
  | nil => exact .refl s
  | cons w ws ih => exact (talks_land s p w.1 w.2).trans (ih _)

/-- The writes that a run held are applied to memory (R183). -/
theorem talks_flushHeld (p : Nat) (s : State) : Talks s (flushHeld p s) := by
  unfold flushHeld
  split
  · exact (talks_landAll p _ _).after (talks_alter s rfl fun _ => rfl)
  · exact .refl s

theorem Talks.triadOf {s t : State} (h : Talks s t) (n : Nat) : triadOf n t = triadOf n s := by
  rw [Machine.triadOf, h.cnp]
  rfl

/-- Ending the run of a partition leaves the channels of every triad. -/
theorem chans_dropRun (p n : Nat) (s : State) : (triadOf n (dropRun p s)).chans = (triadOf n s).chans := by
  unfold dropRun triadOf lookD
  dsimp only
  generalize s.cnp.triads = l
  induction l with
  | nil => rfl
  | cons e l ih =>
    obtain ⟨k, x⟩ := e
    simp only [List.map_cons]
    by_cases hk : k = n
    · split
      · split <;> simp [look, hk]
      · simp [look, hk]
    · split
      · split <;> simpa [look, hk] using ih
      · simpa [look, hk] using ih

/-- Settles O16: the effects of the three commands; a run that ends leaves the channels of its triad. -/
theorem triadCommandsTakeEffect : Obligations.TriadCommandsTakeEffect := by
  unfold Obligations.TriadCommandsTakeEffect
  refine fun c s => ⟨fun h => ?_, fun h => ?_, fun h => ?_⟩
  · have hexec : exec (.cnpSpare c) s = .next (complete c (effCnpSpare c s)) :=
      runNow_of_ready h rfl (judgeCmd_cnpSpare s)
    exact hexec
  · have hexec : exec (.cnpTick c) s = .next (complete c (effCnpTick c s)) :=
      runNow_of_ready h rfl (judgeCmd_cnpTick s)
    exact hexec
  · have hexec : exec (.triadReset c) s = .next (complete c (effTriadReset c s)) :=
      runNow_of_ready h rfl (judgeCmd_triadReset s)
    unfold effTriadReset at hexec
    extract_lets t s1 s2 x s3 cnp at hexec
    have h1 : Talks s s1 := talks_narrowRecord s _ _ _
    have h2 : (triadOf t s2).chans = (triadOf t s).chans ∧ s2.cnp.spare = s.cnp.spare ∧ s2.rng = s.rng := by
      cases hrun : (triadOf t s1).run with
      | none => simp only [s2, hrun]; exact ⟨by rw [h1.triadOf], by rw [h1.cnp], rfl⟩
      | some r =>
        simp only [s2, hrun]
        have hflush := talks_flushHeld r.part (dropRun r.part s1)
        refine ⟨?_, ?_, ?_⟩
        · rw [hflush.triadOf, chans_dropRun, h1.triadOf]
        · rw [hflush.cnp]
          show s1.cnp.spare = _
          rw [h1.cnp]
        · rw [flushHeld_rng, dropRun_rng]
          rfl
    obtain ⟨hchans, hspare, hrng⟩ := h2
    have htriad : triadOf t { s3 with cnp := { s3.cnp with votes := s3.cnp.votes.filter fun v => v.triad != t } } =
        { chans := x.chans, isos := x.isos } := lookD_put_self _ _ _ _
    refine ⟨_, hexec, ?_, ?_, ?_, fun v hv => ?_, hspare, hrng⟩
    · exact congrArg Triad.failed htriad
    · exact congrArg Triad.run htriad
    · exact (congrArg Triad.chans htriad).trans hchans
    · simpa using (List.mem_filter.mp hv).2

/-- Settles O17: each of the ten rows of class T waits, by `runAtTick_of_ready`. -/
theorem classTWaitsForItsBoundary : Obligations.ClassTWaitsForItsBoundary := by
  unfold Obligations.ClassTWaitsForItsBoundary
  intro i c s h hi
  simp only [List.mem_cons, List.not_mem_nil, or_false] at hi
  rcases hi with rfl | rfl | rfl | rfl | rfl | rfl | rfl | rfl | rfl | rfl
  · exact runAtTick_of_ready h rfl (judgeCmd_partFreeze s)
  · exact runAtTick_of_ready h rfl (judgeCmd_partThaw s)
  · exact runAtTick_of_ready h rfl (judgeCmd_cnpSchedule s)
  · exact runAtTick_of_ready h rfl (judgeCmd_cnpBudget s)
  · exact runAtTick_of_ready h rfl (judgeCmd_cnpWake s)
  · exact runAtTick_of_ready h rfl (judgeCmd_triadRejoin s)
  · exact runAtTick_of_ready h rfl (judgeCmd_svSource s)
  · exact runAtTick_of_ready h rfl (judgeCmd_fltThreshold s)
  · exact runAtTick_of_ready h rfl (judgeCmd_gftMirror s)
  · exact runAtTick_of_ready h rfl (judgeCmd_gftSwitch s)

/-! ### Class T at its boundary (R153) -/

/-- A latched bit reads 1. -/
theorem getLsbD_latch_self {n i : Nat} (l : BitVec n) (h : i < n) : (latch l i).getLsbD i = true := by
  rw [latch, BitVec.getLsbD_or, BitVec.getLsbD_ofNat, Nat.testBit_two_pow_self, decide_eq_true h]
  exact Bool.or_true _

/-- An event takes one OSN (R28). -/
theorem raise_osn {e : Ev} {s : State} (h : arbHeld s = false) : (raise e s).arb.osn = s.arb.osn + 1 := by
  show (arbNext e.src s).osn = _
  rw [arbNext, h]
  rfl

section
variable {c : Cmd} {t : Nat} {s : State}

/-- The command that waits takes effect at the first boundary 20 µs or more after its consumption (R153). -/
theorem tickCommand_of_due (h : s.hw.tWait = some (c, t)) (ht : t + 20000 ≤ s.clk.now) :
    tickCommand s = complete c (effAtTick c { s with hw := { s.hw with tWait := none } }) := by
  have hdue : dueAtTick s = some c := by rw [dueAtTick, h]; exact if_pos ht
  rw [tickCommand, hdue]

theorem strmOf_setStrm (n : Nat) (x : Strm) (s : State) : strmOf n (setStrm n x s) = x := lookD_put_self _ _ _ _

theorem chanOf_setChan (n ch : Nat) (x : FCh) (s : State) : chanOf n ch (setChan n ch x s) = x := by
  rw [chanOf, setChan, strmOf_setStrm]
  exact lookD_put_self _ _ _ _

/-- What a switch of the active source does to its stream, its counter and its event (R341). -/
theorem switchSource_of_ne {n src : Nat} (h : (strmOf n s).active ≠ src) :
    (strmOf n (switchSource n src s)).active = src ∧
      (strmOf n (switchSource n src s)).prev = (strmOf n s).active ∧
      (strmOf n (switchSource n src s)).switchTick = comingTick s ∧
      (strmOf n (switchSource n src s)).swDue = true ∧
      lookD (switchSource n src s).sv.cnt (n * 14 + 12) 0 = (lookD s.sv.cnt (n * 14 + 12) 0 + 1) % 2 ^ 64 ∧
      (switchSource n src s).sv.evt.getLsbD 3 = true ∧
      (arbHeld s = false → (switchSource n src s).arb.osn = s.arb.osn + 1) := by
  unfold switchSource
  extract_lets x k old z y
  rw [if_neg h]
  have hstrm : strmOf n (markSwitch n (svEvent 0x0303 n (latchSv 3 n (countSv n 12 1 (setStrm n y s))))) = y :=
    strmOf_setStrm n y s
  have hy : y.active = src ∧ y.prev = x.active ∧ y.switchTick = k ∧ y.swDue = true := by
    simp only [y]
    split <;> exact ⟨rfl, rfl, rfl, rfl⟩
  rw [hstrm]
  refine ⟨hy.1, hy.2.1, hy.2.2.1, hy.2.2.2, lookD_put_self _ _ _ _, getLsbD_latch_self _ (by decide), fun hheld => ?_⟩
  exact raise_osn (s := latchSv 3 n (countSv n 12 1 (setStrm n y s))) hheld
end

/-- Settles O18: `tickCommand_of_due` runs the effect, which each opcode's equation gives. -/
theorem classTEffects : Obligations.ClassTEffects := by
  unfold Obligations.ClassTEffects
  constructor
  · intro c t s hwait hdue v p
    rw [tickCommand_of_due hwait hdue]
    refine ⟨fun hop x hx hst => ?_, fun hop x hx hst => ?_, fun hop => ?_, fun hop => ?_, fun hop => ?_,
      fun hop x hx hlane hchan hjoin => ?_⟩
    · rw [effAtTick, hop]
      have hnot : (x.st == .frozen || x.st == .migrating) = false := by rcases hst with h | h <;> simp [h]
      refine ⟨_, rfl, rfl, ?_⟩
      refine (look_modPart_of _ _ _ (x := x) hx).trans ?_
      rw [hnot]
      rfl
    · rw [effAtTick, hop]
      refine ⟨_, rfl, ?_, fun e he hsaved => ?_⟩
      · refine (look_modPart_of _ _ _ (x := x) hx).trans ?_
        rw [hst]
        simp
      · obtain ⟨j, -, rfl⟩ := List.mem_map.mp he
        split at hsaved
        · exact nomatch hsaved
        · rename_i hcond
          rw [if_neg hcond]
          by_contra hno
          obtain ⟨hring, hlow⟩ := not_or.mp hno
          have hring' : j.ring / 8 = argPart c := not_not.mp hring
          exact hcond (by simpa [hsaved] using And.intro hring' (Nat.not_le.mp hlow))
    · rw [effAtTick, hop]
      rfl
    · rw [effAtTick, hop]
      rfl
    · rw [effAtTick, hop]
      rfl
    · rw [effAtTick, hop]
      have hcond : (v.cnp.lanes.contains (argChan c) && !(triadOf (arg0 c.desc) v).chans.contains (argChan c) &&
          !(triadOf (arg0 c.desc) v).joining.contains (argChan c)) = true := by
        have hv : triadOf (arg0 c.desc) v = x := hx
        rw [hv]
        simpa [hchan, hjoin] using hlane
      have heff : effTriadRejoin c v = res (setTriad (arg0 c.desc) { triadOf (arg0 c.desc) v with
          joining := (triadOf (arg0 c.desc) v).joining ++ [argChan c] } v) stOk := if_pos hcond
      have hv : triadOf (arg0 c.desc) v = x := hx
      rw [hv] at heff
      exact congrArg (complete c) heff
  · intro c t s hwait hdue n
    rw [tickCommand_of_due hwait hdue]
    refine ⟨fun hop hen hact => ?_, fun hop => ?_⟩
    · rw [effAtTick, hop]
      have hon : ((strmOf (arg0 c.desc) { s with hw := { s.hw with tWait := none } }).en == .on) = true :=
        beq_iff_eq.mpr hen
      have heff : effSvSource c { s with hw := { s.hw with tWait := none } } =
          (switchSource n (arg1 c.desc) { s with hw := { s.hw with tWait := none } }, stOk, none) := by
        rw [effSvSource, if_pos hon]
        rfl
      exact ⟨_, congrArg (complete c) heff, switchSource_of_ne (s := { s with hw := { s.hw with tWait := none } }) hact⟩
    · rw [effAtTick, hop]
      obtain ⟨y, hy, hdets⟩ : ∃ y, effFltThreshold c { s with hw := { s.hw with tWait := none } } =
          (levelChange 0 0 false (setChan n (thrCh c) y { s with hw := { s.hw with tWait := none } }), stOk, none) ∧
          y.dets = put (chanOf n (thrCh c) s).dets (thrDet c) { detIn c.block with
            state := (detIn c.block).en && (lookD (chanOf n (thrCh c) s).dets (thrDet c) {}).state } :=
        ⟨_, rfl, rfl⟩
      have hchan : chanOf n (thrCh c)
          (levelChange 0 0 false (setChan n (thrCh c) y { s with hw := { s.hw with tWait := none } })) = y :=
        chanOf_setChan n (thrCh c) y _
      refine ⟨_, congrArg (complete c) hy, ?_, fun d hd => ?_, fun k hk => look_put_other _ _ hk⟩
      · rw [hchan, hdets]
        exact lookD_put_self _ _ _ _
      · rw [hchan, hdets]
        exact look_put_other _ _ hd

end Sys2Proof.Machine
end

section
/-! The statements on runs, wakes and pages, and the proof of the statement on votes. -/

namespace Sys2Proof.Machine

open Sys2Proof

set_option Elab.async false

/-! ### Two statements that hold only of a table of partitions in rising order -/

/-- A running partition that its table lists out of order. -/
def partsOutOfOrder : State where
  rst := { phase := .started }
  cnp := {
    parts := [(5, {}), (1, { st := .running })]
    triads := [(1, { run := some { part := 1, kind := .slot, base := .slot, since := 0, grant := 1 } })] }

/-- The partition that runs in `partsOutOfOrder`, after an illegal-instruction exception. -/
def trappedPart : Part :=
  { ({ st := .running } : Part) with trap := some (2, 0), ctx := vsTrap true (2, 0) [] }

/-- Refutes O19: from VU-mode `YIELD` changes the partition where it stands in its table, while `setPart` puts it where
a table in rising order has it; in `partsOutOfOrder` the two differ. -/
theorem not_dispatchAndRunEnd : ¬ Obligations.DispatchAndRunEnd := by
  unfold Obligations.DispatchAndRunEnd
  rintro ⟨-, -, -, hyield, -⟩
  have h : exec (.yield 1 ⟨false, true, 0⟩ []) partsOutOfOrder = .next (setPart 1 trappedPart partsOutOfOrder) :=
    hyield 1 0 false [] partsOutOfOrder _ _ (by decide) rfl rfl rfl rfl
  have hlength := congrArg (fun t : State => t.cnp.parts.length) (Host.Outcome.next.inj h)
  exact absurd hlength (by decide)

/-- Refutes O20: from VU-mode a write of `pwake` changes the partition where it stands in its table, while `setPart`
puts it where a table in rising order has it; in `partsOutOfOrder` the two differ. -/
theorem not_wakesAndPages : ¬ Obligations.WakesAndPages := by
  unfold Obligations.WakesAndPages
  rintro ⟨⟨-, hclear⟩, -⟩
  have h : exec (.pwakeClear 1 ⟨0, true, 0, []⟩) partsOutOfOrder = .next (setPart 1 trappedPart partsOutOfOrder) :=
    (hclear 1 0 0 [] partsOutOfOrder _ (by decide) rfl rfl).1
  have hlength := congrArg (fun t : State => t.cnp.parts.length) (Host.Outcome.next.inj h)
  exact absurd hlength (by decide)

/-! ### Votes (R185, R186) -/

theorem sameUnit_self (e : Emission) : sameUnit e e = true := by
  cases e <;> simp [sameUnit]

/-- A doorbell copy is kept with the bells, and touches nothing else of Canopy (R185). -/
theorem noteBell_frame (b : Chan) (e : Emission) (s : State) :
    ∃ l, noteBell b e s = { s with cnp := { s.cnp with bells := l } } := by
  unfold noteBell
  split <;> exact ⟨_, rfl⟩

section
variable {t : Nat} {a b : Chan} {e f : Emission} {n : Nat} {s : State}

/-- A copy that the voter takes joins the vote of its emission, or opens one (R185, R186). -/
theorem exec_vote (ht : t < 16) (hfailed : (triadOf t s).failed = false) (hphase : s.rst.phase = .started)
    (hb : b ∈ (triadOf t s).chans) (hbel : belongs t e s = true) (hdue : copyDue (triadOf t s) b e s = true) :
    exec (.vote t b e) s = .next
      (match (noteBell b e s).cnp.votes.find? fun v => v.triad == t && v.copies.all (fun c => c.1 != b) &&
          ((v.passed.toList ++ v.copies.map Prod.snd).any fun c => sameUnit c e) with
       | some v => voteStep ((noteBell b e s).cnp.votes.erase v) v (voteCopy v b e) e (noteBell b e s)
       | none => voteStep (noteBell b e s).cnp.votes { triad := t, copies := [(b, e)], since := (noteBell b e s).clk.frc }
          { triad := t, copies := [(b, e)], since := (noteBell b e s).clk.frc } e (noteBell b e s)) := by
  obtain ⟨l, hl⟩ := noteBell_frame b e s
  have htriad : triadOf t (noteBell b e s) = triadOf t s := by rw [hl]; rfl
  have hcond : ((triadOf t s).chans.contains b && !(triadOf t s).failed && !warmHeld s && belongs t e s &&
      copyDue (triadOf t s) b e s) = true := by
    rw [hdue, hbel, hfailed, warmHeld, hphase, List.contains_iff_mem.mpr hb]
    rfl
  show execVote t b e s = _
  unfold execVote
  dsimp only
  rw [decide_eq_true ht, htriad, hcond]
  rfl

/-- A copy of which no two agree leaves the vote open (R186). -/
theorem voteStep_open {v w : Vote} (hv : v.passed = none) (hw : w.passed = none) (others : List Vote) (s : State) :
    voteStep others v w e s = { s with cnp := { s.cnp with votes := others ++ [w] } } := by
  have hclosed : allEqual w (triadOf w.triad s).chans = false := by rw [allEqual, hw]
  have hskew : peakSkew w s = s.cnp.skew := by simp [peakSkew, hw]
  unfold voteStep
  dsimp only
  rw [hv, hw, hclosed, hskew]
  rfl

/-- A copy on which two agree passes the vote, whose emission takes effect at once (R186). -/
theorem voteStep_pass {v w : Vote} {p : Emission} (hv : v.passed = none) (hw : w.passed = some p) (others : List Vote)
    (s : State) :
    voteStep others v w e s = traceVote w e true { s with cnp := { s.cnp with
      votes := if allEqual w (triadOf w.triad s).chans then others else others ++ [w]
      skew := peakSkew w s
      passed := s.cnp.passed ++ [p] } } := by
  unfold voteStep
  dsimp only
  rw [hv, hw]

/-- A grant of the arbiter gives one OSN (R28). -/
theorem grant_osn {src : Nat} {s : State} (h : arbHeld s = false) : (grant src s).arb.osn = s.arb.osn + 1 := by
  show (arbNext src s).osn = _
  rw [arbNext, h]
  rfl

theorem traceVote_cnp (v : Vote) (e : Emission) (p : Bool) (s : State) : (traceVote v e p s).cnp = s.cnp := rfl

/-- The event of a vote takes one OSN (R30). -/
theorem traceVote_osn {v : Vote} {e : Emission} {p : Bool} {s : State} (h : arbHeld s = false) :
    (traceVote v e p s).arb.osn = s.arb.osn + 1 := by
  unfold traceVote
  extract_lets data rec_
  exact grant_osn h

/-- What a vote that passes with a copy changes (R30, R186). -/
theorem voteStep_pass_frame {v w : Vote} {p : Emission} (hv : v.passed = none) (hw : w.passed = some p)
    (others : List Vote) {s : State} (hheld : arbHeld s = false) :
    (voteStep others v w e s).cnp.passed = s.cnp.passed ++ [p] ∧
      (voteStep others v w e s).arb.osn = s.arb.osn + 1 ∧
      ((voteStep others v w e s).cnp.votes = others ∨ (voteStep others v w e s).cnp.votes = others ++ [w]) ∧
      (voteStep others v w e s).cnp.parts = s.cnp.parts ∧ (voteStep others v w e s).rng = s.rng ∧
      (voteStep others v w e s).mem = s.mem := by
  rw [voteStep_pass hv hw]
  refine ⟨rfl, traceVote_osn hheld, ?_, rfl, rfl, rfl⟩
  rw [traceVote_cnp]
  dsimp only
  split
  · exact .inl rfl
  · exact .inr rfl

/-- The first copy of an emission opens its vote (R186). -/
theorem exec_vote_first (ht : t < 16) (hfailed : (triadOf t s).failed = false) (hphase : s.rst.phase = .started)
    (hb : b ∈ (triadOf t s).chans) (hbel : belongs t e s = true) (hdue : copyDue (triadOf t s) b e s = true)
    (hvotes : s.cnp.votes = []) :
    exec (.vote t b e) s = .next { s with cnp := { (noteBell b e s).cnp with
      votes := [{ triad := t, copies := [(b, e)], since := s.clk.frc }] } } := by
  obtain ⟨l, hl⟩ := noteBell_frame b e s
  have hvotes' : (noteBell b e s).cnp.votes = [] := by rw [hl]; exact hvotes
  rw [exec_vote ht hfailed hphase hb hbel hdue, hvotes']
  dsimp only [List.find?_nil]
  rw [voteStep_open rfl rfl, hl]
  rfl

/-- A second copy that agrees passes the vote (R186). -/
theorem exec_vote_second (ht : t < 16) (hfailed : (triadOf t s).failed = false) (hphase : s.rst.phase = .started)
    (hb : b ∈ (triadOf t s).chans) (hab : a ≠ b) (hbel : belongs t e s = true)
    (hdue : copyDue (triadOf t s) b e s = true)
    (hvotes : s.cnp.votes = [{ triad := t, copies := [(a, e)], since := n }]) (hheld : arbHeld s = false) :
    ∃ u, exec (.vote t b e) s = .next u ∧ u.cnp.passed = s.cnp.passed ++ [e] ∧ u.arb.osn = s.arb.osn + 1 ∧
      (u.cnp.votes = [] ∨
        u.cnp.votes = [{ triad := t, copies := [(a, e), (b, e)], since := n, passed := some e }]) ∧
      u.cnp.parts = s.cnp.parts ∧ u.rng = s.rng ∧ u.mem = s.mem := by
  obtain ⟨l, hl⟩ := noteBell_frame b e s
  have hvotes' : (noteBell b e s).cnp.votes = [{ triad := t, copies := [(a, e)], since := n }] := by
    rw [hl]; exact hvotes
  have hcopy : voteCopy { triad := t, copies := [(a, e)], since := n } b e =
      { triad := t, copies := [(a, e), (b, e)], since := n, passed := some e } := by
    simp [voteCopy, agreed, hab.symm]
  refine ⟨_, exec_vote ht hfailed hphase hb hbel hdue, ?_⟩
  rw [hvotes', List.find?_cons_of_pos (by simp [sameUnit_self, hab])]
  dsimp only
  rw [List.erase_cons_head, hcopy]
  have hframe := voteStep_pass_frame (e := e) (v := { triad := t, copies := [(a, e)], since := n })
    (w := { triad := t, copies := [(a, e), (b, e)], since := n, passed := some e }) rfl rfl []
    (s := noteBell b e s) (by rw [hl]; exact hheld)
  rw [hl] at hframe ⊢
  exact hframe

/-- A second copy that differs neither passes the vote nor closes it (R186). -/
theorem exec_vote_differing (ht : t < 16) (hfailed : (triadOf t s).failed = false) (hphase : s.rst.phase = .started)
    (hb : b ∈ (triadOf t s).chans) (hab : a ≠ b) (hbel : belongs t e s = true) (hunit : sameUnit f e = true)
    (hdue : copyDue (triadOf t s) b e s = true)
    (hvotes : s.cnp.votes = [{ triad := t, copies := [(a, f)], since := n }]) (hef : e ≠ f) :
    exec (.vote t b e) s = .next { s with cnp := { (noteBell b e s).cnp with
      votes := [{ triad := t, copies := [(a, f), (b, e)], since := n }] } } := by
  obtain ⟨l, hl⟩ := noteBell_frame b e s
  have hvotes' : (noteBell b e s).cnp.votes = [{ triad := t, copies := [(a, f)], since := n }] := by
    rw [hl]; exact hvotes
  have hcopy : voteCopy { triad := t, copies := [(a, f)], since := n } b e =
      { triad := t, copies := [(a, f), (b, e)], since := n } := by
    simp [voteCopy, agreed, hef, hef.symm]
  rw [exec_vote ht hfailed hphase hb hbel hdue, hvotes',
    List.find?_cons_of_pos (by simp [hunit, hab])]
  dsimp only
  rw [List.erase_cons_head, hcopy, voteStep_open rfl rfl, hl]
  rfl
end

/-! ### Isolation (R187, R215) -/

section
variable {t : Nat} {c : Chan} {s : State}

theorem triadOf_setTriad (t : Nat) (x : Triad) (s : State) : triadOf t (setTriad t x s) = x := lookD_put_self _ _ _ _

/-- Where no rejoin is in progress none is abandoned (R189). -/
theorem abandonJoins_of_none (h : (triadOf t s).joining = []) : abandonJoins t s = setTriad t (triadOf t s) s := by
  unfold abandonJoins
  dsimp only
  rw [h]
  show setTriad t { triadOf t s with joining := [] } s = _
  rw [← h]

/-- A channel in service of three, with no vote open and no rejoin in progress, leaves the triad with event 0101h and its
bit (R187, R215). -/
theorem isolate_frame {cause : Nat} (hc : c ∈ (triadOf t s).chans) (hchans : (triadOf t s).chans.length = 3)
    (hjoin : (triadOf t s).joining = []) (hvotes : s.cnp.votes = []) :
    (triadOf t (isolate t cause c s)).chans = (triadOf t s).chans.filter (· != c) ∧
      (triadOf t (isolate t cause c s)).isos = (triadOf t s).isos ++ [c] ∧
      (isolate t cause c s).cnp.evt.getLsbD 0 = true ∧ (isolate t cause c s).cnp.lastTriad = t ∧
      (isolate t cause c s).log.reqs.length = s.log.reqs.length + 1 ∧ (isolate t cause c s).cnp.votes = [] := by
  have hopen : openPayloads t s = [] := by rw [openPayloads, hvotes]; rfl
  have hfew : ¬ (triadOf t s).chans.length ≤ 2 := by omega
  have hiso : isolate t cause c s = abandonJoins t (cnpEvent 0x0101 0 (t + 16 * chanNum c + 256 * cause) (some 2)
      (cnpLatch 0 t none (dropCopies t c false (setTriad t { triadOf t s with
        chans := (triadOf t s).chans.filter (· != c), isos := (triadOf t s).isos ++ [c] } s)))) := by
    unfold isolate
    dsimp only
    rw [if_pos (List.contains_iff_mem.mpr hc), hopen, decide_eq_false hfew]
    rfl
  have htriad : triadOf t (cnpEvent 0x0101 0 (t + 16 * chanNum c + 256 * cause) (some 2)
      (cnpLatch 0 t none (dropCopies t c false (setTriad t { triadOf t s with
        chans := (triadOf t s).chans.filter (· != c), isos := (triadOf t s).isos ++ [c] } s)))) =
      { triadOf t s with chans := (triadOf t s).chans.filter (· != c), isos := (triadOf t s).isos ++ [c] } :=
    triadOf_setTriad t _ s
  rw [hiso, abandonJoins_of_none (by rw [htriad]; exact hjoin), triadOf_setTriad, htriad]
  refine ⟨rfl, rfl, getLsbD_latch_self _ (by decide), rfl, List.length_append .., ?_⟩
  show ((((s.cnp.votes.filter _).map _).filter _) : List Vote) = []
  rw [hvotes]
  rfl
end

/-- At the end of τ the one open vote of a triad is judged (R186). -/
theorem exec_voteToleranceEnd_of_due {t : Nat} {v : Vote} {s : State} (ht : t < 16) (hphase : s.rst.phase = .started)
    (hvotes : s.cnp.votes = [v]) (hvt : v.triad = t) (hdue : v.since + 2500 ≤ s.clk.frc) :
    exec (.voteToleranceEnd t) s = .next (judgeVote v { s with cnp := { s.cnp with votes := [] } }) := by
  have hwarm : warmHeld s = false := by rw [warmHeld, hphase]; rfl
  show execVoteToleranceEnd t s = _
  unfold execVoteToleranceEnd
  rw [decide_eq_true ht, hvotes, List.find?_cons_of_pos (by simp [hvt, hdue])]
  dsimp only
  rw [hwarm, List.erase_cons_head]
  rfl

/-- Settles O21: `exec_vote` and its three cases, `isolate_frame` at the end of the tolerance. -/
theorem votesAndIsolation : Obligations.VotesAndIsolation := by
  unfold Obligations.VotesAndIsolation
  refine ⟨?_, ?_, ?_⟩
  · intro t a b e f n s ht hfailed hphase hb hab hbel _ hunit hdue
    exact ⟨exec_vote_first ht hfailed hphase hb hbel hdue, exec_vote_second ht hfailed hphase hb hab hbel hdue,
      fun hvotes hef => exec_vote_differing ht hfailed hphase hb hab hbel hunit hdue hvotes hef⟩
  · intro t e f n s ht hef hn hphase hchans hjoin
    have hend (v : Vote) (hvt : v.triad = t) (hvn : v.since = n) (hvotes : s.cnp.votes = [v]) :
        exec (.voteToleranceEnd t) s = .next (judgeVote v { s with cnp := { s.cnp with votes := [] } }) :=
      exec_voteToleranceEnd_of_due ht hphase hvotes hvt (by rw [hvn]; exact hn)
    have hchans' : (triadOf t { s with cnp := { s.cnp with votes := [] } }).chans = [.A, .B, .C] := hchans
    have hiso (cause : Nat) (c : Chan) := isolate_frame (t := t) (c := c) (cause := cause)
      (s := { s with cnp := { s.cnp with votes := [] } }) (by rw [hchans']; cases c <;> decide) (by rw [hchans']; rfl)
      hjoin rfl
    constructor
    · intro hvotes
      have hjudge : judgeVote { triad := t, copies := [(.A, e), (.B, e)], since := n, passed := some e }
          { s with cnp := { s.cnp with votes := [] } } =
          isolate t 1 .C { s with cnp := { s.cnp with votes := [] } } := by
        simp [judgeVote, hchans', isolateAll]
      obtain ⟨hc, hisos, hevt, hlast, hlog, hv⟩ := hiso 1 .C
      refine ⟨_, hend _ rfl rfl hvotes, ?_⟩
      rw [hjudge]
      exact ⟨hc.trans (by rw [hchans']; rfl), hisos, hevt, hlast, hlog, hv⟩
    · intro hvotes
      have hjudge : judgeVote { triad := t, copies := [(.A, e), (.B, f), (.C, e)], since := n, passed := some e }
          { s with cnp := { s.cnp with votes := [] } } =
          isolate t 0 .B { s with cnp := { s.cnp with votes := [] } } := by
        simp [judgeVote, hchans', isolateAll, hef.symm]
      obtain ⟨hc, hisos, -, -, -, hv⟩ := hiso 0 .B
      refine ⟨_, hend _ rfl rfl hvotes, ?_⟩
      rw [hjudge]
      exact ⟨hc.trans (by rw [hchans']; rfl), hisos, hv⟩
  · intro t a e s hphase ht
    have hwarm : warmHeld s = true := bne_iff_ne.mpr hphase
    constructor
    · show execVote t a e s = _
      unfold execVote
      dsimp only
      rw [decide_eq_true ht, hwarm]
      simp [named, act]
    · show execVoteToleranceEnd t s = _
      unfold execVoteToleranceEnd
      rw [decide_eq_true ht, hwarm]
      split <;> rfl

end Sys2Proof.Machine
end

section
/-! Proofs of the statement on lost votes, and of the one on the tick boundary. -/

namespace Sys2Proof.Machine

open Sys2Proof

set_option Elab.async false

/-- A change of every entry of a table that keeps the keys. -/
theorem look_map_entry {α : Type} {g : Nat × α → Nat × α} (hg : ∀ e, (g e).1 = e.1) (t : Tbl α) (k : Nat) :
    look (t.map g) k = (look t k).map fun v => (g (k, v)).2 := by
  induction t with
  | nil => rfl
  | cons e r ih =>
    obtain ⟨a, w⟩ := e
    have hfst : (g (a, w)).1 = a := hg (a, w)
    rw [List.map_cons, look, ← Prod.mk.eta (p := g (a, w)), hfst, look]
    by_cases hak : a = k
    · subst hak
      simp
    · rw [if_neg hak, if_neg hak, ih]

/-! ### What a move changes (R190) -/

/-- From `s` to `t` the spare stays, and every partition stays on its triad. -/
structure StaysOnTriads (s t : State) : Prop where
  spare : t.cnp.spare = s.cnp.spare
  triad : ∀ p, (look t.cnp.parts p).map Part.triad = (look s.cnp.parts p).map Part.triad

namespace StaysOnTriads

variable {s t u : State}

theorem trans (h : StaysOnTriads s t) (h' : StaysOnTriads t u) : StaysOnTriads s u :=
  ⟨h'.spare.trans h.spare, fun p => (h'.triad p).trans (h.triad p)⟩

theorem after (h' : StaysOnTriads t u) (h : StaysOnTriads s t) : StaysOnTriads s u := h.trans h'

theorem of_talks (h : Talks s t) : StaysOnTriads s t := by
  refine ⟨by rw [h.cnp], fun p => ?_⟩
  have hfields (l : Option Part) : l.map Part.triad = (l.map Part.bare).map Part.triad := by
    cases l <;> rfl
  rw [hfields, h.parts, ← hfields]

theorem look_some (h : StaysOnTriads s t) {p : Nat} {x : Part} (hx : look s.cnp.parts p = some x) :
    ∃ y, look t.cnp.parts p = some y ∧ y.triad = x.triad := by
  have hp := h.triad p
  rw [hx, Option.map_some] at hp
  exact Option.map_eq_some_iff.mp hp
end StaysOnTriads

section
variable (t p : Nat) (s : State)

theorem talks_abandonEach (l : List Chan) : Talks s (abandonEach t l s) := by
  induction l generalizing s with
  | nil => exact .refl s
  | cons c cs ih => exact (ih _).after (talks_raise s _)

/-- Abandoned rejoins change their triad, and raise events (R189). -/
theorem staysOnTriads_abandonJoins : StaysOnTriads s (abandonJoins t s) := by
  unfold abandonJoins
  exact StaysOnTriads.trans (t := setTriad t { triadOf t s with joining := [] } s) ⟨rfl, fun _ => rfl⟩
    (.of_talks (talks_abandonEach t _ _))

theorem triad_afterRun (r : Run) (why : RunEnd) (saved : Option (List Nat × Ctx)) (used : Nat) (x : Part) :
    (lateCatchup r why s (afterRun r why saved used x)).triad = x.triad := by
  unfold lateCatchup
  split <;> rfl

theorem map_triad_modPart {p : Nat} {f : Part → Part} (hf : ∀ x, (f x).triad = x.triad) (s : State) (q : Nat) :
    (look (modPart p f s).cnp.parts q).map Part.triad = (look s.cnp.parts q).map Part.triad := by
  by_cases hq : q = p
  · subst hq
    show (look (alter s.cnp.parts q f) q).map Part.triad = _
    rw [look_alter_self, Option.map_map]
    congr 1
    funext x
    exact hf x
  · rw [look_modPart_other _ _ _ hq]

/-- A run that ends leaves its partition on its triad (R195). -/
theorem staysOnTriads_endRun (why : RunEnd) (saved : Option (List Nat × Ctx)) :
    StaysOnTriads s (endRun t why saved s) := by
  unfold endRun
  split
  · exact ⟨rfl, fun _ => rfl⟩
  · rename_i r hr
    extract_lets used slot s1 s2
    refine (StaysOnTriads.of_talks (talks_flushHeld r.part _)).after ⟨rfl, fun q => ?_⟩
    exact map_triad_modPart (fun x => triad_afterRun s r why saved used x) s2 q

theorem staysOnTriads_failTriad : StaysOnTriads s (failTriad t s) :=
  (staysOnTriads_endRun t s .move none).trans ⟨rfl, fun _ => rfl⟩

/-- A failed triad runs nothing (R190). -/
theorem triadOf_failTriad : (triadOf t (failTriad t s)).failed = true ∧ (triadOf t (failTriad t s)).run = none := by
  have h : triadOf t (failTriad t s) = { triadOf t (endRun t .move none s) with
      failed := true, run := none, refresh := none, catchup := [], joining := [], rest := none, slotFrom := 0 } :=
    triadOf_setTriad t _ _
  rw [h]
  exact ⟨rfl, rfl⟩

theorem talks_restoreRings (l : List Nat) : Talks s (restoreRings l s) := by
  induction l generalizing s with
  | nil => exact .refl s
  | cons r rs ih =>
    refine (ih _).after ?_
    unfold restoreRing
    split
    · exact .refl s
    · exact ⟨rfl, fun _ => rfl⟩

/-- A restore to the mark leaves the triads, and the partition on its own (R190). -/
theorem restorePart_frame : StaysOnTriads s (restorePart p s) ∧ ∀ n, triadOf n (restorePart p s) = triadOf n s := by
  unfold restorePart
  extract_lets s1
  have h1 : Talks s s1 := talks_flushHeld p s
  split
  · exact ⟨.of_talks h1, fun n => h1.triadOf n⟩
  · rename_i x hx
    extract_lets s2 s3
    have h3 : Talks s3 (restoreRings (ringsOf p s3) s3) := talks_restoreRings s3 _
    have h2 : StaysOnTriads s1 s3 := by
      refine ⟨rfl, fun q => ?_⟩
      by_cases hq : q = p
      · subst hq
        exact (congrArg _ (look_put_self _ _ _)).trans (congrArg (Option.map Part.triad) hx).symm
      · exact congrArg _ (look_put_other _ _ hq)
    exact ⟨(StaysOnTriads.of_talks h1).trans (h2.trans (.of_talks h3)), fun n => (h3.triadOf n).trans (h1.triadOf n)⟩
end

/-- An event of Canopy writes into P0's event ring only (R29). -/
theorem talks_cnpEvent (code kind index : Nat) (sev : Option Nat) (s : State) :
    Talks s (cnpEvent code kind index sev s) := talks_raise s _

/-- The votes that are withdrawn at a restore are the voter's (R190). -/
theorem dropPassed_frame (p : Nat) (s : State) :
    StaysOnTriads s (dropPassed p s) ∧ ∀ n, triadOf n (dropPassed p s) = triadOf n s :=
  ⟨⟨rfl, fun _ => rfl⟩, fun _ => rfl⟩

/-- What a move has done before it looks for a spare: the triad is failed, and no partition has changed its triad. -/
theorem move_before (t owner : Nat) (s : State) : ∃ v, StaysOnTriads s v ∧
    (triadOf t v).failed = true ∧ (triadOf t v).run = none ∧
    move t owner s = if s.cnp.spare ≠ 0 then takeOver t s.cnp.spare owner v
      else resign (cnpEvent 0x0104 0 t (some 2) (cnpLatch 3 t (some owner) (strand t v))) := by
  obtain ⟨hrestore, htriads⟩ := restorePart_frame owner (failTriad t (abandonJoins t s))
  obtain ⟨hdrop, hdropTriads⟩ := dropPassed_frame owner (restorePart owner (failTriad t (abandonJoins t s)))
  have hevent := talks_cnpEvent 0x0106 1 owner none
    (dropPassed owner (restorePart owner (failTriad t (abandonJoins t s))))
  have htriad : triadOf t (cnpEvent 0x0106 1 owner none
      (dropPassed owner (restorePart owner (failTriad t (abandonJoins t s))))) =
      triadOf t (failTriad t (abandonJoins t s)) := (hevent.triadOf t).trans ((hdropTriads t).trans (htriads t))
  obtain ⟨hfailed, hrun⟩ := triadOf_failTriad t (abandonJoins t s)
  refine ⟨_, ?_, by rw [htriad]; exact hfailed, by rw [htriad]; exact hrun, rfl⟩
  exact ((staysOnTriads_abandonJoins t s).trans (staysOnTriads_failTriad t _)).trans
    ((hrestore.trans hdrop).trans (.of_talks hevent))

/-- The partitions of a triad are given to the spare, which is no longer the spare (R190). -/
theorem takeOver_frame {t u owner : Nat} {v : State} (hu : v.cnp.spare = u) (hne : u ≠ t) :
    triadOf t (takeOver t u owner v) = triadOf t v ∧ (takeOver t u owner v).cnp.spare = 0 ∧
      ∀ p x, look v.cnp.parts p = some x → x.triad = t →
        ((look (takeOver t u owner v).cnp.parts p).map fun y => y.triad) = some u := by
  unfold takeOver
  extract_lets old y s1
  have hgive := talks_cnpEvent 0x0104 0 (t + 16 * u) (some 2) (cnpLatch 2 t (some owner) (giveParts t u s1))
  have hstays := StaysOnTriads.of_talks hgive
  refine ⟨?_, ?_, fun p x hx hxt => ?_⟩
  · refine (hgive.triadOf t).trans ?_
    exact lookD_put_other _ _ _ hne.symm
  · refine hstays.spare.trans ?_
    exact if_pos hu
  · refine (hstays.triad p).trans ?_
    show (look (v.cnp.parts.map fun e =>
      if e.2.triad = t then (e.1, { e.2 with triad := u, stranded := false }) else e) p).map _ = _
    rw [look_map_entry (fun e => by split <;> rfl), hx]
    simp [hxt]

/-- With no spare free the partitions of the triad are FROZEN and stranded (R174, R190). -/
theorem strand_frame {t p : Nat} {x : Part} {v : State} (hx : look v.cnp.parts p = some x) (hxt : x.triad = t) :
    (look (strand t v).cnp.parts p).map (fun y => (y.triad, y.stranded)) = some (t, true) := by
  unfold strand
  dsimp only
  rw [look_map_entry (fun e => by split <;> [split <;> rfl; rfl]), hx]
  dsimp only [Option.map_some]
  rw [if_pos hxt]
  split <;> simp [hxt]

theorem resign_cnp (s : State) : (resign s).cnp = s.cnp := by
  unfold resign
  split
  · rw [gftSendAll_cnp]; rfl
  · rfl

/-! ### A replay that loses its vote (R132) -/

section
variable {r : Nat} {m : Word} {e : JRec} {s : State}

theorem isEntry_of_entryOf (h : entryOf r m s = some e) : isEntry r (genOf r s) m e = true := by
  rw [entryOf, opEntry, Option.or_eq_some_iff] at h
  rcases h with h | ⟨-, h⟩
  · exact List.find?_some h
  · exact List.find?_some h

/-- The entry of a lost payload is finished with VOTE_LOST (R132). -/
theorem payloadLost_frame (h : entryOf r m s = some e) : (payloadLost r m s).cnp = s.cnp ∧
    (entryOf r m (payloadLost r m s)).map (fun y => (y.stage, y.status, y.result)) =
      some (.finished, 0x60, some 0) := by
  have hself := isEntry_of_entryOf h
  have hgen : e.gen = genOf r s := by
    simp only [isEntry, Bool.and_eq_true, beq_iff_eq] at hself
    exact hself.1.2
  have hlost : payloadLost r m s = modEntry r (genOf r s) m (fun j =>
      { j with stage := .finished, rpl := true, status := stVoteLost, result := some 0 }) s := by
    rw [payloadLost, h, ← hgen]
  have hkeep (l : List JRec) : (l.map fun j => if isEntry r (genOf r s) m j then
      { j with stage := .finished, rpl := true, status := stVoteLost, result := some 0 } else j).find?
      (isEntry r (genOf r s) m) = (l.find? (isEntry r (genOf r s) m)).map fun j =>
        { j with stage := .finished, rpl := true, status := stVoteLost, result := some 0 } := by
    rw [List.find?_map]
    have hsame : (isEntry r (genOf r s) m ∘ fun j => if isEntry r (genOf r s) m j then
        { j with stage := .finished, rpl := true, status := stVoteLost, result := some 0 } else j) =
        isEntry r (genOf r s) m := by
      funext j
      simp only [Function.comp_apply]
      split <;> rfl
    rw [hsame]
    cases hj : l.find? (isEntry r (genOf r s) m) with
    | none => rfl
    | some j => simp [List.find?_some hj]
  rw [hlost]
  unfold modEntry
  extract_lets g
  rw [entryOf, opEntry, Option.or_eq_some_iff] at h
  split
  · rename_i hany
    refine ⟨rfl, ?_⟩
    obtain ⟨j, hj⟩ := Option.isSome_iff_exists.mp (List.find?_isSome.mpr (List.any_eq_true.mp hany))
    show ((((s.rng.orphans.map g).find? (isEntry r (genOf r s) m)).or _).map _) = _
    rw [hkeep, hj]
    rfl
  · rename_i hany
    refine ⟨rfl, ?_⟩
    have hnone : s.rng.orphans.find? (isEntry r (genOf r s) m) = none := by
      refine List.find?_eq_none.mpr fun j hj hent => hany ?_
      exact List.any_eq_true.mpr ⟨j, hj, hent⟩
    have hj : s.rng.jrnl.find? (isEntry r (genOf r s) m) = some e := by
      rcases h with h | ⟨-, h⟩
      · rw [hnone] at h
        exact nomatch h
      · exact h
    show (((s.rng.orphans.find? (isEntry r (genOf r s) m)).or
      ((s.rng.jrnl.map g).find? (isEntry r (genOf r s) m))).map _) = _
    rw [hnone, Option.none_or, hkeep, hj]
    rfl
end

theorem mem_chanSort {c : Chan} {l : List Chan} (h : c ∈ l) : c ∈ chanSort l := by
  refine List.mem_filter.mpr ⟨by cases c <;> decide, ?_⟩
  exact List.contains_iff_mem.mpr h

/-- Settles O22: `move_before` and its two ends, `payloadLost_frame`, and the rejoin at a mark. -/
theorem voteLossAndRejoin : Obligations.VoteLossAndRejoin := by
  unfold Obligations.VoteLossAndRejoin
  refine ⟨?_, ?_, ?_⟩
  · intro t n a e s ht ht0 hn hphase hvotes hspare hreplay
    refine ⟨_, exec_voteToleranceEnd_of_due ht hphase hvotes rfl hn, ?_⟩
    obtain ⟨s1, hs1, hjudge⟩ : ∃ s1 : State, (s1.cnp = { s.cnp with votes := [] }) ∧
        judgeVote { triad := t, copies := [(a, e)], since := n } { s with cnp := { s.cnp with votes := [] } } =
          move t ((emOwner e).getD 0) s1 := by
      refine ⟨_, traceVote_cnp { triad := t, copies := [(a, e)], since := n } e false
        { s with cnp := { s.cnp with votes := [] } }, ?_⟩
      have hrep : replayOf e { s with cnp := { s.cnp with votes := [] } } = none := hreplay
      simp [judgeVote, hrep, ht0]
    rw [hjudge]
    obtain ⟨v, hstays, hfailed, hrun, hmove⟩ := move_before t ((emOwner e).getD 0) s1
    have hsp : s1.cnp.spare = s.cnp.spare := by rw [hs1]
    rw [hmove, hsp]
    have hparts (p : Nat) (x : Part) (hx : look s.cnp.parts p = some x) : ∃ y, look v.cnp.parts p = some y ∧
        y.triad = x.triad := hstays.look_some (by rw [hs1]; exact hx)
    by_cases h0 : s.cnp.spare = 0
    · rw [if_neg (not_not.mpr h0)]
      have htalks := talks_cnpEvent 0x0104 0 t (some 2) (cnpLatch 3 t (some ((emOwner e).getD 0)) (strand t v))
      have htriad : triadOf t (resign (cnpEvent 0x0104 0 t (some 2)
          (cnpLatch 3 t (some ((emOwner e).getD 0)) (strand t v)))) = triadOf t v := by
        rw [triadOf, resign_cnp]
        exact htalks.triadOf t
      refine ⟨by rw [htriad]; exact hfailed, by rw [htriad]; exact hrun, fun h => absurd h0 h, fun _ p x hx hxt => ?_⟩
      obtain ⟨y, hy, hyt⟩ := hparts p x hx
      obtain ⟨z, hz, hzt⟩ := Option.map_eq_some_iff.mp (strand_frame hy (hyt.trans hxt))
      obtain ⟨w, hw, hwb⟩ := htalks.look_some hz
      rw [resign_cnp]
      refine (congrArg _ hw).trans ?_
      rw [Option.map_some, eq_of_bare hwb Part.triad fun _ => rfl, eq_of_bare hwb Part.stranded fun _ => rfl, hzt]
    · rw [if_pos h0]
      obtain ⟨htriad, hspare0, hgiven⟩ := takeOver_frame (t := t) (u := s.cnp.spare) (owner := (emOwner e).getD 0)
        (v := v) (hstays.spare.trans hsp) hspare
      refine ⟨by rw [htriad]; exact hfailed, by rw [htriad]; exact hrun, fun _ => ⟨hspare0, fun p x hx hxt => ?_⟩,
        fun h => absurd h h0⟩
      obtain ⟨y, hy, hyt⟩ := hparts p x hx
      exact hgiven p y hy (hyt.trans hxt)
  · intro t n r m a p e s ht hn hphase hvotes hentry hrpl hstage
    refine ⟨_, exec_voteToleranceEnd_of_due ht hphase hvotes rfl hn, ?_⟩
    have hrep : replayOf (.payload r m p) { s with cnp := { s.cnp with votes := [] } } = some (r, m) := by
      have he : entryOf r m { s with cnp := { s.cnp with votes := [] } } = some e := hentry
      simp [replayOf, he, hrpl, hstage]
    have hjudge : judgeVote { triad := t, copies := [(a, .payload r m p)], since := n }
        { s with cnp := { s.cnp with votes := [] } } =
        payloadLost r m (traceVote { triad := t, copies := [(a, .payload r m p)], since := n } (.payload r m p) false
          { s with cnp := { s.cnp with votes := [] } }) := by
      simp [judgeVote, hrep]
    have hentry' : entryOf r m (traceVote { triad := t, copies := [(a, .payload r m p)], since := n } (.payload r m p)
        false { s with cnp := { s.cnp with votes := [] } }) = some e := hentry
    obtain ⟨hcnp, hlost⟩ := payloadLost_frame hentry'
    rw [hjudge]
    rw [traceVote_cnp] at hcnp
    exact ⟨by rw [hcnp], by rw [hcnp], hlost⟩
  · intro t c cs s ht hjoin hmark
    have hphase : s.rst.phase = .started := by
      simp only [atMark, Bool.and_eq_true, beq_iff_eq] at hmark
      exact hmark.1.1.1
    have hheld : arbHeld s = false := by rw [arbHeld, hphase]
    have hexec : exec (.rejoinComplete t) s = .next (cnpEvent 0x0102 0 (t + 16 * chanNum c) none (cnpLatch 1 t none
        (setTriad t { triadOf t s with joining := cs, chans := chanSort (c :: (triadOf t s).chans) }
          { s with cnp := { s.cnp with bells := joinBells c ((triadOf t s).chans.headD c) s.cnp.bells } }))) := by
      show execRejoinComplete t s = _
      unfold execRejoinComplete
      dsimp only
      rw [decide_eq_true ht, hjoin, hmark]
      rfl
    have htriad : triadOf t (cnpEvent 0x0102 0 (t + 16 * chanNum c) none (cnpLatch 1 t none
        (setTriad t { triadOf t s with joining := cs, chans := chanSort (c :: (triadOf t s).chans) }
          { s with cnp := { s.cnp with bells := joinBells c ((triadOf t s).chans.headD c) s.cnp.bells } }))) =
        { triadOf t s with joining := cs, chans := chanSort (c :: (triadOf t s).chans) } := triadOf_setTriad t _ _
    refine ⟨_, hexec, ?_, fun d hd => ?_, ?_, getLsbD_latch_self _ (by decide), ?_, rfl⟩
    · rw [htriad]
      exact mem_chanSort List.mem_cons_self
    · rw [htriad]
      exact mem_chanSort (List.mem_cons_of_mem _ hd)
    · rw [htriad]
    · refine raise_osn (s := cnpLatch 1 t none (setTriad t _ { s with cnp := _ })) ?_
      exact hheld

end Sys2Proof.Machine
end

section
/-! Proof of the statement on a plain tick boundary. -/

namespace Sys2Proof.Machine

open Sys2Proof

set_option Elab.async false

/-! ### What an event leaves of each partition (R29) -/

/-- An event leaves each partition but for the lines and held writes of P0. -/
theorem look_raise {e : Ev} {s : State} {p : Nat} {x : Part} (hx : look s.cnp.parts p = some x) :
    ∃ l w, look (raise e s).cnp.parts p = some { x with lines := l, heldWrites := w } := by
  unfold raise
  dsimp only
  by_cases hp : p = 0
  · subst hp
    rw [look_alter_self, hx]
    exact ⟨_, _, rfl⟩
  · rw [look_alter_other _ _ hp, hx]
    exact ⟨_, _, rfl⟩

/-- The completeness of the pair is noted as an event of the Graft engine (R466). -/
theorem noteComplete_frame (s : State) : (noteComplete s).rng = s.rng ∧ (noteComplete s).pgk = s.pgk ∧
    (noteComplete s).bin = s.bin ∧ (noteComplete s).cnp = { s.cnp with parts := (noteComplete s).cnp.parts } ∧
    ∀ p x, look s.cnp.parts p = some x →
      ∃ l w, look (noteComplete s).cnp.parts p = some { x with lines := l, heldWrites := w } := by
  unfold noteComplete
  extract_lets r
  split
  · exact ⟨rfl, rfl, rfl, rfl, fun p x hx => ⟨_, _, hx⟩⟩
  · refine ⟨rfl, rfl, rfl, rfl, fun p x hx => ?_⟩
    exact look_raise hx

/-! ### The boundary (R127, R192, R199) -/

/-- Without a stranded partition none is given away (R190). -/
theorem giveStranded_of_none {s : State} (h : ∀ e ∈ s.cnp.parts, e.2.stranded = false) : giveStranded s = s := by
  have hfrom (t : Nat) : giveFrom s t = s := by
    have hany : (s.cnp.parts.any fun e => e.2.stranded && e.2.triad == t) = false := by
      refine List.any_eq_false.mpr fun e he => ?_
      simp [h e he]
    rw [giveFrom, hany]
    rfl
  unfold giveStranded
  generalize List.range 16 = l
  induction l with
  | nil => rfl
  | cons t ts ih => rw [List.foldl_cons, hfrom, ih]

/-- The marks and the next tick, where nothing else is due at the boundary. -/
def plainBoundary (s : State) : State := nextTick (restoreBudgets (takeAllMarks (ownMark (takeInputs s))))

theorem ownMark_frame (s : State) : ∃ g, ownMark s = { s with gft := g } := by
  unfold ownMark
  split <;> exact ⟨_, rfl⟩

/-- The parts as the marks and the budgets leave them (R197, R199). -/
theorem markedParts (s : State) : (restoreBudgets (takeAllMarks (ownMark (takeInputs s)))).cnp.parts =
    s.cnp.parts.map fun e => (e.1, { markPart { e.2 with inputs := [] } with left := e.2.budget }) := by
  obtain ⟨g, hg⟩ := ownMark_frame (takeInputs s)
  rw [hg]
  simp only [restoreBudgets, takeAllMarks, takeInputs, List.map_map]
  rfl

section
variable {s : State}

theorem boundary_of_plain (hrole : s.gft.role ≠ .active ∨ s.gft.phase ≠ .active) (hlive : standbyLive s = false)
    (hwait : s.hw.tWait = none) (hstranded : ∀ e ∈ s.cnp.parts, e.2.stranded = false) :
    boundary s = noteComplete (inputsAtTick (openTicks (plainBoundary s))) := by
  have hmirror : mirrorTick (takeInputs s) = takeInputs s := by
    have hcond : ((takeInputs s).gft.role != .active || (takeInputs s).gft.phase != .active) = true := by
      rcases hrole with h | h
      · exact Bool.or_eq_true_iff.mpr (.inl (bne_iff_ne.mpr h))
      · exact Bool.or_eq_true_iff.mpr (.inr (bne_iff_ne.mpr h))
    rw [mirrorTick, if_pos hcond]
  have hshadow : shadowTick (takeInputs s) = takeInputs s := by
    have hlive' : standbyLive (takeInputs s) = false := hlive
    rw [shadowTick, hlive']
    rfl
  have hcommand : tickCommand (takeAllMarks (ownMark (takeInputs s))) = takeAllMarks (ownMark (takeInputs s)) := by
    have hwait' : (takeAllMarks (ownMark (takeInputs s))).hw.tWait = none := by
      unfold ownMark
      split <;> exact hwait
    rw [tickCommand, dueAtTick, hwait']
  have hparts : ∀ e ∈ (restoreBudgets (takeAllMarks (ownMark (takeInputs s)))).cnp.parts, e.2.stranded = false := by
    intro e he
    rw [markedParts] at he
    obtain ⟨e', he', rfl⟩ := List.mem_map.mp he
    exact hstranded e' he'
  rw [boundary, hmirror, hshadow, hcommand, giveStranded_of_none hparts]
  rfl

/-- What the marks and the next tick change (R17, R127, R192, R197, R199). -/
theorem plainBoundary_frame (hbind : s.cnp.nextBind = none) :
    (plainBoundary s).cnp.tickNo = s.cnp.tickNo + 1 ∧ (plainBoundary s).cnp.inTail = false ∧
      (plainBoundary s).cnp.tickStart = s.cnp.tickEnd ∧
      (plainBoundary s).cnp.tickEnd = nextTickNs (baseRate s.cnp.rate) s.cnp.tickEnd ∧
      (plainBoundary s).pgk.undo = 0 ∧ (plainBoundary s).rng = takeMarks s.rng ∧ (plainBoundary s).bin = s.bin ∧
      (plainBoundary s).cnp.parts =
        s.cnp.parts.map fun e => (e.1, { markPart { e.2 with inputs := [] } with left := e.2.budget }) := by
  have hparts := markedParts s
  obtain ⟨g, hg⟩ := ownMark_frame (takeInputs s)
  rw [hg] at hparts
  have hnext : plainBoundary s = nextTick (restoreBudgets (takeAllMarks { takeInputs s with gft := g })) := by
    rw [plainBoundary, hg]
  have hbind' : (restoreBudgets (takeAllMarks { takeInputs s with gft := g })).cnp.nextBind = none := hbind
  rw [hnext]
  unfold nextTick
  rw [hbind']
  exact ⟨rfl, rfl, rfl, rfl, rfl, rfl, rfl, hparts⟩
end

/-- Settles O23: `plainBoundary_frame`, with what `noteComplete` leaves of each partition. -/
theorem tickBoundaryTakesTheMarks : Obligations.TickBoundaryTakesTheMarks := by
  unfold Obligations.TickBoundaryTakesTheMarks
  intro s hdue hrole hlive hwait hbind hstranded
  obtain ⟨hno, htail, hstart, hend, hundo, hrng, hbin, hparts⟩ := plainBoundary_frame hbind
  obtain ⟨hnrng, hnpgk, hnbin, hncnp, hnparts⟩ := noteComplete_frame (inputsAtTick (openTicks (plainBoundary s)))
  have hexec : exec .tickBoundary s = .next (noteComplete (inputsAtTick (openTicks (plainBoundary s)))) := by
    show execTickBoundary s = _
    rw [execTickBoundary, hdue, boundary_of_plain hrole hlive hwait hstranded]
    rfl
  have hrng' : (noteComplete (inputsAtTick (openTicks (plainBoundary s)))).rng = takeMarks s.rng := hnrng.trans hrng
  refine ⟨_, hexec, ?_, ?_, ?_, ?_, ?_, ?_, fun r x hr hx => ?_, fun p x hx => ?_, fun n b hb => ?_⟩
  · rw [hncnp]; exact hno
  · rw [hncnp]; exact htail
  · rw [hncnp]; exact hstart
  · rw [hncnp]; exact hend
  · rw [hnpgk]; exact hundo
  · rw [hrng']
    exact List.length_map ..
  · rw [hrng']
    refine (look_map_entry (fun e => by split <;> rfl) _ _).trans ?_
    rw [hx, Option.map_some, if_pos hr]
    rfl
  · have hlook : look (plainBoundary s).cnp.parts p =
        some { markPart { x with inputs := [] } with left := x.budget } := by
      rw [hparts, look_map_entry (by intro e; rfl), hx]
      rfl
    obtain ⟨l, w, hy⟩ := hnparts p _ hlook
    exact ⟨_, hy, rfl, rfl, rfl, rfl, rfl⟩
  · rw [hnbin]
    show look ((plainBoundary s).bin.ins.map fun e => (e.1, { e.2 with told := false })) n = _
    rw [hbin, look_map_entry (by intro e; rfl), hb]
    rfl

end Sys2Proof.Machine
end

section
/-! Proofs of the statements on the start and the end of commands of class B. -/

namespace Sys2Proof.Machine

open Sys2Proof

set_option Elab.async false

/-! ### What sending a frame leaves of the Graft engine (R463) -/

/-- The Graft engine without what the transmitters of its lanes and the page copies change. -/
def Gft.core (g : Gft) : Gft :=
  { g with laneTx := [], unacked := [], txWait := [], lanePtr := [], laneFree := [], txOut := [], toCopy := [], copied := [] }

theorem eq_of_core {α : Type} {g g' : Gft} (h : g'.core = g.core) (f : Gft → α) (hf : ∀ z, f z = f z.core) :
    f g' = f g := by
  rw [hf g', h, ← hf g]

section
variable (s : State)

theorem core_copyAfter (f : GFrame) : (copyAfter f s).core = s.gft.core := by
  unfold copyAfter
  split <;> rfl

theorem core_startFrame (lane : Nat) : (startFrame lane s).gft.core = s.gft.core := by
  unfold startFrame
  split
  · rfl
  · split
    · rfl
    · rename_i q ptr _
      dsimp only
      refine Eq.trans ?_ (core_copyAfter s (if q.seq.isSome then q.frame else filled q.frame s))
      split <;> rfl

theorem core_frameStarts : (frameStarts s).gft.core = s.gft.core :=
  (core_startFrame _ 1).trans (core_startFrame s 0)

theorem core_gftQueue (fs : List TxReq) : (gftQueue fs s).gft.core = s.gft.core := core_frameStarts _

theorem core_gftSend (b : GBody) (ls : List Nat) : (gftSend b ls s).gft.core = s.gft.core := core_gftQueue _ _

theorem core_gftSendAll (b : GBody) : (gftSendAll b s).gft.core = s.gft.core := core_gftSend _ _ _

theorem core_gftSendOne (b : GBody) : (gftSendOne b s).gft.core = s.gft.core := by
  unfold gftSendOne
  split
  · rfl
  · exact core_gftQueue _ _
end

/-- Settles O24: each of the eight rows starts its work, by `runBeside_of_ready`. -/
theorem classBCommandsStart : Obligations.ClassBCommandsStart := by
  unfold Obligations.ClassBCommandsStart
  intro c s run flash
  refine ⟨fun h => ?_, fun h => ?_, fun h => ?_, fun h => ?_, fun h => ?_, fun h => ?_, fun h => ?_, fun h => ?_⟩
  · exact runBeside_of_ready (start := startImgErase) h rfl (judgeCmd_imgErase s)
  · refine ⟨_, runBeside_of_ready (start := startImgWrite) h rfl (judgeCmd_imgWrite s), fun k => ?_⟩
    simp only [List.mem_append, List.mem_filter, Bool.not_eq_true', List.contains_eq_mem, decide_eq_false_iff_not]
    tauto
  · exact runBeside_of_ready (start := fun _ t => t) h rfl (judgeCmd_imgCheck s)
  · exact runBeside_of_ready (start := startImgHostStart) h rfl (judgeCmd_imgHostStart s)
  · exact runBeside_of_ready (start := fun _ t => t) h rfl (judgeCmd_imgFloor s)
  · have hjudge := judge_of_ready h rfl (judgeCmd_partSave s)
    have hexists : partExists (argPart c) s = true :=
      check_of_checks_ok hjudge (by simp [common, stOk, stWrongState, stDenied, stBadArg, stNotFound, stBusy, stNoResource])
        (e := (partExists (argPart c) s, stNotFound)) (by simp [common])
    obtain ⟨x, hx⟩ := Option.isSome_iff_exists.mp hexists
    refine ⟨_, runBeside_of_ready (start := startSave) h rfl (judgeCmd_partSave s), ?_, rfl⟩
    exact congrArg (Option.map fun x => x.st) (look_modPart_of (argPart c) _ s hx)
  · refine ⟨_, runBeside_of_ready (start := startRestore) h rfl (judgeCmd_partRestore s), ?_, rfl⟩
    exact congrArg (Option.map fun x => x.st) (look_setPart_self (argPart c) _ s)
  · have hexec := runBeside_of_ready (start := startPair) (kind := .pairing) h rfl (judgeCmd_gftPair s)
    have hcore : (startPair c s).gft.core =
        { s.gft with phase := .pairing, ownId := arg0 c.desc, peerId := arg1 c.desc }.core := core_gftSendOne _ _
    refine ⟨startPair c s, hexec.trans ?_, eq_of_core hcore Gft.phase fun _ => rfl, eq_of_core hcore Gft.ownId fun _ => rfl,
      eq_of_core hcore Gft.peerId fun _ => rfl, ?_⟩
    · have hhw : (startPair c s).hw = s.hw := by unfold startPair; exact gftSendOne_hw _ _
      have hclk : (startPair c s).clk = s.clk := by unfold startPair; exact gftSendOne_clk _ _
      simp only [run]
      rw [hhw, hclk]
    · unfold startPair
      exact gftSendOne_cnp _ _

/-! ### The end of a command of class B (R153, R154) -/

/-- The one command that runs beside the executor ends. -/
theorem exec_classBFinish_of_only {b : BCmd} {r : BReply} {s : State} (h : s.hw.classB = [b])
    (hmay : mayFinish b s = true) :
    exec (.classBFinish b.kind r) s =
      .next (classBEvent b.cmd (complete b.cmd (finishB b r { s with hw := { s.hw with classB := [] } }))) := by
  have hrest : ([b].filter fun x => x.kind != b.kind) = [] := by simp
  show execClassBFinish b.kind r s = _
  unfold execClassBFinish
  rw [h, List.find?_cons_of_pos (by simp)]
  dsimp only
  rw [hmay]
  unfold endB
  rw [h, hrest]
  rfl

section
variable {b : BCmd} {r : BReply} {s : State}

/-- A command that has only to wait for its unit may end. -/
theorem mayFinish_of_op (hsave : opOf b.cmd.desc ≠ 0x0108) (hpair : opOf b.cmd.desc ≠ 0x0801) : mayFinish b s = true := by
  unfold mayFinish
  split
  · rename_i h; exact absurd h hsave
  · rename_i h; exact absurd h hpair
  · rfl

/-- The pages of a write, put one after the other. -/
def putPages (base : Nat) (data : Nat → Bytes) (n : Nat) (t : Tbl Bytes) : Tbl Bytes :=
  (((List.range n).map fun i => base + i).zipIdx).foldl (fun t e => put t e.1 (data e.2)) t

theorem putPages_succ (base : Nat) (data : Nat → Bytes) (n : Nat) (t : Tbl Bytes) :
    putPages base data (n + 1) t = put (putPages base data n t) (base + n) (data n) := by
  simp [putPages, List.range_succ, List.zipIdx_append]

/-- Each page that a write names holds what was written (R155). -/
theorem look_putPages_written (base : Nat) (data : Nat → Bytes) (n : Nat) (t : Tbl Bytes) {i : Nat} (hi : i < n) :
    look (putPages base data n t) (base + i) = some (data i) := by
  induction n with
  | zero => exact absurd hi (Nat.not_lt_zero i)
  | succ n ih =>
    rw [putPages_succ]
    by_cases hin : i = n
    · subst hin
      exact look_put_self _ _ _
    · rw [look_put_other _ _ (by omega)]
      exact ih (by omega)

/-- A page that a write does not name holds what it held. -/
theorem look_putPages_other (base : Nat) (data : Nat → Bytes) (n : Nat) (t : Tbl Bytes) {k : Nat}
    (hk : ∀ i, i < n → k ≠ base + i) : look (putPages base data n t) k = look t k := by
  induction n with
  | zero => rfl
  | succ n ih =>
    rw [putPages_succ, look_put_other _ _ (hk n (by omega))]
    exact ih fun i hi => hk i (by omega)

/-- P0 from an accepted image (R144, R175). -/
theorem acceptImage_frame (slot : Nat) (h body : Bytes) (s : State) :
    (∃ x, look (acceptImage slot h body s).cnp.parts 0 = some x ∧ x.st = .ready ∧ x.en = .on ∧ x.triad = 1 ∧
      x.prio = 7) ∧ (acceptImage slot h body s).boot.running = true ∧ (acceptImage slot h body s).boot.slot = slot ∧
      (acceptImage slot h body s).boot.version = BitVec.ofNat 32 (imgVersion h) := by
  refine ⟨?_, rfl, rfl, rfl⟩
  show ∃ x, look (createP0 (imgQuota h) (imgDirty h) (imgEntry h) (padTo (imgLen h) body) s).cnp.parts 0 = some x ∧ _
  unfold createP0
  extract_lets rec_ x s1 s2 cnp
  obtain ⟨z, hz, hzb⟩ := (talks_putLoad s1 0 0x01000000 (padTo (imgLen h) body)).look_some (look_setPart_self 0 _ s)
  obtain ⟨y, hy, hyb⟩ := (talks_writeShadow { s2 with cnp := { cnp with sched := [{ part := 0, start := 0, len := 90000 }] } }
    Config.ringP0).look_some (p := 0) (x := z) hz
  have hb := hyb.trans hzb
  exact ⟨y, hy, eq_of_bare hb Part.st fun _ => rfl, eq_of_bare hb Part.en fun _ => rfl,
    eq_of_bare hb Part.triad fun _ => rfl, eq_of_bare hb Part.prio fun _ => rfl⟩

/-- Where every check of the key store holds, a test of its slots changes nothing (R427). -/
theorem testSlots_of_sound (h : ∀ k, checkHolds s.mram.root (slotOf k s) = true) (l : List Nat) : testSlots l s = s := by
  induction l with
  | nil => rfl
  | cons k ks ih => rw [testSlots, testSlot, if_pos (h k), ih]

theorem testGrove_of_sound (h : ∀ k, checkHolds s.mram.root (slotOf k s) = true) : testGrove s = s :=
  testSlots_of_sound h _

theorem testKeys_of_sound (h : ∀ k, checkHolds s.mram.root (slotOf k s) = true) (p : Nat) : testKeys p s = s := by
  rw [testKeys, testGrove_of_sound h, testSlots_of_sound h]

theorem savePstate_saves (m : Mram) : (savePstate m).saves = m.saves := by
  unfold savePstate
  split <;> rfl

/-- An output block of the host is written to its memory, whatever its length (R145). -/
theorem resOut_of_host {c : Cmd} (hc : c.ring = 2049) (out : Bytes) (x : Option Word) (s : State) :
    resOut c out x s = ({ s with mem := Memory.write s.mem (Config.bar2Base + iovaOf c.desc) out }, stOk, x) := by
  have h0 : c.ring ≠ Config.ringP0 := by rw [hc]; decide
  have h1 : c.ring = Config.ringHost := hc
  rw [resOut, writeOut, if_neg h0, if_pos h1]

/-! A partition but P0 keeps every field where the key store raises events. -/

section
variable {q : Nat} (hq : q ≠ 0)
include hq

theorem look_raise_other (e : Ev) (s : State) : look (raise e s).cnp.parts q = look s.cnp.parts q := by
  unfold raise
  dsimp only
  exact look_alter_other _ _ hq

theorem look_keyEvent_other (code slot : Nat) (bit sev : Option Nat) (s : State) :
    look (keyEvent code slot bit sev s).cnp.parts q = look s.cnp.parts q := by
  unfold keyEvent
  split <;> exact look_raise_other hq _ _

theorem look_keyEvents_other (code : Nat) (bit sev : Option Nat) (l : List Nat) (s : State) :
    look (keyEvents code bit sev l s).cnp.parts q = look s.cnp.parts q := by
  induction l generalizing s with
  | nil => rfl
  | cons k ks ih => exact (ih _).trans (look_keyEvent_other hq _ _ _ _ s)

theorem look_killSlots_other (st : KState) (l : List Nat) (s : State) :
    look (killSlots st l s).cnp.parts q = look s.cnp.parts q := by
  induction l generalizing s with
  | nil => rfl
  | cons k ks ih => exact (ih _).trans (look_keyEvents_other hq _ _ _ _ _)

theorem look_writeSlot_other (k : Nat) (x : KSlot) (s : State) :
    look (writeSlot k x s).cnp.parts q = look s.cnp.parts q := by
  unfold writeSlot
  extract_lets old n s1 s2 s3
  have h1 : look s1.cnp.parts q = look s.cnp.parts q := by
    simp only [s1]
    split
    · exact look_killSlots_other hq _ _ s
    · rfl
  have h2 : look s2.cnp.parts q = look s1.cnp.parts q := by
    simp only [s2]
    split
    · exact look_keyEvent_other hq _ _ _ _ s1
    · rfl
  exact h2.trans h1

/-- The keys of a blob go into slots of the key store (R432). -/
theorem look_placeKeys_other {p : Nat} {gsk : Bytes} (l : List Bytes) (ks : List Nat) (branch : Nat) (s : State) :
    look (placeKeys p gsk l ks branch s).cnp.parts q = look s.cnp.parts q := by
  induction l generalizing ks branch s with
  | nil => cases ks <;> rfl
  | cons c cs ih =>
    cases ks with
    | nil => rfl
    | cons k ks =>
      rw [placeKeys, ih]
      exact look_writeSlot_other hq _ _ s
end
end

section
variable {c : Cmd} {s : State} {x : Part} {g : KSlot}

/-- A save writes its blob to the host's memory, counts itself and freezes the partition (R210, R211). -/
theorem finishSave_of_fits (hc : c.ring = 2049) (hx : look s.cnp.parts (argPart c) = some x)
    (hsound : ∀ k, checkHolds s.mram.root (slotOf k s) = true) (hgrove : groveBranch s = some g)
    (hfits : blobFits c s = true) : ∃ m, finishSave c s =
      ({ modPart (argPart c) (fun y => { y with st := .frozen })
          { s with mram := savePstate { s.mram with saves := s.mram.saves + 1 } } with mem := m },
        stOk, some (BitVec.ofNat 32 (blobLen (argPart c) x s))) := by
  unfold finishSave
  dsimp only
  rw [testKeys_of_sound hsound, partOf, hx, hgrove]
  dsimp only
  rw [hfits, resOut_of_host hc]
  exact ⟨_, rfl⟩

/-- A save whose blob has become too long freezes the partition and answers NO_RESOURCE (R211). -/
theorem finishSave_of_not_fits (hx : look s.cnp.parts (argPart c) = some x)
    (hsound : ∀ k, checkHolds s.mram.root (slotOf k s) = true) (hgrove : groveBranch s = some g)
    (hfits : blobFits c s = false) :
    finishSave c s = (modPart (argPart c) (fun y => { y with st := .frozen }) s, stNoResource, none) := by
  unfold finishSave
  dsimp only
  rw [testKeys_of_sound hsound, partOf, hx, hgrove]
  dsimp only
  rw [hfits]
  rfl

/-- A restore whose blob is not of this format leaves no partition (R212). -/
theorem finishRestore_of_bad_header (hsound : ∀ k, checkHolds s.mram.root (slotOf k s) = true)
    (hgrove : groveBranch s = some g) (hhead : headerOk c.block = false) :
    finishRestore c s = ({ s with cnp := { s.cnp with parts := del s.cnp.parts (argPart c) } }, stBadArg, none) := by
  unfold finishRestore
  dsimp only
  rw [testGrove_of_sound hsound, hgrove]
  dsimp only
  rw [hhead]
  rfl

/-- A restore whose blob opens and is accepted brings the partition back (R212). -/
theorem finishRestore_of_sound {plain : Bytes} (hsound : ∀ k, checkHolds s.mram.root (slotOf k s) = true)
    (hgrove : groveBranch s = some g) (hhead : headerOk c.block = true)
    (htag : some (leAt c.block 24 8) = groveTag s)
    (hopen : gcmOpen (groveSeal g) ((c.block.drop 32).take 12) (c.block.take 64) (c.block.drop 64) = some plain)
    (hstatus : restoreStatus (openBlob (argPart c) plain) plain (groveSeal g)
      { s with cnp := { s.cnp with parts := del s.cnp.parts (argPart c) } } = stOk) :
    finishRestore c s = (restored (argPart c) (openBlob (argPart c) plain) (groveSeal g)
      { s with cnp := { s.cnp with parts := del s.cnp.parts (argPart c) } }, stOk, none) := by
  have hsealed : openSealed (groveSeal g) c.block = some plain := hopen
  unfold finishRestore
  dsimp only
  rw [testGrove_of_sound hsound, hgrove]
  dsimp only
  rw [hhead, if_neg (show ¬ (!true) = true by decide), if_neg (not_not.mpr htag), hsealed]
  dsimp only
  rw [if_neg (not_not.mpr hstatus)]
  rfl
end

/-- Settles O25: each opcode's equation of `finishB`. -/
theorem classBCommandsEnd : Obligations.ClassBCommandsEnd := by
  unfold Obligations.ClassBCommandsEnd
  constructor
  · intro b r s hb v ends slot
    have hends (hsave : opOf b.cmd.desc ≠ 0x0108) (hpair : opOf b.cmd.desc ≠ 0x0801) {u : State} {st : Nat}
        {x : Option Word} (h : finishB b r v = (u, st, x)) : ends u st x := by
      have hexec := exec_classBFinish_of_only (r := r) hb (mayFinish_of_op hsave hpair)
      rw [h] at hexec
      exact hexec
    refine ⟨fun hop hok => ?_, fun hop hok => ?_, fun hop hok => ?_, fun hop hok => ?_, fun hop hbad => ?_,
      fun hop hok hans hwhole hpass => ?_, fun hop hok hans hbad => ?_, fun hop => ?_, fun hop hpass => ?_⟩
    · refine hends (by rw [hop]; decide) (by rw [hop]; decide) ?_
      rw [finishB, hop]
      exact if_pos hok
    · refine ⟨setFlash slot { flashOf slot v with erased := false } v,
        hends (by rw [hop]; decide) (by rw [hop]; decide) ?_⟩
      rw [finishB, hop]
      exact if_neg (by rw [hok]; decide)
    · refine ⟨{ flashOf slot v with
          partialWrite := (flashOf slot v).partialWrite.filter fun k => !(writtenPages b.cmd).contains k
          pages := putPages (arg1 b.cmd.desc / 256) (fun i => padTo 256 (b.cmd.block.drop (256 * i)))
            (lenOf b.cmd.desc / 256) (flashOf slot v).pages },
        hends (by rw [hop]; decide) (by rw [hop]; decide) ?_, fun k => ?_, fun i hi => ?_, fun k hk => ?_⟩
      · rw [finishB, hop]
        exact if_pos hok
      · simp only [List.mem_filter, Bool.not_eq_true', List.contains_eq_mem, decide_eq_false_iff_not]
        rfl
      · dsimp only
        exact look_putPages_written _ _ _ _ hi
      · dsimp only
        refine look_putPages_other _ _ _ _ fun i hi hki => hk ?_
        rw [hki]
        exact List.mem_map.mpr ⟨i, List.mem_range.mpr hi, rfl⟩
    · refine hends (by rw [hop]; decide) (by rw [hop]; decide) ?_
      rw [finishB, hop]
      exact if_neg (by rw [hok]; decide)
    · refine hends (by rw [hop]; decide) (by rw [hop]; decide) ?_
      rw [finishB, hop]
      exact if_pos (by rcases hbad with h | h <;> simp [h])
    · refine hends (by rw [hop]; decide) (by rw [hop]; decide) ?_
      rw [finishB, hop]
      have hslot : slotPasses slot r.image v = true := by
        show (!slotBroken slot s && imagePasses (slotHeader slot r.image s) (slotBody slot r.image s) s.mram) = true
        rw [hwhole, hpass]
        rfl
      show finishImgCheck b.cmd r v = _
      rw [finishImgCheck, hok, hans, hslot]
      rfl
    · refine hends (by rw [hop]; decide) (by rw [hop]; decide) ?_
      rw [finishB, hop]
      have hslot : slotPasses slot r.image v = false := by
        show (!slotBroken slot s && imagePasses (slotHeader slot r.image s) (slotBody slot r.image s) s.mram) = false
        rcases hbad with h | h <;> simp [h]
      show finishImgCheck b.cmd r v = _
      rw [finishImgCheck, hok, hans, hslot]
      rfl
    · refine ⟨(finishImgFloor b.cmd v).1, hends (by rw [hop]; decide) (by rw [hop]; decide) ?_, ?_, ?_, ?_⟩
      · rw [finishB, hop]
        rfl
      · rfl
      · exact List.length_append ..
      · rfl
    · obtain ⟨⟨x, hx, hst, hen, htriad, hprio⟩, hrunning, hslot, hversion⟩ :=
        acceptImage_frame 2 (stagedHeader s) (stagedBody s) { v with boot := { v.boot with hostPending := false } }
      refine ⟨_, x, hends (by rw [hop]; decide) (by rw [hop]; decide) ?_, hx, hst, hen, htriad, hprio, hrunning, hslot,
        hversion⟩
      rw [finishB, hop]
      exact if_pos hpass
  · intro b r s hb p ends sound
    have hends (hmay : mayFinish b s = true) {u : State} {st : Nat} {x : Option Word}
        (h : finishB b r { s with hw := { s.hw with classB := [] } } = (u, st, x)) : ends u st x := by
      have hexec := exec_classBFinish_of_only (r := r) hb hmay
      rw [h] at hexec
      exact hexec
    have hsaveEnds (hop : opOf b.cmd.desc = 0x0108) (hrun : stillRunning p s = false) : mayFinish b s = true := by
      have hrun' : stillRunning (argPart b.cmd) s = false := hrun
      rw [mayFinish, hop]
      show (!stillRunning (argPart b.cmd) s) = true
      rw [hrun']
      rfl
    have hrestoreEnds (hop : opOf b.cmd.desc = 0x0109) : mayFinish b s = true := by
      rw [mayFinish, hop]
      rfl
    have hsaveFinish (hop : opOf b.cmd.desc = 0x0108) : finishB b r { s with hw := { s.hw with classB := [] } } =
        finishSave b.cmd { s with hw := { s.hw with classB := [] } } := by
      rw [finishB, hop]
      rfl
    have hrestoreFinish (hop : opOf b.cmd.desc = 0x0109) : finishB b r { s with hw := { s.hw with classB := [] } } =
        finishRestore b.cmd { s with hw := { s.hw with classB := [] } } := by
      rw [finishB, hop]
      rfl
    have hsoundv (hsound : sound) (k : Nat) : checkHolds ({ s with hw := { s.hw with classB := [] } } : State).mram.root
        (slotOf k { s with hw := { s.hw with classB := [] } }) = true := hsound k
    refine ⟨fun x g hop hring hx hsound hgrove hrun hfits => ?_, fun x g hop hx hsound hgrove hrun hfits => ?_,
      fun g hop hsound hgrove hhead => ?_, fun g plain hp hop hsound hgrove hhead htag hopen hstatus => ?_,
      fun hop hpeer hsince => ?_⟩
    · obtain ⟨m, hsave⟩ := finishSave_of_fits (c := b.cmd) (s := { s with hw := { s.hw with classB := [] } }) hring hx
        (hsoundv hsound) hgrove hfits
      exact ⟨_, hends (hsaveEnds hop hrun) ((hsaveFinish hop).trans hsave), look_modPart_of _ _ _ hx,
        savePstate_saves _, rfl⟩
    · have hsave := finishSave_of_not_fits (c := b.cmd) (s := { s with hw := { s.hw with classB := [] } }) hx
        (hsoundv hsound) hgrove hfits
      exact ⟨_, hends (hsaveEnds hop hrun) ((hsaveFinish hop).trans hsave), look_modPart_of _ _ _ hx, rfl, rfl⟩
    · exact ⟨_, hends (hrestoreEnds hop)
        ((hrestoreFinish hop).trans (finishRestore_of_bad_header (hsoundv hsound) hgrove hhead)),
        look_del_self _ _, rfl, rfl, rfl⟩
    · exact ⟨_, hends (hrestoreEnds hop)
        ((hrestoreFinish hop).trans (finishRestore_of_sound (hsoundv hsound) hgrove hhead htag hopen hstatus)),
        (look_placeKeys_other hp _ _ _ _).trans (look_put_self _ _ _), rfl⟩
    · have hmay : mayFinish b s = true := by
        rw [mayFinish, hop]
        show (s.gft.peer.isSome || decide (b.since + 9000000000 ≤ s.clk.now)) = true
        rw [decide_eq_true hsince, Bool.or_true]
      refine ⟨pairFailed { s with hw := { s.hw with classB := [] } }, hends hmay ?_, ?_, ?_, ?_⟩
      · rw [finishB, hop]
        show finishPair b.cmd { s with hw := { s.hw with classB := [] } } = _
        rw [finishPair, hpeer]
        rfl
      · rfl
      · rfl
      · rfl

end Sys2Proof.Machine
end

section
/-! Proof of the statements on ports: their commands and links, preemption and pause. -/

namespace Sys2Proof.Machine

open Sys2Proof

set_option Elab.async false

variable {n : Nat} {s t : State}

/-- A row that is named and whose condition holds takes its effect. -/
theorem named_act {a b : Bool} {s u : State} (ha : a = true) (hb : b = true) : named a (act b s u) = .next u := by
  rw [ha, hb]
  rfl

/-! ### Ports and queues -/

@[simp] theorem portOf_setPort (n : Nat) (x : Port) (s : State) : portOf n (setPort n x s) = x := lookD_put_self _ _ _ _

@[simp] theorem queueAt_setPort (q n : Nat) (x : Port) (s : State) : queueAt q (setPort n x s) = queueAt q s := rfl

theorem portOf_congr (h : t.prt.ports = s.prt.ports) (n : Nat) : portOf n t = portOf n s := by
  rw [portOf, portOf, h]

theorem queueAt_congr (h : t.sw.queues = s.sw.queues) (q : Nat) : queueAt q t = queueAt q s := by
  rw [queueAt, queueAt, h]

@[simp] theorem queueAt_setQueue (q : Nat) (x : Queue) (s : State) : queueAt q (setQueue q x s) = x :=
  lookD_put_self _ _ _ _

theorem queueAt_setQueue_other {k q : Nat} (x : Queue) (s : State) (h : k ≠ q) :
    queueAt k (setQueue q x s) = queueAt k s := lookD_put_other _ _ _ h

/-! ### The end of the copies of frames (R233, R268) -/

/-- The ends of sends finish operations of their rings. -/
theorem finishSends_frame (l : List SendOp) (s : State) : ∃ r, finishSends l s = { s with rng := r } := by
  induction l generalizing s with
  | nil => exact ⟨_, rfl⟩
  | cons o os ih =>
    obtain ⟨r, hr⟩ := ih (finishOp o.ring o.gen o.seq (sendStatus o) (some (sendResult o)) false s)
    exact ⟨r, hr⟩

theorem settle_frame (m : FMeta) (f : Fate) (s : State) : ∃ d g r, settle m f s =
    { s with
      sw := { s.sw with sends := d }
      gse := { s.gse with pubs := g }
      rng := r } := by
  unfold settle
  dsimp only
  obtain ⟨r, hr⟩ := finishSends_frame
    ((s.sw.sends.map fun o => if isSend m o then sendFate f o else o).filter fun o => o.left == 0) _
  rw [hr]
  exact ⟨_, _, _, rfl⟩

@[simp] theorem settle_prt (m : FMeta) (f : Fate) (s : State) : (settle m f s).prt = s.prt := by
  obtain ⟨d, g, r, h⟩ := settle_frame m f s
  rw [h]

@[simp] theorem settle_queues (m : FMeta) (f : Fate) (s : State) : (settle m f s).sw.queues = s.sw.queues := by
  obtain ⟨d, g, r, h⟩ := settle_frame m f s
  rw [h]

@[simp] theorem settle_clk (m : FMeta) (f : Fate) (s : State) : (settle m f s).clk = s.clk := by
  obtain ⟨d, g, r, h⟩ := settle_frame m f s
  rw [h]

/-! ### Flushed queues (R268) -/

theorem flushFrames_keeps (q : Nat) (l : List Held) (s : State) : (flushFrames q l s).prt = s.prt ∧
    (flushFrames q l s).clk = s.clk ∧ (flushFrames q l s).sw.queues = s.sw.queues := by
  induction l generalizing s with
  | nil => exact ⟨rfl, rfl, rfl⟩
  | cons h hs ih =>
    obtain ⟨h1, h2, h3⟩ := ih (settle h.info .down (countQueue q 7 s))
    exact ⟨h1.trans (settle_prt ..), h2.trans (settle_clk ..), h3.trans (settle_queues ..)⟩

theorem flushQueue_keeps (q : Nat) (s : State) :
    (flushQueue q s).prt = s.prt ∧ (flushQueue q s).clk = s.clk := by
  unfold flushQueue
  dsimp only
  split
  · exact ⟨rfl, rfl⟩
  · obtain ⟨h1, h2, -⟩ := flushFrames_keeps q (queueAt q s).frames (setQueue q { queueAt q s with frames := [] } s)
    exact ⟨h1, h2⟩

theorem flushQueue_empties (q : Nat) (s : State) : (queueAt q (flushQueue q s)).frames = [] := by
  unfold flushQueue
  dsimp only
  split
  · exact List.isEmpty_iff.mp ‹_›
  · rw [queueAt_congr (flushFrames_keeps ..).2.2, queueAt_setQueue]

theorem flushQueue_other {k q : Nat} (h : k ≠ q) (s : State) : queueAt k (flushQueue q s) = queueAt k s := by
  unfold flushQueue
  dsimp only
  split
  · rfl
  · rw [queueAt_congr (flushFrames_keeps ..).2.2, queueAt_setQueue_other _ _ h]

/-- A flush of several queues leaves an empty queue empty. -/
theorem flushQueues_keeps_empty (f : Nat → Nat) (l : List Nat) {q : Nat} (s : State) (h : (queueAt q s).frames = []) :
    (queueAt q (l.foldl (fun t k => flushQueue (f k) t) s)).frames = [] := by
  induction l generalizing s with
  | nil => exact h
  | cons k ks ih =>
    refine ih _ ?_
    by_cases hk : q = f k
    · rw [hk]
      exact flushQueue_empties _ _
    · rw [flushQueue_other hk, h]

theorem flushQueues_empties (f : Nat → Nat) {l : List Nat} {k : Nat} (hk : k ∈ l) (s : State) :
    (queueAt (f k) (l.foldl (fun t k => flushQueue (f k) t) s)).frames = [] := by
  induction l generalizing s with
  | nil => exact absurd hk List.not_mem_nil
  | cons j js ih =>
    rcases List.mem_cons.mp hk with rfl | hk
    · exact flushQueues_keeps_empty f js _ (flushQueue_empties _ _)
    · exact ih hk _

theorem flushQueues_keeps (f : Nat → Nat) (l : List Nat) (s : State) :
    (l.foldl (fun t k => flushQueue (f k) t) s).prt = s.prt ∧ (l.foldl (fun t k => flushQueue (f k) t) s).clk = s.clk := by
  induction l generalizing s with
  | nil => exact ⟨rfl, rfl⟩
  | cons k ks ih => exact ⟨(ih _).1.trans (flushQueue_keeps ..).1, (ih _).2.trans (flushQueue_keeps ..).2⟩

@[simp] theorem flushPort_prt (n : Nat) (s : State) : (flushPort n s).prt = s.prt := (flushQueues_keeps ..).1

@[simp] theorem flushPort_clk (n : Nat) (s : State) : (flushPort n s).clk = s.clk := (flushQueues_keeps ..).2

theorem flushPort_empties (n : Nat) (s : State) {q : Nat} (hq : q < 8) :
    (queueAt (n * 8 + q) (flushPort n s)).frames = [] :=
  flushQueues_empties (fun q => n * 8 + q) (List.mem_range.mpr hq) s

/-! ### The end of a link (R226, R248) -/

/-- The end of a wait in a pause leaves the port but for that wait (R238). -/
theorem endWait_port (n : Nat) (s : State) : portOf n (endWait n s) = { portOf n s with pauseWait := none } := by
  unfold endWait
  dsimp only
  split
  next t h => exact portOf_setPort n { portOf n s with pauseWait := none } s
  next h =>
    conv_rhs => rw [← h]

/-- The copies that the MAC holds end, counted one by one. -/
theorem aborts_keeps (n : Nat) (l : List TxFrame) (s : State) :
    (l.foldl (fun t x => settle x.held.info .down (countPort n 25 t)) s).prt.ports = s.prt.ports ∧
    (l.foldl (fun t x => settle x.held.info .down (countPort n 25 t)) s).clk = s.clk ∧
    (l.foldl (fun t x => settle x.held.info .down (countPort n 25 t)) s).sw.queues = s.sw.queues := by
  induction l generalizing s with
  | nil => exact ⟨rfl, rfl, rfl⟩
  | cons x xs ih =>
    obtain ⟨h1, h2, h3⟩ := ih (settle x.held.info .down (countPort n 25 s))
    rw [List.foldl_cons]
    have hports : (settle x.held.info .down (countPort n 25 s)).prt.ports = s.prt.ports := by rw [settle_prt]; rfl
    exact ⟨h1.trans hports, h2.trans (settle_clk ..), h3.trans (settle_queues ..)⟩

theorem abortTx_port (n : Nat) (s : State) : portOf n (abortTx n s) = { portOf n s with tx := none, rest := none } := by
  unfold abortTx
  dsimp only
  rw [portOf_congr (aborts_keeps ..).1, portOf_setPort]

/-- The latch, the count and the event of a lost link leave the states of the ports (R225). -/
theorem portNote_ports (code n : Nat) (sev : Option Nat) (s : State) :
    (portNote code n sev (latchLink n (countPort n 36 s))).prt.ports = s.prt.ports := rfl

theorem portNote_linkEvt (code : Nat) {n : Nat} (hn : n < 48) (sev : Option Nat) (s : State) :
    (portNote code n sev (latchLink n s)).prt.linkEvt.getLsbD n = true := getLsbD_latch_self _ hn

theorem portNote_queues (code n : Nat) (sev : Option Nat) (s : State) :
    (portNote code n sev (latchLink n (countPort n 36 s))).sw.queues = s.sw.queues := rfl

theorem memberDown_keeps (g m : Nat) (x : PathGrp) (s : State) :
    (memberDown g m x s).prt = s.prt ∧ (memberDown g m x s).sw.queues = s.sw.queues := by
  unfold memberDown
  dsimp only
  split <;> exact ⟨rfl, rfl⟩

/-- A change of a link is noted in the path group of its port (R271). -/
theorem pathLink_keeps (n : Nat) (up : Bool) (s : State) :
    (pathLink n up s).prt = s.prt ∧ (pathLink n up s).sw.queues = s.sw.queues := by
  unfold pathLink
  split
  · exact ⟨rfl, rfl⟩
  · split
    · exact ⟨rfl, rfl⟩
    · exact memberDown_keeps _ _ _ _

/-- A link that goes down is DOWN; one that was UP leaves nothing to send and is latched (R225, R226, R248). -/
theorem linkGone_spec {u : State} (hn : n < 48) (cause : Nat) (h : linkGone n cause s = u) :
    (portOf n u).link = .down ∧ ((portOf n s).link = .up → (portOf n u).downCause = cause ∧ (portOf n u).tx = none ∧
      u.prt.linkEvt.getLsbD n = true ∧ ∀ q, q < 8 → (queueAt (n * 8 + q) u).frames = []) := by
  unfold linkGone at h
  dsimp only at h
  split at h
  next hdown => exact h ▸ ⟨hdown, fun hup => absurd (hdown.symm.trans hup) (by decide)⟩
  next hdown =>
    split at h
    next hup =>
      subst h
      generalize hs1 : abortTx n (endWait n s) = s1
      have htx : (portOf n s1).tx = none := by rw [← hs1, abortTx_port]
      generalize hs2 : setPort n (downPort cause s.clk.frc (portOf n s1)) s1 = s2
      generalize hs3 : portNote 0x0402 n (lossSev n cause s) (latchLink n (countPort n 36 (flushPort n s2))) = s3
      obtain ⟨hprt, hqueues⟩ := pathLink_keeps n false s3
      have hports : s3.prt.ports = s2.prt.ports := by rw [← hs3, portNote_ports, flushPort_prt]
      have hport : portOf n (pathLink n false s3) = downPort cause s.clk.frc (portOf n s1) := by
        rw [portOf_congr (congrArg Prt.ports hprt), portOf_congr hports, ← hs2, portOf_setPort]
      refine ⟨by rw [hport]; rfl, fun _ => ⟨by rw [hport]; rfl, by rw [hport]; exact htx, ?_, fun q hq => ?_⟩⟩
      · rw [hprt, ← hs3]
        exact portNote_linkEvt _ hn _ _
      · rw [queueAt_congr hqueues, ← hs3, queueAt_congr (portNote_queues ..)]
        exact flushPort_empties n s2 hq
    next hup => exact h ▸ ⟨by rw [portOf_setPort]; rfl, fun h => absurd h hup⟩

/-- The loss of a link leaves the enable and the configuration of its port (R225). -/
theorem linkGone_setup (n cause : Nat) (s : State) :
    (portOf n (linkGone n cause s)).link = .down ∧ (portOf n (linkGone n cause s)).en = (portOf n s).en ∧
    (portOf n (linkGone n cause s)).cfg = (portOf n s).cfg := by
  unfold linkGone
  dsimp only
  split
  next hdown => exact ⟨hdown, rfl, rfl⟩
  · split
    · generalize hs1 : abortTx n (endWait n s) = s1
      have hport1 : portOf n s1 = { portOf n s with pauseWait := none, tx := none, rest := none } := by
        rw [← hs1, abortTx_port, endWait_port]
      generalize hs2 : setPort n (downPort cause s.clk.frc (portOf n s1)) s1 = s2
      generalize hs3 : portNote 0x0402 n (lossSev n cause s) (latchLink n (countPort n 36 (flushPort n s2))) = s3
      have hports : s3.prt.ports = s2.prt.ports := by rw [← hs3, portNote_ports, flushPort_prt]
      rw [portOf_congr (congrArg Prt.ports (pathLink_keeps n false s3).1), portOf_congr hports, ← hs2, portOf_setPort,
        hport1]
      exact ⟨rfl, rfl, rfl⟩
    · rw [portOf_setPort]
      exact ⟨rfl, rfl, rfl⟩

theorem portOf_countPort (n i : Nat) (s : State) : portOf n (countPort n i s) = portOf n s := rfl

theorem dropRest_port_en (n : Nat) (s : State) : (portOf n (dropRest n s)).en = (portOf n s).en := by
  unfold dropRest
  dsimp only
  split
  · rw [portOf_congr (congrArg Prt.ports (settle_prt ..)), portOf_countPort, portOf_setPort]
  · rfl

theorem dropDeferred_port_en (n : Nat) (s : State) : (portOf n (dropDeferred n s)).en = (portOf n s).en := by
  unfold dropDeferred
  dsimp only
  split
  · split
    · rw [portOf_congr (congrArg Prt.ports (settle_prt ..)), portOf_countPort, portOf_setPort]
    · rfl
  · rfl

/-! ### The commands (R149, R223, R230, R243, R244) -/

section
variable {c : Cmd}

/-- PORT_ENABLE follows the enable rule (R149). -/
theorem effPortEnable_eq (c : Cmd) (s : State) : effPortEnable c s =
    (match (portOf (arg0 c.desc) s).en with
      | .off => (setPort (arg0 c.desc) { portOf (arg0 c.desc) s with
          en := .on, held := false
          link := if s.clk.frc < (portOf (arg0 c.desc) s).resetUntil then .down else .training
          since := s.clk.frc } s, stOk, none)
      | .stopping => (setPort (arg0 c.desc) { portOf (arg0 c.desc) s with held := true } s, stDeferred, none)
      | .on => (setPort (arg0 c.desc) (portOf (arg0 c.desc) s) s, stOk, none)) := by
  unfold effPortEnable
  dsimp only
  cases hen : (portOf (arg0 c.desc) s).en with
  | off =>
    dsimp only
    rw [if_pos (by rfl), startPort, inPortReset]
    simp only [decide_eq_true_eq]
    rfl
  | stopping =>
    rw [if_neg (by decide)]
    rfl
  | on =>
    have hport : ({ portOf (arg0 c.desc) s with en := .on } : Port) = portOf (arg0 c.desc) s := by rw [← hen]
    rw [if_neg (by decide)]
    show (setPort _ ({ portOf (arg0 c.desc) s with en := .on } : Port) s, _, _) = _
    rw [hport]
    rfl

/-- PORT_DISABLE of a port that is ON drops what it would still send (R149, R230). -/
theorem effPortDisable_spec (c : Cmd) (s : State) : ∃ u, effPortDisable c s = (u, stOk, none) ∧
    ((portOf (arg0 c.desc) s).en = .on → (portOf (arg0 c.desc) u).en = .stopping ∧
      ∀ q, q < 8 → (queueAt (arg0 c.desc * 8 + q) u).frames = []) ∧
    ((portOf (arg0 c.desc) s).en = .stopping →
      (portOf (arg0 c.desc) u).en = .stopping ∧ (portOf (arg0 c.desc) u).held = false) ∧
    ((portOf (arg0 c.desc) s).en = .off → (portOf (arg0 c.desc) u).en = .off) := by
  unfold effPortDisable
  dsimp only
  refine ⟨_, rfl, fun hen => ?_, fun hen => ?_, fun hen => ?_⟩
  · rw [hen, if_pos (by rfl)]
    refine ⟨?_, fun q hq => flushPort_empties _ _ hq⟩
    rw [portOf_congr (congrArg Prt.ports (flushPort_prt ..)), dropRest_port_en, dropDeferred_port_en, endWait_port,
      portOf_setPort]
    rfl
  · rw [hen, if_neg (by decide), portOf_setPort]
    exact ⟨rfl, rfl⟩
  · rw [hen, if_neg (by decide), portOf_setPort]
    rfl

/-- PORT_RESET clears the port and holds its pulse (R244). -/
theorem effPortReset_spec (c : Cmd) (s : State) (hen : (portOf (arg0 c.desc) s).en ≠ .stopping) : ∃ u x,
    effPortReset c s = (u, stOk, none) ∧ portOf (arg0 c.desc) u = x ∧ x.link = .down ∧
    x.filter = [] ∧ x.tsq = [] ∧ x.paused = false ∧ x.tx = none ∧ x.rest = none ∧
    x.en = (portOf (arg0 c.desc) s).en ∧ x.cfg = (portOf (arg0 c.desc) s).cfg ∧
    x.resetUntil = s.clk.frc + 1000 ∧ ∀ q, q < 8 → (queueAt (arg0 c.desc * 8 + q) u).frames = [] := by
  obtain ⟨hlink, hsame, hcfg⟩ := linkGone_setup (arg0 c.desc) 3 (narrowRecord 12 (arg0 c.desc) 5 s)
  unfold effPortReset
  dsimp only
  generalize linkGone (arg0 c.desc) 3 (narrowRecord 12 (arg0 c.desc) 5 s) = s1 at hlink hsame hcfg ⊢
  generalize hf : noteFifo (arg0 c.desc) s1 = f
  have hfport : portOf (arg0 c.desc) f = portOf (arg0 c.desc) s1 := by rw [← hf]; rfl
  generalize hs2 : flushPort (arg0 c.desc)
    (abortTx (arg0 c.desc) { f with sw := { f.sw with store := del f.sw.store (arg0 c.desc) } }) = s2
  have hport : portOf (arg0 c.desc) s2 = { portOf (arg0 c.desc) s1 with tx := none, rest := none } := by
    rw [← hs2, portOf_congr (congrArg Prt.ports (flushPort_prt ..)), abortTx_port, ← hfport]
    rfl
  have hstop : ((portOf (arg0 c.desc) s2).en == Enable.stopping) = false := by
    rw [hport]
    exact beq_false_of_ne (hsame.trans_ne hen)
  rw [hstop, if_neg (by decide)]
  refine ⟨_, _, rfl, portOf_setPort .., ?_, rfl, rfl, rfl, ?_, ?_, ?_, ?_, rfl, fun q hq => ?_⟩
  · rw [hport]
    exact hlink
  · rw [hport]
  · rw [hport]
  · rw [hport]
    exact hsame
  · rw [hport]
    exact hcfg
  · rw [queueAt_setPort, ← hs2]
    exact flushPort_empties _ _ hq
end

/-! ### The rows of a link -/

theorem inPortReset_of_over (h : (portOf n s).resetUntil ≤ s.clk.frc) : inPortReset n s = false :=
  decide_eq_false (Nat.not_lt.mpr h)

/-- Settles O26: each command by its effect, and each row of a link by its condition. -/
theorem portCommandsAndLinks : Obligations.PortCommandsAndLinks := by
  unfold Obligations.PortCommandsAndLinks
  constructor
  · intro c s n
    refine ⟨fun h => ?_, fun h => ?_, fun h => ?_, fun h => ?_, fun h hen => ?_⟩
    · exact runNow_of_ready h rfl (judgeCmd_portConfig s)
    · exact runNow_of_ready h rfl (judgeCmd_portFilter s)
    · have hexec : exec (.portEnable c) s = .next (complete c (effPortEnable c s)) :=
        runNow_of_ready h rfl (judgeCmd_portEnable s)
      exact hexec.trans (congrArg (fun u => Host.Outcome.next (complete c u)) (effPortEnable_eq c s))
    · have hexec : exec (.portDisable c) s = .next (complete c (effPortDisable c s)) :=
        runNow_of_ready h rfl (judgeCmd_portDisable s)
      obtain ⟨u, hu, hspec⟩ := effPortDisable_spec c s
      exact ⟨u, by rw [hexec, hu], hspec⟩
    · have hexec : exec (.portReset c) s = .next (complete c (effPortReset c s)) :=
        runNow_of_ready h rfl (judgeCmd_portReset s)
      obtain ⟨u, x, hu, rfl, hspec⟩ := effPortReset_spec c s hen
      exact ⟨u, by rw [hexec, hu], hspec⟩
  · intro n s hn
    refine ⟨fun hen hlink hover => ?_, fun hlink hover haneg => ?_, fun hlink => ?_, fun hlink hsince hheld hgroup => ?_,
      ?_, fun sp full hlink haneg hpcs => ⟨?_, ?_⟩⟩
    · exact named_act (decide_eq_true hn) (by simp [hen, hlink, inPortReset_of_over hover])
    · have hmay : (!pAneg (portOf n s) || (portOf n s).anegDone) = true := by
        rcases haneg with h | h <;> simp [h]
      have hback (t : State) : (sdclkBack t).prt = t.prt ∧ (sdclkBack t).sw = t.sw := by
        unfold sdclkBack
        split <;> exact ⟨rfl, rfl⟩
      refine ⟨_, (fresh s).1, named_act (decide_eq_true hn) (by simp [hlink, inPortReset_of_over hover, hmay]), ?_,
        (hback _).2⟩
      rw [portOf_congr (congrArg Prt.ports (hback _).1), portOf_setPort]
    · exact named_act (decide_eq_true hn) (by simp [hlink])
    · refine ⟨portEvent 0x0401 n (latchLink n (setPort n (upPort s.clk.frc (portOf n s)) s)), ?_, ?_, ?_, ?_, ?_⟩
      · have hnone : groupOf n (portEvent 0x0401 n (latchLink n (setPort n (upPort s.clk.frc (portOf n s)) s))) = none :=
          hgroup
        refine (named_act (decide_eq_true hn) (by simp [hlink, hsince])).trans ?_
        rw [pathLink, hnone]
      · exact congrArg Port.link (portOf_setPort n (upPort s.clk.frc (portOf n s)) s)
      · exact getLsbD_latch_self _ hn
      · exact raise_osn (s := latchLink n (setPort n (upPort s.clk.frc (portOf n s)) s)) hheld
      · intro hpre
        refine (congrArg Port.verify (portOf_setPort n (upPort s.clk.frc (portOf n s)) s)).trans ?_
        unfold upPort
        dsimp only
        unfold mergeOn
        rw [hpre]
        rfl
    · have hspec := linkGone_spec (s := s) hn 0 rfl
      exact ⟨_, named_act (decide_eq_true hn) rfl, hspec⟩
    · have hok : anegOk (portOf n s) n sp true true = true := by simp [anegOk, hpcs]
      refine (named_act (decide_eq_true hn) (by simp [hlink, haneg])).trans ?_
      rw [if_pos hok, if_pos hpcs]
      rfl
    · refine ⟨portEvent 0x0405 n
        (noteSet (0x1000 + 4 * n) 16 (setPort n { portOf n s with anegRef := true, anegDone := false } s)), ?_, ?_, ?_⟩
      · exact named_act (decide_eq_true hn) (by simp [hlink, haneg])
      · exact congrArg Port.anegRef (portOf_setPort n { portOf n s with anegRef := true, anegDone := false } s)
      · exact congrArg Port.anegDone (portOf_setPort n { portOf n s with anegRef := true, anegDone := false } s)

/-- Settles O27: each row by its condition; an event of a port leaves its state and its counters. -/
theorem preemptionAndPause : Obligations.PreemptionAndPause := by
  unfold Obligations.PreemptionAndPause
  intro n s hn hlink
  refine ⟨fun hv hat htries => ?_, fun hv hat htries => ?_, fun hv hpre => ?_, fun hpre => ?_, fun hpre => ⟨?_, ?_⟩,
    fun hp hend hwait => ?_⟩
  · exact (named_act (decide_eq_true hn) (by simp [hlink, hv, hat])).trans (congrArg _ (if_pos htries))
  · refine ⟨portEvent 0x0404 n (countPort n 37 (setPort n { portOf n s with verify := 3 } s)), ?_, ?_, rfl⟩
    · exact (named_act (decide_eq_true hn) (by simp [hlink, hv, hat])).trans
        (congrArg _ (if_neg (Nat.not_lt.mpr htries)))
    · exact congrArg Port.verify (portOf_setPort n { portOf n s with verify := 3 } s)
  · refine ⟨portEvent 0x0403 n (setPort n { portOf n s with verify := 2 } s), ?_, ?_, rfl⟩
    · refine (named_act (decide_eq_true hn) (by simp [hlink])).trans ?_
      rw [hpre, if_neg (by decide), if_pos hv]
    · exact congrArg Port.verify (portOf_setPort n { portOf n s with verify := 2 } s)
  · exact (named_act (decide_eq_true hn) (by simp [hlink])).trans (congrArg _ (if_pos hpre))
  · have hneg : (!pPreempt (portOf n s)) = true := by rw [hpre]; rfl
    refine (named_act (decide_eq_true hn) (by simp [hlink])).trans
      (.trans ?_ (named_act (decide_eq_true hn) (by simp [hlink])).symm)
    rw [if_pos hneg, if_neg (by rw [hpre]; decide)]
  · exact (named_act (decide_eq_true hn) (by simp [hlink])).trans (congrArg _ (if_neg (by rw [hpre]; decide)))
  · have hend' : endWait n s = s := by rw [endWait, hwait]
    refine (named_act (decide_eq_true hn) (by simp [hlink, hp, hend])).trans ?_
    rw [hend']

end Sys2Proof.Machine
end

section
/-! Proof of the statements on received and transmitted frames. -/

namespace Sys2Proof.Machine

open Sys2Proof

set_option Elab.async false

variable {n : Nat} {s t : State}

/-! ### Counters -/

@[simp] theorem lookD_bump_self (t : Tbl Nat) (k : Nat) : lookD (bump t k) k 0 = (lookD t k 0 + 1) % 2 ^ 64 :=
  lookD_put_self _ _ _ _

theorem lookD_bump_other (t : Tbl Nat) {k j : Nat} (h : j ≠ k) : lookD (bump t k) j 0 = lookD t j 0 :=
  lookD_put_other _ _ _ h

@[simp] theorem lookD_bumpBy_self (t : Tbl Nat) (k m : Nat) :
    lookD (bumpBy t k m) k 0 = (lookD t k 0 + m) % 2 ^ 64 := lookD_put_self _ _ _ _

theorem lookD_bumpBy_other (t : Tbl Nat) {k j : Nat} (m : Nat) (h : j ≠ k) : lookD (bumpBy t k m) j 0 = lookD t j 0 :=
  lookD_put_other _ _ _ h

/-- Counter `i` of port `n` (R245). -/
def portCnt (n i : Nat) (s : State) : Nat := lookD s.prt.cnt (n * 38 + i) 0

theorem portCnt_congr (h : t.prt.cnt = s.prt.cnt) (n i : Nat) : portCnt n i t = portCnt n i s := by
  rw [portCnt, portCnt, h]

theorem portCnt_addPort_self (n i k : Nat) (s : State) :
    portCnt n i (addPort n i k s) = (portCnt n i s + k) % 2 ^ 64 := lookD_bumpBy_self _ _ _

theorem portCnt_addPort_other {i j : Nat} (h : j ≠ i) (k : Nat) (s : State) :
    portCnt n j (addPort n i k s) = portCnt n j s :=
  lookD_bumpBy_other _ _ (by omega)

theorem portCnt_countPort_self (n i : Nat) (s : State) :
    portCnt n i (countPort n i s) = (portCnt n i s + 1) % 2 ^ 64 := portCnt_addPort_self _ _ _ _

theorem portCnt_countPort_other {i j : Nat} (h : j ≠ i) (s : State) :
    portCnt n j (countPort n i s) = portCnt n j s := portCnt_addPort_other h _ _

/-! ### Reception (R227 to R231, R313) -/

/-- A frame takes the next receive index, and its stamp no counter and no store of the port (R313). -/
theorem stampRx_spec (n : Nat) (f : RxFrame) (s : State) : ∃ u m, stampRx n f s = (u, m) ∧ u.prt.cnt = s.prt.cnt ∧
    u.sw = s.sw ∧ u.clk = s.clk ∧ m.src = n ∧ m.rxIdx = some (((portOf n s).rxIndex + 1) % 65536) := by
  unfold stampRx
  dsimp only
  split
  · exact ⟨_, _, rfl, rfl, rfl, rfl, rfl, rfl⟩
  · split
    · exact ⟨_, _, rfl, rfl, rfl, rfl, rfl, rfl⟩
    · refine ⟨_, _, rfl, ?_, ?_, ?_, rfl, rfl⟩ <;>
      · unfold loseTs
        dsimp only
        split <;> split <;> rfl

/-- A frame of an UP and ON port, unfragmented and with room in the FIFO, meets the checks of R228. -/
theorem exec_frameRx_of_room {f : RxFrame} (hn : n < 48) (hlink : (portOf n s).link = .up) (hen : (portOf n s).en = .on)
    (hfrags : f.frags = 0) (hsmd : f.smdErr = false) (hassy : f.assyErr = false)
    (hroom : fifoAt n f.sfd s + pMaxLen (portOf n s) ≤ fifoSize n) : ∃ u m,
    u.sw = s.sw ∧ (∀ k, k ≠ 18 → portCnt n k u = portCnt n k s) ∧ m.src = n ∧
    m.rxIdx = some (((portOf n s).rxIndex + 1) % 65536) ∧
    exec (.frameRx n f) s = .next (match rxCheck (portOf n s) f false with
      | some k => countPort n k (releaseTs n m.rxIdx u)
      | none =>
        if f.frame.etype = 0x8808 then macControl n f.frame (releaseTs n m.rxIdx u)
        else rxOk n { frame := f.frame, info := m } u) := by
  obtain ⟨u, m, hstamp, hcnt, hsw, -, hsrc, hidx⟩ := stampRx_spec n f (addPort n 18 0 s)
  refine ⟨u, m, hsw, fun k hk => ?_, hsrc, hidx, ?_⟩
  · rw [portCnt_congr hcnt, portCnt_addPort_other hk]
  · have hrec : receives (portOf n s) f = true := by rw [receives, hlink, hen]; rfl
    have hcut : cutShort (portOf n s) f = false := by rw [cutShort, hlink]; rfl
    refine (named_act (decide_eq_true hn) (by rw [hrec]; rfl)).trans ?_
    rw [hcut, reassemble, hfrags, hsmd, hassy]
    show Host.Outcome.next (checkRx n f false (addPort n 18 0 s)) = _
    rw [checkRx]
    dsimp only
    rw [if_neg (show ¬ fifoSize n < fifoAt n f.sfd (addPort n 18 0 s) + pMaxLen (portOf n (addPort n 18 0 s)) from
      Nat.not_lt.mpr hroom), hstamp]
    rfl

/-- A frame that fails a check is counted once and stays out of the ingress store (R228). -/
theorem counts_of_rxCheck {u : State} {k : Nat} {i : Option Nat} (hsw : u.sw = s.sw)
    (hcnt : ∀ k, k ≠ 18 → portCnt n k u = portCnt n k s) (hk : k ≠ 18) :
    portCnt n k (countPort n k (releaseTs n i u)) = (portCnt n k s + 1) % 2 ^ 64 ∧
    (countPort n k (releaseTs n i u)).sw.store = s.sw.store := by
  rw [portCnt_countPort_self, portCnt_congr (show (releaseTs n i u).prt.cnt = u.prt.cnt from rfl), hcnt k hk]
  exact ⟨rfl, congrArg Sw.store hsw⟩

theorem rxOk_store (n : Nat) (h : Held) (u : State) :
    (rxOk n h u).sw.store = put u.sw.store n (lookD u.sw.store n [] ++ [h]) := rfl

theorem portCnt_rxOk (n : Nat) (h : Held) (u : State) : portCnt n 0 (rxOk n h u) = (portCnt n 0 u + 1) % 2 ^ 64 := by
  unfold rxOk
  dsimp only
  rw [portCnt_countPort_other (by omega), portCnt_addPort_other (by omega), portCnt_countPort_self]
  rfl

/-- Settles O28: `rxCheck` gives the first check that fails. -/
theorem framesAreCheckedInOrder : Obligations.FramesAreCheckedInOrder := by
  unfold Obligations.FramesAreCheckedInOrder
  intro n f s hn hlink hen hfrags hsmd hassy hroom hspeed
  obtain ⟨u, m, hsw, hcnt, hsrc, hidx, hexec⟩ := exec_frameRx_of_room hn hlink hen hfrags hsmd hassy hroom
  refine ⟨_, hexec, ?_⟩
  intro one
  have hone (k : Nat) (hk : k ≠ 18) (hcheck : rxCheck (portOf n s) f false = some k) :
      portCnt n k (match rxCheck (portOf n s) f false with
        | some k => countPort n k (releaseTs n m.rxIdx u)
        | none =>
          if f.frame.etype = 0x8808 then macControl n f.frame (releaseTs n m.rxIdx u)
          else rxOk n { frame := f.frame, info := m } u) = (portCnt n k s + 1) % 2 ^ 64 ∧
      (match rxCheck (portOf n s) f false with
        | some k => countPort n k (releaseTs n m.rxIdx u)
        | none =>
          if f.frame.etype = 0x8808 then macControl n f.frame (releaseTs n m.rxIdx u)
          else rxOk n { frame := f.frame, info := m } u).sw.store = s.sw.store := by
    rw [hcheck]
    exact counts_of_rxCheck hsw hcnt hk
  have hslow : ((portOf n s).speedNow ≤ 1) = False := eq_false (by omega)
  refine ⟨fun h9 => hone 9 (by decide) ?_, fun h9 h7 => hone 7 (by decide) ?_, fun h9 h7 h8 => hone 8 (by decide) ?_,
    fun h9 h7 h8 h5 => hone 5 (by decide) ?_, fun h9 h7 h8 h5 hctl h10 => hone 10 (by decide) ?_,
    fun h9 h7 h8 h5 hctl h10 => ?_⟩
  · simp [rxCheck, h9]
  · simp [rxCheck, h9, h7]
  · simp [rxCheck, h9, Nat.not_lt.mpr h7, h8]
  · simp [rxCheck, h9, Nat.not_lt.mpr h7, Nat.not_lt.mpr h8, hslow, h5]
  · simp [rxCheck, h9, Nat.not_lt.mpr h7, Nat.not_lt.mpr h8, hslow, h5, hctl, h10]
  · have hpass : rxCheck (portOf n s) f false = none := by
      simp [rxCheck, h9, Nat.not_lt.mpr h7, Nat.not_lt.mpr h8, h5, h10]
    rw [hpass]
    dsimp only
    rw [if_neg hctl]
    refine ⟨⟨m, ?_, hsrc, hidx⟩, ?_⟩
    · rw [rxOk_store, hsw]
    · exact (portCnt_rxOk n _ u).trans (by rw [hcnt 0 (by decide)]; rfl)

/-! ### Transmission (R232 to R238, R268, R281) -/

/-- A frame that takes its sequence number leaves the frames that wait as they are (R281). -/
theorem tellCopies_keeps (uid i q k : Nat) (s : State) :
    (queueAt k (tellCopies uid i q s)).frames.map Held.frame = (queueAt k s).frames.map Held.frame ∧
    (tellCopies uid i q s).prt = s.prt := by
  refine ⟨?_, rfl⟩
  unfold tellCopies queueAt lookD
  dsimp only
  rw [look_map_entry (by intro e; rfl)]
  cases look s.sw.queues k with
  | none => rfl
  | some x =>
    dsimp only [Option.map_some, Option.getD_some]
    rw [List.map_map]
    refine List.map_congr_left fun h _ => ?_
    dsimp only [Function.comp]
    split <;> rfl

theorem takeSeq_keeps (h : Held) (way i k : Nat) (s : State) :
    (queueAt k (takeSeq h way i s).2).frames.map Held.frame = (queueAt k s).frames.map Held.frame ∧
    (takeSeq h way i s).2.prt = s.prt := by
  unfold takeSeq
  split
  · exact ⟨rfl, rfl⟩
  · exact ⟨rfl, rfl⟩
  · split
    · exact ⟨rfl, rfl⟩
    · exact tellCopies_keeps _ _ _ _ _

theorem learnProxy_keeps (h : Held) (n i k : Nat) (r : Redun) (s : State) :
    queueAt k (learnProxy h n i r s) = queueAt k s ∧ (learnProxy h n i r s).prt = s.prt := by
  unfold learnProxy
  split <;> exact ⟨rfl, rfl⟩

/-- Redundancy egress leaves the waiting frames, and its frame carries the tag of its redundancy set (R249, R281). -/
theorem redEgress_spec (n : Nat) (h : Held) (s : State) : ∃ g u, redEgress n h s = (g, u) ∧ u.prt = s.prt ∧
    (∀ k, (queueAt k u).frames.map Held.frame = (queueAt k s).frames.map Held.frame) ∧
    ((leavesBy n s = none ∨ h.info.uid = 0) → g = h ∧ u = s) ∧
    (∀ i r, leavesBy n s = some (i, r) → h.info.uid ≠ 0 → g.info = h.info ∧ ∃ k, g.frame = tagFor n k r h.frame) := by
  unfold redEgress
  cases hby : leavesBy n s with
  | none => exact ⟨h, s, rfl, rfl, fun _ => rfl, fun _ => ⟨rfl, rfl⟩, fun i r h => nomatch h⟩
  | some e =>
    obtain ⟨i, r⟩ := e
    dsimp only
    by_cases huid : h.info.uid = 0
    · rw [if_pos huid]
      exact ⟨h, s, rfl, rfl, fun _ => rfl, fun _ => ⟨rfl, rfl⟩, fun i r _ h => absurd huid h⟩
    · rw [if_neg huid]
      refine ⟨_, _, rfl, ?_, fun k => ?_, fun h => ?_, fun i' r' h _ => ?_⟩
      · exact (takeSeq_keeps _ _ _ 0 _).2.trans (learnProxy_keeps _ _ _ 0 _ _).2
      · rw [(takeSeq_keeps _ _ _ k _).1, (learnProxy_keeps _ _ _ k _ _).1]
      · rcases h with h | h
        · exact nomatch h
        · exact absurd h huid
      · cases h
        exact ⟨rfl, _, rfl⟩

/-- The queue of highest priority that holds a frame (R268). -/
theorem nextQueue_of_first {q : Nat} (hq : q < 8) (hhas : (queueAt (n * 8 + q) s).frames ≠ [])
    (habove : ∀ k, q < k → k < 8 → (queueAt (n * 8 + k) s).frames = []) : nextQueue n false s = some q := by
  have hfind (g : Nat → Bool) (hfull : g q = false) (hempty : ∀ k, q < k → k < 8 → g k = true) :
      ([7, 6, 5, 4, 3, 2, 1, 0].find? fun k => !g k) = some q := by
    have hcases : q = 0 ∨ q = 1 ∨ q = 2 ∨ q = 3 ∨ q = 4 ∨ q = 5 ∨ q = 6 ∨ q = 7 := by omega
    rcases hcases with rfl | rfl | rfl | rfl | rfl | rfl | rfl | rfl <;> simp [hempty, hfull, List.find?]
  unfold nextQueue
  simp only [Bool.not_false, Bool.true_or, Bool.and_true]
  exact hfind (fun k => (queueAt (n * 8 + k) s).frames.isEmpty) (by simpa using hhas)
    fun k h1 h2 => by rw [habove k h1 h2]; rfl

/-- A pause is noted at a port that is paused only (R238). -/
theorem notePause_of_not_paused (h : (portOf n s).paused = false) : notePause n s = s := by
  unfold notePause
  dsimp only
  rw [h]
  rfl

/-- What the engine learns of a sent frame leaves the counters and what the MAC sends (R301, R310). -/
theorem learnTx_keeps (n : Nat) (h : Held) (sfd : Nat) (s : State) : (learnTx n h sfd s).prt.cnt = s.prt.cnt ∧
    (portOf n (learnTx n h sfd s)).tx = (portOf n s).tx ∧
    (portOf n (learnTx n h sfd s)).paused = (portOf n s).paused := by
  unfold learnTx
  split
  · exact ⟨rfl, rfl, rfl⟩
  · split
    · exact ⟨rfl, rfl, rfl⟩
    · dsimp only
      split
      · exact ⟨rfl, rfl, rfl⟩
      · split
        · rw [portOf_setPort]
          exact ⟨rfl, rfl, rfl⟩
        · exact ⟨rfl, rfl, rfl⟩

/-- What the MAC writes on the fly leaves the ports (R277, R309). -/
theorem onTheFly_prt (h : Held) (sfd : Nat) (s : State) : (onTheFly h sfd s).2.prt = s.prt := by
  have hfresh (b : Bool) (p : Nat × State) (hp : p.2.prt = s.prt) :
      (if b then p else fresh s).2.prt = s.prt := by
    split
    · exact hp
    · rfl
  unfold onTheFly
  dsimp only
  split
  · split
    · split
      · rfl
      · split <;> rfl
    · rfl
  · split
    · split
      · split
        · unfold tcCorrect
          exact hfresh _ _ rfl
        · rfl
      · split <;> rfl
    · rfl

theorem countHalf_keeps (n : Nat) (t : TxFrame) (s : State) : (countHalf n t s).prt.ports = s.prt.ports ∧
    ∀ i, i < 30 → portCnt n i (countHalf n t s) = portCnt n i s := by
  unfold countHalf
  split
  · exact ⟨rfl, fun _ _ => rfl⟩
  · split
    · split
      · exact ⟨rfl, fun i hi => portCnt_countPort_other (by omega) _⟩
      · exact ⟨rfl, fun _ _ => rfl⟩
    · refine ⟨rfl, fun i hi => portCnt_countPort_other ?_ _⟩
      split <;> omega

theorem castOf_lt (da : Nat) : castOf da < 3 := by
  unfold castOf
  split
  · decide
  · split <;> decide

/-- A whole frame that has left is counted with its octets, and the MAC is free (R245). -/
theorem txSent_spec {t : TxFrame} (hfrags : t.frags = 0) (hpaused : (portOf n s).paused = false) (sfd : Nat) :
    (portOf n (txSent n t sfd s)).tx = none ∧
    portCnt n 19 (txSent n t sfd s) = (portCnt n 19 s + 1) % 2 ^ 64 ∧
    portCnt n 20 (txSent n t sfd s) = (portCnt n 20 s + wireLen t.held.frame) % 2 ^ 64 := by
  unfold txSent
  dsimp only
  rw [if_pos hfrags]
  have hfly := onTheFly_prt t.held sfd s
  generalize onTheFly t.held sfd s = d at hfly ⊢
  generalize hs1 : setPort n { portOf n d.2 with tx := none, wire := some { d.1 with len := wireLen t.held.frame } } d.2 = s1
  have hport1 : (portOf n s1).tx = none ∧ (portOf n s1).paused = false := by
    rw [← hs1, portOf_setPort]
    exact ⟨rfl, (congrArg Port.paused (portOf_congr (congrArg Prt.ports hfly) n)).trans hpaused⟩
  have hcnt1 : s1.prt.cnt = s.prt.cnt := by
    rw [← hs1]
    exact (congrArg Prt.cnt hfly : d.2.prt.cnt = s.prt.cnt)
  obtain ⟨hhport, hhcnt⟩ := countHalf_keeps n t s1
  generalize countHalf n t s1 = s2 at hhport hhcnt ⊢
  generalize hs3 : countPort n (21 + castOf t.held.frame.da) (addPort n 20 (wireLen t.held.frame) (countPort n 19 s2)) = s3
  have hport3 : portOf n s3 = portOf n s1 := by
    rw [← hs3]
    exact portOf_congr hhport n
  obtain ⟨hlcnt, hltx, hlpaused⟩ := learnTx_keeps n t.held sfd s3
  generalize hs4 : settle t.held.info (.left n sfd) (learnTx n t.held sfd s3) = s4
  have hprt4 : s4.prt = (learnTx n t.held sfd s3).prt := by rw [← hs4, settle_prt]
  have hport4 : portOf n s4 = portOf n (learnTx n t.held sfd s3) := portOf_congr (congrArg Prt.ports hprt4) n
  have hpaused4 : (portOf n s4).paused = false := by rw [hport4, hlpaused, hport3, hport1.2]
  have hcnt4 (i : Nat) : portCnt n i s4 = portCnt n i s3 := portCnt_congr ((congrArg Prt.cnt hprt4).trans hlcnt) n i
  have hcast := castOf_lt t.held.frame.da
  rw [notePause_of_not_paused hpaused4]
  refine ⟨by rw [hport4, hltx, hport3, hport1.1], ?_, ?_⟩
  · rw [hcnt4, ← hs3, portCnt_countPort_other (by omega), portCnt_addPort_other (by decide), portCnt_countPort_self,
      hhcnt 19 (by decide), portCnt_congr hcnt1]
  · rw [hcnt4, ← hs3, portCnt_countPort_other (by omega), portCnt_addPort_self, portCnt_countPort_other (by decide),
      hhcnt 20 (by decide), portCnt_congr hcnt1]

theorem slotTime_pos (k : Nat) : 0 < slotTime k := by
  unfold slotTime
  split <;> decide

/-- Settles O29: each row by what the MAC holds. -/
theorem egressAndTransmission : Obligations.EgressAndTransmission := by
  unfold Obligations.EgressAndTransmission
  refine ⟨fun n q h hs s hn hq hup htx hrest hpaused hreset hframes hdrop habove => ?_,
    fun n sfd t s hn htx hback hlen hhalf => ?_, fun n sfd b t s hn htx hback hlen hfrags hfree hpaused => ?_,
    fun n b t s hn htx hback hhalf hb htries => ?_, fun n e t s hn htx hback hend => ?_⟩
  · have hnext : nextQueue n false s = some q := nextQueue_of_first hq (by rw [hframes]; simp) habove
    obtain ⟨g, u, hred, hprt, hqueues, hplain, htag⟩ :=
      redEgress_spec n h (setQueue (n * 8 + q) { queueAt (n * 8 + q) s with frames := hs } s)
    have hexec : exec (.egress n) s =
        .next (setPort n { portOf n u with tx := some { held := g, queue := q, cells := cellsOf h.frame } } u) := by
      show execEgress n s = _
      rw [execEgress, decide_eq_true hn]
      dsimp only
      rw [hup, htx, hpaused, inPortReset_of_over hreset, hrest]
      show Host.Outcome.next (match nextQueue n false s with
        | some q => handOver n q s
        | none => s) = _
      rw [hnext]
      dsimp only
      rw [handOver, hframes]
      dsimp only
      rw [hdrop, if_neg (by decide), hred]
    refine ⟨_, g, hexec, ?_, ?_, (congrArg Prt.cnt hprt : u.prt.cnt = s.prt.cnt), fun h => ?_, htag⟩
    · rw [portOf_setPort]
    · rw [queueAt_setPort, hqueues, queueAt_setQueue]
    · obtain ⟨hg, hu⟩ := hplain h
      rw [queueAt_setPort, hu, queueAt_setQueue]
      exact ⟨hg, rfl⟩
  · show execFrameTx n sfd ⟨none, true⟩ s = _
    rw [execFrameTx, decide_eq_true hn]
    dsimp only
    rw [htx]
    dsimp only
    rw [hback, hhalf, if_neg (Nat.not_lt.mpr hlen)]
    rfl
  · have hexec : exec (.frameTx n sfd ⟨none, b⟩) s =
        .next (txSent n t (t.begun.getD (sfd + txLatency (portOf n s))) s) := by
      have hcarrier : ((portOf n s).halfNow && b) = false := by
        rcases hfree with h | h <;> simp [h]
      show execFrameTx n sfd ⟨none, b⟩ s = _
      rw [execFrameTx, decide_eq_true hn]
      dsimp only
      rw [htx]
      dsimp only
      rw [hback, if_neg (Nat.not_lt.mpr hlen), hcarrier]
      rfl
    exact ⟨_, hexec, txSent_spec hfrags hpaused _⟩
  · refine ⟨setPort n { portOf n s with tx := some { t with
          tries := t.tries + 1
          backoff := some (s.clk.frc +
            (fresh (countPort n 30 s)).1 % 2 ^ min (t.tries + 1) 10 * slotTime (portOf n s).speedNow) } }
        (fresh (countPort n 30 s)).2, s.clk.frc + (fresh (countPort n 30 s)).1 % 2 ^ min (t.tries + 1) 10 * slotTime (portOf n s).speedNow,
      ?_, congrArg Port.tx (portOf_setPort n _ _), Nat.le_add_right _ _, ?_, rfl⟩
    · show execCollision n b s = _
      rw [execCollision, decide_eq_true hn]
      dsimp only
      rw [htx]
      dsimp only
      rw [hback, hhalf, if_neg (Nat.not_le.mpr hb), if_neg (show ¬ 16 ≤ t.tries + 1 by omega)]
      rfl
    · have hmod : (fresh (countPort n 30 s)).1 % 2 ^ min (t.tries + 1) 10 < 2 ^ min (t.tries + 1) 10 :=
        Nat.mod_lt _ (Nat.two_pow_pos _)
      exact Nat.add_lt_add_left ((Nat.mul_lt_mul_right (slotTime_pos _)).mpr hmod) _
  · show execBackoffExpiry n s = _
    rw [execBackoffExpiry, decide_eq_true hn]
    dsimp only
    rw [htx]
    dsimp only
    rw [hback]
    dsimp only
    rw [decide_eq_true hend]
    rfl

end Sys2Proof.Machine
end

section
/-! Proof of the statements on the switch core and the crypto lanes. -/

namespace Sys2Proof.Machine

open Sys2Proof

set_option Elab.async false

variable {n : Nat} {s t u : State}

/-- Settles O31: each command by its effect. -/
theorem switchSetUpCommands : Obligations.SwitchSetUpCommands := by
  unfold Obligations.SwitchSetUpCommands
  intro c s
  refine ⟨fun h => ?_, fun h => ?_, fun h => ?_, fun h => ?_⟩
  · have hexec : exec (.swQueue c) s = .next (complete c (effSwQueue c s)) :=
      runNow_of_ready h rfl (judgeCmd_swQueue s)
    exact ⟨_, _, hexec, look_put_self _ _ _, rfl, rfl, rfl, rfl, rfl, fun q hq => queueAt_setQueue_other _ _ hq⟩
  · have hexec : exec (.swRed c) s = .next (complete c (effSwRed c s)) :=
      runNow_of_ready h rfl (judgeCmd_swRed s)
    refine ⟨_, hexec, fun i hi => ?_, fun n i hn hi => ?_⟩
    · have hcases : i = 0 ∨ i = 1 ∨ i = 2 := by omega
      unfold redOf
      dsimp only
      rcases hcases with rfl | rfl | rfl
      · rw [lookD_put_other _ _ _ (by omega), lookD_put_other _ _ _ (by omega)]
        exact lookD_put_self _ _ _ _
      · rw [lookD_put_other _ _ _ (by omega), lookD_put_self]
      · rw [lookD_put_self]
    · unfold redOf
      dsimp only
      rw [lookD_put_other _ _ _ (by omega), lookD_put_other _ _ _ (by omega), lookD_put_other _ _ _ (by omega)]
  · have hexec : exec (.swPaths c) s = .next (complete c (effSwPaths c s)) :=
      runNow_of_ready h rfl (judgeCmd_swPaths s)
    refine ⟨_, hexec, fun hm => ?_, fun hm => ?_⟩
    · dsimp only
      rw [hm, if_pos (by rfl)]
      exact look_del_self _ _
    · dsimp only
      rw [if_neg (by simpa using hm)]
      exact look_put_self _ _ _
  · have hexec : exec (.swRedun c) s = .next (complete c (effSwRedun c s)) :=
      runNow_of_ready h rfl (judgeCmd_swRedun s)
    by_cases hmode : bits (wordAt c.block 0) 6 4 = 0
    · have heff : effSwRedun c s = _ := if_pos hmode
      rw [heff] at hexec
      refine ⟨_, hexec, fun _ => ⟨look_del_self _ _, fun e he => ?_⟩, fun hne => absurd hmode hne⟩
      simpa using (List.mem_filter.mp he).2
    · have heff : effSwRedun c s = _ := if_neg hmode
      rw [heff] at hexec
      refine ⟨_, hexec, fun h0 => absurd h0 hmode, fun _ hnone => ?_⟩
      dsimp only
      rw [hnone]
      exact look_put_self _ _ _

/-! ### The grant of lanes (R35, R437) -/

/-- Where nothing that asks can be leftStore, no lane starts. -/
theorem laneCycle_of_none (h : freeLanes s = [] ∨ ∀ i, laneAsks s i = false) : laneCycle s = s := by
  have hwon : (arbitrate 4 (freeLanes s).length s.key.ptr (laneAsks s)).1 = [] := by
    unfold arbitrate
    dsimp only
    rcases h with h | h
    · rw [h]
      rfl
    · rw [List.filter_eq_nil_iff.mpr fun i _ => by rw [h i]; decide]
      exact List.take_nil
  have hptr : (arbitrate 4 (freeLanes s).length s.key.ptr (laneAsks s)).2 = s.key.ptr := by
    unfold arbitrate at hwon ⊢
    dsimp only at hwon ⊢
    rw [hwon]
    rfl
  unfold laneCycle
  dsimp only
  rw [hwon, hptr, List.zip_nil_right]
  rfl

theorem laneCycles_of_none (h : freeLanes s = [] ∨ ∀ i, laneAsks s i = false) (n : Nat) : laneCycles n s = s := by
  induction n with
  | zero => rfl
  | succ n ih => rw [laneCycles, laneCycle_of_none h, ih]

theorem fillLanes_of_full (h : freeLanes s = []) : fillLanes s = s := laneCycles_of_none (.inl h) 4

theorem laneAsks_of_idle (hw : s.sw.wait = []) (ht : s.key.tags = []) (i : Nat) : laneAsks s i = false := by
  unfold laneAsks
  rw [hw, ht]
  simp

theorem fillLanes_of_idle (hw : s.sw.wait = []) (ht : s.key.tags = []) : fillLanes s = s :=
  laneCycles_of_none (.inr (laneAsks_of_idle hw ht)) 4

theorem freeLanes_of_empty (h : s.key.lanes = []) : freeLanes s = [0, 1, 2, 3] := by
  unfold freeLanes
  rw [h]
  rfl

/-- Of four requesters the one that asks is leftStore, wherever the pointer stands (R35). -/
theorem arbitrate_of_one {i : Nat} (hi : i < 4) (ptr : Nat) {asking : Nat → Bool}
    (h : ∀ j, j < 4 → asking j = decide (j = i)) : (arbitrate 4 4 ptr asking).1 = [i] := by
  have hvisit : visitOrder 4 ptr = visitOrder 4 (ptr % 4) :=
    List.map_congr_left fun k _ => (Nat.mod_add_mod ptr 4 k).symm
  have hfilter : (visitOrder 4 (ptr % 4)).filter asking = (visitOrder 4 (ptr % 4)).filter fun j => decide (j = i) :=
    List.filter_congr fun j hj => by
      obtain ⟨k, -, rfl⟩ := List.mem_map.mp hj
      exact h _ (Nat.mod_lt _ (by decide))
  have hall : ∀ r, r < 4 → ∀ i, i < 4 → ((visitOrder 4 r).filter fun j => decide (j = i)).take 4 = [i] := by decide
  unfold arbitrate
  dsimp only
  rw [hvisit, hfilter]
  exact hall _ (Nat.mod_lt _ (by decide)) i hi

/-- On empty lanes the one requester that asks starts lane 0. -/
theorem laneCycle_of_one {i : Nat} (hi : i < 4) (hl : s.key.lanes = []) (h : ∀ j, j < 4 → laneAsks s j = decide (j = i)) :
    ∃ p, laneCycle s = startLane { s with key := { s.key with ptr := p } } (0, i) := by
  unfold laneCycle
  dsimp only
  rw [freeLanes_of_empty hl]
  have hwon := arbitrate_of_one hi s.key.ptr h
  exact ⟨(arbitrate 4 4 s.key.ptr (laneAsks s)).2, by
    show List.foldl startLane _ (List.zip [0, 1, 2, 3] (arbitrate 4 4 s.key.ptr (laneAsks s)).1) = _
    rw [hwon]
    rfl⟩

/-! ### What a test of the key store leaves (R427) -/

/-- A test of slots leaves the lanes, the requests and the switch core. -/
def TestKeeps (s t : State) : Prop :=
  t.sw = s.sw ∧ t.key.lanes = s.key.lanes ∧ t.key.tags = s.key.tags ∧ t.rst = s.rst ∧ t.prt = s.prt ∧ t.rng = s.rng ∧ t.gse = s.gse

theorem TestKeeps.trans (h : TestKeeps s t) (h' : TestKeeps t u) : TestKeeps s u := by
  obtain ⟨h1, h2, h3, h4, h5, h6, h7⟩ := h
  obtain ⟨h1', h2', h3', h4', h5', h6', h7'⟩ := h'
  exact ⟨h1'.trans h1, h2'.trans h2, h3'.trans h3, h4'.trans h4, h5'.trans h5, h6'.trans h6, h7'.trans h7⟩

theorem testKeeps_keyEvent (code slot : Nat) (bit sev : Option Nat) (s : State) :
    TestKeeps s (keyEvent code slot bit sev s) := by
  unfold keyEvent
  split <;> exact ⟨rfl, rfl, rfl, rfl, rfl, rfl, rfl⟩

theorem testKeeps_keyEvents (code : Nat) (bit sev : Option Nat) (l : List Nat) (s : State) :
    TestKeeps s (keyEvents code bit sev l s) := by
  induction l generalizing s with
  | nil => exact ⟨rfl, rfl, rfl, rfl, rfl, rfl, rfl⟩
  | cons k ks ih => exact (testKeeps_keyEvent code k bit sev s).trans (ih _)

theorem testKeeps_killSlot (k : Nat) (st : KState) (s : State) : TestKeeps s (killSlot k st s) := by
  unfold killSlot
  exact TestKeeps.trans ⟨rfl, rfl, rfl, rfl, rfl, rfl, rfl⟩ (testKeeps_keyEvents _ _ _ _ _)

theorem testKeeps_testSlot (k : Nat) (s : State) : TestKeeps s (testSlot k s) := by
  unfold testSlot
  split
  · exact ⟨rfl, rfl, rfl, rfl, rfl, rfl, rfl⟩
  · unfold foundBad
    refine (testKeeps_killSlot k .bad s).trans (TestKeeps.trans ?_ (testKeeps_keyEvent _ _ _ _ _))
    exact ⟨rfl, rfl, rfl, rfl, rfl, rfl, rfl⟩

theorem testKeeps_testSlots (l : List Nat) (s : State) : TestKeeps s (testSlots l s) := by
  induction l generalizing s with
  | nil => exact ⟨rfl, rfl, rfl, rfl, rfl, rfl, rfl⟩
  | cons k ks ih => exact (testKeeps_testSlot k s).trans (ih _)

theorem testSlot_of_sound {k : Nat} (h : checkHolds s.mram.root (slotOf k s) = true) : testSlot k s = s := if_pos h

/-- A lane that takes a frame for verification holds it (R436). -/
theorem loadVerify_spec (lane : Nat) (h : Held) (a : Action) (s : State) : ∃ v j, loadVerify lane h a s = setLane lane j v ∧
    TestKeeps s v ∧ j.ver = some (h, a) := by
  unfold loadVerify
  dsimp only
  refine ⟨_, _, rfl, ?_, rfl⟩
  refine TestKeeps.trans ?_ (testKeeps_testSlots _ _)
  exact TestKeeps.trans ⟨rfl, rfl, rfl, rfl, rfl, rfl, rfl⟩ (testKeeps_testSlot _ (loadAsk lane s))

/-- On empty lanes a frame that waits alone takes lane 0 (R437). -/
theorem fillLanes_of_wait {h : Held} {a : Action} (hl : s.key.lanes = []) (ht : s.key.tags = []) (hw : s.sw.wait = [(h, a)]) :
    ∃ v j, fillLanes s = setLane 0 j v ∧ v.sw = { s.sw with wait := [] } ∧ v.key.tags = [] ∧ v.key.lanes = [] ∧
      v.prt = s.prt ∧ j.ver = some (h, a) := by
  have hasks (j : Nat) (hj : j < 4) : laneAsks s j = decide (j = 0) := by
    have hcases : j = 0 ∨ j = 1 ∨ j = 2 ∨ j = 3 := by omega
    rcases hcases with rfl | rfl | rfl | rfl <;> simp [laneAsks, hw, ht]
  obtain ⟨p, hcycle⟩ := laneCycle_of_one (by decide) hl hasks
  have hstart : startLane { s with key := { s.key with ptr := p } } (0, 0) = loadVerify 0 h a
      { s with key := { s.key with ptr := p }, sw := { s.sw with wait := [] } } := by
    unfold startLane
    rw [if_pos rfl]
    dsimp only
    rw [hw]
  obtain ⟨v, j, hload, hkeeps, hver⟩ := loadVerify_spec 0 h a
    { s with key := { s.key with ptr := p }, sw := { s.sw with wait := [] } }
  obtain ⟨hsw, hlanes, htags, -, hprt, -⟩ := hkeeps
  refine ⟨v, j, ?_, hsw, htags.trans ht, hlanes.trans hl, hprt, hver⟩
  show laneCycles 3 (laneCycle s) = _
  rw [hcycle, hstart, hload]
  exact laneCycles_of_none (s := setLane 0 j v) (.inr (laneAsks_of_idle (congrArg Sw.wait hsw) (htags.trans ht))) 3

/-- On empty lanes a frame of a SEND that waits alone for its tag takes lane 0 (R437). -/
theorem fillLanes_of_tag {t : TagReq} (hl : s.key.lanes = []) (hw : s.sw.wait = []) (ht : s.key.tags = [t]) :
    ∃ p, fillLanes s = loadTag 0 t { s with key := { s.key with ptr := p, tags := [] } } := by
  have hasks (j : Nat) (hj : j < 4) : laneAsks s j = decide (j = if t.pub.isSome then 1 else 2) := by
    have hcases : j = 0 ∨ j = 1 ∨ j = 2 ∨ j = 3 := by omega
    cases hpub : t.pub <;> rcases hcases with rfl | rfl | rfl | rfl <;> simp [laneAsks, hw, ht, hpub]
  obtain ⟨p, hcycle⟩ := laneCycle_of_one (by split <;> decide) hl hasks
  have hstart : startLane { s with key := { s.key with ptr := p } } (0, if t.pub.isSome then 1 else 2) =
      loadTag 0 t { s with key := { s.key with ptr := p, tags := [] } } := by
    unfold startLane
    dsimp only
    rw [if_neg (by split <;> decide), ht, List.find?_cons_of_pos (by cases t.pub <;> rfl)]
    dsimp only
    rw [List.erase_cons_head]
  refine ⟨p, ?_⟩
  show laneCycles 3 (laneCycle s) = _
  rw [hcycle, hstart]
  refine laneCycles_of_none (.inr (laneAsks_of_idle ?_ ?_)) 3
  · exact (congrArg Sw.wait (testKeeps_testSlot _ (loadAsk 0 _)).1).trans hw
  · exact (testKeeps_testSlot _ (loadAsk 0 _)).2.2.1

/-- The grant of lanes leaves the stores of the switch core. -/
theorem startLane_store (s : State) (e : Nat × Nat) : (startLane s e).sw.store = s.sw.store := by
  unfold startLane
  split
  · split
    · rfl
    · next h a rest hw =>
      obtain ⟨v, j, hload, hkeeps, -⟩ := loadVerify_spec e.1 h a { s with sw := { s.sw with wait := rest } }
      rw [hload]
      show v.sw.store = _
      rw [hkeeps.1]
  · split
    · rfl
    · next t ht =>
      have hkeeps := testKeeps_testSlot (tagSlot t.slot { s with key := { s.key with tags := s.key.tags.erase t } })
        (loadAsk e.1 { s with key := { s.key with tags := s.key.tags.erase t } })
      exact congrArg Sw.store hkeeps.1

theorem laneCycle_store (s : State) : (laneCycle s).sw.store = s.sw.store := by
  have hfold (l : List (Nat × Nat)) (s : State) : (l.foldl startLane s).sw.store = s.sw.store := by
    induction l generalizing s with
    | nil => rfl
    | cons e es ih => exact (ih _).trans (startLane_store s e)
  unfold laneCycle
  exact hfold _ _

theorem fillLanes_store (s : State) : (fillLanes s).sw.store = s.sw.store := by
  have hcycles (n : Nat) (s : State) : (laneCycles n s).sw.store = s.sw.store := by
    induction n generalizing s with
    | zero => rfl
    | succ n ih => exact (ih _).trans (laneCycle_store s)
  exact hcycles 4 s

/-! ### Ingress of the module's own frames (R249, R257) -/

/-- A frame of the module's own sources that leaves by no port of its choice is classified as it comes (R249). -/
theorem ingress_of_own {h : Held} (hsrc : 48 ≤ h.info.src) (hdirect : h.info.direct = none) :
    ingress h s = classify h s := by
  have hcommit : commitTs h s = (h, s) := if_neg (Nat.not_lt.mpr hsrc)
  have hcopy : copyPtp h s = s := by
    unfold copyPtp
    rw [decide_eq_false (Nat.not_lt.mpr hsrc)]
    rfl
  unfold ingress
  rw [hdirect]
  dsimp only
  rw [hcommit, hcopy, redIngress, if_pos hsrc]

/-- The grant of a source: its oldest frame leaves its store (R250). -/
def leftStore (src : Nat) (hs : List Held) (s : State) : State :=
  { s with sw := { s.sw with
    fifo := (noteFifo src s).sw.fifo
    store := put s.sw.store src hs
    ptr := (src + 1) % 50 } }

theorem exec_switchIngress_of_first {src : Nat} {h : Held} {hs : List Held} (hn : src < 50)
    (hstart : s.rst.phase = .started) (hstore : lookD s.sw.store src [] = h :: hs) (hgate : gated h s = false)
    (hfirst : comesFirst 50 s.sw.ptr ((List.range 50).filter (requests s)) src = true) :
    exec (.switchIngress src) s = .next (ingress h (leftStore src hs s)) := by
  show execSwitchIngress src s = _
  unfold execSwitchIngress
  rw [hstore]
  dsimp only
  rw [if_neg (by rw [hgate]; decide)]
  refine named_act (decide_eq_true hn) ?_
  rw [hstart, hfirst]
  rfl

/-- Settles O32: the two outcomes of the lookup. -/
theorem ingressClassifies : Obligations.IngressClassifies := by
  unfold Obligations.IngressClassifies
  intro src h hs s hsrc hstart hstore hinfo hdirect hgate hfirst
  have hn : src < 50 := by omega
  have hexec : exec (.switchIngress src) s = .next (classify h (leftStore src hs s)) := by
    rw [exec_switchIngress_of_first hn hstart hstore hgate hfirst, ingress_of_own (by omega) hdirect]
  have hlook : lookup (lookupKey h (leftStore src hs s)) h.info.src (leftStore src hs s) = lookup (lookupKey h s) src s := by
    rw [hinfo]
    rfl
  refine ⟨fun hmiss hop => ?_, fun e a hhit hauth hroom => ?_⟩
  · have hclass : classify h (leftStore src hs s) = missed h (leftStore src hs s) := by
      rw [classify, hlook, hmiss]
    refine ⟨_, hexec.trans (congrArg _ hclass), ?_⟩
    unfold missed endSend
    dsimp only
    rw [hop]
    refine ⟨lookD_put_self _ _ _ _, rfl, ?_, getLsbD_latch_self _ (by decide)⟩
    rw [← hinfo]
    exact lookD_bump_self _ _
  · have hclass : classify h (leftStore src hs s) = fillLanes { leftStore src hs s with sw := { (leftStore src hs s).sw with
        wait := s.sw.wait ++ [({ h with info := { h.info with
          entry := e, epoch := lookD s.sw.epochs e 0, flow := a.flow } }, a)] } } := by
      rw [classify, hlook, hhit]
      dsimp only
      exact (if_neg hauth).trans (if_neg (Nat.not_le.mpr hroom))
    have hlive := hexec.trans (congrArg _ hclass)
    by_cases hfull : freeLanes s = []
    · refine ⟨_, { h.info with entry := e, epoch := lookD s.sw.epochs e 0, flow := a.flow },
        hlive.trans (congrArg _ (fillLanes_of_full hfull)), lookD_put_self _ _ _ _, rfl, rfl, rfl, fun _ => rfl, fun hl => ?_⟩
      rw [freeLanes_of_empty hl] at hfull
      exact nomatch hfull
    · by_cases hidle : s.key.lanes = [] ∧ s.sw.wait = [] ∧ s.key.tags = []
      · obtain ⟨hl, hw, ht⟩ := hidle
        obtain ⟨v, j, hfill, hsw, -, -, -, hver⟩ := fillLanes_of_wait (s := { leftStore src hs s with
          sw := { (leftStore src hs s).sw with wait := s.sw.wait ++ [({ h with info := { h.info with
            entry := e, epoch := lookD s.sw.epochs e 0, flow := a.flow } }, a)] } }) hl ht (by rw [hw]; rfl)
        refine ⟨_, { h.info with entry := e, epoch := lookD s.sw.epochs e 0, flow := a.flow },
          hlive.trans (congrArg _ hfill), ?_, rfl, rfl, rfl, fun h => absurd h hfull, fun _ _ _ => ⟨?_, ?_⟩⟩
        · show lookD v.sw.store src [] = hs
          rw [hsw]
          exact lookD_put_self _ _ _ _
        · show v.sw.wait = []
          rw [hsw]
        · show (look (put v.key.lanes 0 j) 0).map _ = _
          rw [look_put_self]
          exact congrArg some hver
      · refine ⟨_, { h.info with entry := e, epoch := lookD s.sw.epochs e 0, flow := a.flow }, hlive, ?_, rfl, rfl, rfl,
          fun h => absurd h hfull, fun hl hw ht => absurd ⟨hl, hw, ht⟩ hidle⟩
        rw [fillLanes_store]
        exact lookD_put_self _ _ _ _

end Sys2Proof.Machine
end

section
/-! Proof of the statements on crypto lanes, and on ageing and supervision. -/

namespace Sys2Proof.Machine

open Sys2Proof

set_option Elab.async false

variable {n : Nat} {s t u : State}

/-! ### What the decision at a queue leaves (R265, R268) -/

theorem notePause_frame (n : Nat) (s : State) : ∃ p, notePause n s = { s with prt := p } := by
  unfold notePause
  dsimp only
  split
  · split <;> exact ⟨_, rfl⟩
  · exact ⟨_, rfl⟩

theorem admitCode_spec (q c colour : Nat) (s : State) : (admitCode q c colour s).1 ≤ 4 + colour ∧
    ∃ f, (admitCode q c colour s).2 = { s with free := f } := by
  unfold admitCode
  dsimp only
  split
  · exact ⟨by omega, _, rfl⟩
  · split
    · exact ⟨by omega, _, rfl⟩
    · split
      · exact ⟨by omega, _, rfl⟩
      · split
        · exact ⟨by omega, _, rfl⟩
        · split
          · dsimp only
            refine ⟨by split <;> omega, ?_⟩
            unfold redDrops
            dsimp only
            split
            · exact ⟨_, rfl⟩
            · split <;> exact ⟨_, rfl⟩
          · exact ⟨by omega, _, rfl⟩

/-- What the decision at a queue may change. -/
def Enqueued (s t : State) : Prop :=
  ∃ f st p r g qs c e l d, t = { s with
    free := f
    sets := st
    prt := p
    rng := r
    gse := g
    sw := { s.sw with queues := qs, cnt := c, evt := e, low := l, sends := d } }

theorem enqueued_enqueue (h : Held) (q colour : Nat) (s : State) : Enqueued s (enqueue h q colour s) ∧
    (enqueue h q colour s).sw.cnt = bump s.sw.cnt (70000 + q * 8 + (admitCode q (cellsOf h.frame) colour s).1) := by
  obtain ⟨f, hf⟩ := (admitCode_spec q (cellsOf h.frame) colour s).2
  unfold enqueue
  dsimp only
  rw [hf]
  generalize (admitCode q (cellsOf h.frame) colour s).1 = code
  split
  · generalize hs1 : noteLow (setQueue q _ _) = s1
    obtain ⟨p, hp⟩ := notePause_frame (q / 8) s1
    rw [hp, ← hs1]
    exact ⟨⟨_, _, _, _, _, _, _, _, _, _, rfl⟩, rfl⟩
  · by_cases h3 : code = 3
    · rw [if_pos h3]
      obtain ⟨d, g, r, hs⟩ := settle_frame h.info (if code = 1 then .down else .full)
        (latchSw 0 (countQueue q code { s with free := f }))
      rw [hs]
      exact ⟨⟨_, _, _, _, _, _, _, _, _, _, rfl⟩, rfl⟩
    · rw [if_neg h3]
      obtain ⟨d, g, r, hs⟩ := settle_frame h.info (if code = 1 then .down else .full)
        (countQueue q code { s with free := f })
      rw [hs]
      exact ⟨⟨_, _, _, _, _, _, _, _, _, _, rfl⟩, rfl⟩

/-! ### What the fate of a frame leaves to the lanes (R259, R262) -/

/-- The lanes, their requests and the counters of the slots stay. -/
def SameLanes (s t : State) : Prop := t.key = s.key ∧ t.sw.wait = s.sw.wait

theorem SameLanes.trans (h : SameLanes s t) (h' : SameLanes t u) : SameLanes s u :=
  ⟨h'.1.trans h.1, h'.2.trans h.2⟩

theorem sameLanes_settle (m : FMeta) (f : Fate) (s : State) : SameLanes s (settle m f s) := by
  obtain ⟨d, g, r, h⟩ := settle_frame m f s
  rw [h]
  exact ⟨rfl, rfl⟩

theorem sameLanes_enqueue (h : Held) (q colour : Nat) (s : State) : SameLanes s (enqueue h q colour s) := by
  obtain ⟨f, st, p, r, g, qs, c, e, l, d, heq⟩ := (enqueued_enqueue h q colour s).1
  rw [heq]
  exact ⟨rfl, rfl⟩

theorem countEntry_frame (m : FMeta) (i n : Nat) (s : State) :
    ∃ st c e, countEntry m i n s = { s with sets := st, sw := { s.sw with cnt := c, evt := e } } := by
  unfold countEntry
  split <;> exact ⟨_, _, _, rfl⟩

theorem sameLanes_countEntry (m : FMeta) (i n : Nat) (s : State) : SameLanes s (countEntry m i n s) := by
  obtain ⟨st, c, e, h⟩ := countEntry_frame m i n s
  rw [h]
  exact ⟨rfl, rfl⟩

theorem sameLanes_admitPorts (a : Action) (h : Held) (l : List Nat) (s : State) : SameLanes s (admitPorts a h l s) := by
  induction l generalizing s with
  | nil => exact ⟨rfl, rfl⟩
  | cons n ns ih => exact (sameLanes_enqueue _ _ _ s).trans (ih _)

theorem sameLanes_ringDrop (h : Held) (s : State) : SameLanes s (ringDrop h s) :=
  (sameLanes_countEntry _ _ _ s).trans (sameLanes_settle _ _ _)

theorem sameLanes_toSe0 (h : Held) (s : State) : SameLanes s (toSe0 h s) := by
  unfold toSe0
  split
  · exact SameLanes.trans ⟨rfl, rfl⟩ (sameLanes_settle _ _ _)
  · exact sameLanes_ringDrop h s

theorem sameLanes_toSe1 (h : Held) (s : State) : SameLanes s (toSe1 h s) := by
  unfold toSe1
  split
  · exact SameLanes.trans ⟨rfl, rfl⟩ (sameLanes_settle _ _ _)
  · exact sameLanes_ringDrop h s

/-- A touch of a page takes frames of the Page Keeper and maps it (R205). -/
theorem touch_frame {p iova : Nat} (h : touch p iova s = some t) :
    ∃ f g c, t = { s with free := f, pgk := g, cnp := c } := by
  unfold touch at h
  split at h
  · exact nomatch h
  · split at h
    · exact ⟨_, _, _, (Option.some.inj h).symm⟩
    · dsimp only at h
      split at h
      · exact nomatch h
      · exact ⟨_, _, _, (Option.some.inj h).symm⟩

/-- The delivery of an operation reaches memory and its partition's pages (R133, R203). -/
theorem deliverPages_frame (p k iova : Nat) (b : Bytes) (s : State) :
    ∃ f g c m, (deliverPages p k iova b s).1 = { s with free := f, pgk := g, cnp := c, mem := m } := by
  induction k generalizing iova b s with
  | zero => exact ⟨_, _, _, _, rfl⟩
  | succ k ih =>
    unfold deliverPages
    dsimp only
    generalize hasked : (if ((look s.cnp.parts p).map fun x => isMapped x iova).getD true then s else pgkAsk 15 s) = s1
    have hs1 : ∃ g, s1 = { s with pgk := g } := by
      rw [← hasked]
      split <;> exact ⟨_, rfl⟩
    obtain ⟨g1, rfl⟩ := hs1
    split
    · exact ⟨_, _, _, _, rfl⟩
    next t ht =>
      obtain ⟨f, g, c, rfl⟩ := touch_frame ht
      obtain ⟨f', g', c', m', hrest⟩ := ih (iova + (4096 - iova % 4096)) (b.drop (4096 - iova % 4096))
        (deliver p iova (b.take (4096 - iova % 4096)) { { s with pgk := g1 } with free := f, pgk := g, cnp := c })
      exact ⟨f', g', c', m', hrest⟩

theorem deliverOp_frame (p iova : Nat) (b : Bytes) (s : State) :
    ∃ f g c m, (deliverOp p iova b s).1 = { s with free := f, pgk := g, cnp := c, mem := m } :=
  deliverPages_frame _ _ _ _ _

/-- A frame that fills a buffer finishes its RECV (R274). -/
theorem fillRecv_frame (r : Nat) (s : State) : ∃ f g c m rg q, fillRecv r s =
    { s with free := f, pgk := g, cnp := c, mem := m, rng := rg, sw := { s.sw with ringq := q } } := by
  unfold fillRecv
  split
  next q e hq he =>
    dsimp only
    generalize hs1 : (localHeader (r / 8) (iovaOf e.desc) <| noteInput (r / 8) 2 r e.seq.toNat _
      { s with sw := { s.sw with ringq := s.sw.ringq.erase q } }) = s1
    have hs1' : ∃ c, s1 = { s with cnp := c, sw := { s.sw with ringq := s.sw.ringq.erase q } } := ⟨_, hs1.symm⟩
    obtain ⟨c1, rfl⟩ := hs1'
    generalize hb : List.take _ (recvHeader q.2 _ ++ frameData q.2.frame) = b
    obtain ⟨f, g, c, m, hd⟩ := deliverOp_frame (r / 8) (iovaOf e.desc) b
      { s with cnp := c1, sw := { s.sw with ringq := s.sw.ringq.erase q } }
    rw [hd]
    split <;> exact ⟨_, _, _, _, _, _, rfl⟩
  · exact ⟨_, _, _, _, _, _, rfl⟩

theorem sameLanes_toRing (h : Held) (r : Nat) (s : State) : SameLanes s (toRing h r s) := by
  unfold toRing
  extract_lets ok mine
  split
  · refine SameLanes.trans (SameLanes.trans ⟨rfl, rfl⟩ (sameLanes_settle h.info .inside
      { s with sw := { s.sw with ringq := s.sw.ringq ++ [(r, h)] } })) ?_
    obtain ⟨f, g, c, m, rg, q, hfill⟩ := fillRecv_frame r (settle h.info .inside
      { s with sw := { s.sw with ringq := s.sw.ringq ++ [(r, h)] } })
    rw [hfill]
    exact ⟨rfl, rfl⟩
  · exact sameLanes_ringDrop h s

theorem sameLanes_toInside (a : Action) (h : Held) (s : State) : SameLanes s (toInside a h s) := by
  unfold toInside
  extract_lets s1 s2
  have h1 : SameLanes s s1 := by
    simp only [s1]
    split
    · exact sameLanes_toSe0 h s
    · exact ⟨rfl, rfl⟩
  have h2 : SameLanes s1 s2 := by
    simp only [s2]
    split
    · exact sameLanes_toSe1 h s1
    · exact ⟨rfl, rfl⟩
  split
  · exact (h1.trans h2).trans (sameLanes_toRing h a.ring s2)
  · exact h1.trans h2

theorem sameLanes_endSend (m : FMeta) (status : Nat) (s : State) : SameLanes s (endSend m status s) := by
  unfold endSend
  dsimp only
  split <;> exact ⟨rfl, rfl⟩

theorem sameLanes_endSendFree (m : FMeta) (s : State) : SameLanes s (endSendFree m s) := by
  unfold endSendFree
  split
  · exact SameLanes.trans ⟨rfl, rfl⟩ (sameLanes_endSend _ _ _)
  · exact sameLanes_endSend _ _ _

theorem sameLanes_tcBlocks (f : Frame) (s : State) : SameLanes s (tcBlocks f s).2 := by
  unfold tcBlocks
  dsimp only
  split
  · split
    · split <;> exact ⟨rfl, rfl⟩
    · exact ⟨rfl, rfl⟩
  · exact ⟨rfl, rfl⟩

theorem sameLanes_nameCopies (l : List Nat) (h : Held) (s : State) : SameLanes s (nameCopies l h s).2 := by
  unfold nameCopies
  split <;> exact ⟨rfl, rfl⟩

theorem sameLanes_applyAction (a : Action) (h : Held) (s : State) : SameLanes s (applyAction a h s) := by
  unfold applyAction
  extract_lets s1 b ports k
  have h1 : SameLanes s s1 := (sameLanes_countEntry _ _ _ s).trans (sameLanes_countEntry _ _ _ _)
  have hb : SameLanes s1 b.2 := by
    simp only [b]
    split
    · exact sameLanes_tcBlocks _ _
    · exact ⟨rfl, rfl⟩
  refine (h1.trans hb).trans ?_
  split
  · split
    · exact sameLanes_endSendFree _ _
    · exact sameLanes_endSend _ _ _
  · refine SameLanes.trans (SameLanes.trans ?_ (sameLanes_admitPorts _ _ _ _)) (sameLanes_toInside _ _ _)
    exact (sameLanes_nameCopies ports h b.2).trans ⟨rfl, rfl⟩

theorem sameLanes_afterVerdict (h : Held) (a : Action) (pass : Bool) (s : State) :
    SameLanes s (afterVerdict h a pass s) := by
  unfold afterVerdict
  dsimp only
  split
  · exact sameLanes_applyAction _ _ _
  · split
    · exact (((sameLanes_countEntry _ _ _ s).trans (sameLanes_countEntry _ _ _ _)).trans
        (sameLanes_countEntry _ _ _ _)).trans (sameLanes_endSendFree _ _)
    · exact (sameLanes_countEntry _ _ _ s).trans (sameLanes_applyAction _ _ _)

/-- A count at an entry leaves what waits behind the switch core. -/
theorem countEntry_waiting (m : FMeta) (i n : Nat) (s : State) : (countEntry m i n s).sw.queues = s.sw.queues ∧
    (countEntry m i n s).sw.se0 = s.sw.se0 ∧ (countEntry m i n s).sw.se1 = s.sw.se1 := by
  obtain ⟨st, c, e, h⟩ := countEntry_frame m i n s
  rw [h]
  exact ⟨rfl, rfl, rfl⟩

/-- A frame that does not pass and is to be dropped goes nowhere (R262). -/
theorem afterVerdict_drops {h : Held} {a : Action} (hdrop : a.authDrop = true) (hop : h.info.op = none) (s : State) :
    (afterVerdict h a false s).sw.queues = s.sw.queues ∧ (afterVerdict h a false s).sw.se0 = s.sw.se0 ∧
    (afterVerdict h a false s).sw.se1 = s.sw.se1 := by
  have hend (v : State) : (endSendFree h.info v).sw.queues = v.sw.queues ∧ (endSendFree h.info v).sw.se0 = v.sw.se0 ∧
      (endSendFree h.info v).sw.se1 = v.sw.se1 := by
    unfold endSendFree endSend
    rw [hop]
    exact ⟨rfl, rfl, rfl⟩
  unfold afterVerdict
  dsimp only
  rw [if_neg (by decide), if_pos hdrop]
  simp only [hend, countEntry_waiting, and_self]

/-! ### The verdict (R436 to R439) -/

/-- A pass rests on a usable Leaf of the algorithm, a GOOSE or SV frame and its MAC. -/
theorem of_verify_pass {k auth : Nat} {f : Frame} (h : verify k auth f s = 0) :
    usable (slotOf k s) = true ∧ (slotOf k s).level = 2 ∧ tbit (slotOf k s).usage 0 = true ∧
    algFits auth (slotOf k s).alg = true ∧ (f.etype = 0x88B8 ∨ f.etype = 0x88BA) ∧
    ∃ e j, f.auth = some e ∧ e.wellFormed = true ∧ j ∈ k :: partners k s ∧ (slotOf j s).keyId = e.keyId ∧
      e.mac = macOf auth (keyOf (slotOf j s)) f e.iv := by
  unfold verify at h
  dsimp only at h
  have hfault : (verifyKey k auth f s).1 = 0 := by
    by_contra hne
    rw [verdictOf, if_pos hne] at h
    exact hne h
  unfold verifyKey at hfault h
  dsimp only at hfault h
  split at hfault
  · exact absurd hfault (by decide)
  next hleaf =>
    rw [if_neg hleaf] at h
    simp only [Bool.or_eq_true, Bool.not_eq_true', not_or, Bool.not_eq_false] at hleaf
    obtain ⟨husable, hfor⟩ := hleaf
    simp only [leafFor, Bool.and_eq_true, beq_iff_eq] at hfor
    obtain ⟨⟨hlevel, husage⟩, halg⟩ := hfor
    split at hfault
    · exact absurd hfault (by decide)
    next e he =>
      rw [he] at h
      dsimp only at h
      split at hfault
      · exact absurd hfault (by decide)
      next hform =>
        rw [if_neg hform] at h
        simp only [Bool.or_eq_true, Bool.not_eq_true', not_or, Bool.not_eq_false, beq_iff_eq] at hform
        obtain ⟨hwell, htype⟩ := hform
        split at hfault
        · exact absurd hfault (by decide)
        next j hj =>
          rw [hj] at h
          dsimp only at h
          rw [verdictOf, if_neg (by decide), he] at h
          dsimp only at h
          have hmac : macOf auth (keyOf (slotOf j s)) f e.iv = e.mac := by
            by_contra hne
            rw [if_neg hne] at h
            exact absurd h (by decide)
          exact ⟨husable, hlevel, husage, halg, htype, e, j, he, hwell, List.mem_of_find?_eq_some hj,
            eq_of_beq (List.find?_some (p := fun j => (slotOf j s).keyId == e.keyId) hj), hmac.symm⟩

/-- Settles O33: the verdict and the tag of a lane, and what a lane takes. -/
theorem cryptoLanes : Obligations.CryptoLanes := by
  unfold Obligations.CryptoLanes
  refine ⟨fun lane j h a s hlane hj hver hw ht => ?_, fun k auth f s h => of_verify_pass h,
    fun t s hl hw ht hpub => ?_, fun lane j t s hlane hj htag hfault hpub hauth hcount hw ht => ?_⟩
  · intro v
    have hexec : exec (.verificationVerdict lane) s =
        .next (fillLanes (afterVerdict h a (v == 0) (countSlot j.slot v (freeLane lane s)))) := by
      show execVerificationVerdict lane s = _
      rw [execVerificationVerdict, decide_eq_true hlane, hj]
      dsimp only
      rw [hver]
      rfl
    obtain ⟨hkey, hwait⟩ := sameLanes_afterVerdict h a (v == 0) (countSlot j.slot v (freeLane lane s))
    rw [fillLanes_of_idle (hwait.trans hw) ((congrArg Keys.tags hkey).trans ht)] at hexec
    refine ⟨_, hexec, ?_, ?_, fun hv hdrop hop => ?_⟩
    · rw [hkey]
      exact look_del_self _ _
    · rw [hkey]
      exact lookD_bump_self _ _
    · rw [beq_false_of_ne hv]
      exact afterVerdict_drops hdrop hop _
  · intro x hsound
    obtain ⟨p, hfill⟩ := fillLanes_of_tag hl hw ht
    have htest : testSlot (tagSlot t.slot s) (loadAsk 0 { s with key := { s.key with ptr := p, tags := [] } }) =
        loadAsk 0 { s with key := { s.key with ptr := p, tags := [] } } := testSlot_of_sound hsound
    have hload : loadTag 0 t { s with key := { s.key with ptr := p, tags := [] } } = setLane 0 {
        tag := some t
        slot := tagSlot t.slot s
        fault := tagStatus x t.auth t.owner s
        work := if tagStatus x t.auth t.owner s = stOk then x else {} }
        (loadAsk 0 { s with key := { s.key with ptr := p, tags := [] } }) := by
      show (let s1 := testSlot (tagSlot t.slot s) (loadAsk 0 { s with key := { s.key with ptr := p, tags := [] } })
        let k := tagSlot t.slot s1
        let st := tagStatus (slotOf k s1) t.auth t.owner s1
        setLane 0 { tag := some t, slot := k, fault := st, work := if st = stOk then slotOf k s1 else {} } s1) = _
      rw [htest]
      rfl
    rw [hfill, hload]
    exact ⟨rfl, look_put_self _ _ _⟩
  · have hexec : exec (.tag lane) s = .next (fillLanes (sendTagged t
        (tagged t.held.frame j.work t.auth (freeLane lane s)) (countSlot j.slot 5 (nextIv (freeLane lane s))))) := by
      show execTag lane s = _
      rw [execTag, decide_eq_true hlane, hj]
      dsimp only
      rw [htag]
      dsimp only
      rw [if_pos hfault, if_pos hauth]
      rfl
    have hiv : nextIv (freeLane lane s) = { freeLane lane s with key := { (freeLane lane s).key with
        tagCount := s.key.tagCount + 1 } } := if_pos hcount
    have hsend : sendTagged t (tagged t.held.frame j.work t.auth (freeLane lane s))
        (countSlot j.slot 5 (nextIv (freeLane lane s))) =
        submit { t.held with frame := tagged t.held.frame j.work t.auth (freeLane lane s) } 0 0 t.owner
          (countSlot j.slot 5 (nextIv (freeLane lane s))) := by
      unfold sendTagged
      rw [hpub]
    rw [hsend, hiv, submit, if_pos rfl] at hexec
    refine ⟨_, tagged t.held.frame j.work t.auth (freeLane lane s), hexec.trans (congrArg _ (fillLanes_of_idle hw ht)),
      look_del_self _ _, rfl, lookD_bump_self _ _, rfl,
      ⟨_, rfl, rfl, if_pos hauth, rfl⟩, rfl⟩

/-! ### Ageing, return and supervision (R271, R282, R284) -/

/-- A supervision frame is counted on its side, and leaves the redundancy sets (R284). -/
theorem sendSup_spec {i : Nat} {r : Redun} {f : Frame} (hr : look s.sw.redun i = some r) (hi : i < 12) (ha : r.portA < 48)
    (hb : r.portB < 48) (hq : r.supPcp < 8) : (sendSup i f s).sw.redun = s.sw.redun ∧
    lookD (sendSup i f s).sw.cnt (80000 + (i * 2) * 8 + 7) 0 =
      (lookD s.sw.cnt (80000 + (i * 2) * 8 + 7) 0 + 1) % 2 ^ 64 ∧
    lookD (sendSup i f s).sw.cnt (80000 + (i * 2 + 1) * 8 + 7) 0 =
      (lookD s.sw.cnt (80000 + (i * 2 + 1) * 8 + 7) 0 + 1) % 2 ^ 64 := by
  unfold sendSup
  rw [hr]
  dsimp only
  generalize hq1 : nameCopies [r.portA, r.portB] { frame := f, info := { src := 51 } } s = q1
  have hs1 : q1.2.sw.redun = s.sw.redun ∧ q1.2.sw.cnt = s.sw.cnt := by
    rw [← hq1, nameCopies]
    split <;> exact ⟨rfl, rfl⟩
  obtain ⟨henq, hcnt⟩ := enqueued_enqueue q1.1 (r.portA * 8 + r.supPcp) 0 q1.2
  have hcode := (admitCode_spec (r.portA * 8 + r.supPcp) (cellsOf q1.1.frame) 0 q1.2).1
  generalize enqueue q1.1 (r.portA * 8 + r.supPcp) 0 q1.2 = s2 at henq hcnt ⊢
  have hred2 : s2.sw.redun = q1.2.sw.redun := by
    obtain ⟨_, _, _, _, _, _, _, _, _, _, rfl⟩ := henq
    rfl
  obtain ⟨henq', hcnt'⟩ := enqueued_enqueue q1.1 (r.portB * 8 + r.supPcp) 0 (countRed i 0 7 s2)
  have hcode' := (admitCode_spec (r.portB * 8 + r.supPcp) (cellsOf q1.1.frame) 0 (countRed i 0 7 s2)).1
  generalize enqueue q1.1 (r.portB * 8 + r.supPcp) 0 (countRed i 0 7 s2) = s3 at henq' hcnt' ⊢
  have hred3 : s3.sw.redun = s2.sw.redun := by
    obtain ⟨_, _, _, _, _, _, _, _, _, _, rfl⟩ := henq'
    rfl
  refine ⟨hred3.trans (hred2.trans hs1.1), ?_, ?_⟩
  · show lookD (bump s3.sw.cnt (80000 + (i * 2 + 1) * 8 + 7)) (80000 + (i * 2) * 8 + 7) 0 = _
    rw [lookD_bump_other _ (by omega), hcnt', lookD_bump_other _ (by omega)]
    show lookD (bump s2.sw.cnt (80000 + (i * 2) * 8 + 7)) (80000 + (i * 2) * 8 + 7) 0 = _
    rw [lookD_bump_self, hcnt, lookD_bump_other _ (by omega), hs1.2]
  · show lookD (bump s3.sw.cnt (80000 + (i * 2 + 1) * 8 + 7)) (80000 + (i * 2 + 1) * 8 + 7) 0 = _
    rw [lookD_bump_self, hcnt', lookD_bump_other _ (by omega)]
    show (lookD (bump s2.sw.cnt (80000 + (i * 2 + 0) * 8 + 7)) (80000 + (i * 2 + 1) * 8 + 7) 0 + 1) % _ = _
    rw [lookD_bump_other _ (by omega), hcnt, lookD_bump_other _ (by omega), hs1.2]

/-- Settles O34: each row by what it holds. -/
theorem ageingAndReturn : Obligations.AgeingAndReturn := by
  unfold Obligations.AgeingAndReturn
  refine ⟨fun k x s hk hx => ⟨fun hage => ?_, fun hage hheld => ?_⟩, fun g m t x s h1 h15 hm hx hup hdue => ?_,
    fun i r s hi hr hdue hstart hmode ha hb hq => ?_⟩
  · show execEntryForget k s = _
    unfold execEntryForget
    rw [hx]
    exact named_act (decide_eq_true hk) (decide_eq_true hage)
  · refine ⟨raise { src := 7, code := 0x0411, index := x.inst } { s with sw := { s.sw with nodes := del s.sw.nodes k } },
      ?_, look_del_self _ _, raise_osn (s := { s with sw := { s.sw with nodes := del s.sw.nodes k } }) hheld⟩
    show execNodeForget k s = _
    unfold execNodeForget
    rw [hx]
    exact named_act (decide_eq_true hk) (decide_eq_true hage)
  · intro own hown
    refine ⟨pathMoved g { s with sw := { s.sw with paths := put s.sw.paths g { x with buckets := own } } }, ?_,
      look_put_self _ _ _, getLsbD_latch_self _ (by decide)⟩
    show execPathReturn g m s = _
    unfold execPathReturn
    rw [hx]
    refine named_act (by simp [h1, h15, hm]) ?_
    rw [hup]
    exact Bool.and_eq_true_iff.mpr ⟨decide_eq_true hdue, bne_iff_ne.mpr hown⟩
  · have hall : ([r.node] ++ if 3 ≤ r.mode then r.proxy else []) = [r.node] := by
      rw [if_neg (Nat.not_le.mpr hmode)]
      rfl
    have hexec : ∃ r', r'.portA = r.portA ∧ r'.portB = r.portB ∧ r'.supPcp = r.supPcp ∧
        r'.supAt = s.clk.frc + r.lifeMs * 1000000 ∧ r'.counter = r.counter ∧
        exec (.supervisionTx i) s = .next (sendSup i (supFrame r ((r.supSeq + 0) % 65536) r.node)
          { s with sw := { s.sw with redun := put s.sw.redun i r' } }) := by
      refine ⟨_, ?_, ?_, ?_, ?_, ?_, (show execSupervisionTx i s = _ by
        unfold execSupervisionTx
        rw [hr]
        dsimp only
        rw [hall]
        exact named_act (decide_eq_true hi) (by rw [hstart, decide_eq_true hdue]; rfl))⟩ <;> rfl
    obtain ⟨r', hpa, hpb, hpq, hat, hcounter, hexec⟩ := hexec
    obtain ⟨hred, hcntA, hcntB⟩ := sendSup_spec (f := supFrame r ((r.supSeq + 0) % 65536) r.node) (r := r')
      (s := { s with sw := { s.sw with redun := put s.sw.redun i r' } }) (look_put_self _ _ _) hi (by omega) (by omega)
      (by omega)
    refine ⟨_, hexec, ?_, hcntA, hcntB⟩
    rw [hred]
    dsimp only
    rw [look_put_self, Option.map_some, hat, hcounter]

end Sys2Proof.Machine
end

section
/-! Proof of the statements on SEND and RECV, PUBLISH and EXPORT. -/

namespace Sys2Proof.Machine

open Sys2Proof

set_option Elab.async false

variable {b op r st : Nat} {seq : Word} {e : JRec} {x : Option Word} {s t u v : State}

/-! ### The entry of an operation (R103, R120, R126) -/

theorem entryOf_of_find (horph : s.rng.orphans.any (isEntry r (genOf r s) seq) = false) :
    entryOf r seq s = findEntry r (genOf r s) seq s := by
  have hnone : s.rng.orphans.find? (isEntry r (genOf r s) seq) = none :=
    List.find?_eq_none.mpr fun j hj => by simpa using List.any_eq_false.mp horph j hj
  rw [entryOf, opEntry, hnone, Option.none_or]

theorem genOf_congr (h : t.rng.rings = s.rng.rings) (r : Nat) : genOf r t = genOf r s := by
  rw [genOf, genOf, h]

/-- The generation, the journal and the orphans decide the entry of an operation. -/
theorem entryOf_congr (h : t.rng = s.rng) (r : Nat) (seq : Word) : entryOf r seq t = entryOf r seq s := by
  rw [entryOf, entryOf, genOf_congr (congrArg Rng.rings h), opEntry, opEntry, findEntry, findEntry, h]

/-- The operation runs: its entry, of its ring's present generation, is in the journal alone and not at its end. -/
structure Runs (r : Nat) (seq : Word) (e : JRec) (s : State) : Prop where
  find : findEntry r (genOf r s) seq s = some e
  alone : s.rng.orphans.any (isEntry r (genOf r s) seq) = false
  live : e.stage ≠ .finished
  fresh : e.replayed = false

namespace Runs

theorem entry (h : Runs r seq e s) : entryOf r seq s = some e := (entryOf_of_find h.alone).trans h.find

theorem gen (h : Runs r seq e s) : e.gen = genOf r s := by
  have hself : isEntry r (genOf r s) seq e = true := List.find?_some h.find
  simp only [isEntry, Bool.and_eq_true, beq_iff_eq] at hself
  exact hself.1.2

theorem congr (h : Runs r seq e s) (ht : t.rng = s.rng) : Runs r seq e t := by
  have hgen := genOf_congr (congrArg Rng.rings ht) r
  refine ⟨?_, ?_, h.live, h.fresh⟩
  · rw [findEntry, hgen, ht]
    exact h.find
  · rw [hgen, ht]
    exact h.alone

theorem started (h : Runs r seq e s) (hstage : e.stage = .started) : startedIn r seq s := by
  show (entryOf r seq s).map _ = _
  rw [h.entry, Option.map_some, hstage]

/-- An operation that finishes holds its status and its result (R109, R126). -/
theorem finish (h : Runs r seq e s) (st : Nat) (x : Option Word) (short : Bool) :
    endedAs r seq st x (finishOp r e.gen seq st x short s) := by
  have hself : isEntry r (genOf r s) seq e = true := List.find?_some h.find
  have hgen : genOf r (finishOp r (genOf r s) seq st x short s) = genOf r s := rfl
  rw [h.gen]
  have halone : (finishOp r (genOf r s) seq st x short s).rng.orphans.any (isEntry r (genOf r s) seq) = false := by
    refine List.any_eq_false.mpr fun j hj => ?_
    simpa using (List.mem_filter.mp hj).2
  have hsame : (isEntry r (genOf r s) seq ∘ fun j => if isEntry r (genOf r s) seq j && j.stage != .finished then
      { j with stage := .finished, status := if j.replayed then 0x50 else st, result := x,
               cflags := j.cflags + 2 * b2n short } else j) = isEntry r (genOf r s) seq := by
    funext j
    simp only [Function.comp_apply]
    split <;> rfl
  have hfind : findEntry r (genOf r s) seq (finishOp r (genOf r s) seq st x short s) =
      some { e with stage := .finished, status := st, result := x, cflags := e.cflags + 2 * b2n short } := by
    rw [findEntry, finishOp]
    dsimp only
    rw [List.find?_map, hsame]
    have hfind : s.rng.jrnl.find? (isEntry r (genOf r s) seq) = some e := h.find
    simp [hfind, hself, h.live, h.fresh]
  show (entryOf r seq (finishOp r (genOf r s) seq st x short s)).map _ = _
  rw [entryOf_of_find (by rw [hgen]; exact halone), hgen, hfind]
  rfl

theorem finishNow (h : Runs r seq e s) (st : Nat) (x : Option Word) : endedAs r seq st x (finishNow r seq st x s) := by
  rw [Machine.finishNow, ← h.gen]
  exact h.finish st x false

end Runs

/-- What an operation at its start meets: its entry waits, unsaved, and has its opcode. -/
theorem of_opAt (h : opAt b op r seq e s) :
    Runs r seq e s ∧ e.stage = .waiting ∧ e.saved = false ∧ opOf e.desc = op ∧ bindingOf r s = b := by
  obtain ⟨-, hready, hfind, horph, hrep, -⟩ := h
  have hentry : entryOf r seq s = some e := (entryOf_of_find horph).trans hfind
  rw [opReady, mayStart, hentry] at hready
  simp only [Bool.and_eq_true, beq_iff_eq, Option.map_some, Option.getD_some, Bool.not_eq_true'] at hready
  obtain ⟨⟨hbind, ⟨⟨⟨hstage, hsaved⟩, -⟩, -⟩, -⟩, hop⟩ := hready
  exact ⟨⟨hfind, horph, by rw [hstage]; decide, hrep⟩, hstage, hsaved, hop, hbind⟩

/-- Operations that begin mark every entry of their ring, generation and sequence (R126). -/
def begun (r gen : Nat) (seq : Word) (j : JRec) : JRec := if isEntry r gen seq j then { j with stage := .started } else j

theorem isEntry_begun (r gen : Nat) (seq : Word) : isEntry r gen seq ∘ begun r gen seq = isEntry r gen seq := by
  funext j
  simp only [Function.comp_apply, begun]
  split <;> rfl

theorem markStarted_of_runs (h : Runs r seq e s) :
    markStarted r seq s = { s with rng := { s.rng with jrnl := s.rng.jrnl.map (begun r (genOf r s) seq) } } := by
  rw [markStarted, modEntry]
  dsimp only
  rw [if_neg (by rw [h.alone]; decide)]
  rfl

theorem runs_markStarted (h : Runs r seq e s) : Runs r seq { e with stage := .started } (markStarted r seq s) := by
  have hself : isEntry r (genOf r s) seq e = true := List.find?_some h.find
  have hgen : genOf r (markStarted r seq s) = genOf r s := by
    rw [markStarted_of_runs h]
    rfl
  refine ⟨?_, ?_, nofun, h.fresh⟩
  · rw [findEntry, hgen, markStarted_of_runs h]
    dsimp only
    rw [List.find?_map, isEntry_begun]
    have hfind : s.rng.jrnl.find? (isEntry r (genOf r s) seq) = some e := h.find
    rw [hfind, Option.map_some, begun, if_pos hself]
  · rw [hgen, markStarted_of_runs h]
    exact h.alone

/-! ### Rows of the emitting bindings on a module that stands alone (R107, R474) -/

theorem shadowed_of_standalone (h : s.gft.role = .standalone) (r : Nat) : shadowed r s = false := by
  rw [shadowed, h]
  rfl

theorem noteCrc_of_standalone (h : s.gft.role = .standalone) (b r : Nat) (seq : Word) (p : Option Payload) :
    noteCrc b r seq p s = s := by
  have hact : ¬ activePaired s = true := by
    rw [activePaired, h]
    exact nofun
  exact if_neg fun hand => hact hand.2.1

theorem markStarted_gft (h : Runs r seq e s) : (markStarted r seq s).gft = s.gft := by
  rw [markStarted_of_runs h]

/-- An operation with its payload begins and takes its effect (R107). -/
theorem emitRow_of_passed {p : Payload} {eff : State → State} (h : opAt b op r seq e s)
    (hp : .payload r seq p ∈ s.cnp.passed) :
    emitRow b op r seq (some p) s eff = .next (eff (markStarted r seq (usePassed (.payload r seq p) s))) := by
  have hruns : Runs r seq e (usePassed (.payload r seq p) s) := (of_opAt h).1.congr rfl
  obtain ⟨hr, hready, -, -, -, hrole⟩ := h
  have hhas : hasPassed (.payload r seq p) s = true := List.contains_iff_mem.mpr hp
  have hshadow : ¬ (b ≠ 4 ∧ shadowed r (usePassed (.payload r seq p) s) = true) := by
    rw [shadowed_of_standalone (s := usePassed (.payload r seq p) s) hrole]
    exact fun hand => nomatch hand.2
  refine (named_act (decide_eq_true hr) (by simp [hready, hhas])).trans (congrArg _ ?_)
  have hstand : (markStarted r seq (usePassed (.payload r seq p) s)).gft.role = .standalone := by
    rw [markStarted_gft hruns]
    exact hrole
  exact (if_neg hshadow).trans (congrArg eff (noteCrc_of_standalone hstand b r seq (some p)))

/-- An operation without a payload begins and takes its effect (R107). -/
theorem emitRow_of_bare {eff : State → State} (h : opAt b op r seq e s) :
    emitRow b op r seq none s eff = .next (eff (markStarted r seq s)) := by
  have hruns : Runs r seq e s := (of_opAt h).1
  obtain ⟨hr, hready, -, -, -, hrole⟩ := h
  have hshadow : ¬ (b ≠ 4 ∧ shadowed r s = true) := by
    rw [shadowed_of_standalone hrole]
    exact fun hand => nomatch hand.2
  refine (named_act (decide_eq_true hr) (by simp [hready])).trans (congrArg _ ?_)
  have hstand : (markStarted r seq s).gft.role = .standalone := by
    rw [markStarted_gft hruns]
    exact hrole
  exact (if_neg hshadow).trans (congrArg eff (noteCrc_of_standalone hstand b r seq none))

theorem matchHeld_of_standalone (h : s.gft.role = .standalone) (r : Nat) (seq : Word) (row : State → Out) :
    matchHeld r seq row s = row s := by
  rw [matchHeld, shadowed_of_standalone h]
  rfl

/-! ### SEND (R249, R273, R437) -/

/-- The frame of a SEND as it is submitted (R273). -/
def sentFrame (r : Nat) (seq : Word) (f : Frame) (e : JRec) : Held :=
  { frame := { f with len := lenOf e.desc + 4 }
    info := { src := 49, op := some (r, e.gen, seq)
              direct := if tbit (arg0 e.desc) 6 then some (arg0 e.desc % 64, bits (arg0 e.desc) 10 8) else none } }

/-- The record of a SEND that is on its way (R273). -/
def sentOp (r : Nat) (seq : Word) (e : JRec) : SendOp :=
  { ring := r, gen := e.gen, seq := seq, left := 1, tsWanted := tbit (arg0 e.desc) 11 }

/-- A SEND whose frame may take its tag submits it (R273, R438). -/
theorem sendEff_of_type {f : Frame} (h : Runs r seq e s) (hrole : s.gft.role = .standalone)
    (htype : sendTypeOk e.desc f = true) : sendEff r seq f s =
      submit (sentFrame r seq f e) (bits (arg0 e.desc) 22 12) (sendAuth e.desc) (r / 8)
        { s with sw := { s.sw with sends := s.sw.sends ++ [sentOp r seq e] } } := by
  have hgate : gateOpen s = true := by rw [gateOpen, hrole]
  unfold sendEff
  rw [h.entry]
  dsimp only
  rw [htype, hgate]
  rfl

theorem sendEff_of_other {f : Frame} (h : Runs r seq e s) (htype : sendTypeOk e.desc f = false) :
    sendEff r seq f s = finishNow r seq stBadArg (some 0) s := by
  unfold sendEff
  rw [h.entry]
  dsimp only
  rw [htype]
  rfl

theorem exec_send_of_passed {f : Frame} (h : opAt 1 1 r seq e s) (hp : .payload r seq (.frame f) ∈ s.cnp.passed) :
    exec (.send r seq f) s = .next (sendEff r seq f (markStarted r seq (usePassed (.payload r seq (.frame f)) s))) := by
  show execSend r seq f s = _
  rw [execSend, matchHeld_of_standalone h.2.2.2.2.2, sendRow, emitRow_of_passed h hp]

/-! ### Delivery into mapped pages (R133, R203) -/

theorem isMapped_congr {y z : Part} (h : z.pages = y.pages) (iova : Nat) : isMapped z iova = isMapped y iova := by
  rw [isMapped, isMapped, h]

theorem touch_of_mapped {p iova : Nat} {y : Part} (hy : look s.cnp.parts p = some y) (hm : isMapped y iova = true) :
    touch p iova s = some s := by
  unfold touch
  rw [hy]
  exact if_pos hm

theorem touch_of_full {p iova : Nat} {y : Part} (hy : look s.cnp.parts p = some y) (hm : isMapped y iova = false)
    (hq : y.quota ≤ mapped y) : touch p iova s = none := by
  have hsize : 0 < touchSize y iova s := by
    unfold touchSize
    split <;> decide
  have hover : (decide (y.quota < mapped y + touchSize y iova s) || decide (framesLeft s < touchSize y iova s) ||
      decide (2 ^ 48 ≤ iova)) = true := by
    rw [decide_eq_true (show y.quota < mapped y + touchSize y iova s by omega)]
    rfl
  unfold touch
  rw [hy]
  dsimp only
  rw [if_neg (by rw [hm]; decide), if_pos (by simpa using hover)]

/-- A delivery leaves the pages of its partition (R203). -/
theorem deliver_pages {p a : Nat} {d : Bytes} {y : Part} (hy : look s.cnp.parts p = some y) :
    ∃ z, look (deliver p a d s).cnp.parts p = some z ∧ z.pages = y.pages := by
  have hstage (l : List Nat) (y : Part) : (l.foldl (stagePage p s.mem) y).pages = y.pages := by
    induction l generalizing y with
    | nil => rfl
    | cons k ks ih =>
      refine (ih _).trans ?_
      unfold stagePage
      split <;> rfl
  refine ⟨noteLines a d.length (stagePages p a d.length s.mem { y with lines := y.lines ++ linesOf a d.length }), ?_, ?_⟩
  · unfold deliver
    dsimp only
    rw [look_alter_self, hy]
    rfl
  · have hpages : (stagePages p a d.length s.mem { y with lines := y.lines ++ linesOf a d.length }).pages = y.pages := by
      unfold stagePages
      split
      · rfl
      · exact hstage _ _
    unfold noteLines
    split
    · exact hpages
    · exact hpages

/-- Bytes whose pages are mapped are all delivered (R133). -/
theorem deliverPages_of_mapped {p : Nat} (n iova : Nat) (d : Bytes) {s : State} {y : Part}
    (hy : look s.cnp.parts p = some y) (hm : ∀ k, k < d.length → isMapped y (iova + k) = true)
    (hn : n ≤ (iova % 4096 + d.length + 4095) / 4096) (hnil : d = [] → n = 0) :
    (deliverPages p n iova d s).2 = true := by
  induction n generalizing iova d s y with
  | zero => rfl
  | succ n ih =>
    have hpos : 0 < d.length := List.length_pos_iff.mpr fun h => nomatch hnil h
    have hfirst : isMapped y iova = true := hm 0 hpos
    unfold deliverPages
    dsimp only
    rw [hy, Option.map_some, Option.getD_some, if_pos hfirst, touch_of_mapped hy hfirst]
    dsimp only
    obtain ⟨z, hz, hpages⟩ := deliver_pages (a := iova) (d := d.take (4096 - iova % 4096)) hy
    refine ih _ _ hz (fun k hk => ?_) ?_ fun h => ?_
    · rw [List.length_drop] at hk
      rw [isMapped_congr hpages, Nat.add_assoc]
      exact hm _ (by omega)
    · rw [List.length_drop]
      omega
    · have hlen := congrArg List.length h
      rw [List.length_drop, List.length_nil] at hlen
      omega

theorem deliverOp_of_mapped {p iova : Nat} {d : Bytes} {y : Part} (hy : look s.cnp.parts p = some y)
    (hm : ∀ k, k < d.length → isMapped y (iova + k) = true) : (deliverOp p iova d s).2 = true := by
  refine deliverPages_of_mapped _ _ _ hy hm ?_ fun h => ?_
  · split
    · exact Nat.zero_le _
    · exact Nat.le_refl _
  · rw [h]
    rfl

/-- Bytes within one mapped page are delivered at once (R133). -/
theorem deliverOp_of_page {p iova : Nat} {d : Bytes} {y : Part} (hd : d ≠ []) (hlen : d.length ≤ 4096 - iova % 4096)
    (hy : look s.cnp.parts p = some y) (hm : isMapped y iova = true) : deliverOp p iova d s = (deliver p iova d s, true) := by
  have hpos : 0 < d.length := List.length_pos_iff.mpr hd
  have hone : (if d.isEmpty then 0 else (iova % 4096 + d.length + 4095) / 4096) = 1 := by
    rw [if_neg (by simpa using hd)]
    omega
  rw [deliverOp, hone]
  unfold deliverPages
  dsimp only
  rw [hy, Option.map_some, Option.getD_some, if_pos hm, touch_of_mapped hy hm, List.take_of_length_le hlen]
  rfl

/-- Bytes of an unmapped page beyond the quota are not delivered (R133). -/
theorem deliverOp_of_full {p iova : Nat} {d : Bytes} {y : Part} (hd : d ≠ []) (hy : look s.cnp.parts p = some y)
    (hm : isMapped y iova = false) (hq : y.quota ≤ mapped y) : deliverOp p iova d s = (s, false) := by
  have hpos : 0 < d.length := List.length_pos_iff.mpr hd
  obtain ⟨k, hk⟩ : ∃ k, (if d.isEmpty then 0 else (iova % 4096 + d.length + 4095) / 4096) = k + 1 := by
    rw [if_neg (by simpa using hd)]
    exact ⟨(iova % 4096 + d.length + 4095) / 4096 - 1, by omega⟩
  rw [deliverOp, hk]
  unfold deliverPages
  dsimp only
  rw [hy, Option.map_some, Option.getD_some, if_neg (by rw [hm]; decide), touch_of_full (s := pgkAsk 15 s) hy hm hq]

/-! ### RECV (R274, R275) -/

theorem recvHeader_length (h : Held) (trunc : Bool) : (recvHeader h trunc).length = 32 := by
  simp [recvHeader]

theorem frameData_length (f : Frame) : (frameData f).length = f.len - 4 := by
  simp [frameData, padTo]

/-- The one posted buffer of a ring (R274). -/
theorem postedRecv_of_begun {y : Ring} (hring : look s.rng.rings r = some y) (hbind : y.binding = 2)
    (hruns : Runs r seq e s) (hop : opOf e.desc = 1) (hsaved : e.saved = false)
    (hidle : ∀ j ∈ s.rng.jrnl, j.ring = r → j.stage ≠ .started) (horph : ∀ j ∈ s.rng.orphans, j.ring ≠ r) :
    postedRecv r (markStarted r seq s) = some { e with stage := .started } := by
  have hgen : genOf r s = y.gen := by rw [genOf, hring]
  unfold postedRecv
  rw [markStarted_of_runs hruns]
  dsimp only
  rw [hring]
  dsimp only
  rw [if_pos hbind, hgen]
  generalize hposted : List.filter _ (s.rng.orphans ++ s.rng.jrnl.map (begun r y.gen seq)) = posted
  have hall : ∀ j ∈ posted, isEntry r y.gen seq j = true := by
    intro j hj
    rw [← hposted] at hj
    obtain ⟨hmem, hcond⟩ := List.mem_filter.mp hj
    simp only [Bool.and_eq_true, beq_iff_eq] at hcond
    obtain ⟨⟨⟨⟨hjr, -⟩, hjst⟩, -⟩, -⟩ := hcond
    rcases List.mem_append.mp hmem with hmem | hmem
    · exact absurd hjr (horph j hmem)
    · obtain ⟨i, hi, rfl⟩ := List.mem_map.mp hmem
      by_cases hself : isEntry r y.gen seq i = true
      · have hback := congrFun (isEntry_begun r y.gen seq) i
        exact hback.trans hself
      · rw [begun, if_neg hself] at hjr hjst
        exact absurd hjst (hidle i hi hjr)
  have hfind : (s.rng.jrnl.map (begun r y.gen seq)).find? (isEntry r y.gen seq) = some { e with stage := .started } := by
    have hold : s.rng.jrnl.find? (isEntry r y.gen seq) = some e := hgen ▸ hruns.find
    rw [List.find?_map, isEntry_begun, hold, Option.map_some, begun, if_pos (List.find?_some hold)]
  have hself : isEntry r y.gen seq { e with stage := .started } = true := List.find?_some hfind
  obtain ⟨-, pre, post, hsplit, hpre⟩ := List.find?_eq_some_iff_append.mp hfind
  have hpreNone : pre.filter (fun j => j.ring == r && j.gen == y.gen && j.stage == .started && !j.saved &&
      opOf j.desc == 1) = [] := by
    refine List.filter_eq_nil_iff.mpr fun j hj hcond => ?_
    have hmem : j ∈ posted := by
      rw [← hposted]
      refine List.mem_filter.mpr ⟨List.mem_append_right _ ?_, hcond⟩
      rw [hsplit]
      exact List.mem_append_left _ hj
    have := hall j hmem
    have hno := hpre j hj
    rw [this] at hno
    exact nomatch hno
  have horphNone : s.rng.orphans.filter (fun j => j.ring == r && j.gen == y.gen && j.stage == .started && !j.saved &&
      opOf j.desc == 1) = [] := by
    refine List.filter_eq_nil_iff.mpr fun j hj hcond => ?_
    simp only [Bool.and_eq_true, beq_iff_eq] at hcond
    exact horph j hj hcond.1.1.1.1
  have hmine : (e.ring == r && e.gen == y.gen && (JStage.started == .started) && !e.saved && opOf e.desc == 1) = true := by
    simp only [isEntry, Bool.and_eq_true, beq_iff_eq] at hself
    obtain ⟨⟨h1, h2⟩, -⟩ := hself
    simp [h1, h2, hsaved, hop]
  have hhead : ∃ rest, posted = { e with stage := .started } :: rest := by
    rw [← hposted, hsplit, List.filter_append, List.filter_append, horphNone, hpreNone, List.nil_append, List.nil_append]
    exact ⟨_, List.filter_cons_of_pos (p := fun j : JRec =>
      j.ring == r && j.gen == y.gen && j.stage == .started && !j.saved && opOf j.desc == 1) hmine⟩
  obtain ⟨rest, hhead⟩ := hhead
  have hseq (j : JRec) (hj : j ∈ posted) : j.seq = seq := by
    have := hall j hj
    simp only [isEntry, Bool.and_eq_true, beq_iff_eq] at this
    exact this.2
  have hfirst : (posted.all fun j => decide ((({ e with stage := .started } : JRec).seq - j.seq).toInt ≤ 0)) = true := by
    refine List.all_eq_true.mpr fun j hj => ?_
    rw [hseq j hj, hseq _ (by rw [hhead]; exact List.mem_cons_self), BitVec.sub_self]
    decide
  rw [hhead] at hfirst ⊢
  exact List.find?_cons_of_pos hfirst

end Sys2Proof.Machine
end

section
/-! Proof of the statements on SEND and RECV, PUBLISH and EXPORT: the outcomes. -/

namespace Sys2Proof.Machine

open Sys2Proof

set_option Elab.async false

variable {b op r st : Nat} {seq : Word} {e : JRec} {x : Option Word} {s t u v : State}

/-- An operation whose payload has passed begins: its entry and the payload change, nothing else (R107). -/
theorem begins_of_payload (h : opAt b op r seq e s) (p : Emission) : ∃ g,
    markStarted r seq (usePassed p s) = { usePassed p s with rng := g } ∧
    Runs r seq { e with stage := .started } { usePassed p s with rng := g } := by
  have hruns : Runs r seq e (usePassed p s) := (of_opAt h).1.congr rfl
  have hmark := markStarted_of_runs hruns
  exact ⟨_, hmark, hmark ▸ runs_markStarted hruns⟩

theorem begins_of_passed (h : opAt b op r seq e s) (p : Emission) : ∃ g c,
    markStarted r seq (usePassed p s) = { s with rng := g, cnp := c } ∧
    Runs r seq { e with stage := .started } { s with rng := g, cnp := c } := by
  obtain ⟨g, hmark, hruns⟩ := begins_of_payload h p
  exact ⟨g, _, hmark, hruns⟩

/-- An operation without a payload begins: its entry changes, nothing else (R107). -/
theorem begins_of_bare (h : opAt b op r seq e s) : ∃ g,
    markStarted r seq s = { s with rng := g } ∧ Runs r seq { e with stage := .started } { s with rng := g } := by
  have hruns : Runs r seq e s := (of_opAt h).1
  have hmark := markStarted_of_runs hruns
  exact ⟨_, hmark, hmark ▸ runs_markStarted hruns⟩

/-! ### SEND -/

/-- A SEND whose frame may take its tag is submitted while it runs (R249, R273). -/
theorem exec_send_submits {f : Frame} (h : opAt 1 1 r seq e s) (hp : .payload r seq (.frame f) ∈ s.cnp.passed)
    (htype : sendTypeOk e.desc f = true) : ∃ g c,
    Runs r seq { e with stage := .started } { s with rng := g, cnp := c } ∧
    exec (.send r seq f) s = .next (submit (sentFrame r seq f e) (bits (arg0 e.desc) 22 12) (sendAuth e.desc) (r / 8)
      { s with rng := g, cnp := c, sw := { s.sw with sends := s.sw.sends ++ [sentOp r seq e] } }) := by
  obtain ⟨g, c, hmark, hruns⟩ := begins_of_passed h (.payload r seq (.frame f))
  refine ⟨g, c, hruns, ?_⟩
  rw [exec_send_of_passed h hp, hmark]
  exact congrArg _ (sendEff_of_type (e := { e with stage := .started }) hruns h.2.2.2.2.2 htype)

/-- A SEND whose frame takes no tag for its EtherType ends (R438). -/
theorem exec_send_refused {f : Frame} (h : opAt 1 1 r seq e s) (hp : .payload r seq (.frame f) ∈ s.cnp.passed)
    (htype : sendTypeOk e.desc f = false) : ∃ t, exec (.send r seq f) s = .next t ∧
      endedAs r seq stBadArg (some 0) t ∧ t.sw = s.sw ∧ t.key = s.key ∧ t.mem = s.mem ∧ t.prt = s.prt := by
  obtain ⟨g, c, hmark, hruns⟩ := begins_of_passed h (.payload r seq (.frame f))
  refine ⟨_, (exec_send_of_passed h hp).trans (congrArg _ ((congrArg _ hmark).trans (sendEff_of_other hruns htype))),
    hruns.finishNow _ _, rfl, rfl, rfl, rfl⟩

/-! ### RECV -/

/-- A note of an input leaves the pages and the quota of its partition (R468). -/
theorem noteInput_part {p : Nat} {y : Part} (kind obj n : Nat) (d : Bytes) (hy : look s.cnp.parts p = some y) :
    ∃ z, look (noteInput p kind obj n d s).cnp.parts p = some z ∧ z.pages = y.pages ∧ z.quota = y.quota := by
  refine ⟨_, look_modPart_of _ _ s hy, ?_⟩
  split <;> exact ⟨rfl, rfl⟩

theorem noteLocal_part {p : Nat} {y : Part} (a n : Nat) (hy : look s.cnp.parts p = some y) :
    ∃ z, look (noteLocal p a n s).cnp.parts p = some z ∧ z.pages = y.pages ∧ z.quota = y.quota := by
  refine ⟨_, look_modPart_of _ _ s hy, ?_⟩
  split <;> exact ⟨rfl, rfl⟩

/-- The length of what a frame puts into a posted buffer (R274). -/
def recvLen (h : Held) (d : Desc) : Nat := min (32 + (h.frame.len - 4)) (lenOf d)

/-- The bytes that a frame puts into a posted buffer (R274, R275). -/
def recvBytes (h : Held) (d : Desc) : Bytes :=
  (recvHeader h (decide (lenOf d < 32 + (h.frame.len - 4))) ++ frameData h.frame).take (recvLen h d)

theorem recvBytes_length (h : Held) (d : Desc) : (recvBytes h d).length = recvLen h d := by
  rw [recvBytes, List.length_take, List.length_append, recvHeader_length, frameData_length, recvLen]
  omega

/-- A posted buffer that a waiting frame fills ends as the delivery says (R274). -/
theorem fillRecv_of_posted {q : Nat × Held} (hq : (s.sw.ringq.find? fun q => q.1 == r) = some q)
    (hpost : postedRecv r s = some e) (hruns : Runs r seq e s) : ∃ c,
    (∀ y, look s.cnp.parts (r / 8) = some y → ∃ z, look c.parts (r / 8) = some z ∧ z.pages = y.pages ∧ z.quota = y.quota) ∧
    let w : State := { s with cnp := c, sw := { s.sw with ringq := s.sw.ringq.erase q } }
    let d := deliverOp (r / 8) (iovaOf e.desc) (recvBytes q.2 e.desc) w
    (d.2 = true → ∃ short, fillRecv r s =
      finishOp r e.gen seq stOk (some (BitVec.ofNat 32 (recvLen q.2 e.desc))) short d.1) ∧
    (d.2 = false → fillRecv r s = finishOp r e.gen seq stOverQuota none false d.1) := by
  have hself : isEntry r (genOf r s) seq e = true := List.find?_some hruns.find
  have hseq : e.seq = seq := by
    simp only [isEntry, Bool.and_eq_true, beq_iff_eq] at hself
    exact hself.2
  refine ⟨(localHeader (r / 8) (iovaOf e.desc) (noteInput (r / 8) 2 r e.seq.toNat
      ((plainHeader q.2 (decide (lenOf e.desc < 32 + (q.2.frame.len - 4))) ++ frameData q.2.frame).take
        (recvLen q.2 e.desc)) s)).cnp, ?_, ?_⟩
  · intro y hy
    obtain ⟨z1, hz1, hp1, hq1⟩ := noteInput_part 2 r e.seq.toNat
      ((plainHeader q.2 (decide (lenOf e.desc < 32 + (q.2.frame.len - 4))) ++ frameData q.2.frame).take
        (recvLen q.2 e.desc)) hy
    obtain ⟨z2, hz2, hp2, hq2⟩ := noteLocal_part (iovaOf e.desc + 8) 12 hz1
    obtain ⟨z3, hz3, hp3, hq3⟩ := noteLocal_part (iovaOf e.desc) 2 hz2
    exact ⟨z3, hz3, hp3.trans (hp2.trans hp1), hq3.trans (hq2.trans hq1)⟩
  · intro w d
    have hfill : fillRecv r s = if d.2 then
        finishOp r e.gen e.seq stOk (some (BitVec.ofNat 32 (recvLen q.2 e.desc)))
          (decide (recvLen q.2 e.desc < lenOf e.desc)) d.1
        else finishOp r e.gen e.seq stOverQuota none false d.1 := by
      unfold fillRecv
      rw [hq, hpost]
      rfl
    refine ⟨fun hd => ⟨decide (recvLen q.2 e.desc < lenOf e.desc), ?_⟩, fun hd => ?_⟩
    · rw [hfill, if_pos hd, hseq]
    · rw [hfill, if_neg (by rw [hd]; decide), hseq]

theorem exec_recv_of_ready (h : opAt 2 1 r seq e s) : exec (.recv r seq) s = .next (recvEff r seq s) :=
  named_act (decide_eq_true h.1) h.2.1

/-- Settles O35: SEND by its frame and the lanes, RECV by its ring and the pages of its buffer. -/
theorem sendAndReceive : Obligations.SendAndReceive := by
  unfold Obligations.SendAndReceive
  constructor
  · intro r seq f e s h hp hd t sends
    have hstarted {g : Rng} {c : Cnp} (hruns : Runs r seq { e with stage := .started } { s with rng := g, cnp := c })
        {u : State} (hu : u.rng = g) : startedIn r seq u := (hruns.congr hu).started rfl
    refine ⟨fun h0 => ?_, fun h0 htype hfree => ?_, fun h0 htype hl hw ht => ?_, fun h0 h1 h2 => ?_⟩
    · obtain ⟨g, c, hruns, hexec⟩ := exec_send_submits h hp (by simp [sendTypeOk, h0])
      refine ⟨_, hexec.trans (congrArg _ (if_pos h0)), hstarted hruns rfl, rfl, rfl, rfl, rfl, rfl, rfl⟩
    · obtain ⟨g, c, hruns, hexec⟩ := exec_send_submits h hp (by rcases htype with h | h <;> simp [sendTypeOk, h])
      refine ⟨_, hexec.trans (congrArg _ ((if_neg h0).trans (fillLanes_of_full hfree))), hstarted hruns rfl, rfl, rfl, rfl,
        rfl, rfl, rfl⟩
    · obtain ⟨g, c, hruns, hexec⟩ := exec_send_submits h hp (by rcases htype with h | h <;> simp [sendTypeOk, h])
      obtain ⟨p, hfill⟩ := fillLanes_of_tag (t := t) (s := { s with
        rng := g
        cnp := c
        sw := { s.sw with sends := s.sw.sends ++ [sentOp r seq e] }
        key := { s.key with tags := s.key.tags ++ [t] } }) hl hw (by rw [ht]; rfl)
      have htest := testKeeps_testSlot (tagSlot t.slot { s with
        rng := g
        cnp := c
        sw := { s.sw with sends := s.sw.sends ++ [sentOp r seq e] }
        key := { s.key with tags := [], ptr := p } }) (loadAsk 0 { s with
        rng := g
        cnp := c
        sw := { s.sw with sends := s.sw.sends ++ [sentOp r seq e] }
        key := { s.key with tags := [], ptr := p } })
      obtain ⟨hsw, -, htags, -, hprt, hrng, -⟩ := htest
      refine ⟨_, hexec.trans (congrArg _ ((if_neg h0).trans hfill)), hstarted hruns hrng, ?_, ?_, htags, ?_, hprt⟩
      · exact (congrArg Sw.sends hsw :)
      · exact (congrArg Sw.store hsw :)
      · exact congrArg (Option.map _) (look_put_self _ _ _)
    · exact exec_send_refused h hp (by simp [sendTypeOk, h0, h1, h2])
  · intro r seq e x s h hx
    obtain ⟨hruns, hstage, hsaved, hop, hbind⟩ := of_opAt h
    have hring : x.binding = 2 := by
      rw [bindingOf, ringOf, hx] at hbind
      exact hbind
    have heff : recvEff r seq s = if x.st == .on then fillRecv r (markStarted r seq s)
        else finishOp r e.gen seq stOk (some 0) true s := by
      unfold recvEff
      rw [hruns.entry]
      dsimp only
      rw [hx]
      rfl
    obtain ⟨g, hmark, hbegun⟩ := begins_of_bare h
    refine ⟨fun hst => ?_, fun hst hq => ?_, fun q y hst hq hidle horph hy => ?_⟩
    · refine ⟨_, (exec_recv_of_ready h).trans (congrArg _ (heff.trans (if_neg (by simpa using hst)))),
        hruns.finish _ _ _, rfl, rfl, rfl⟩
    · have hfill : fillRecv r (markStarted r seq s) = markStarted r seq s := by
        unfold fillRecv
        rw [hmark]
        dsimp only
        rw [hq]
      refine ⟨_, (exec_recv_of_ready h).trans (congrArg _ ((heff.trans (if_pos (by rw [hst]; rfl))).trans
        (hfill.trans hmark))), hbegun.started rfl, rfl, rfl, rfl⟩
    · have hpost := postedRecv_of_begun hx hring hruns hop hsaved hidle horph
      rw [hmark] at hpost
      have hexec : exec (.recv r seq) s = .next (fillRecv r { s with rng := g }) := by
        rw [exec_recv_of_ready h, heff, if_pos (by rw [hst]; rfl), hmark]
      obtain ⟨c, hparts, hfilled, hfull⟩ := fillRecv_of_posted (s := { s with rng := g }) hq hpost hbegun
      obtain ⟨z, hz, hpages, hquota⟩ := hparts y hy
      obtain ⟨f', g', c', m', hdeliver⟩ := deliverOp_frame (r / 8) (iovaOf e.desc) (recvBytes q.2 e.desc)
        { s with rng := g, cnp := c, sw := { s.sw with ringq := s.sw.ringq.erase q } }
      refine ⟨fun hmapped => ?_, fun hpos hmapped hover => ?_⟩
      · obtain ⟨short, hfill⟩ := hfilled (deliverOp_of_mapped hz fun k hk => by
          rw [isMapped_congr hpages]
          exact hmapped k (lt_of_lt_of_eq hk (recvBytes_length q.2 e.desc)))
        refine ⟨_, hexec.trans (congrArg _ hfill), ?_, ?_, ?_⟩
        · rw [hdeliver]
          exact (hbegun.congr rfl).finish _ _ _
        · rw [hdeliver]
          rfl
        · rw [hdeliver]
          rfl
      · have hnone := deliverOp_of_full (p := r / 8) (iova := iovaOf e.desc) (d := recvBytes q.2 e.desc)
          (s := { s with rng := g, cnp := c, sw := { s.sw with ringq := s.sw.ringq.erase q } }) (fun h => by
            have hlen0 : recvLen q.2 e.desc = 0 := by rw [← recvBytes_length, h]; rfl
            rw [recvLen] at hlen0
            omega) hz ((isMapped_congr hpages _).trans hmapped) (by
            have hmap : mapped z = mapped y := by rw [mapped, mapped, hpages]
            rw [hquota, hmap]
            exact hover)
        have hfill := hfull (congrArg Prod.snd hnone)
        rw [hnone] at hfill
        exact ⟨_, hexec.trans (congrArg _ hfill), (hbegun.congr rfl).finish _ _ _, rfl, rfl⟩

end Sys2Proof.Machine
end

section
/-! Proof of the statement on PUBLISH and EXPORT. -/

namespace Sys2Proof.Machine

open Sys2Proof

set_option Elab.async false

variable {b op r st n num : Nat} {seq : Word} {e : JRec} {x : XOp} {z : SRec} {s t u v w : State}

/-! ### PUBLISH (R353, R354) -/

@[simp] theorem pubOf_setPub (n : Nat) (p : GPub) (s : State) : pubOf n (setPub n p s) = p := lookD_put_self _ _ _ _

theorem pubOf_setPub_other {k n : Nat} (h : k ≠ n) (p : GPub) (s : State) : pubOf k (setPub n p s) = pubOf k s :=
  lookD_put_other _ _ _ h

/-- A publication frame that reaches SE0 is one more in flight (R353). -/
theorem pubOf_toSe0Tx {p : GPub} (h : look s.gse.pubs n = some p) (f : Held) :
    pubOf n (toSe0Tx n f s) = { p with inFlight := p.inFlight + 1 } := by
  rw [pubOf, toSe0Tx, lookD, look_alter_self, h]
  rfl

theorem pubOf_toSe0Tx_other {k : Nat} (h : k ≠ n) (f : Held) : pubOf k (toSe0Tx n f s) = pubOf k s := by
  rw [pubOf, toSe0Tx, lookD, look_alter_other _ _ h]
  rfl

theorem toSe0Tx_store_length (n : Nat) (f : Held) (s : State) :
    (lookD (toSe0Tx n f s).sw.store 48 []).length = (lookD s.sw.store 48 []).length + 1 := by
  rw [toSe0Tx, lookD_put_self, List.length_append]
  rfl

/-- The request of a publication's tag (R353, R437). -/
def pubReq (n gap : Nat) (o : Option (Nat × Nat × Word)) (s : State) : TagReq :=
  { held := { frame := pubFrame (pubOf n s) gap s, info := { src := 48, pub := some n } }
    slot := pWord (pubOf n s) 6 % 2048
    auth := pubAuth (pubOf n s)
    owner := pubRing (pubOf n s) / 8
    pub := some n
    op := o
    result := (pubOf n s).vals.stNum }

theorem sendPub_of_plain (hgate : gateOpen s = true) (hauth : pubAuth (pubOf n s) = 0) (gap : Nat)
    (o : Option (Nat × Nat × Word)) :
    sendPub n gap o s = finishPub (pubReq n gap o s) stOk (toSe0Tx n (pubReq n gap o s).held s) := by
  unfold sendPub
  dsimp only
  rw [hgate, if_neg (by decide), if_pos hauth]
  rfl

theorem sendPub_of_auth (hgate : gateOpen s = true) (hauth : pubAuth (pubOf n s) ≠ 0) (gap : Nat)
    (o : Option (Nat × Nat × Word)) :
    sendPub n gap o s = fillLanes { s with key := { s.key with tags := s.key.tags ++ [pubReq n gap o s] } } := by
  unfold sendPub
  dsimp only
  rw [hgate, if_neg (by decide), if_neg hauth]
  rfl

/-- The entry as a change leaves it (R353). -/
def pubChanged (d : Desc) (data : Bytes) (s : State) : State :=
  countPub (arg0 d % 1024) 0 (setPub (arg0 d % 1024)
    (pubChange (pubOf (arg0 d % 1024) s) (padTo (lenOf d) data) (arg1 d) s) s)

theorem publishEff_of_off {data : Bytes} (h : Runs r seq e s) (hen : (pubOf (arg0 e.desc % 1024) s).en ≠ .on) :
    publishEff r seq data s = finishNow r seq stWrongState none s := by
  unfold publishEff
  rw [h.entry]
  exact if_pos hen

theorem publishEff_of_same {data : Bytes} (h : Runs r seq e s) (hen : (pubOf (arg0 e.desc % 1024) s).en = .on)
    (hpub : (pubOf (arg0 e.desc % 1024) s).published = true)
    (hdata : (pubOf (arg0 e.desc % 1024) s).vals.data = padTo (lenOf e.desc) data)
    (hnum : (pubOf (arg0 e.desc % 1024) s).vals.numEntries = arg1 e.desc) :
    publishEff r seq data s = finishNow r seq stOk (some (BitVec.ofNat 32 (pubOf (arg0 e.desc % 1024) s).vals.stNum))
      (countPub (arg0 e.desc % 1024) 1 s) := by
  unfold publishEff
  rw [h.entry]
  exact (if_neg (not_not.mpr hen)).trans (if_pos (by simp [hpub, hdata, hnum]))

theorem publishEff_of_change {data : Bytes} (h : Runs r seq e s) (hen : (pubOf (arg0 e.desc % 1024) s).en = .on)
    (hchange : (pubOf (arg0 e.desc % 1024) s).published = false ∨
      (pubOf (arg0 e.desc % 1024) s).vals.data ≠ padTo (lenOf e.desc) data ∨
      (pubOf (arg0 e.desc % 1024) s).vals.numEntries ≠ arg1 e.desc) :
    publishEff r seq data s = sendPub (arg0 e.desc % 1024) (pubGap (pubOf (arg0 e.desc % 1024) s) 1)
      (some (r, e.gen, seq)) (pubChanged e.desc data s) := by
  unfold publishEff
  rw [h.entry]
  refine (if_neg (not_not.mpr hen)).trans (if_neg ?_)
  rcases hchange with h | h | h <;> simp [h]

theorem exec_publish_of_passed {data : Bytes} (h : opAt 3 1 r seq e s) (hp : .payload r seq (.bytes data) ∈ s.cnp.passed) :
    exec (.publish r seq data) s =
      .next (publishEff r seq data (markStarted r seq (usePassed (.payload r seq (.bytes data)) s))) := by
  show execPublish r seq data s = _
  rw [execPublish, matchHeld_of_standalone h.2.2.2.2.2, publishRow, emitRow_of_passed h hp]

/-! ### EXPORT (R413, R417) -/

/-- A change of a stored record is a change of the record that its number finds. -/
theorem bufferRec_modStored {f : SRec → SRec} (hf : ∀ y, (f y).num = y.num) (h : bufferRec n num s = some z) :
    bufferRec n num (modStored n num f s) = some (f z) := by
  have hrec : recOf n (modStored n num f s) =
      { recOf n s with stored := (recOf n s).stored.map fun y => if y.num = num then f y else y } := lookD_put_self _ _ _ _
  have hsame : ((fun y : SRec => y.num == num) ∘ fun y => if y.num = num then f y else y) = fun y => y.num == num := by
    funext y
    simp only [Function.comp_apply]
    split
    · rw [hf]
    · rfl
  have hnum : z.num = num := eq_of_beq (List.find?_some (p := fun y : SRec => y.num == num) h)
  rw [bufferRec, hrec]
  dsimp only
  rw [List.find?_map, hsame]
  have hz : (recOf n s).stored.find? (fun y => y.num == num) = some z := h
  rw [hz, Option.map_some, if_pos hnum]

theorem bufferRec_congr (h : t.acq.recs = s.acq.recs) (n num : Nat) : bufferRec n num t = bufferRec n num s := by
  rw [bufferRec, bufferRec, recOf, recOf, h]

/-- A record that is kept is found among those that are held (R414). -/
theorem storedRec_of_kept (h : bufferRec n num s = some z) (hz : z.released = false) : storedRec n num s ≠ none := by
  have hmem := List.mem_of_find?_eq_some h
  have hnum := List.find?_some (p := fun y : SRec => y.num == num) h
  intro hnone
  exact List.find?_eq_none.mp hnone z (List.mem_filter.mpr ⟨hmem, by rw [hz]; rfl⟩) hnum

/-- An EXPORT of a record that is kept leaves the engine, and changes nothing else (R414). -/
theorem quitExport_of_kept (h : bufferRec x.recNo x.num s = some z) (hz : z.released = false) :
    ∃ a, quitExport x s = { s with acq := a } := by
  have hbuf := bufferRec_modStored (f := fun y => { y with running := y.running - 1 }) (fun _ => rfl)
    (s := { s with acq := { s.acq with exports := s.acq.exports.erase x } }) h
  unfold quitExport
  dsimp only
  rw [hbuf]
  dsimp only
  rw [hz]
  exact ⟨_, rfl⟩

/-- What an EXPORT has left, of a record that is kept (R413). -/
theorem exportLeft_of_kept (h : bufferRec x.recNo x.num s = some z) :
    exportLeft x s = ((z.data.drop x.off).take x.len).drop x.copied := by
  rw [exportLeft, h]
  rfl

section
variable (hbuf : bufferRec x.recNo x.num s = some z) (hz : z.released = false) {d : Bytes}
  (hleft : exportLeft x s = d)
include hbuf hz hleft

/-- The last piece of an EXPORT ends it (R413). -/
theorem exportStep_ends (hlen : d.length ≤ 4096 - (x.iova + x.copied) % 4096)
    (hd : deliverOp (x.ring / 8) (x.iova + x.copied) d (acqAsk 16 s) = (w, true)) : ∃ a short, exportStep x s =
      finishOp x.ring x.gen x.seq stOk (some (BitVec.ofNat 32 (x.copied + d.length))) short { w with acq := a } := by
  obtain ⟨f, g, c, m, hframe⟩ := deliverOp_frame (x.ring / 8) (x.iova + x.copied) d (acqAsk 16 s)
  rw [hd] at hframe
  have hw : w.acq.recs = s.acq.recs := by
    have := congrArg (fun u : State => u.acq.recs) hframe
    exact this
  generalize hu : countRec x.recNo 6 d.length { w with acq := { w.acq with
    exports := w.acq.exports.map fun y => if y = x then { x with copied := x.copied + d.length } else y } } = u
  have hurecs : u.acq.recs = s.acq.recs := by rw [← hu]; exact hw
  obtain ⟨a, hquit⟩ := quitExport_of_kept (x := { x with copied := x.copied + d.length }) (s := u)
    ((bufferRec_congr hurecs x.recNo x.num).trans hbuf) hz
  refine ⟨a, decide (stOk = stOk ∧ x.copied + d.length < x.len), ?_⟩
  unfold exportStep
  dsimp only
  rw [hleft, List.take_of_length_le hlen, hd, if_neg (by simp), if_pos rfl]
  unfold endExport
  dsimp only
  rw [hu, hquit, ← hu]
  rfl

/-- A page that cannot be mapped ends the EXPORT (R133, R413). -/
theorem exportStep_over (hd : deliverOp (x.ring / 8) (x.iova + x.copied)
      (d.take (4096 - (x.iova + x.copied) % 4096)) (acqAsk 16 s) = (acqAsk 16 s, false)) : ∃ a short, exportStep x s =
      finishOp x.ring x.gen x.seq stOverQuota none short { s with acq := a } := by
  obtain ⟨a, hquit⟩ := quitExport_of_kept (s := acqAsk 16 s) (x := x) hbuf hz
  refine ⟨a, decide (stOverQuota = stOk ∧ x.copied < x.len), ?_⟩
  unfold exportStep
  dsimp only
  rw [hleft, hd, if_pos (by rfl)]
  unfold endExport
  rw [hquit]
  rfl
end

/-- A piece that ends at a page of the buffer is copied, and the EXPORT goes on (R413). -/
theorem exportStep_goes_on {d : Bytes} (hleft : exportLeft x s = d) (hlen : 4096 - (x.iova + x.copied) % 4096 < d.length)
    (hd : deliverOp (x.ring / 8) (x.iova + x.copied) (d.take (4096 - (x.iova + x.copied) % 4096)) (acqAsk 16 s) =
      (w, true)) : exportStep x s =
      countRec x.recNo 6 (4096 - (x.iova + x.copied) % 4096) { w with acq := { w.acq with
        exports := w.acq.exports.map fun y =>
          if y = x then { x with copied := x.copied + (4096 - (x.iova + x.copied) % 4096) } else y } } := by
  have htake : (d.take (4096 - (x.iova + x.copied) % 4096)).length = 4096 - (x.iova + x.copied) % 4096 := by
    rw [List.length_take]
    omega
  unfold exportStep
  dsimp only
  rw [hleft, hd, if_neg (by simp), htake, if_neg (by omega)]

/-- The EXPORT that an operation begins (R413). -/
def exportOf (r : Nat) (seq : Word) (e : JRec) : XOp :=
  { ring := r, gen := e.gen, seq := seq, recNo := arg0 e.desc % 16, num := arg1 e.desc, iova := iovaOf e.desc
    off := arg0 e.desc / 256 * 65536, len := lenOf e.desc }

/-- The engine with an EXPORT that begins (R413, R414). -/
def exporting (r : Nat) (seq : Word) (e : JRec) (s : State) : State :=
  modStored (arg0 e.desc % 16) (arg1 e.desc) (fun y => { y with running := y.running + 1 })
    { s with acq := { s.acq with exports := s.acq.exports ++ [exportOf r seq e] } }

theorem exportEff_of_gone (h : Runs r seq e s) (hnew : s.acq.exports.filter (isExport r e.gen seq) = [])
    (hgone : storedRec (arg0 e.desc % 16) (arg1 e.desc) s = none) :
    exportEff r seq s = finishNow r seq stNotFound (some 0) s := by
  unfold exportEff
  rw [h.entry]
  dsimp only
  rw [hnew, List.foldl_nil, hgone]

theorem exportEff_of_kept (h : Runs r seq e s) (hnew : s.acq.exports.filter (isExport r e.gen seq) = [])
    (hkept : storedRec (arg0 e.desc % 16) (arg1 e.desc) s ≠ none) :
    exportEff r seq s = exportStep (exportOf r seq e) (exporting r seq e s) := by
  obtain ⟨y, hy⟩ := Option.ne_none_iff_exists'.mp hkept
  unfold exportEff
  rw [h.entry]
  dsimp only
  rw [hnew, List.foldl_nil, hy]
  rfl

theorem exec_exportRec_of_ready (h : opAt 4 1 r seq e s) :
    exec (.exportRec r seq) s = .next (exportEff r seq (markStarted r seq s)) := by
  show execExportRec r seq s = _
  rw [execExportRec, if_pos h.2.1, emitRow_of_bare h]

/-- Bytes of an EXPORT that are none are copied at once. -/
theorem deliverOp_nil (p iova : Nat) (s : State) : deliverOp p iova [] s = (s, true) := rfl

/-- No other EXPORT of the operation stands before its own (R413). -/
theorem map_exports_of_new {f : XOp → XOp} (hnew : s.acq.exports.filter (isExport r e.gen seq) = []) :
    (s.acq.exports ++ [exportOf r seq e]).map (fun y => if y = exportOf r seq e then f y else y) =
      s.acq.exports ++ [f (exportOf r seq e)] := by
  rw [List.map_append]
  have hold : s.acq.exports.map (fun y => if y = exportOf r seq e then f y else y) = s.acq.exports := by
    refine (List.map_congr_left fun y hy => ?_).trans (List.map_id _)
    refine if_neg fun hself => ?_
    refine List.filter_eq_nil_iff.mp hnew y hy ?_
    rw [hself]
    simp [isExport, exportOf]
  rw [hold]
  simp

/-! ### The clauses of PUBLISH -/

section
variable {p : GPub} {gap : Nat} (hgate : gateOpen w = true) (hlook : look w.gse.pubs n = some p) (hruns : Runs r seq e w)
include hgate hlook hruns

/-- A change whose frame takes no tag leaves at once and ends the PUBLISH (R353). -/
theorem sendPub_ends_plain (hauth : pubAuth p = 0) : ∃ t, sendPub n gap (some (r, e.gen, seq)) w = t ∧
    ((pubOf n t).published = p.published ∧ (pubOf n t).vals = p.vals ∧
      lookD t.gse.pubCnt (n * 3) 0 = lookD w.gse.pubCnt (n * 3) 0) ∧
    endedAs r seq stOk (some (BitVec.ofNat 32 p.vals.stNum)) t ∧
    (lookD t.sw.store 48 []).length = (lookD w.sw.store 48 []).length + 1 ∧ t.mem = w.mem ∧ t.arb = w.arb := by
  have hp : pubOf n w = p := by rw [pubOf, lookD, hlook]; rfl
  have hres : (pubReq n gap (some (r, e.gen, seq)) w).result = p.vals.stNum := congrArg (fun q => q.vals.stNum) hp
  have hsend := sendPub_of_plain hgate (by rw [hp]; exact hauth) gap (some (r, e.gen, seq))
  have hop : (pubReq n gap (some (r, e.gen, seq)) w).op = some (r, e.gen, seq) := rfl
  generalize pubReq n gap (some (r, e.gen, seq)) w = q at hsend hres hop
  have hsent := pubOf_toSe0Tx hlook q.held
  have hcnt : lookD (toSe0Tx n q.held w).gse.pubCnt (n * 3) 0 = lookD w.gse.pubCnt (n * 3) 0 :=
    lookD_bump_other _ (by omega)
  have hend := (hruns.congr (t := toSe0Tx n q.held w) rfl).finish stOk (some (BitVec.ofNat 32 p.vals.stNum)) false
  have hfin (v : State) : finishPub q stOk v =
      finishOp r e.gen seq stOk (some (BitVec.ofNat 32 p.vals.stNum)) false v := by
    unfold finishPub
    rw [hop, hres]
  rw [hfin] at hsend
  exact ⟨_, hsend, ⟨(congrArg GPub.published hsent :), (congrArg GPub.vals hsent :), hcnt⟩, hend,
    toSe0Tx_store_length n _ w, rfl, rfl⟩

/-- A change whose frame takes a tag waits while no crypto lane is free (R437). -/
theorem sendPub_waits (hauth : pubAuth p ≠ 0) (hstage : e.stage = .started) (hfree : freeLanes w = []) :
    ∃ t, sendPub n gap (some (r, e.gen, seq)) w = t ∧ t.gse = w.gse ∧ startedIn r seq t ∧
      t.key.tags.length = w.key.tags.length + 1 ∧ t.sw = w.sw ∧ t.mem = w.mem := by
  have hp : pubOf n w = p := by rw [pubOf, lookD, hlook]; rfl
  have hsend := sendPub_of_auth hgate (by rw [hp]; exact hauth) gap (some (r, e.gen, seq))
  generalize pubReq n gap (some (r, e.gen, seq)) w = q at hsend
  exact ⟨_, hsend.trans (fillLanes_of_full hfree), rfl, (hruns.congr rfl).started hstage, List.length_append, rfl, rfl⟩

/-- On empty lanes the frame takes lane 0 for its tag (R437). -/
theorem sendPub_takes_lane (hauth : pubAuth p ≠ 0) (hstage : e.stage = .started) (hl : w.key.lanes = [])
    (hw : w.sw.wait = []) (ht : w.key.tags = []) :
    ∃ t, sendPub n gap (some (r, e.gen, seq)) w = t ∧ t.gse = w.gse ∧ startedIn r seq t ∧ t.key.tags = [] ∧
      ((look t.key.lanes 0).bind fun j => j.tag.map fun q => (q.pub, q.op, q.result)) =
        some (some n, some (r, e.gen, seq), p.vals.stNum) := by
  have hp : pubOf n w = p := by rw [pubOf, lookD, hlook]; rfl
  have hsend := sendPub_of_auth hgate (by rw [hp]; exact hauth) gap (some (r, e.gen, seq))
  have hpub : (pubReq n gap (some (r, e.gen, seq)) w).pub = some n := rfl
  have hop : (pubReq n gap (some (r, e.gen, seq)) w).op = some (r, e.gen, seq) := rfl
  have hres : (pubReq n gap (some (r, e.gen, seq)) w).result = p.vals.stNum := congrArg (fun q => q.vals.stNum) hp
  generalize pubReq n gap (some (r, e.gen, seq)) w = q at hsend hpub hop hres
  obtain ⟨k, hfill⟩ := fillLanes_of_tag (t := q) (s := { w with key := { w.key with tags := w.key.tags ++ [q] } })
    hl hw (by rw [ht]; rfl)
  generalize hv : { w with key := { w.key with ptr := k, tags := [] } } = v at hfill
  have hfields : v.gse = w.gse ∧ v.rng = w.rng ∧ v.key.tags = [] := by subst hv; exact ⟨rfl, rfl, rfl⟩
  obtain ⟨hvgse, hvrng, hvtags⟩ := hfields
  obtain ⟨-, -, htags, -, -, hrng, hgse⟩ := testKeeps_testSlot (tagSlot q.slot v) (loadAsk 0 v)
  refine ⟨_, hsend.trans hfill, hgse.trans hvgse, (hruns.congr (hrng.trans hvrng)).started hstage, htags.trans hvtags, ?_⟩
  refine (congrArg (fun y => Option.bind y _) (look_put_self _ _ _)).trans ?_
  show some (q.pub, q.op, q.result) = _
  rw [hpub, hop, hres]
end

/-- The state of a change of an entry's values (R353). -/
theorem pubChanged_spec (d : Desc) (data : Bytes) (s : State) :
    look (pubChanged d data s).gse.pubs (arg0 d % 1024) =
      some (pubChange (pubOf (arg0 d % 1024) s) (padTo (lenOf d) data) (arg1 d) s) ∧
    lookD (pubChanged d data s).gse.pubCnt (arg0 d % 1024 * 3) 0 =
      (lookD s.gse.pubCnt (arg0 d % 1024 * 3) 0 + 1) % 2 ^ 64 ∧
    (pubChanged d data s).rng = s.rng ∧ (pubChanged d data s).key = s.key ∧ (pubChanged d data s).sw = s.sw ∧
    (pubChanged d data s).mem = s.mem ∧ (pubChanged d data s).arb = s.arb ∧ (pubChanged d data s).gft = s.gft :=
  ⟨look_put_self _ _ _, lookD_bump_self _ _, rfl, rfl, rfl, rfl, rfl, rfl⟩

/-- What a PUBLISH of other values does (R353, R437). -/
theorem exec_publish_change {data : Bytes} (h : opAt 3 1 r seq e s)
    (hp : .payload r seq (.bytes data) ∈ s.cnp.passed) (hen : (pubOf (arg0 e.desc % 1024) s).en = .on)
    (hchange : (pubOf (arg0 e.desc % 1024) s).published = false ∨
      (pubOf (arg0 e.desc % 1024) s).vals.data ≠ padTo (lenOf e.desc) data ∨
      (pubOf (arg0 e.desc % 1024) s).vals.numEntries ≠ arg1 e.desc) :
    ∃ w, exec (.publish r seq data) s = .next (sendPub (arg0 e.desc % 1024)
        (pubGap (pubOf (arg0 e.desc % 1024) s) 1) (some (r, e.gen, seq)) w) ∧
      gateOpen w = true ∧ Runs r seq { e with stage := .started } w ∧
      look w.gse.pubs (arg0 e.desc % 1024) =
        some (pubChange (pubOf (arg0 e.desc % 1024) s) (padTo (lenOf e.desc) data) (arg1 e.desc) s) ∧
      lookD w.gse.pubCnt (arg0 e.desc % 1024 * 3) 0 = (lookD s.gse.pubCnt (arg0 e.desc % 1024 * 3) 0 + 1) % 2 ^ 64 ∧
      w.key = s.key ∧ w.sw = s.sw ∧ w.mem = s.mem ∧ w.arb = s.arb := by
  obtain ⟨g, hmark, hruns⟩ := begins_of_payload h (.payload r seq (.bytes data))
  have hexec := (exec_publish_of_passed h hp).trans (congrArg (fun v => Host.Outcome.next (publishEff r seq data v)) hmark)
  generalize hv : { usePassed (.payload r seq (.bytes data)) s with rng := g } = v at hmark hexec hruns
  have hfields : v.gse = s.gse ∧ v.key = s.key ∧ v.sw = s.sw ∧ v.mem = s.mem ∧ v.arb = s.arb ∧ v.gft = s.gft ∧ v.clk = s.clk := by
    subst hv
    exact ⟨rfl, rfl, rfl, rfl, rfl, rfl, rfl⟩
  obtain ⟨hgse, hkey, hsw, hmem, harb, hgft, hclk⟩ := hfields
  have hline : lineNow v = lineNow s := by subst hv; rfl
  have hpub : pubOf (arg0 e.desc % 1024) v = pubOf (arg0 e.desc % 1024) s := by rw [pubOf, pubOf, hgse]
  obtain ⟨hlook, hcnt, hwrng, hwkey, hwsw, hwmem, hwarb, hwgft⟩ := pubChanged_spec e.desc data v
  have hlive : exec (.publish r seq data) s = .next (sendPub (arg0 e.desc % 1024)
      (pubGap (pubOf (arg0 e.desc % 1024) v) 1) (some (r, e.gen, seq)) (pubChanged e.desc data v)) :=
    hexec.trans (congrArg Host.Outcome.next (publishEff_of_change (e := { e with stage := .started }) hruns
    (hpub ▸ hen) (hpub ▸ hchange)))
  rw [hpub] at hlive
  refine ⟨_, hlive, by rw [gateOpen, hwgft, hgft, h.2.2.2.2.2], hruns.congr hwrng, ?_,
    by rw [hcnt, hgse], hwkey.trans hkey, hwsw.trans hsw, hwmem.trans hmem, hwarb.trans harb⟩
  rw [hlook, hpub]
  rw [pubChange, pubChange, hline, hclk]

/-- What an EXPORT of a record that is kept meets when it begins (R413). -/
theorem exec_exportRec_kept {y : Part} (h : opAt 4 1 r seq e s) (hnew : s.acq.exports.filter (isExport r e.gen seq) = [])
    (hbuf : bufferRec (arg0 e.desc % 16) (arg1 e.desc) s = some z) (hz : z.released = false)
    (hy : look s.cnp.parts (r / 8) = some y) :
    ∃ w z', exec (.exportRec r seq) s = .next (exportStep (exportOf r seq e) w) ∧
      bufferRec (exportOf r seq e).recNo (exportOf r seq e).num w = some z' ∧ z'.released = false ∧
      exportLeft (exportOf r seq e) w = (z.data.drop (arg0 e.desc / 256 * 65536)).take (lenOf e.desc) ∧
      Runs r seq { e with stage := .started } w ∧ look (acqAsk 16 w).cnp.parts (r / 8) = some y ∧ w.mem = s.mem ∧
      w.acq.exports = s.acq.exports ++ [exportOf r seq e] := by
  obtain ⟨g, hmark, hruns⟩ := begins_of_bare h
  have hexec := (exec_exportRec_of_ready h).trans (congrArg (fun v => Host.Outcome.next (exportEff r seq v)) hmark)
  have hbuf' := bufferRec_modStored (f := fun y => { y with running := y.running + 1 }) (fun _ => rfl)
    (s := { { s with rng := g } with acq := { s.acq with exports := s.acq.exports ++ [exportOf r seq e] } }) hbuf
  refine ⟨_, _, hexec.trans (congrArg Host.Outcome.next
    (exportEff_of_kept (e := { e with stage := .started }) hruns hnew (storedRec_of_kept hbuf hz))), hbuf', hz, ?_,
    hruns.congr rfl, hy, rfl, rfl⟩
  exact (exportLeft_of_kept (x := exportOf r seq e) hbuf').trans List.drop_zero

section
variable {y : Part} {d : Bytes} (hruns : Runs x.ring x.seq e w) (hgen : x.gen = e.gen)
  (hbuf : bufferRec x.recNo x.num w = some z) (hz : z.released = false) (hleft : exportLeft x w = d)
include hruns hgen hbuf hz hleft

/-- The last piece ends the EXPORT with the bytes that it copied, in all (R413). -/
theorem exportStep_last (hlen : d.length ≤ 4096 - (x.iova + x.copied) % 4096) (hd : d ≠ [])
    (hy : look (acqAsk 16 w).cnp.parts (x.ring / 8) = some y) (hm : isMapped y (x.iova + x.copied) = true) :
    ∃ t, exportStep x w = t ∧ endedAs x.ring x.seq stOk (some (BitVec.ofNat 32 (x.copied + d.length))) t ∧
      t.mem = Memory.write w.mem (partBase (x.ring / 8) + (x.iova + x.copied)) d := by
  obtain ⟨a, short, hstep⟩ := exportStep_ends hbuf hz hleft hlen (deliverOp_of_page (s := acqAsk 16 w) hd hlen hy hm)
  have hend := (hruns.congr (t := { deliver (x.ring / 8) (x.iova + x.copied) d (acqAsk 16 w) with acq := a }) rfl).finish
    stOk (some (BitVec.ofNat 32 (x.copied + d.length))) short
  rw [hgen] at hstep
  exact ⟨_, hstep, hend, rfl⟩

/-- An EXPORT of no bytes ends at once (R413). -/
theorem exportStep_empty (hd : d = []) : ∃ t, exportStep x w = t ∧
    endedAs x.ring x.seq stOk (some (BitVec.ofNat 32 x.copied)) t ∧ t.mem = w.mem := by
  subst hd
  obtain ⟨a, short, hstep⟩ := exportStep_ends hbuf hz hleft (Nat.zero_le _) (deliverOp_nil _ _ _)
  have hend := (hruns.congr (t := { acqAsk 16 w with acq := a }) rfl).finish stOk (some (BitVec.ofNat 32 x.copied)) short
  rw [hgen] at hstep
  exact ⟨_, hstep, hend, rfl⟩

/-- A page that cannot be mapped ends the EXPORT (R133). -/
theorem exportStep_full (hd : d ≠ []) (hy : look (acqAsk 16 w).cnp.parts (x.ring / 8) = some y)
    (hm : isMapped y (x.iova + x.copied) = false) (hover : y.quota ≤ mapped y) : ∃ t, exportStep x w = t ∧
    endedAs x.ring x.seq stOverQuota none t ∧ t.mem = w.mem := by
  have htake : d.take (4096 - (x.iova + x.copied) % 4096) ≠ [] := by
    have hroom : 0 < 4096 - (x.iova + x.copied) % 4096 := Nat.sub_pos_of_lt (Nat.mod_lt _ (by decide))
    have hlen : 0 < d.length := List.length_pos_iff.mpr hd
    refine List.length_pos_iff.mp ?_
    rw [List.length_take]
    omega
  obtain ⟨a, short, hstep⟩ := exportStep_over hbuf hz hleft (deliverOp_of_full (s := acqAsk 16 w) htake hy hm hover)
  have hend := (hruns.congr (t := { w with acq := a }) rfl).finish stOverQuota none short
  rw [hgen] at hstep
  exact ⟨_, hstep, hend, rfl⟩
end

/-- Settles O36: PUBLISH by its entry's state, EXPORT by its record and the pages of its buffer. -/
theorem publishAndExport : Obligations.PublishAndExport := by
  unfold Obligations.PublishAndExport
  refine ⟨fun r seq data e s h hp => ?_, fun r seq e s h hnew => ?_,
    fun r seq x z y e s hr hready hfind hgen hentry hstage hrep horph hbuf hz hy => ?_⟩
  · intro n p b changed st taken
    obtain ⟨g, hmark, hruns⟩ := begins_of_payload h (.payload r seq (.bytes data))
    have hexec := (exec_publish_of_passed h hp).trans (congrArg (fun v => Host.Outcome.next (publishEff r seq data v)) hmark)
    refine ⟨fun hen => ?_, fun hen hpd hdata hnum => ?_, fun hen hc hauth => ?_, fun hen hc hauth hfree => ?_,
      fun hen hc hauth hl hw ht => ?_⟩
    · exact ⟨_, hexec.trans (congrArg _ (publishEff_of_off (e := { e with stage := .started }) hruns hen)),
        hruns.finishNow _ _, rfl, rfl, rfl, rfl⟩
    · exact ⟨_, hexec.trans (congrArg _ (publishEff_of_same (e := { e with stage := .started }) hruns hen hpd hdata hnum)),
        (hruns.congr rfl).finishNow _ _, rfl, rfl, rfl, rfl⟩
    · obtain ⟨w, hlive, hgate, hwruns, hlook, hcnt, -, hsw, hmem, harb⟩ := exec_publish_change h hp hen hc
      obtain ⟨t, ht, ⟨hpd, hvals, htcnt⟩, hend, hstore, htmem, htarb⟩ :=
        sendPub_ends_plain (gap := pubGap p 1) hgate hlook hwruns hauth
      exact ⟨t, hlive.trans (congrArg _ ht), ⟨hpd, hvals, htcnt.trans hcnt⟩, hend, by rw [hstore, hsw], htmem.trans hmem,
        htarb.trans harb⟩
    · obtain ⟨w, hlive, hgate, hwruns, hlook, hcnt, hkey, hsw, hmem, -⟩ := exec_publish_change h hp hen hc
      obtain ⟨t, ht, hgse, hstart, htags, htsw, htmem⟩ := sendPub_waits (gap := pubGap p 1) hgate hlook hwruns hauth rfl
        (by rw [freeLanes, hkey]; exact hfree)
      have hpub : pubOf n t = pubChange p b (arg1 e.desc) s := by rw [pubOf, lookD, hgse, hlook]; rfl
      exact ⟨t, hlive.trans (congrArg _ ht), ⟨congrArg GPub.published hpub, congrArg GPub.vals hpub, by rw [hgse, hcnt]⟩,
        hstart, by rw [htags, hkey], htsw.trans hsw, htmem.trans hmem⟩
    · obtain ⟨w, hlive, hgate, hwruns, hlook, hcnt, hkey, hsw, -⟩ := exec_publish_change h hp hen hc
      obtain ⟨t, ht, hgse, hstart, htags, hlane⟩ := sendPub_takes_lane (gap := pubGap p 1) hgate hlook hwruns hauth rfl
        (by rw [hkey, hl]) (by rw [hsw, hw]) (by rw [hkey, ht])
      have hpub : pubOf n t = pubChange p b (arg1 e.desc) s := by rw [pubOf, lookD, hgse, hlook]; rfl
      exact ⟨t, hlive.trans (congrArg _ ht), ⟨congrArg GPub.published hpub, congrArg GPub.vals hpub, by rw [hgse, hcnt]⟩,
        hstart, htags, hlane⟩
  · intro n
    obtain ⟨g, hmark, hruns⟩ := begins_of_bare h
    have hexec := (exec_exportRec_of_ready h).trans (congrArg (fun v => Host.Outcome.next (exportEff r seq v)) hmark)
    refine ⟨fun hgone => ?_, fun z y hbuf hz hy => ?_⟩
    · exact ⟨_, hexec.trans (congrArg _ (exportEff_of_gone (e := { e with stage := .started }) hruns hnew hgone)),
        hruns.finishNow _ _, rfl, rfl, rfl⟩
    · intro b room
      obtain ⟨w, z', hlive, hbuf', hz', hleft, hwruns, hwy, hmem, hexps⟩ := exec_exportRec_kept h hnew hbuf hz hy
      refine ⟨fun hb => ?_, fun hb hlen hm => ?_, fun hlen hm => ?_, fun hb hm hover => ?_⟩
      · obtain ⟨t, ht, hend, htmem⟩ := exportStep_empty (x := exportOf r seq e) hwruns rfl hbuf' hz' hleft hb
        exact ⟨t, hlive.trans (congrArg _ ht), hend, htmem.trans hmem⟩
      · obtain ⟨t, ht, hend, htmem⟩ := exportStep_last (x := exportOf r seq e) hwruns rfl hbuf' hz' hleft hlen hb hwy hm
        have hcopied : (exportOf r seq e).copied + b.length = b.length := Nat.zero_add _
        rw [hcopied] at hend
        exact ⟨t, hlive.trans (congrArg _ ht), hend, by rw [htmem, hmem]; rfl⟩
      · have htake : (b.take room).length = room := by
          rw [List.length_take]
          omega
        have hroom : 0 < room := Nat.sub_pos_of_lt (Nat.mod_lt _ (by decide))
        have hstep := exportStep_goes_on (x := exportOf r seq e) hleft hlen
          (deliverOp_of_page (s := acqAsk 16 w) (d := b.take room)
            (List.length_pos_iff.mp (htake.symm ▸ hroom)) (le_of_eq htake) hwy hm)
        refine ⟨_, hlive.trans (congrArg _ hstep), (hwruns.congr rfl).started rfl, ?_, ?_⟩
        · show Memory.write w.mem _ _ = _
          rw [hmem]
          rfl
        · refine (congrArg (List.map _) hexps).trans
            ((map_exports_of_new (f := fun _ => { exportOf r seq e with copied := 0 + room }) hnew).trans ?_)
          rw [Nat.zero_add]
          rfl
      · obtain ⟨t, ht, hend, htmem⟩ := exportStep_full (x := exportOf r seq e) hwruns rfl hbuf' hz' hleft hb hwy hm hover
        exact ⟨t, hlive.trans (congrArg _ ht), hend, htmem.trans hmem⟩
  · intro b hb hlen hm
    have hcond := List.find?_some (p := fun x : XOp => x.ring == r && x.seq == seq) hfind
    simp only [Bool.and_eq_true, beq_iff_eq] at hcond
    obtain ⟨hxr, hxs⟩ := hcond
    have hruns : Runs r seq e s :=
      ⟨(entryOf_of_find horph).symm.trans hentry, horph, by rw [hstage]; exact nofun, hrep⟩
    have hexec : exec (.exportRec r seq) s = .next (exportStep x s) := by
      show execExportRec r seq s = _
      rw [execExportRec, if_neg (by rw [hready]; decide), hfind]
      dsimp only
      rw [decide_eq_true hr]
      rfl
    subst hxr hxs
    obtain ⟨t, ht, hend, htmem⟩ := exportStep_last hruns (hgen.trans hruns.gen.symm) hbuf hz (exportLeft_of_kept hbuf)
      hlen hb hy hm
    exact ⟨t, hexec.trans (congrArg _ ht), hend, htmem⟩

end Sys2Proof.Machine
end

section
/-! Proof of the statement on output operations and waveforms. -/

namespace Sys2Proof.Machine

open Sys2Proof

set_option Elab.async false

variable {b op r n k : Nat} {seq : Word} {e : JRec} {c : OutCh} {q : Pend} {s t u v : State}

/-! ### An output channel and its pins (R536) -/

/-- A channel without its pins and the record of its suppression: what no change of the pins touches. -/
def wave (c : OutCh) : OutCh :=
  { c with pinA := false, pinB := false, dueA := false, dueB := false, dueAt := 0, suppSince := false, suppAt := none }

@[simp] theorem wave_drivePins (c : OutCh) (s : State) : wave (drivePins c s) = wave c := by
  unfold drivePins drive
  split <;> rfl

theorem outCh_setOut (n : Nat) (c : OutCh) (s : State) : outCh n (setOut n c s) = drivePins c s := lookD_put_self _ _ _ _

theorem outCh_setOut_other (h : k ≠ n) (c : OutCh) (s : State) : outCh k (setOut n c s) = outCh k s :=
  lookD_put_other _ _ _ h

theorem outCh_congr (h : t.out.chans = s.out.chans) (n : Nat) : outCh n t = outCh n s := by rw [outCh, outCh, h]

@[simp] theorem wave_setOut (n : Nat) (c : OutCh) (s : State) : wave (outCh n (setOut n c s)) = wave c := by
  rw [outCh_setOut, wave_drivePins]

/-- A change of channel `n` alone: the other channels, the rings and the counters stay. -/
structure OnlyChan (n : Nat) (s t : State) : Prop where
  others : ∀ k, k ≠ n → outCh k t = outCh k s
  rng : t.rng = s.rng

theorem OnlyChan.refl (n : Nat) (s : State) : OnlyChan n s s := ⟨fun _ _ => rfl, rfl⟩

theorem OnlyChan.trans (h : OnlyChan n s t) (h' : OnlyChan n t u) : OnlyChan n s u :=
  ⟨fun k hk => (h'.others k hk).trans (h.others k hk), h'.rng.trans h.rng⟩

theorem onlyChan_setOut (n : Nat) (c : OutCh) (s : State) : OnlyChan n s (setOut n c s) :=
  ⟨fun _ hk => outCh_setOut_other hk c s, rfl⟩

theorem onlyChan_countOut (n i : Nat) (s : State) : OnlyChan n s (countOut n i s) := ⟨fun _ _ => rfl, rfl⟩

theorem suppress_eq (n : Nat) (s : State) : suppress n s = s ∨ ∃ c, wave c = wave (outCh n s) ∧
    (suppress n s = setOut n c s ∨
      suppress n s = ioEvent (32 + n) { src := 13, code := 0x0A12, kind := 8, index := n } (setOut n c s)) := by
  unfold suppress
  dsimp only
  by_cases h : (outCh n s).suppSince = true
  · exact .inl (if_pos h)
  · rw [if_neg h]
    refine .inr ⟨_, ?_, ite_eq_or_eq _ _ _⟩
    rfl

/-- A suppression changes the record of its channel's suppressions only (R532). -/
theorem suppress_spec (n : Nat) (s : State) : OnlyChan n s (suppress n s) ∧
    wave (outCh n (suppress n s)) = wave (outCh n s) ∧ (suppress n s).out.cnt = s.out.cnt := by
  rcases suppress_eq n s with heq | ⟨c, hc, heq | heq⟩ <;> rw [heq]
  · exact ⟨.refl n s, rfl, rfl⟩
  · exact ⟨onlyChan_setOut n c s, (wave_setOut n c s).trans hc, rfl⟩
  · obtain ⟨hothers, hrng⟩ := onlyChan_setOut n c s
    exact ⟨⟨hothers, hrng⟩, (wave_setOut n c s).trans hc, rfl⟩

/-! ### Periods (R531, R532) -/

theorem wave_waveOf (c : OutCh) : (waveOf c).p = c.p ∧ (waveOf c).h = c.h ∧ (waveOf c).pend = c.pend ∧
    (waveOf c).pullIn = c.pullIn ∧ (waveOf c).inPeriod = c.inPeriod ∧ (waveOf c).perAt = c.perAt ∧
    (waveOf c).perLen = c.perLen ∧ (waveOf c).accP = c.accP := by
  unfold waveOf
  split
  · exact ⟨rfl, rfl, rfl, rfl, rfl, rfl, rfl, rfl⟩
  · split <;> exact ⟨rfl, rfl, rfl, rfl, rfl, rfl, rfl, rfl⟩

/-- The counts of a period leave its channel's waveform (R532, R542). -/
theorem countPeriod_spec (n : Nat) (c : OutCh) (s : State) : OnlyChan n s (countPeriod n c s) ∧
    wave (outCh n (countPeriod n c s)) = wave (outCh n s) ∧
    lookD (countPeriod n c s).out.cnt (n * 7) 0 = (lookD s.out.cnt (n * 7) 0 + 1) % 2 ^ 64 ∧
    lookD (countPeriod n c s).out.cnt (n * 7 + 1) 0 = lookD s.out.cnt (n * 7 + 1) 0 := by
  have hcount : ∃ u, u = (if s.out.inh then countOut n 6 (countOut n 0 s) else countOut n 0 s) ∧ OnlyChan n s u ∧
      outCh n u = outCh n s ∧ lookD u.out.cnt (n * 7) 0 = (lookD s.out.cnt (n * 7) 0 + 1) % 2 ^ 64 ∧
      lookD u.out.cnt (n * 7 + 1) 0 = lookD s.out.cnt (n * 7 + 1) 0 := by
    have hfirst : lookD (countOut n 0 s).out.cnt (n * 7) 0 = (lookD s.out.cnt (n * 7) 0 + 1) % 2 ^ 64 := lookD_bump_self _ _
    have hsecond : lookD (countOut n 0 s).out.cnt (n * 7 + 1) 0 = lookD s.out.cnt (n * 7 + 1) 0 :=
      lookD_bump_other _ (by omega)
    refine ⟨_, rfl, ?_⟩
    split
    · exact ⟨⟨fun _ _ => rfl, rfl⟩, rfl, (lookD_bump_other _ (by omega)).trans hfirst,
        (lookD_bump_other _ (by omega)).trans hsecond⟩
    · exact ⟨⟨fun _ _ => rfl, rfl⟩, rfl, hfirst, hsecond⟩
  obtain ⟨u, hu, honly, hchan, h0, h1⟩ := hcount
  have hsupp (i : Nat) (hi : i = 3 ∨ i = 4) : OnlyChan n s (suppress n (countOut n i u)) ∧
      wave (outCh n (suppress n (countOut n i u))) = wave (outCh n s) ∧
      lookD (suppress n (countOut n i u)).out.cnt (n * 7) 0 = (lookD s.out.cnt (n * 7) 0 + 1) % 2 ^ 64 ∧
      lookD (suppress n (countOut n i u)).out.cnt (n * 7 + 1) 0 = lookD s.out.cnt (n * 7 + 1) 0 := by
    obtain ⟨hs, hwave, hcnt⟩ := suppress_spec n (countOut n i u)
    refine ⟨(honly.trans (onlyChan_countOut n i u)).trans hs, hwave.trans (congrArg wave hchan), ?_, ?_⟩
    · rw [hcnt]
      exact (lookD_bump_other _ (by omega)).trans h0
    · rw [hcnt]
      exact (lookD_bump_other _ (by omega)).trans h1
  unfold countPeriod
  dsimp only
  rw [← hu]
  split
  · exact hsupp 3 (.inl rfl)
  · split
    · exact hsupp 4 (.inr rfl)
    · exact ⟨honly, congrArg wave hchan, h0, h1⟩

/-- A new period of a channel, by its values (R531). -/
theorem beginPeriod_spec (n at_ : Nat) (s : State) : OnlyChan n s (beginPeriod n at_ s) ∧
    wave (outCh n (beginPeriod n at_ s)) = wave (waveOf (periodOf at_ (outCh n s))) ∧
    lookD (beginPeriod n at_ s).out.cnt (n * 7) 0 = (lookD s.out.cnt (n * 7) 0 + 1) % 2 ^ 64 ∧
    lookD (beginPeriod n at_ s).out.cnt (n * 7 + 1) 0 = lookD s.out.cnt (n * 7 + 1) 0 := by
  obtain ⟨honly, hwave, h0, h1⟩ := countPeriod_spec n (periodOf at_ (outCh n s))
    (setOut n (waveOf (periodOf at_ (outCh n s))) s)
  exact ⟨(onlyChan_setOut n _ s).trans honly, hwave.trans (wave_setOut n _ s), h0, h1⟩

/-! ### Loads (R533 to R535) -/

/-- The end of a LOAD leaves the channels and their counters. -/
theorem loadDone_out (q : Pend) (s : State) :
    (loadDone q s).out.chans = s.out.chans ∧ (loadDone q s).out.cnt = s.out.cnt := by
  unfold loadDone
  split
  · exact ⟨rfl, rfl⟩
  · split <;> exact ⟨rfl, rfl⟩

theorem channelDone_out (q : Pend) (n : Nat) (loaded lost : Bool) (s : State) :
    (channelDone q n loaded lost s).out.chans = s.out.chans ∧ (channelDone q n loaded lost s).out.cnt = s.out.cnt :=
  loadDone_out q _

theorem releasePend_of_none (h : (outCh n s).pend = none) (lost : Bool) : releasePend n lost s = s := by
  unfold releasePend
  dsimp only
  rw [h]

/-- A load on a channel in PWM mode starts a period with the staged values (R533, R535). -/
theorem takeLoad_pwm (hmode : outMode (outCh n s) = 0) (at_ : Nat) (q : Pend) :
    (outCh n (takeLoad n at_ q s)).p = (outCh n s).stP ∧ (outCh n (takeLoad n at_ q s)).h = (outCh n s).stH ∧
    (outCh n (takeLoad n at_ q s)).pend = none ∧
    lookD (takeLoad n at_ q s).out.cnt (n * 7 + 1) 0 = (lookD s.out.cnt (n * 7 + 1) 0 + 1) % 2 ^ 64 := by
  have heq : takeLoad n at_ q s = channelDone q n true false
      (beginPeriod n at_ (setOut n { loadValues (outCh n s) with pullIn := false } (countOut n 1 s))) := by
    unfold takeLoad
    dsimp only
    rw [hmode]
    rfl
  generalize hv : setOut n { loadValues (outCh n s) with pullIn := false } (countOut n 1 s) = v at heq
  have hchan : wave (outCh n v) = wave { loadValues (outCh n s) with pullIn := false } := by
    rw [← hv]
    exact wave_setOut n _ _
  have hcnt : lookD v.out.cnt (n * 7 + 1) 0 = (lookD s.out.cnt (n * 7 + 1) 0 + 1) % 2 ^ 64 := by
    rw [← hv]
    exact lookD_bump_self _ _
  obtain ⟨hchans, hcnts⟩ := channelDone_out q n true false (beginPeriod n at_ v)
  obtain ⟨-, hwave, -, h1⟩ := beginPeriod_spec n at_ v
  obtain ⟨hp, hh, hpend, -⟩ := wave_waveOf (periodOf at_ (outCh n v))
  rw [heq, outCh_congr hchans, hcnts, h1, hcnt]
  exact ⟨(congrArg OutCh.p hwave).trans (hp.trans (congrArg OutCh.p hchan)),
    (congrArg OutCh.h hwave).trans (hh.trans (congrArg OutCh.h hchan)),
    (congrArg OutCh.pend hwave).trans (hpend.trans (congrArg OutCh.pend hchan)), rfl⟩

/-- Channels with no load of their own and in no pull-in wait for their boundary with the LOAD (R534). -/
theorem loadChans_spec (q : Pend) {l : List Nat} (hl : l.Nodup)
    (h : ∀ n ∈ l, (outCh n s).pullIn = false ∧ (outCh n s).pend = none) :
    (l.foldl (loadChan q 0) s).rng = s.rng ∧ (l.foldl (loadChan q 0) s).mem = s.mem ∧
    (∀ n, n ∉ l → outCh n (l.foldl (loadChan q 0) s) = outCh n s) ∧
    ∀ n ∈ l, wave (outCh n (l.foldl (loadChan q 0) s)) = wave { outCh n s with pend := some q } := by
  induction l generalizing s with
  | nil => exact ⟨rfl, rfl, fun _ _ => rfl, nofun⟩
  | cons m l ih =>
    obtain ⟨hm, hl⟩ := List.nodup_cons.mp hl
    obtain ⟨hpull, hpend⟩ := h m List.mem_cons_self
    have hfirst : loadChan q 0 s m = setOut m { outCh m s with pend := some q } s := by
      unfold loadChan
      dsimp only
      rw [releasePend_of_none hpend, hpull]
      rfl
    have hother (n : Nat) (hn : n ∈ l) : outCh n (loadChan q 0 s m) = outCh n s := by
      rw [hfirst]
      exact outCh_setOut_other (ne_of_mem_of_not_mem hn hm) _ s
    obtain ⟨hrng, hmem, hout, hin⟩ := ih (s := loadChan q 0 s m) hl fun n hn => by
      rw [hother n hn]
      exact h n (List.mem_cons_of_mem _ hn)
    refine ⟨hrng.trans (by rw [hfirst]; rfl), hmem.trans (by rw [hfirst]; rfl), fun n hn => ?_, fun n hn => ?_⟩
    · rw [List.mem_cons, not_or] at hn
      refine (hout n hn.2).trans ?_
      rw [hfirst, outCh_setOut_other hn.1]
    · rcases List.mem_cons.mp hn with rfl | hn
      · refine (congrArg wave (hout n hm)).trans ?_
        rw [hfirst, wave_setOut]
      · refine (hin n hn).trans ?_
        rw [hother n hn]

theorem maskChans_nodup (m : Nat) : (maskChans m).Nodup := List.Nodup.filter _ List.nodup_range

theorem loadEff_of_off {block : Bytes} (h : Runs r seq e s) (hoff : loadStarts e.desc s = false) :
    loadEff r seq block s = finishNow r seq stWrongState (some 0) s := by
  unfold loadEff
  rw [h.entry]
  dsimp only
  rw [hoff]
  rfl

/-- A LOAD with `WHEN` 0 that starts (R534). -/
theorem loadEff_of_on {block : Bytes} (h : Runs r seq e s) (hwhen : arg1 e.desc = 0) (hon : loadStarts e.desc s = true) :
    loadEff r seq block s = (maskChans (arg0 e.desc)).foldl
      (loadChan { ring := r, gen := e.gen, seq := seq, atTarget := false } 0)
      { s with out := { s.out with
        loads := s.out.loads ++ [{ ring := r, gen := e.gen, seq := seq, left := maskChans (arg0 e.desc) }] } } := by
  unfold loadEff
  rw [h.entry]
  dsimp only
  rw [hon, hwhen]
  rfl

theorem exec_load_now {block : Bytes} (h : opAt 5 2 r seq e s) (hwhen : arg1 e.desc = 0) :
    exec (.load r seq block) s = .next (loadEff r seq block (markStarted r seq s)) := by
  have htarget : ((entryOf r seq s).map fun e => arg1 e.desc == 2).getD false = false := by
    rw [(of_opAt h).1.entry, Option.map_some, hwhen]
    rfl
  show execLoad r seq block s = _
  rw [execLoad, matchHeld_of_standalone h.2.2.2.2.2, loadRow, htarget]
  exact emitRow_of_bare h

/-! ### Pulses (R532 to R534) -/

theorem pulseEff_of_off (h : Runs r seq e s) (hoff : (outCh (arg0 e.desc % 16) s).en ≠ .on) :
    pulseEff r seq s = finishNow r seq stWrongState none s := by
  unfold pulseEff
  rw [h.entry]
  exact if_pos hoff

/-- A PULSE that begins drives its channel for its width (R533, R534). -/
theorem pulseEff_of_on (h : Runs r seq e s) (hon : (outCh (arg0 e.desc % 16) s).en = .on) :
    OnlyChan (arg0 e.desc % 16) s (pulseEff r seq s) ∧
    (outCh (arg0 e.desc % 16) (pulseEff r seq s)).pulse = some (r, e.gen, seq) ∧
    (outCh (arg0 e.desc % 16) (pulseEff r seq s)).endAt = frcNow s + arg1 e.desc * countUnit ∧
    (outCh (arg0 e.desc % 16) (pulseEff r seq s)).pulsePol = tbit (arg0 e.desc) 4 ∧
    lookD (pulseEff r seq s).out.cnt (arg0 e.desc % 16 * 7 + 2) 0 =
      (lookD s.out.cnt (arg0 e.desc % 16 * 7 + 2) 0 + 1) % 2 ^ 64 := by
  unfold pulseEff
  rw [h.entry]
  dsimp only
  rw [if_neg (not_not.mpr hon)]
  generalize decide (arg1 e.desc * countUnit < minPulse (outCh (arg0 e.desc % 16) s) +
    deadTime (outCh (arg0 e.desc % 16) s)) = supp
  generalize arg0 e.desc % 16 = n
  generalize hc : ({ outCh n s with
    pulse := some (r, e.gen, seq), pulseSupp := supp, pulsePol := tbit (arg0 e.desc) 4
    pulseInfo := outInfo s + 4 * b2n supp, endAt := frcNow s + arg1 e.desc * countUnit, suppSince := false } : OutCh) = c
  have hfields : c.pulse = some (r, e.gen, seq) ∧ c.endAt = frcNow s + arg1 e.desc * countUnit ∧
      c.pulsePol = tbit (arg0 e.desc) 4 := by
    subst hc
    exact ⟨rfl, rfl, rfl⟩
  obtain ⟨hpulse, hend, hpol⟩ := hfields
  have honly : OnlyChan n s (countOut n 2 (setOut n c s)) := (onlyChan_setOut n c s).trans (onlyChan_countOut n 2 _)
  have hwave : wave (outCh n (countOut n 2 (setOut n c s))) = wave c := wave_setOut n c s
  have hcnt : lookD (countOut n 2 (setOut n c s)).out.cnt (n * 7 + 2) 0 = (lookD s.out.cnt (n * 7 + 2) 0 + 1) % 2 ^ 64 :=
    lookD_bump_self _ _
  have hvals {u : State} (hu : wave (outCh n u) = wave c) : (outCh n u).pulse = some (r, e.gen, seq) ∧
      (outCh n u).endAt = frcNow s + arg1 e.desc * countUnit ∧ (outCh n u).pulsePol = tbit (arg0 e.desc) 4 :=
    ⟨(congrArg OutCh.pulse hu).trans hpulse, (congrArg OutCh.endAt hu).trans hend, (congrArg OutCh.pulsePol hu).trans hpol⟩
  cases supp
  · obtain ⟨h1, h2, h3⟩ := hvals hwave
    exact ⟨honly, h1, h2, h3, hcnt⟩
  · obtain ⟨hs, hw, hc⟩ := suppress_spec n (countOut n 5 (countOut n 2 (setOut n c s)))
    obtain ⟨h1, h2, h3⟩ := hvals (hw.trans hwave)
    refine ⟨(honly.trans (onlyChan_countOut n 5 _)).trans hs, h1, h2, h3, ?_⟩
    refine (congrArg (lookD · (n * 7 + 2) 0) hc).trans ?_
    exact (lookD_bump_other _ (by omega)).trans hcnt

/-- The pins of a RELAY channel that pulses no more (R533, R536). -/
theorem drivePins_of_relay (hmode : outMode c = 2) (hpulse : c.pulse = none) (s : State) :
    (drivePins c s).pinA = (pinRule c s == .safe && safeA c) ∧ (drivePins c s).pinB = (pinRule c s == .safe && safeB c) := by
  have hwant : wantPins c = (false, false) := by
    rw [wantPins, if_pos hmode, hpulse]
    rfl
  unfold drivePins
  cases pinRule c s
  · exact ⟨rfl, rfl⟩
  · exact ⟨rfl, rfl⟩
  · unfold drive
    dsimp only
    rw [hwant]
    exact ⟨rfl, rfl⟩

/-! ### The rows of a waveform (R529 to R533) -/

theorem exec_stage_of_ready (h : opAt 5 1 r seq e s) :
    exec (.stage r seq) s = .next (stageEff r seq (markStarted r seq s)) := by
  show execStage r seq s = _
  rw [execStage, matchHeld_of_standalone h.2.2.2.2.2, stageRow, emitRow_of_bare h]

theorem exec_pulse_of_ready (h : opAt 5 3 r seq e s) :
    exec (.pulse r seq) s = .next (pulseEff r seq (markStarted r seq s)) := by
  show execPulse r seq s = _
  rw [execPulse, matchHeld_of_standalone h.2.2.2.2.2, pulseRow, emitRow_of_bare h]

theorem loadDue_of_none (h : c.pend = none) (s : State) : loadDue c s = none := by rw [loadDue, h]

theorem loadDue_of_waiting (h : c.pend = some q) (hdue : q.dueAt = none) (s : State) : loadDue c s = none := by
  rw [loadDue, h]
  dsimp only
  rw [hdue]
  rfl

/-- At a boundary with no load that is due, a running channel takes what waits for the boundary (R531, R535). -/
theorem exec_periodStart_at_boundary (hn : n < 16) (hen : (outCh n s).en = .on) (hmode : outMode (outCh n s) ≠ 2)
    (hpull : (outCh n s).pullIn = false) (hat : atBoundary (outCh n s) s = true)
    (hdue : loadDue (outCh n s) s = none) : exec (.periodStart n) s = .next
      (match (outCh n s).pend with
       | some q => if q.atTarget then beginPeriod n (boundaryAt (outCh n s) s) s
                   else takeLoad n (boundaryAt (outCh n s) s) q s
       | none => beginPeriod n (boundaryAt (outCh n s) s) s) := by
  show execPeriodStart n s = _
  unfold execPeriodStart
  dsimp only
  rw [hdue]
  refine named_act (decide_eq_true hn) ?_
  rw [hen, hpull, hat]
  simpa using hmode

/-- Settles O37: what an operation and a row of the waveform do to one channel. -/
theorem outputOperationsAndWaveforms : Obligations.OutputOperationsAndWaveforms := by
  unfold Obligations.OutputOperationsAndWaveforms
  refine ⟨fun r seq e s => ⟨fun h => ?_, fun block h hwhen hoff => ?_, fun block h hwhen hon hidle => ?_, fun h => ?_⟩,
    fun n s hn => ⟨fun hen hmode hpull hat hpend => ?_, fun q hen hmode hpull hat hpend htarget hdue => ?_,
      fun hin hw hlen hat => ?_, fun hdue hat => ?_, fun hpull hat => ?_, fun q e hpulse hat hfind hstage hrep => ?_⟩⟩
  · obtain ⟨g, hmark, hruns⟩ := begins_of_bare h
    have hgate : gateOpen s = true := by rw [gateOpen, h.2.2.2.2.2]
    have hexec := (exec_stage_of_ready h).trans (congrArg (fun v => Host.Outcome.next (stageEff r seq v)) hmark)
    have hinfo : outInfo { s with rng := g } = b2n s.out.inh := by
      show b2n s.out.inh + 2 * b2n (!gateOpen s) = _
      rw [hgate]
      rfl
    have heff : stageEff r seq { s with rng := g } = finishNow r seq stOk (some (BitVec.ofNat 32 (b2n s.out.inh)))
        (setOut (arg0 e.desc / 2 ^ 28) { outCh (arg0 e.desc / 2 ^ 28) s with
          stP := arg0 e.desc % 2 ^ 28, stH := arg1 e.desc % 2 ^ 28 } { s with rng := g }) := by
      unfold stageEff
      rw [hruns.entry]
      dsimp only
      rw [hinfo]
      rfl
    generalize arg0 e.desc / 2 ^ 28 = n at heff ⊢
    generalize hc : ({ outCh n s with stP := arg0 e.desc % 2 ^ 28, stH := arg1 e.desc % 2 ^ 28 } : OutCh) = c at heff
    have hwave : wave (outCh n (setOut n c { s with rng := g })) = wave c := wave_setOut n c _
    rw [heff] at hexec
    refine ⟨_, hexec, (hruns.congr rfl).finishNow _ _, (congrArg OutCh.stP hwave).trans ?_,
      (congrArg OutCh.stH hwave).trans ?_, (congrArg OutCh.p hwave).trans ?_, (congrArg OutCh.h hwave).trans ?_,
      fun k hk => outCh_setOut_other hk c { s with rng := g }, rfl, rfl⟩ <;> rw [← hc] <;> rfl
  · obtain ⟨g, hmark, hruns⟩ := begins_of_bare h
    have hexec := (exec_load_now (block := block) h hwhen).trans
      (congrArg (fun v => Host.Outcome.next (loadEff r seq block v)) hmark)
    exact ⟨_, hexec.trans (congrArg _ (loadEff_of_off (e := { e with stage := .started }) hruns hoff)),
      hruns.finishNow _ _, rfl, rfl⟩
  · obtain ⟨g, hmark, hruns⟩ := begins_of_bare h
    have hexec := (exec_load_now (block := block) h hwhen).trans
      (congrArg (fun v => Host.Outcome.next (loadEff r seq block v)) hmark)
    have heff := loadEff_of_on (block := block) (e := { e with stage := .started }) hruns hwhen hon
    obtain ⟨hrng, hmem, -, hin⟩ := loadChans_spec (s := { { s with rng := g } with out := { s.out with
        loads := s.out.loads ++ [{ ring := r, gen := e.gen, seq := seq, left := maskChans (arg0 e.desc) }] } })
      { ring := r, gen := e.gen, seq := seq, atTarget := false } (maskChans_nodup (arg0 e.desc)) hidle
    refine ⟨_, hexec.trans (congrArg _ heff), (hruns.congr hrng).started rfl, hmem, fun n hn => ?_⟩
    have hwave := hin n hn
    exact ⟨(congrArg OutCh.pend hwave :), (congrArg OutCh.p hwave :), (congrArg OutCh.h hwave :)⟩
  · obtain ⟨g, hmark, hruns⟩ := begins_of_bare h
    have hexec := (exec_pulse_of_ready h).trans (congrArg (fun v => Host.Outcome.next (pulseEff r seq v)) hmark)
    refine ⟨_, hexec, fun hoff => ?_, fun hon => ?_⟩
    · rw [pulseEff_of_off (e := { e with stage := .started }) hruns hoff]
      exact ⟨hruns.finishNow _ _, rfl⟩
    · obtain ⟨honly, hpulse, hend, hpol, hcnt⟩ := pulseEff_of_on (e := { e with stage := .started }) hruns hon
      exact ⟨(hruns.congr honly.rng).started rfl, hpulse, hend, hpol, hcnt, honly.others⟩
  · have hexec := exec_periodStart_at_boundary hn hen hmode hpull hat (loadDue_of_none hpend s)
    rw [hpend] at hexec
    obtain ⟨honly, hwave, h0, -⟩ := beginPeriod_spec n (boundaryAt (outCh n s) s) s
    obtain ⟨-, -, -, -, hin, hper, hlen, hacc⟩ := wave_waveOf (periodOf (boundaryAt (outCh n s) s) (outCh n s))
    exact ⟨_, hexec, (congrArg OutCh.inPeriod hwave).trans hin, (congrArg OutCh.perAt hwave).trans hper,
      (congrArg OutCh.perLen hwave).trans hlen, (congrArg OutCh.accP hwave).trans hacc, h0, honly.others, honly.rng⟩
  · have hexec := exec_periodStart_at_boundary hn hen (by rw [hmode]; decide) hpull hat (loadDue_of_waiting hpend hdue s)
    rw [hpend] at hexec
    dsimp only at hexec
    rw [htarget] at hexec
    exact ⟨_, hexec, takeLoad_pwm hmode _ q⟩
  · exact named_act (decide_eq_true hn) (by simp [hin, hw, hlen, hat])
  · exact named_act (decide_eq_true hn) (by simpa [hat] using hdue)
  · have hexec : exec (.pullInEnd n) s =
        .next (beginPeriod n (outCh n s).endAt (setOut n { outCh n s with pullIn := false } s)) :=
      named_act (decide_eq_true hn) (by simp [hpull, hat])
    generalize hv : setOut n { outCh n s with pullIn := false } s = v at hexec
    have hfirst : OnlyChan n s v ∧ wave (outCh n v) = wave { outCh n s with pullIn := false } := by
      rw [← hv]
      exact ⟨onlyChan_setOut n _ s, wave_setOut n _ s⟩
    obtain ⟨hset, hchan⟩ := hfirst
    obtain ⟨honly, hwave, -, -⟩ := beginPeriod_spec n (outCh n s).endAt v
    obtain ⟨-, -, -, hpull', hin, hper, -, -⟩ := wave_waveOf (periodOf (outCh n s).endAt (outCh n v))
    exact ⟨_, hexec, (congrArg OutCh.pullIn hwave).trans (hpull'.trans (congrArg OutCh.pullIn hchan)),
      (congrArg OutCh.inPeriod hwave).trans hin, (congrArg OutCh.perAt hwave).trans hper, (hset.trans honly).others⟩
  · have hexec : exec (.pulseEnd n) s = .next (finishOp q.1 q.2.1 q.2.2 stOk
        (some (BitVec.ofNat 32 (outCh n s).pulseInfo)) false
        (setOut n { outCh n s with pulse := none, pulseSupp := false } s)) := by
      show execPulseEnd n s = _
      unfold execPulseEnd
      dsimp only
      rw [hpulse]
      exact named_act (decide_eq_true hn) (decide_eq_true hat)
    generalize hc : ({ outCh n s with pulse := none, pulseSupp := false } : OutCh) = c at hexec
    have hfields : c.pulse = none ∧ outMode c = outMode (outCh n s) := by
      rw [← hc]
      exact ⟨rfl, rfl⟩
    obtain ⟨hpulse', hmode⟩ := hfields
    have hchan : outCh n (finishOp q.1 q.2.1 q.2.2 stOk (some (BitVec.ofNat 32 (outCh n s).pulseInfo)) false
        (setOut n c s)) = drivePins c s := outCh_setOut n c s
    have hwave := wave_drivePins c s
    have hfind' := findEntry_finishOp_self (s := setOut n c s) (st := stOk)
      (x := some (BitVec.ofNat 32 (outCh n s).pulseInfo)) hfind (by rw [hstage]; decide) hrep
    refine ⟨_, hexec, ?_, ?_, fun hrelay => ?_⟩
    · rw [hchan]
      exact (congrArg OutCh.pulse hwave).trans hpulse'
    · rw [hfind']
      rfl
    · rw [hchan]
      have hcfg : (drivePins c s).cfg = c.cfg := (congrArg OutCh.cfg hwave :)
      have hen : (drivePins c s).en = c.en := (congrArg OutCh.en hwave :)
      have hrule : pinRule (drivePins c s) (finishOp q.1 q.2.1 q.2.2 stOk
          (some (BitVec.ofNat 32 (outCh n s).pulseInfo)) false (setOut n c s)) = pinRule c s := by
        unfold pinRule
        rw [hen]
        rfl
      rw [hrule, safeA, safeB, hcfg]
      exact drivePins_of_relay (hmode.trans hrelay) hpulse' s

end Sys2Proof.Machine
end

section
/-! Proof of the statement on output channels, the inhibit and binary inputs. -/

namespace Sys2Proof.Machine

open Sys2Proof

set_option Elab.async false

variable {n k : Nat} {c : Cmd} {s t u v : State}

/-! ### Output channels (R539) -/

theorem effOutEnable_of_off (hoff : (outCh (arg0 c.desc) s).en = .off) : effOutEnable c s =
    (setOut (arg0 c.desc) (startOut (outCh (arg0 c.desc) s) s) s, stOk, none) := by
  unfold effOutEnable
  dsimp only
  rw [hoff]
  rfl

/-- A channel that was ON is STOPPING, with no pull-in (R149, R539). -/
theorem effOutDisable_of_on (hon : (outCh (arg0 c.desc) s).en = .on) : ∃ y : OutCh,
    effOutDisable c s = (setOut (arg0 c.desc) y s, stOk, none) ∧ y.en = .stopping ∧ y.pullIn = false := by
  unfold effOutDisable
  dsimp only
  rw [hon]
  cases hpull : (outCh (arg0 c.desc) s).pullIn
  · exact ⟨_, rfl, rfl, rfl⟩
  · exact ⟨_, rfl, rfl, rfl⟩

/-! ### The inhibit (R537, R538) -/

/-- A refused clear, while the pin reads low (R538). -/
theorem effOutInhClear_of_low (h : s.out.pinLow = true) : effOutInhClear c s =
    (noteSet 0x1A00 0 { s with out := { s.out with inhRefused := true } }, stWrongState, none) := by
  rw [effOutInhClear, if_pos h]
  rfl

theorem effOutInhClear_of_clear (hpin : s.out.pinLow = false) (h : s.out.inh = false) :
    effOutInhClear c s = (s, stOk, none) := by
  rw [effOutInhClear, if_neg (by rw [hpin]; decide), h]
  rfl

theorem effOutInhClear_of_latched (hpin : s.out.pinLow = false) (h : s.out.inh = true) : effOutInhClear c s =
    (raise { src := 13, code := 0x0A11, sev := some 1 } (applyPins { s with out := { s.out with inh := false } }),
      stOk, none) := by
  rw [effOutInhClear, if_neg (by rw [hpin]; decide), h]
  rfl

/-- The inhibit forces the safe levels on every channel (R536). -/
theorem drivePins_of_inh {x : OutCh} (h : s.out.inh = true) (hcold : coldPins s = false) :
    drivePins x s = { x with pinA := safeA x, pinB := safeB x, dueA := false, dueB := false } := by
  have hrule : pinRule x s = .safe := by
    rw [pinRule, if_neg (by rw [hcold]; decide), h]
    rfl
  rw [drivePins, hrule]
  rfl

theorem latchInh_of_clear (h : s.out.inh = false) (harb : arbHeld s = false) : latchInh s =
    raise { src := 13, code := 0x0A10, sev := some 1 } (applyPins { s with out := { s.out with inh := true } }) := by
  rw [latchInh, if_neg (by rw [h]; decide)]
  dsimp only
  rw [if_neg (by rw [harb]; decide)]

/-- A level of 10 ns or more latches the inhibit (R537). -/
theorem exec_outinhN_of_low {ns : Nat} (hns : 10 ≤ ns) (hwait : inhWaits s = false) : exec (.outinhN false ns) s =
    .next (latchInh { s with out := { s.out with pinLow := true } }) := by
  show execOutinhN false ns s = _
  have hlatch : inhLatches ns s = true := by
    rw [inhLatches, decide_eq_true hns]
    rfl
  unfold execOutinhN
  dsimp only
  rw [hwait, hlatch, decide_eq_false (Nat.not_lt.mpr hns)]
  rfl

/-! ### Binary inputs (R524 to R528) -/

@[simp] theorem binOf_setBin (n : Nat) (x : BinIn) (s : State) : binOf n (setBin n x s) = x := lookD_put_self _ _ _ _

theorem binOf_setBin_other (h : k ≠ n) (x : BinIn) (s : State) : binOf k (setBin n x s) = binOf k s :=
  lookD_put_other _ _ _ h

theorem binOf_congr (h : t.bin = s.bin) (n : Nat) : binOf n t = binOf n s := by rw [binOf, binOf, h]

theorem effBinEnable_of_off (hoff : (binOf (arg0 c.desc) s).en = .off) : effBinEnable c s =
    (levelChange 2 (arg0 c.desc) (startBin (binOf (arg0 c.desc) s) s).state
      (setBin (arg0 c.desc) (startBin (binOf (arg0 c.desc) s) s) s), stOk, none) := by
  unfold effBinEnable
  dsimp only
  rw [hoff]
  rfl

theorem effBinDisable_of_on (hon : (binOf (arg0 c.desc) s).en = .on) : effBinDisable c s =
    (setBin (arg0 c.desc) { binOf (arg0 c.desc) s with en := .stopping, held := false } s, stOk, none) := by
  unfold effBinDisable
  dsimp only
  rw [hon]
  rfl

/-- The edge line leaves the inputs and the arbiter (R527). -/
theorem writeLine_frame (x : BinIn) (osn : Nat) (s : State) :
    (writeLine x osn s).bin = s.bin ∧ (writeLine x osn s).arb = s.arb := by
  unfold writeLine
  dsimp only
  split
  · exact ⟨visWrite_bin _ _ _ s, visWrite_arb _ _ _ s⟩
  · exact ⟨rfl, rfl⟩

/-- A change of an input's state: one more in `ESEQ`, one count, one OSN (R526). -/
theorem binChange_spec (n : Nat) (v : Bool) (f : Nat) (h : arbHeld s = false) :
    (∃ y : BinIn, y.state = v ∧ y.runOpen = false ∧ y.eseq = (binOf n s).eseq + 1 ∧
      (binChange n v f s).bin = (countBin n (if v then 0 else 1) (setBin n y s)).bin) ∧
    (binChange n v f s).arb.osn = s.arb.osn + 1 := by
  unfold binChange
  dsimp only
  generalize hy : ({ binOf n s with
    state := v, runOpen := false, eseq := (binOf n s).eseq + 1, unacq := _, told := _, lastOsn := _
    riseNs := _, fallNs := _, stateAt := _ } : BinIn) = y
  have hfields : y.state = v ∧ y.runOpen = false ∧ y.eseq = (binOf n s).eseq + 1 := by
    subst hy
    exact ⟨rfl, rfl, rfl⟩
  obtain ⟨hst, hrun, heseq⟩ := hfields
  refine ⟨⟨y, hst, hrun, heseq, (writeLine_frame y _ _).1⟩, ?_⟩
  refine (congrArg Arb.osn (writeLine_frame y _ _).2).trans ?_
  exact raise_osn (s := { countBin n (if v then 0 else 1) (setBin n y s) with
    out := { s.out with ptr := (arbitrate 48 1 s.out.ptr (· == n)).2 } }) h

/-- The end of an open run whose state stays is a glitch (R525). -/
theorem endRunOf_of_same (h : ((binOf n s).level != binInvert (binOf n s)) = (binOf n s).state) :
    endRunOf n s = countBin n 2 (setBin n { binOf n s with runOpen := false } s) := by
  unfold endRunOf
  dsimp only
  rw [h]
  exact if_neg (by simp)

theorem endRunOf_of_change (h : ((binOf n s).level != binInvert (binOf n s)) ≠ (binOf n s).state) :
    endRunOf n s = binChange n ((binOf n s).level != binInvert (binOf n s)) (binOf n s).lastAt s := by
  unfold endRunOf
  dsimp only
  exact if_pos (bne_iff_ne.mpr h)

/-- A transition of a filtered input opens its run (R525). -/
theorem exec_binTransition_opens {level : Bool} {at_ : Nat} (hn : n < 32) (hon : (binOf n s).en = .on)
    (hfilt : 0 < filtWindow (binOf n s)) (hrun : (binOf n s).runOpen = false) :
    exec (.binTransition n level at_) s =
      .next (setBin n { binOf n s with level := level, lastAt := at_ / 8192 * 8192, runOpen := true }
        (setBin n { binOf n s with level := level } s)) := by
  have hsettle : settleBin n (tdcTime at_) s = s := by
    rw [settleBin, hrun]
    rfl
  show execBinTransition n level at_ s = _
  unfold execBinTransition
  dsimp only
  have hstay : (if (binOf n s).en == .off then s else settleBin n (tdcTime at_) s) = s := by rw [hsettle, ite_self]
  have hlive : ((binOf n s).en == .off) = false := by rw [hon]; rfl
  rw [named, if_pos (decide_eq_true hn), hstay, hlive, if_neg Bool.false_ne_true, if_neg (by omega)]
  rfl

/-- Settles O38: each command and each row by its case of the channel, the latch or the input. -/
theorem outputCommandsAndBinaryInputs : Obligations.OutputCommandsAndBinaryInputs := by
  unfold Obligations.OutputCommandsAndBinaryInputs
  refine ⟨fun c s => ⟨fun h => runNow_of_ready h rfl (judgeCmd_outConfig s), fun h hoff => ?_, fun h hon => ?_,
    fun h => ⟨fun hpin => ?_, fun hpin => ?_⟩, fun ns hns hwait hinh harb => ?_, fun ns => ?_⟩,
    fun c s => ⟨fun h => runNow_of_ready h rfl (judgeCmd_binConfig s), fun h hoff => ?_, fun h hon => ?_⟩,
      fun n at_ v s hn hon hfilt hrun => exec_binTransition_opens hn hon hfilt hrun,
      fun n s hn hon hrun hat harb => ?_⟩
  · have hexec : exec (.outEnable c) s = .next (complete c (effOutEnable c s)) := runNow_of_ready h rfl (judgeCmd_outEnable s)
    rw [effOutEnable_of_off hoff] at hexec
    generalize hy : startOut (outCh (arg0 c.desc) s) s = y at hexec
    have hwave : wave (outCh (arg0 c.desc) (setOut (arg0 c.desc) y s)) = wave y := wave_setOut _ y s
    refine ⟨_, hexec, (congrArg OutCh.en hwave).trans ?_, (congrArg OutCh.p hwave).trans ?_,
      (congrArg OutCh.h hwave).trans ?_, (congrArg OutCh.stP hwave).trans ?_, (congrArg OutCh.stH hwave).trans ?_,
      fun k hk => outCh_setOut_other hk y s⟩ <;> rw [← hy] <;> rfl
  · have hexec : exec (.outDisable c) s = .next (complete c (effOutDisable c s)) :=
      runNow_of_ready h rfl (judgeCmd_outDisable s)
    obtain ⟨y, heff, hen, hpull⟩ := effOutDisable_of_on hon
    have hwave : wave (outCh (arg0 c.desc) (setOut (arg0 c.desc) y s)) = wave y := wave_setOut _ y s
    exact ⟨_, hexec.trans (by rw [heff]), (congrArg OutCh.en hwave).trans hen, (congrArg OutCh.pullIn hwave).trans hpull,
      fun k hk => outCh_setOut_other hk y s⟩
  · exact (runNow_of_ready h rfl (judgeCmd_outInhClear s)).trans (by rw [effOutInhClear_of_low hpin])
  · have hexec : exec (.outInhClear c) s = .next (complete c (effOutInhClear c s)) :=
      runNow_of_ready h rfl (judgeCmd_outInhClear s)
    cases hinh : s.out.inh
    · rw [effOutInhClear_of_clear hpin hinh] at hexec
      exact ⟨s, hexec, hinh, fun _ => rfl, nofun⟩
    · rw [effOutInhClear_of_latched hpin hinh] at hexec
      exact ⟨_, hexec, rfl, nofun,
        fun _ harb => raise_osn (s := applyPins { s with out := { s.out with inh := false } }) harb⟩
  · have hexec := (exec_outinhN_of_low (s := s) hns hwait).trans
      (congrArg _ (latchInh_of_clear (s := { s with out := { s.out with pinLow := true } }) hinh harb))
    refine ⟨_, hexec, rfl, rfl, raise_osn (s := applyPins { s with out := { s.out with pinLow := true, inh := true } }) harb,
      fun k x hx hcold => ?_⟩
    have hpins := look_map_entry
      (g := fun e => (e.1, drivePins e.2 { s with out := { s.out with pinLow := true, inh := true } })) (fun _ => rfl)
      s.out.chans k
    obtain ⟨y, -, rfl⟩ := Option.map_eq_some_iff.mp (hpins.symm.trans hx)
    dsimp only
    rw [drivePins_of_inh (s := { s with out := { s.out with pinLow := true, inh := true } }) rfl hcold]
    exact ⟨rfl, rfl⟩
  · show execOutinhN true ns s = _
    rfl
  · have hexec : exec (.binEnable c) s = .next (complete c (effBinEnable c s)) := runNow_of_ready h rfl (judgeCmd_binEnable s)
    rw [effBinEnable_of_off hoff] at hexec
    generalize hy : startBin (binOf (arg0 c.desc) s) s = y at hexec
    have hbin : binOf (arg0 c.desc) (levelChange 2 (arg0 c.desc) y.state (setBin (arg0 c.desc) y s)) = y := binOf_setBin _ y s
    refine ⟨_, hexec, ?_, ?_, ?_, fun k hk => binOf_setBin_other hk y s, rfl, rfl⟩ <;> rw [hbin, ← hy] <;> rfl
  · exact (runNow_of_ready h rfl (judgeCmd_binDisable s)).trans (by rw [effBinDisable_of_on hon])
  · intro v
    have hexec : exec (.binFilterWindowEnd n) s = .next (endRunOf n s) :=
      named_act (decide_eq_true hn) (by simp [hon, hrun, hat])
    by_cases hsame : v = (binOf n s).state
    · rw [endRunOf_of_same hsame] at hexec
      have hbin : binOf n (countBin n 2 (setBin n { binOf n s with runOpen := false } s)) =
          { binOf n s with runOpen := false } := binOf_setBin n _ s
      refine ⟨_, hexec, by rw [hbin], by rw [hbin]; exact hsame.symm,
        fun _ => ⟨lookD_bump_self _ _, rfl, by rw [hbin]⟩, fun hne => absurd hsame hne,
        fun k hk => binOf_setBin_other hk _ s⟩
    · rw [endRunOf_of_change hsame] at hexec
      obtain ⟨⟨y, hst, hopen, heseq, hbin⟩, hosn⟩ := binChange_spec n v (binOf n s).lastAt harb
      have hself : binOf n (binChange n v (binOf n s).lastAt s) = y := (binOf_congr hbin n).trans (binOf_setBin n y s)
      refine ⟨_, hexec, by rw [hself, hopen], by rw [hself, hst], fun heq => absurd heq hsame,
        fun _ => ⟨by rw [hself, heseq], hosn, ?_⟩, fun k hk => (binOf_congr hbin k).trans (binOf_setBin_other hk y s)⟩
      rw [hbin]
      exact lookD_bump_self _ _

end Sys2Proof.Machine
end

section
/-! Refutation of the statement on the commands of streams and GOOSE. -/

namespace Sys2Proof.Machine

open Sys2Proof

set_option Elab.async false

variable {c : Cmd} {s : State}

/-- The completion of a command of a ring leaves the crypto lanes. -/
theorem complete_key (h : c.ring ≠ ringSeed) (x : Res) : (complete c x).key = x.1.key := by
  have hrem (st : Nat) (w : Option Word) : (remember c st w x.1).key = x.1.key := by
    unfold remember
    dsimp only
    split <;> rfl
  have hfin (st : Nat) (w : Option Word) (u : State) : (finishCmd c st w u).key = u.key := by
    rw [finishCmd, if_neg h, finishOp_key]
  unfold complete
  dsimp only
  split
  · rw [gftSendOne_key]
    exact hrem _ _
  · exact (hfin _ _ _).trans (hrem _ _)

/-! ### The end of a publication frees its lane, and the frame that waits takes it -/

/-- GOOSE_PUB_DISABLE of publication 2, from P0. -/
def disableCmd : Cmd := { ring := 2048, desc := { w0 := 0x01000322, w6 := 2 } }

/-- The request of a tag for publication `n`. -/
def tagOfPub (n : Nat) : TagReq := { held := { frame := {} }, slot := 0, auth := 0, owner := 0, pub := some n }

/-- Publication 2 is ON with its frame in lane 0; the lanes are full, and publication 3 waits for its tag. -/
def lanesFull : State where
  rst := { phase := .started }
  hw := { exec := some disableCmd }
  gse := { pubs := [(2, { en := .on }), (3, { en := .on })] }
  key := {
    lanes := [(0, { tag := some (tagOfPub 2) }), (1, { tag := some (tagOfPub 4) }), (2, { tag := some (tagOfPub 5) }),
      (3, { tag := some (tagOfPub 6) })]
    tags := [tagOfPub 3] }

/-- Refutes O39: GOOSE_PUB_DISABLE frees the lane of its publication, and a tag request that waited leaves the list for
that lane at once; in `lanesFull` publication 3 does so. -/
theorem not_streamAndGooseCommands : ¬ Obligations.StreamAndGooseCommands := by
  unfold Obligations.StreamAndGooseCommands
  rintro ⟨-, hgoose⟩
  obtain ⟨-, -, -, -, hdisable⟩ := hgoose disableCmd lanesFull
  have hexec : exec (.goosePubDisable disableCmd) lanesFull =
      .next (complete disableCmd (effGoosePubDisable disableCmd lanesFull)) :=
    runNow_of_ready (i := .goosePubDisable disableCmd) (by decide) rfl (judgeCmd_goosePubDisable lanesFull)
  obtain ⟨u, hnext, -, htags, -⟩ := hdisable (by decide) (by decide)
  have hkey : u.key = (effGoosePubDisable disableCmd lanesFull).1.key := by
    have heq := congrArg State.key (Host.Outcome.next.inj (hexec.symm.trans hnext))
    rw [complete_key (by decide), complete_key (by decide)] at heq
    exact heq.symm
  rw [hkey] at htags
  exact absurd (congrArg List.length htags) (by decide)

end Sys2Proof.Machine
end

section
/-! What the acquisition engine leaves alone (R390 to R422). -/

namespace Sys2Proof.Machine

open Sys2Proof

set_option Elab.async false

variable {n k : Nat} {s t u v : State}

/-- A step of recorder `n`: the other recorders, the changes that wait and every engine but the acquisition engine, the
events and the writes to partitions stay. -/
structure AcqOnly (n : Nat) (s t : State) : Prop where
  frame : t = { s with acq := t.acq, sets := t.sets, mem := t.mem, cnp := t.cnp, arb := t.arb, hw := t.hw, log := t.log,
                       obs := t.obs }
  others : ∀ k, k ≠ n → recOf k t = recOf k s
  changes : t.acq.changes = s.acq.changes

theorem recOf_congr (h : t.acq.recs = s.acq.recs) (n : Nat) : recOf n t = recOf n s := by rw [recOf, recOf, h]

@[simp] theorem recOf_setRec (n : Nat) (x : Rec) (s : State) : recOf n (setRec n x s) = x := lookD_put_self _ _ _ _

theorem recOf_setRec_other (h : k ≠ n) (x : Rec) (s : State) : recOf k (setRec n x s) = recOf k s :=
  lookD_put_other _ _ _ h

namespace AcqOnly

theorem refl (n : Nat) (s : State) : AcqOnly n s s := ⟨rfl, fun _ _ => rfl, rfl⟩

theorem trans (h : AcqOnly n s t) (h' : AcqOnly n t u) : AcqOnly n s u := by
  refine ⟨?_, fun k hk => (h'.others k hk).trans (h.others k hk), h'.changes.trans h.changes⟩
  have hframe := h'.frame
  rw [h.frame] at hframe
  exact hframe

/-- A step that leaves the recorders and the changes. -/
theorem of_recs (h : t = { s with acq := t.acq, sets := t.sets, mem := t.mem, cnp := t.cnp, arb := t.arb, hw := t.hw,
                                  log := t.log, obs := t.obs })
    (hrecs : t.acq.recs = s.acq.recs) (hchanges : t.acq.changes = s.acq.changes) : AcqOnly n s t :=
  ⟨h, fun k _ => recOf_congr hrecs k, hchanges⟩

theorem rng (h : AcqOnly n s t) : t.rng = s.rng := (congrArg State.rng h.frame :)

theorem ite {p : Prop} [Decidable p] (h : AcqOnly n s t) (h' : AcqOnly n s u) : AcqOnly n s (if p then t else u) := by
  split
  · exact h
  · exact h'

theorem setRec (n : Nat) (x : Rec) (s : State) : AcqOnly n s (setRec n x s) :=
  ⟨rfl, fun _ hk => recOf_setRec_other hk x s, rfl⟩

theorem countRec (n i k : Nat) (s : State) : AcqOnly n s (countRec n i k s) := of_recs rfl rfl rfl

theorem latchRec (n bit : Nat) (s : State) : AcqOnly n s (latchRec n bit s) := of_recs rfl rfl rfl

theorem acqEvent (code n : Nat) (s : State) : AcqOnly n s (acqEvent code n s) := of_recs rfl rfl rfl

theorem acqAsk (n i : Nat) (s : State) : AcqOnly n s (acqAsk i s) := of_recs rfl rfl rfl

theorem fireBinds (n type : Nat) (ok : Nat → Bool) (s : State) : AcqOnly n s (fireBinds type ok s) := of_recs rfl rfl rfl

end AcqOnly

/-! ### Status line and blind intervals (R394, R415) -/

theorem visWrite_frame (p iova : Nat) (b : Bytes) (s : State) : ∃ m c, visWrite p iova b s = { s with mem := m, cnp := c } := by
  unfold visWrite
  split
  · split
    · exact ⟨_, _, rfl⟩
    · obtain ⟨m, c, h⟩ := land_frame p iova b s
      exact ⟨m, c, h⟩
  · exact ⟨_, _, rfl⟩

theorem writeStatus_frame (n : Nat) (s : State) : ∃ m c, writeStatus n s = { s with mem := m, cnp := c } := by
  unfold writeStatus
  dsimp only
  split
  · split
    · exact visWrite_frame _ _ _ s
    · exact ⟨_, _, rfl⟩
  · exact ⟨_, _, rfl⟩

theorem acqOnly_writeStatus (n : Nat) (s : State) : AcqOnly n s (writeStatus n s) := by
  obtain ⟨m, c, h⟩ := writeStatus_frame n s
  rw [h]
  exact .of_recs rfl rfl rfl

/-- A change of blindness: the recorder keeps all but its blind interval and dead time (R394). -/
theorem reblind_spec (n : Nat) (s : State) : AcqOnly n s (reblind n s) ∧
    ∃ b d, recOf n (reblind n s) = { recOf n s with blindSince := b, deadNs := d } := by
  have hwrite (v : State) : AcqOnly n v (writeStatus n v) ∧ recOf n (writeStatus n v) = recOf n v := by
    refine ⟨acqOnly_writeStatus n v, ?_⟩
    obtain ⟨m, c, h⟩ := writeStatus_frame n v
    rw [h]
    rfl
  unfold reblind
  dsimp only
  split
  · obtain ⟨honly, hrec⟩ := hwrite (setRec n { recOf n s with blindSince := some s.clk.frc } s)
    exact ⟨(AcqOnly.setRec n _ s).trans honly, _, _, hrec.trans (recOf_setRec n _ s)⟩
  · rename_i at_ _ _
    obtain ⟨honly, hrec⟩ := hwrite (countRec n 7 (s.clk.frc - at_) (setRec n { recOf n s with
      blindSince := none, deadNs := (recOf n s).deadNs + (s.clk.frc - at_) } s))
    exact ⟨((AcqOnly.setRec n _ s).trans (.countRec n 7 _ _)).trans honly, _, _, hrec.trans (recOf_setRec n _ s)⟩
  · obtain ⟨honly, hrec⟩ := hwrite s
    exact ⟨honly, _, _, hrec⟩

theorem acqOnly_reblind (n : Nat) (s : State) : AcqOnly n s (reblind n s) := (reblind_spec n s).1

theorem acqOnly_ite_reblind {p : Prop} [Decidable p] (h : AcqOnly n s t) :
    AcqOnly n s (if p then reblind n t else t) := .ite (h.trans (acqOnly_reblind n t)) h

/-! ### Rows (R403, R406) -/

theorem acqOnly_noteSteps (n k : Nat) (first : Bool) (s : State) : AcqOnly n s (noteSteps n k first s) := by
  unfold noteSteps
  split
  · exact .refl n s
  · dsimp only
    split
    · exact ((AcqOnly.countRec n 4 k s).trans (.latchRec n 1 _)).trans (.acqEvent _ n _)
    · exact (AcqOnly.countRec n 4 k s).trans (.latchRec n 1 _)

theorem recordRow_of_none (h : (recOf n s).cur = none) (row : Row) : recordRow n row s = s := by
  unfold recordRow
  dsimp only
  rw [h]

theorem acqOnly_recordRow (n : Nat) (row : Row) (s : State) : AcqOnly n s (recordRow n row s) := by
  unfold recordRow
  dsimp only
  split
  · exact .refl n s
  · refine .ite (.refl n s) (acqOnly_ite_reblind (.ite (.setRec n _ s) (.ite (.setRec n _ s) ?_)))
    exact (AcqOnly.setRec n _ s).trans (acqOnly_noteSteps n _ _ _)

theorem acqOnly_recordRows (n : Nat) (l : List Row) (s : State) : AcqOnly n s (recordRows n l s) := by
  induction l generalizing s with
  | nil => exact .refl n s
  | cons r rs ih => exact (acqOnly_recordRow n r s).trans (ih _)

theorem acqOnly_formRow (n : Nat) (s : State) : AcqOnly n s (formRow n s) :=
  ((AcqOnly.setRec n _ s).trans (.acqAsk n n _)).trans (acqOnly_recordRow n _ _)

theorem acqOnly_formRows (n k : Nat) (s : State) : AcqOnly n s (formRows n k s) := by
  induction k generalizing s with
  | zero => exact .refl n s
  | succ k ih => exact (acqOnly_formRow n s).trans (ih _)

/-- The change of the time line ends what a recorder captures (R408). -/
theorem acqOnly_recRephase (first : Nat → Nat) (n : Nat) (s : State) : AcqOnly n s (recRephase first n s) := by
  unfold recRephase
  dsimp only
  have hrows := acqOnly_formRows n (rowsLeft (recOf n s) s) s
  generalize formRows n (rowsLeft (recOf n s) s) s = v at hrows ⊢
  refine .ite (.refl n s) (hrows.trans ?_)
  split
  · exact ((AcqOnly.setRec n _ _).trans (acqOnly_reblind n _)).trans (.latchRec n 4 _)
  · exact .setRec n _ _
  · exact .setRec n _ _

/-! ### Triggers (R394, R401, R402) -/

theorem acqOnly_overwriteOne (n : Nat) (s : State) : AcqOnly n s (overwriteOne n s) := by
  unfold overwriteOne
  dsimp only
  split
  · exact .refl n s
  · exact (((AcqOnly.setRec n _ s).trans (.countRec n 5 1 _)).trans (.latchRec n 2 _)).trans (.acqEvent _ n _)

theorem acqOnly_makeRoom (n k : Nat) (s : State) : AcqOnly n s (makeRoom n k s) := by
  induction k generalizing s with
  | zero => exact .refl n s
  | succ k ih => exact .ite (.refl n s) ((acqOnly_overwriteOne n s).trans (ih _))

theorem acqOnly_loseTrig (n : Nat) (s : State) : AcqOnly n s (loseTrig n s) := by
  have hlost := ((AcqOnly.setRec n { recOf n s with
      lost := (recOf n s).lost + 1
      lostAt := if (match (recOf n s).lostAt with
        | some t => decide (s.clk.frc < t + 1000000000)
        | none => false) then (recOf n s).lostAt else some s.clk.frc } s).trans (.countRec n 1 1 _)).trans (.latchRec n 0 _)
  exact .ite hlost (hlost.trans (.acqEvent _ n _))

theorem acqOnly_openRecord (n : Nat) (f : Fire) (s : State) : AcqOnly n s (openRecord n f s) :=
  (((AcqOnly.setRec n _ s).trans (.acqEvent _ n _)).trans (acqOnly_recordRows n _ _)).trans (acqOnly_reblind n _)

theorem acqOnly_reTrig (n : Nat) (f : Fire) (r : Record) (s : State) : AcqOnly n s (reTrig n f r s) := by
  unfold reTrig
  dsimp only
  refine .ite (.setRec n _ s) (.ite (.countRec n 2 1 s) (.ite (.setRec n _ s) ?_))
  exact ((AcqOnly.setRec n _ s).trans (.countRec n 3 1 _)).trans (.latchRec n 3 _)

theorem acqOnly_fireTrig (n : Nat) (f : Fire) (s : State) : AcqOnly n s (fireTrig n f s) := by
  unfold fireTrig
  dsimp only
  refine .ite (.refl n s) ?_
  split
  · exact (acqOnly_makeRoom n _ s).trans (.ite (acqOnly_openRecord n f _) (acqOnly_loseTrig n _))
  · exact acqOnly_reTrig n f _ s
  · exact acqOnly_loseTrig n s

end Sys2Proof.Machine
end

section
/-! The alignment of sampled values and the work of the filter chain (R337, R338, R363). -/

namespace Sys2Proof.Machine

open Sys2Proof

set_option Elab.async false

variable {n k : Nat} {s t u v : State}

/-! ### One stream (R331) -/

theorem strmOf_congr (h : t.sv.streams = s.sv.streams) (n : Nat) : strmOf n t = strmOf n s := by rw [strmOf, strmOf, h]

theorem look_setStrm_other (h : k ≠ n) (x : Strm) (s : State) :
    look (setStrm n x s).sv.streams k = look s.sv.streams k := look_put_other _ _ h

/-- A step of the chain of sampled values: streams, filters, recorders, free values and the bits set change only. -/
def Chained (s t : State) : Prop :=
  t = { s with sv := t.sv, flt := t.flt, acq := t.acq, free := t.free, sets := t.sets }

theorem Chained.trans (h : Chained s t) (h' : Chained t u) : Chained s u := by
  have hframe : u = { t with sv := u.sv, flt := u.flt, acq := u.acq, free := u.free, sets := u.sets } := h'
  rw [show t = { s with sv := t.sv, flt := t.flt, acq := t.acq, free := t.free, sets := t.sets } from h] at hframe
  exact hframe

/-- A step that closes or delivers: with it events, memory and partitions change. -/
def Delivered (s t : State) : Prop :=
  t = { s with sv := t.sv, flt := t.flt, acq := t.acq, free := t.free, sets := t.sets, mem := t.mem, cnp := t.cnp
               arb := t.arb, hw := t.hw, log := t.log, obs := t.obs }

theorem Delivered.trans (h : Delivered s t) (h' : Delivered t u) : Delivered s u := by
  have hframe : u = { t with
    sv := u.sv, flt := u.flt, acq := u.acq, free := u.free, sets := u.sets, mem := u.mem, cnp := u.cnp
    arb := u.arb, hw := u.hw, log := u.log, obs := u.obs } := h'
  rw [show t = { s with
    sv := t.sv, flt := t.flt, acq := t.acq, free := t.free, sets := t.sets, mem := t.mem, cnp := t.cnp
    arb := t.arb, hw := t.hw, log := t.log, obs := t.obs } from h] at hframe
  exact hframe

theorem Chained.delivered (h : Chained s t) : Delivered s t := by
  have hframe : t = { s with sv := t.sv, flt := t.flt, acq := t.acq, free := t.free, sets := t.sets } := h
  unfold Delivered
  rw [hframe]

theorem AcqOnly.delivered (h : AcqOnly n s t) : Delivered s t := by
  unfold Delivered
  rw [h.frame]

theorem AcqOnly.sv (h : AcqOnly n s t) : t.sv = s.sv := (congrArg State.sv h.frame :)

theorem AcqOnly.flt (h : AcqOnly n s t) : t.flt = s.flt := (congrArg State.flt h.frame :)

theorem Delivered.refl (s : State) : Delivered s s := rfl

theorem Delivered.raise (e : Ev) (s : State) : Delivered s (raise e s) := rfl

/-! ### Passing slots in order (R337) -/

/-- A slot keeps its number, its sample and its arrival. -/
def SameSample (q z : SlotSt) : Prop :=
  q.slot = z.slot ∧ q.present = z.present ∧ q.samples = z.samples ∧ q.arr = z.arr

theorem passIn_samples (fs reorder lim : Nat) (dead : Bool) (t : OpenTick) (ok : Bool) (l : List SlotSt) :
    ∀ q ∈ (passIn fs reorder lim dead t ok l).2.1, ∃ z ∈ l, SameSample q z := by
  induction l generalizing ok with
  | nil => cases ok <;> exact nofun
  | cons z l ih =>
    have hself : ∀ q ∈ z :: l, ∃ w ∈ z :: l, SameSample q w := fun q hq => ⟨q, hq, rfl, rfl, rfl, rfl⟩
    have hrest (y : SlotSt) (hy : SameSample y z) :
        ∀ q ∈ y :: (passIn fs reorder lim dead t true l).2.1, ∃ w ∈ z :: l, SameSample q w := by
      intro q hq
      rcases List.mem_cons.mp hq with rfl | hq
      · exact ⟨z, List.mem_cons_self, hy⟩
      · obtain ⟨w, hw, hsame⟩ := ih true q hq
        exact ⟨w, List.mem_cons_of_mem _ hw, hsame⟩
    cases ok
    · exact hself
    · unfold passIn
      split
      · exact hrest z ⟨rfl, rfl, rfl, rfl⟩
      · split
        · exact hrest _ ⟨rfl, rfl, rfl, rfl⟩
        · split
          · exact hrest _ ⟨rfl, rfl, rfl, rfl⟩
          · exact hself

/-- After its deadline every slot of a tick has passed (R338). -/
theorem passIn_dead (fs reorder lim : Nat) (t : OpenTick) (l : List SlotSt) :
    ∀ q ∈ (passIn fs reorder lim true t true l).2.1, q.passed = true := by
  induction l with
  | nil => exact nofun
  | cons z l ih =>
    have hrest (y : SlotSt) (hy : y.passed = true) :
        ∀ q ∈ y :: (passIn fs reorder lim true t true l).2.1, q.passed = true := by
      intro q hq
      rcases List.mem_cons.mp hq with rfl | hq
      · exact hy
      · exact ih q hq
    unfold passIn
    split
    · exact hrest z ‹_›
    · split
      · exact hrest _ rfl
      · rw [if_pos (by simp)]
        exact hrest _ rfl

theorem passTicks_samples (fs reorder lim : Nat) (dead : OpenTick → Bool) (ok : Bool) (l : List OpenTick) :
    ∀ t ∈ (passTicks fs reorder lim dead ok l).1, ∃ w ∈ l, t.k = w.k ∧ t.rephase = w.rephase ∧
      ∀ q ∈ t.slots, ∃ z ∈ w.slots, SameSample q z := by
  induction l generalizing ok with
  | nil => exact nofun
  | cons w l ih =>
    intro t ht
    rcases List.mem_cons.mp ht with rfl | ht
    · exact ⟨w, List.mem_cons_self, rfl, rfl, passIn_samples _ _ _ _ _ _ _⟩
    · obtain ⟨y, hy, hsame⟩ := ih _ t ht
      exact ⟨y, List.mem_cons_of_mem _ hy, hsame⟩

/-! ### The advance of a stream (R337, R338) -/

theorem queueWork_frame (l : List Work) (n : Nat) (s : State) : Chained s (queueWork l n s) ∧ (queueWork l n s).sv = s.sv := by
  unfold queueWork
  split
  · exact ⟨rfl, rfl⟩
  · dsimp only
    generalize decide (460800 < _) = full
    cases full <;> exact ⟨rfl, rfl⟩

/-- The ticks of stream `n` after an advance (R337, R338). -/
def passedTicks (n : Nat) (dead : OpenTick → Bool) (s : State) : List OpenTick :=
  (passTicks (rateHz (strmOf n s).rate) (strmOf n s).reorder (lastSample (rateHz (strmOf n s).rate) (strmOf n s).ticks)
    dead true (strmOf n s).ticks).1

theorem advance_spec (n : Nat) (dead : OpenTick → Bool) (s : State) : Chained s (advance n dead s) ∧
    strmOf n (advance n dead s) = { strmOf n s with ticks := passedTicks n dead s } ∧
    (∀ k, k ≠ n → look (advance n dead s).sv.streams k = look s.sv.streams k) ∧
    (∀ i, i ≠ 9 → lookD (advance n dead s).sv.cnt (n * 14 + i) 0 = lookD s.sv.cnt (n * 14 + i) 0) ∧
    (advance n dead s).sv.noSub = s.sv.noSub := by
  unfold advance
  dsimp only
  generalize hr : passTicks (rateHz (strmOf n s).rate) (strmOf n s).reorder
    (lastSample (rateHz (strmOf n s).rate) (strmOf n s).ticks) dead true (strmOf n s).ticks = r
  have hticks : passedTicks n dead s = r.1 := by rw [passedTicks, hr]
  generalize hwork : r.2.1.map _ = work
  obtain ⟨hframe, hsv⟩ := queueWork_frame work n (countSv n 9 r.2.2 (setStrm n { strmOf n s with ticks := r.1 } s))
  have hfirst : Chained s (countSv n 9 r.2.2 (setStrm n { strmOf n s with ticks := r.1 } s)) := rfl
  refine ⟨hfirst.trans hframe, ?_, fun k hk => ?_, fun i hi => ?_, by rw [hsv]; rfl⟩
  · rw [strmOf, hsv, hticks]
    exact strmOf_setStrm n _ s
  · rw [hsv]
    exact look_setStrm_other hk _ s
  · rw [hsv]
    exact lookD_bumpBy_other _ _ (by omega)

/-! ### A tick without its outputs -/

/-- An open tick without the outputs taken of it. -/
def bareTick (t : OpenTick) : OpenTick := { t with snap := none }

/-- A stream without the channels, their events and the outputs taken: what the filter chain does not touch. -/
def plain (x : Strm) : Strm := { x with ticks := x.ticks.map bareTick, chans := [], evs := [] }

/-- A step of the filter chain on stream `n`: the other streams, the queue of work and the stream's own set-up, ticks and
slots stay. -/
structure Filters (n : Nat) (s t : State) : Prop where
  frame : Chained s t
  work : t.flt.work = s.flt.work
  others : ∀ k, k ≠ n → look t.sv.streams k = look s.sv.streams k
  plain : plain (strmOf n t) = plain (strmOf n s)

namespace Filters

theorem refl (n : Nat) (s : State) : Filters n s s := ⟨rfl, rfl, fun _ _ => rfl, rfl⟩

theorem trans (h : Filters n s t) (h' : Filters n t u) : Filters n s u :=
  ⟨h.frame.trans h'.frame, h'.work.trans h.work, fun k hk => (h'.others k hk).trans (h.others k hk),
    h'.plain.trans h.plain⟩

/-- A step that leaves the streams and the queue. -/
theorem of_streams (h : Chained s t) (hw : t.flt.work = s.flt.work) (hsv : t.sv.streams = s.sv.streams) : Filters n s t :=
  ⟨h, hw, fun k _ => by rw [hsv], by rw [strmOf_congr hsv]⟩

theorem setStrm {x : Strm} (h : Machine.plain x = Machine.plain (strmOf n s)) : Filters n s (setStrm n x s) :=
  ⟨rfl, rfl, fun _ hk => look_setStrm_other hk x s, by rw [strmOf_setStrm, h]⟩

end Filters

theorem filters_latchFlt (n ch : Nat) (sat lim : Bool) (s : State) : Filters n s (latchFlt n ch sat lim s) := by
  cases sat <;> cases lim <;> exact .of_streams rfl rfl rfl

theorem filters_latchSats (n : Nat) (l : List Nat) (s : State) : Filters n s (latchSats n l s) := by
  induction l generalizing s with
  | nil => exact .refl n s
  | cons c cs ih => exact (filters_latchFlt n c true false s).trans (ih _)

/-- The outputs taken of a tick (R374). -/
theorem filters_snapTick (n : Nat) (t : OpenTick) (s : State) : Filters n s (snapTick n t s) := by
  unfold snapTick
  dsimp only
  generalize hx : (if t.slots.isEmpty && carriesSwitch (strmOf n s) t then restartAll t.start (strmOf n s)
    else strmOf n s) = x
  have hplain : plain x = plain (strmOf n s) := by
    rw [← hx]
    split <;> rfl
  refine (Filters.setStrm ?_).trans (filters_latchSats n _ _)
  refine Eq.trans ?_ hplain
  unfold plain
  dsimp only
  rw [List.map_map]
  congr 1
  refine List.map_congr_left fun w _ => ?_
  simp only [Function.comp_apply]
  split <;> rfl

theorem filters_snapTicks (n : Nat) (l : List OpenTick) (s : State) : Filters n s (snapTicks n l s) := by
  induction l generalizing s with
  | nil => exact .refl n s
  | cons t ts ih => exact (filters_snapTick n t s).trans (ih _)

theorem filters_acqCycles (n st ch : Nat) (l : List Cyc) (s : State) : Filters n s (acqCycles st ch l s) := by
  unfold acqCycles
  split
  · exact .refl n s
  · exact .of_streams rfl rfl rfl

/-- One channel of a slot (R363). -/
theorem filters_filterCh (n at_ : Nat) (q : SlotSt) (s : State) (ch : Nat) : Filters n s (filterCh n at_ q s ch) := by
  unfold filterCh
  dsimp only
  refine Filters.trans ?_ (filters_latchFlt n ch _ _ _)
  generalize slotCh _ _ _ _ _ = r
  have hset : Filters n s (setStrm n { strmOf n s with
      chans := put (strmOf n s).chans ch r.c, evs := (strmOf n s).evs ++ r.evs } s) := .setStrm rfl
  refine (hset.trans ?_).trans (filters_acqCycles n n ch r.cycs _)
  exact .of_streams rfl rfl rfl

theorem filters_channels (n at_ : Nat) (q : SlotSt) (l : List Nat) (s : State) :
    Filters n s (l.foldl (filterCh n at_ q) s) := by
  induction l generalizing s with
  | nil => exact .refl n s
  | cons c cs ih => exact (filters_filterCh n at_ q s c).trans (ih _)

/-! ### The work of one slot (R363) -/

/-- Every slot of tick `t` with the number of the work is filtered. -/
def SlotDone (w : Work) (t : OpenTick) (x : Strm) : Prop :=
  ∀ u ∈ x.ticks, u.k = t.k → u.rephase = t.rephase → ∀ q ∈ u.slots, q.slot = w.slot → q.filtered = true

theorem slotDone_markFiltered (w : Work) (t : OpenTick) (x : Strm) : SlotDone w t (markFiltered t w.slot x) := by
  intro u hu hk hre q hq hslot
  obtain ⟨v, hv, rfl⟩ := List.mem_map.mp hu
  by_cases hsame : v.k = t.k ∧ v.rephase = t.rephase
  · rw [if_pos hsame] at hq
    obtain ⟨z, hz, rfl⟩ := List.mem_map.mp hq
    by_cases hz' : z.slot = w.slot
    · rw [if_pos hz']
    · rw [if_neg hz'] at hslot
      exact absurd hslot hz'
  · rw [if_neg hsame] at hk hre
    exact absurd ⟨hk, hre⟩ hsame

theorem SlotDone.of_plain {w : Work} {t : OpenTick} {x y : Strm} (h : SlotDone w t x) (hp : plain y = plain x) :
    SlotDone w t y := by
  intro u hu hk hre q hq hslot
  have hticks : y.ticks.map bareTick = x.ticks.map bareTick := (congrArg Strm.ticks hp :)
  obtain ⟨v, hv, hvu⟩ := List.mem_map.mp (hticks ▸ List.mem_map_of_mem hu)
  exact h v hv ((congrArg OpenTick.k hvu).trans hk) ((congrArg OpenTick.rephase hvu).trans hre) q
    ((congrArg OpenTick.slots hvu) ▸ hq) hslot

/-- The work of one slot: the other streams and the queue stay, and the slot is filtered (R363). -/
theorem filterWork_spec (w : Work) (s : State) : Chained s (filterWork w s) ∧
    (filterWork w s).flt.work = s.flt.work ∧
    (∀ k, k ≠ w.stream → look (filterWork w s).sv.streams k = look s.sv.streams k) ∧
    ∀ t, tickOfWork w (strmOf w.stream s) = some t → SlotDone w t (strmOf w.stream (filterWork w s)) := by
  unfold filterWork
  dsimp only
  split
  · exact ⟨rfl, rfl, fun _ _ => rfl, fun t ht => absurd ht (by simp_all)⟩
  · rename_i t ht
    have hcond := List.find?_some (p := fun t : OpenTick => t.k == w.tick &&
      t.slots.any fun q => q.slot == w.slot && q.passed && !q.filtered) ht
    have hany := (Bool.and_eq_true_iff.mp hcond).2
    obtain ⟨z, hz, hzw⟩ := List.any_eq_true.mp hany
    have hzslot : (z.slot == w.slot) = true := (Bool.and_eq_true_iff.mp (Bool.and_eq_true_iff.mp hzw).1).1
    obtain ⟨q, hq⟩ : ∃ q, (t.slots.find? fun q => q.slot == w.slot) = some q :=
      Option.isSome_iff_exists.mp (List.find?_isSome.mpr ⟨z, hz, hzslot⟩)
    rw [hq]
    dsimp only
    have hfirst := filters_snapTicks w.stream (unsnapped t (strmOf w.stream s)) s
    generalize snapTicks w.stream (unsnapped t (strmOf w.stream s)) s = s1 at hfirst ⊢
    have hsecond : Filters w.stream s1 (if carriesSwitch (strmOf w.stream s1) t && !t.slots.any fun u => u.filtered then
        setStrm w.stream (restartAll t.start (strmOf w.stream s1)) s1 else s1) := by
      split
      · exact .setStrm rfl
      · exact .refl _ s1
    generalize (if carriesSwitch (strmOf w.stream s1) t && !t.slots.any fun u => u.filtered then
        setStrm w.stream (restartAll t.start (strmOf w.stream s1)) s1 else s1) = s2 at hsecond ⊢
    have hthird := filters_channels w.stream (slotNs (rateHz (strmOf w.stream s).rate)
      (slotAbs (rateHz (strmOf w.stream s).rate) t q)) q (chanOrder (strmOf w.stream s2)) s2
    generalize List.foldl _ s2 (chanOrder (strmOf w.stream s2)) = s3 at hthird ⊢
    obtain ⟨hframe, hwork, hothers, -⟩ := (hfirst.trans hsecond).trans hthird
    generalize hs4 : setStrm w.stream (markFiltered t w.slot (strmOf w.stream s3)) { s3 with free := s3.free + 24 } = s4
    have hmarked : Chained s s4 ∧ s4.flt.work = s.flt.work ∧
        (∀ k, k ≠ w.stream → look s4.sv.streams k = look s.sv.streams k) ∧ SlotDone w t (strmOf w.stream s4) := by
      rw [← hs4]
      refine ⟨hframe.trans rfl, hwork, fun k hk => (look_setStrm_other hk _ _).trans (hothers k hk), ?_⟩
      rw [strmOf_setStrm]
      exact slotDone_markFiltered w t _
    obtain ⟨hframe4, hwork4, hothers4, hdone⟩ := hmarked
    have hlast := filters_snapTick w.stream t s4
    split
    · refine ⟨hframe4.trans hlast.frame, hlast.work.trans hwork4, fun k hk => (hlast.others k hk).trans (hothers4 k hk),
        fun t' ht' => ?_⟩
      obtain rfl : t = t' := Option.some.inj (ht.symm.trans ht')
      exact hdone.of_plain hlast.plain
    · refine ⟨hframe4, hwork4, hothers4, fun t' ht' => ?_⟩
      obtain rfl : t = t' := Option.some.inj (ht.symm.trans ht')
      exact hdone

/-! ### Deliveries (R345, R346) -/

section
variable {f : Dest → State → State} {P : State → State → Prop}

theorem eachDest_of (hrefl : ∀ s, P s s) (htrans : ∀ s t u, P s t → P t u → P s u) (h : ∀ d s, P s (f d s))
    (l : List Dest) (s : State) : P s (eachDest f l s) := by
  induction l generalizing s with
  | nil => exact hrefl s
  | cons d ds ih => exact htrans _ _ _ (h d s) (ih _)
end

/-- A delivery changes memory, the partitions and the events only. -/
def Posted (s t : State) : Prop :=
  t = { s with mem := t.mem, cnp := t.cnp, arb := t.arb, hw := t.hw, log := t.log, obs := t.obs }

theorem Posted.trans (h : Posted s t) (h' : Posted t u) : Posted s u := by
  have hframe : u = { t with mem := u.mem, cnp := u.cnp, arb := u.arb, hw := u.hw, log := u.log, obs := u.obs } := h'
  rw [show t = { s with mem := t.mem, cnp := t.cnp, arb := t.arb, hw := t.hw, log := t.log, obs := t.obs } from h]
    at hframe
  exact hframe

theorem Posted.refl (s : State) : Posted s s := rfl

theorem Posted.delivered (h : Posted s t) : Delivered s t := by
  have hframe : t = { s with mem := t.mem, cnp := t.cnp, arb := t.arb, hw := t.hw, log := t.log, obs := t.obs } := h
  unfold Delivered
  rw [hframe]

theorem posted_visWrite (p iova : Nat) (b : Bytes) (s : State) : Posted s (visWrite p iova b s) := by
  obtain ⟨m, c, h⟩ := visWrite_frame p iova b s
  unfold Posted
  rw [h]

theorem posted_deliverAll (l : List Dest) (depth len time kind index : Nat) (body : Bytes) (s : State) :
    Posted s (deliverAll l depth len time kind index body s) := by
  have heach {f : Dest → State → State} (h : ∀ d s, Posted s (f d s)) (l : List Dest) (s : State) :
      Posted s (eachDest f l s) := eachDest_of .refl (fun _ _ _ => .trans) h l s
  have hnote (d : Dest) (v : State) : Posted v (noteDelivery (if kind = 3 then 0 else 1) index body d v) := rfl
  have hrec (d : Dest) (v : State) : Posted v (deliverRec depth len body d v) := rfl
  have hready (o : Nat) (d : Dest) (v : State) : Posted v (deliverReady time o d v) :=
    (show Posted v (noteLocal d.part (d.ready + 8) 16 v) from rfl).trans (posted_visWrite _ _ _ _)
  unfold deliverAll
  dsimp only
  generalize l.filter (fun d => !destSkips d s) = live
  have hnoted := heach hnote live s
  generalize eachDest (noteDelivery (if kind = 3 then 0 else 1) index body) live s = v at hnoted ⊢
  have hput := heach hrec live v
  generalize eachDest (deliverRec depth len body) live v = w at hput ⊢
  have hevent : Posted w (recordOnly { src := 4, code := 0, kind := kind, index := index } w) := rfl
  exact ((hnoted.trans hput).trans hevent).trans (heach (hready _) live _)

theorem posted_raiseDets (n : Nat) (l : List DetEv) (s : State) : Posted s (raiseDets n l s) := by
  induction l generalizing s with
  | nil => exact .refl s
  | cons e es ih =>
    refine Posted.trans ?_ (ih _)
    unfold raiseDet
    dsimp only
    split
    · rfl
    · rfl

end Sys2Proof.Machine
end

section
/-! Proof of the statement on sampled values and ticks. -/

namespace Sys2Proof.Machine

open Sys2Proof

set_option Elab.async false

variable {n k : Nat} {s t u v : State}

/-! ### The close of a tick (R338, R340, R345) -/

/-- A stream whose first tick `t` has closed in the state `s` (R338, R345). -/
def closedStrm (t : OpenTick) (x : Strm) (s : State) : Strm := { closeCounts t x with dests := destsAfter x.dests s }

/-- The close of a tick: its outputs are taken, and if a tick is open the first one leaves its stream (R338). -/
theorem closeTick_cases (n : Nat) (t0 : OpenTick) (s : State) : ∃ v, Filters n s v ∧
    (((strmOf n v).ticks = [] ∧ closeTick n t0 s = v) ∨
      ∃ t ts, (strmOf n v).ticks = t :: ts ∧ Delivered v (closeTick n t0 s) ∧ (closeTick n t0 s).flt = v.flt ∧
        (closeTick n t0 s).sv.streams = put v.sv.streams n (closedStrm t (strmOf n v) v)) := by
  unfold closeTick
  dsimp only
  have hsnap : Filters n s (if t0.snap.isNone then snapTick n t0 s else s) := by
    split
    · exact filters_snapTick n t0 s
    · exact .refl n s
  generalize (if t0.snap.isNone then snapTick n t0 s else s) = v at hsnap ⊢
  refine ⟨v, hsnap, ?_⟩
  cases hticks : (strmOf n v).ticks with
  | nil => exact .inl ⟨rfl, rfl⟩
  | cons t ts =>
    refine .inr ⟨t, ts, rfl, ?_⟩
    dsimp only
    have hpost := posted_deliverAll (strmOf n v).dests (depthOf (strmOf n v).depth) (recordLen (strmOf n v)) t.start 3 n
      (recordBody n (strmOf n v) t v) v
    generalize deliverAll (strmOf n v).dests _ _ t.start 3 n _ v = w at hpost ⊢
    have hw : w.sv = v.sv ∧ w.flt = v.flt := ⟨(congrArg State.sv hpost :), (congrArg State.flt hpost :)⟩
    obtain ⟨hwsv, hwflt⟩ := hw
    generalize hu : acqTick n (strmOf n v) t _ = u
    have hmid : Delivered w u ∧ u.flt = w.flt ∧ u.sv.streams = put w.sv.streams n (closedStrm t (strmOf n v) v) := by
      rw [← hu]
      exact ⟨rfl, rfl, rfl⟩
    obtain ⟨hframe, hflt, hstreams⟩ := hmid
    have hdets := posted_raiseDets n (t.snap.getD ([], [])).2 u
    generalize raiseDets n (t.snap.getD ([], [])).2 u = y at hdets ⊢
    have hy : y.sv = u.sv ∧ y.flt = u.flt := ⟨(congrArg State.sv hdets :), (congrArg State.flt hdets :)⟩
    obtain ⟨hysv, hyflt⟩ := hy
    have hall := (hpost.delivered.trans hframe).trans hdets.delivered
    have hyflt' : y.flt = v.flt := hyflt.trans (hflt.trans hwflt)
    have hystreams : y.sv.streams = put v.sv.streams n (closedStrm t (strmOf n v) v) := by rw [hysv, hstreams, hwsv]
    split
    · exact ⟨hall.trans rfl, hyflt', hystreams⟩
    · exact ⟨hall, hyflt', hystreams⟩

theorem closeTick_frame (n : Nat) (t0 : OpenTick) (s : State) :
    Delivered s (closeTick n t0 s) ∧ (closeTick n t0 s).flt.work = s.flt.work ∧
    ∀ k, k ≠ n → look (closeTick n t0 s).sv.streams k = look s.sv.streams k := by
  obtain ⟨v, hv, ⟨-, heq⟩ | ⟨t, ts, -, hframe, hflt, hstreams⟩⟩ := closeTick_cases n t0 s
  · rw [heq]
    exact ⟨hv.frame.delivered, hv.work, hv.others⟩
  · refine ⟨hv.frame.delivered.trans hframe, by rw [hflt, hv.work], fun k hk => ?_⟩
    rw [hstreams, look_put_other _ _ hk]
    exact hv.others k hk

/-- What the close of the first tick means for its stream (R338, R340, R345). -/
theorem closeTick_strm {t0 : OpenTick} {ts : List OpenTick} (ht : (strmOf n s).ticks = t0 :: ts)
    (hre : t0.rephase = none) :
    (strmOf n (closeTick n t0 s)).nextTick = t0.k + 1 ∧ (strmOf n (closeTick n t0 s)).lastClosed = some t0.k ∧
    (strmOf n (closeTick n t0 s)).loss = (if t0.slots.any fun q => q.present then 0 else (strmOf n s).loss + 1) ∧
    (strmOf n (closeTick n t0 s)).dests = destsAfter (strmOf n s).dests s := by
  obtain ⟨v, hv, hcases⟩ := closeTick_cases n t0 s
  have hticks : (strmOf n v).ticks.map bareTick = (strmOf n s).ticks.map bareTick := (congrArg Strm.ticks hv.plain :)
  have hloss : (strmOf n v).loss = (strmOf n s).loss := (congrArg Strm.loss hv.plain :)
  have hdests : (strmOf n v).dests = (strmOf n s).dests := (congrArg Strm.dests hv.plain :)
  have hcnp : v.cnp = s.cnp := (congrArg State.cnp hv.frame :)
  rw [ht, List.map_cons] at hticks
  rcases hcases with ⟨hnil, -⟩ | ⟨t, ts', hcons, -, -, hstreams⟩
  · rw [hnil] at hticks
    exact nomatch hticks
  · rw [hcons, List.map_cons] at hticks
    have hbare : bareTick t = bareTick t0 := (List.cons.inj hticks).1
    have hk : t.k = t0.k := (congrArg OpenTick.k hbare :)
    have hslots : t.slots = t0.slots := (congrArg OpenTick.slots hbare :)
    have hre' : t.rephase = none := (show t.rephase = t0.rephase from (congrArg OpenTick.rephase hbare :)).trans hre
    have hstrm : strmOf n (closeTick n t0 s) = closedStrm t (strmOf n v) v := by
      rw [strmOf, hstreams]
      exact lookD_put_self _ _ _ _
    have hskip (d : Dest) : destSkips d v = destSkips d s := by
      rw [destSkips, destSkips, stateOf, stateOf, partOf, partOf, hcnp]
    rw [hstrm]
    refine ⟨?_, ?_, ?_, ?_⟩
    · show (if t.rephase.isSome then _ else t.k + 1) = _
      rw [hre', hk]
      rfl
    · show (if t.rephase.isSome then _ else some t.k) = _
      rw [hre', hk]
      rfl
    · show (if t.slots.any _ then 0 else (strmOf n v).loss + 1) = _
      rw [hslots, hloss]
    · show destsAfter (strmOf n v).dests v = _
      rw [hdests, destsAfter, destsAfter]
      simp only [hskip]

/-! ### The change of the time line (R340) -/

theorem resolveOld_frame (l : List Nat) (s : State) : Chained s (resolveOld l s) := by
  induction l generalizing s with
  | nil => rfl
  | cons n ns ih => exact (advance_spec n _ s).1.trans (ih _)

theorem drainWork_frame (l : List Work) (s : State) :
    Chained s (drainWork l s) ∧ (drainWork l s).flt.work = s.flt.work := by
  induction l generalizing s with
  | nil => exact ⟨rfl, rfl⟩
  | cons w ws ih =>
    obtain ⟨hframe, hwork, -⟩ := filterWork_spec w s
    obtain ⟨hrest, hwork'⟩ := ih (filterWork w s)
    exact ⟨hframe.trans hrest, hwork'.trans hwork⟩

theorem closeOld_frame (n : Nat) (l : List OpenTick) (s : State) :
    Delivered s (closeOld n l s) ∧ (closeOld n l s).flt.work = s.flt.work := by
  induction l generalizing s with
  | nil => exact ⟨rfl, rfl⟩
  | cons t ts ih =>
    unfold closeOld
    split
    · exact ⟨rfl, rfl⟩
    · rename_i t' _ _
      obtain ⟨hframe, hwork, -⟩ := closeTick_frame n t' s
      obtain ⟨hrest, hwork'⟩ := ih (closeTick n t' s)
      exact ⟨hframe.trans hrest, hwork'.trans hwork⟩

theorem closeOlds_frame (l : List Nat) (s : State) :
    Delivered s (closeOlds l s) ∧ (closeOlds l s).flt.work = s.flt.work := by
  induction l generalizing s with
  | nil => exact ⟨rfl, rfl⟩
  | cons n ns ih =>
    unfold closeOlds
    dsimp only
    obtain ⟨hframe, hwork⟩ := closeOld_frame n ((strmOf n s).ticks.filter fun t => t.rephase.isSome) s
    generalize closeOld n _ s = v at hframe hwork ⊢
    have hset : Delivered s (if ((strmOf n s).ticks.filter fun t => t.rephase.isSome).isEmpty then v
          else setStrm n (restartKeep (lineNow v) (strmOf n v)) v) ∧
        (if ((strmOf n s).ticks.filter fun t => t.rephase.isSome).isEmpty then v
          else setStrm n (restartKeep (lineNow v) (strmOf n v)) v).flt.work = s.flt.work := by
      split
      · exact ⟨hframe, hwork⟩
      · exact ⟨hframe.trans rfl, hwork⟩
    obtain ⟨hrest, hwork'⟩ := ih _
    exact ⟨hset.1.trans hrest, hwork'.trans hset.2⟩

theorem recsRephase_frame (first : Nat → Nat) (l : List Nat) (s : State) :
    Delivered s (recsRephase first l s) ∧ (recsRephase first l s).flt = s.flt := by
  induction l generalizing s with
  | nil => exact ⟨rfl, rfl⟩
  | cons n ns ih =>
    have honly := acqOnly_recRephase first n s
    obtain ⟨hrest, hflt⟩ := ih (recRephase first n s)
    exact ⟨honly.delivered.trans hrest, hflt.trans honly.flt⟩

theorem exec_rephase_spec (h : s.sv.rephase = true) : ∃ u, exec .rephase s = .next u ∧ u.sv.rephase = false ∧
    u.flt.work = [] ∧ Delivered s u := by
  have hexec : exec .rephase s = execRephase s := rfl
  unfold execRephase at hexec
  rw [act, if_pos h] at hexec
  dsimp only at hexec
  refine ⟨_, hexec, rfl, ?_, ?_⟩
  all_goals
    have h1 := resolveOld_frame (s.sv.streams.map Prod.fst) s
    generalize resolveOld (s.sv.streams.map Prod.fst) s = s1 at h1 ⊢
    obtain ⟨h2, hw2⟩ := drainWork_frame s1.flt.work { s1 with flt := { s1.flt with work := [] } }
    generalize drainWork s1.flt.work { s1 with flt := { s1.flt with work := [] } } = s2 at h2 hw2 ⊢
    obtain ⟨h3, hw3⟩ := closeOlds_frame (s.sv.streams.map Prod.fst) s2
    generalize closeOlds (s.sv.streams.map Prod.fst) s2 = s3 at h3 hw3 ⊢
    obtain ⟨h4, hw4⟩ := recsRephase_frame
      (fun fs => firstSlotOf fs (baseRate s3.cnp.rate) (comingTick s3)) (s3.acq.recs.map Prod.fst) s3
  · exact (congrArg Flt.work hw4).trans (hw3.trans hw2)
  · have hclear : Chained s1 { s1 with flt := { s1.flt with work := [] } } := rfl
    exact (((((h1.trans hclear).trans h2).delivered.trans h3).trans h4).trans rfl)

/-! ### The other source (R341) -/

theorem switchSource_spec {src : Nat} (h : (strmOf n s).active ≠ src) :
    (strmOf n (switchSource n src s)).active = src ∧ (strmOf n (switchSource n src s)).switchTick = comingTick s ∧
    (switchSource n src s).sv.evt.getLsbD 3 = true := by
  unfold switchSource
  dsimp only
  rw [if_neg h]
  generalize hz : ({ strmOf n s with
    prev := _, active := src, switchTick := comingTick s, swDue := true, older := _, noAct := 0, stby := [] } : Strm) = z
  have hchoice : ∃ y, (match (strmOf n s).ticks.find? fun t => t.rephase.isNone && t.k == comingTick s &&
      t.slots.any fun q => q.filtered with
    | some t => restartAll t.start z
    | none => z) = y ∧ y.active = src ∧ y.switchTick = comingTick s := by
    refine ⟨_, rfl, ?_⟩
    subst hz
    split <;> exact ⟨rfl, rfl⟩
  obtain ⟨y, hy, hactive, htick⟩ := hchoice
  refine ⟨(congrArg Strm.active ?_).trans hactive, (congrArg Strm.switchTick ?_).trans htick, getLsbD_latch_self _ (by decide)⟩ <;>
  exact (strmOf_setStrm n _ s).trans hy

/-! ### The checks of a sampled-value frame (R332) -/

/-- A step on a frame of stream `n`: its `FRAMES` count and the count of frames with no subscription stay. -/
structure FrameStep (n : Nat) (s t : State) : Prop where
  frame : Delivered s t
  frames : lookD t.sv.cnt (n * 14) 0 = lookD s.sv.cnt (n * 14) 0
  noSub : t.sv.noSub = s.sv.noSub

namespace FrameStep

theorem refl (n : Nat) (s : State) : FrameStep n s s := ⟨rfl, rfl, rfl⟩

theorem trans (h : FrameStep n s t) (h' : FrameStep n t u) : FrameStep n s u :=
  ⟨h.frame.trans h'.frame, h'.frames.trans h.frames, h'.noSub.trans h.noSub⟩

theorem countSv {i : Nat} (h : i ≠ 0) (k : Nat) (s : State) : FrameStep n s (countSv n i k s) :=
  ⟨rfl, lookD_bumpBy_other _ _ (by omega), rfl⟩

theorem setStrm (m : Nat) (x : Strm) (s : State) : FrameStep n s (setStrm m x s) := ⟨rfl, rfl, rfl⟩

theorem event (code m : Nat) (x : Strm) (s : State) : FrameStep n s (svEvent code m (Machine.setStrm m x s)) :=
  ⟨rfl, rfl, rfl⟩

theorem latchSv (bit m : Nat) (s : State) : FrameStep n s (latchSv bit m s) := ⟨rfl, rfl, rfl⟩

theorem ite {p : Prop} [Decidable p] (h : FrameStep n s t) (h' : FrameStep n s u) :
    FrameStep n s (if p then t else u) := by
  split
  · exact h
  · exact h'

end FrameStep

theorem frameStep_advance (n : Nat) (dead : OpenTick → Bool) (s : State) : FrameStep n s (advance n dead s) := by
  obtain ⟨hframe, -, -, hcnt, hsub⟩ := advance_spec n dead s
  exact ⟨hframe.delivered, hcnt 0 (by decide), hsub⟩

theorem frameStep_idMismatch (n : Nat) (s : State) : FrameStep n s (idMismatch n s) := by
  have hcount : FrameStep n s (latchSv 1 n (countSv n 6 1 s)) :=
    (FrameStep.countSv (i := 6) (by decide) 1 s).trans (.latchSv 1 n _)
  unfold idMismatch
  dsimp only
  exact .ite hcount (hcount.trans (.event _ n _ _))

theorem frameStep_noteStandby (n src : Nat) (h : Held) (a : SvApdu) (s : State) :
    FrameStep n s (noteStandby n src h a s) := by
  unfold noteStandby
  dsimp only
  split
  · exact .ite ((FrameStep.setStrm n _ s).trans (.countSv (by decide) 1 _)) (.refl n s)
  · exact .refl n s

theorem frameStep_placeAsdu (n src : Nat) (h : Held) (d : Asdu) (s : State) : FrameStep n s (placeAsdu n src h d s) := by
  -- written out without a comparison of two matches, for which the kernel would count to 250,000
  have hbody : placeAsdu = placeAsdu := rfl
  conv at hbody => rhs; delta placeAsdu
  generalize nominalOf = nominal at hbody
  rw [hbody]
  beta_reduce
  extract_lets -underBinder x fs rate a v
  have hsub : FrameStep n s v := .ite (.countSv (i := 11) (by decide) 1 s) (.refl n s)
  clear_value v
  split
  · exact hsub.trans (.countSv (i := 7) (by decide) 1 v)
  · extract_lets -underBinder
    refine .ite (.refl n s) (.ite ?_ (.ite ?_ ?_))
    · have hlate : FrameStep n s (countSv n 7 1 v) := hsub.trans (.countSv (by decide) 1 v)
      exact .ite hlate (hlate.trans (.latchSv 0 n _))
    · exact (hsub.trans (.setStrm n _ v)).trans (.countSv (i := 8) (by decide) 1 _)
    · refine FrameStep.trans ?_ (frameStep_advance n _ _)
      exact ((hsub.trans (.setStrm n _ v)).trans (.countSv (i := 1) (by decide) 1 _)).trans
        (.countSv (i := 10) (by decide) _ _)

theorem frameStep_placeAsdus (n src : Nat) (h : Held) (l : List Asdu) (s : State) :
    FrameStep n s (placeAsdus n src h l s) := by
  induction l generalizing s with
  | nil => exact .refl n s
  | cons d ds ih =>
    unfold placeAsdus
    exact (frameStep_placeAsdu n src h d s).trans (ih _)

/-- The frame names stream `n` and its source `src`, both in use (R332, R334). -/
def NamesStream (flow n src : Nat) (s : State) : Prop :=
  bits flow 31 30 = 1 ∧ bits flow 29 13 = 0 ∧ (strmOf n s).en = .on ∧ ((strmOf n s).srcs.getD src {}).valid = true

theorem takeSv_of_unnamed {h : Held}
    (hno : ¬ NamesStream h.info.flow.toNat (h.info.flow.toNat % 4096) (bits h.info.flow.toNat 12 12) s) :
    takeSv h s = noSub h.info.flow.toNat s := by
  unfold takeSv
  refine if_pos ?_
  by_contra hor
  rw [not_or, not_or, not_or] at hor
  obtain ⟨h1, h2, h3, h4⟩ := hor
  exact hno ⟨not_not.mp h1, not_not.mp h2, not_not.mp h3, by simpa using h4⟩

section
variable {h : Held} {x : Strm} {q : SvSrc} {a : SvApdu}

/-- The checks of a frame that names a stream, in their order (R332). -/
theorem takeSv_of_named (hno : NamesStream h.info.flow.toNat n k s) (hn : h.info.flow.toNat % 4096 = n)
    (hsrc : bits h.info.flow.toNat 12 12 = k) (hx : strmOf n s = x) (hq : x.srcs.getD k {} = q) (ha : svOf h.frame = a) :
    takeSv h s =
      if x.authReq && h.info.verdict != 1 then countSv n 3 1 (countSv n 0 1 s)
      else if a.sBit != x.sim then countSv n 4 1 (countSv n 0 1 s)
      else if !a.wellFormed || a.asdus.any fun d => decide (rateHz x.rate ≤ d.smpCnt) then countSv n 5 1 (countSv n 0 1 s)
      else if h.frame.appid != q.appid || a.asdus.length != x.noasdu || a.asdus.any fun d => !asduMatches x q d then
        idMismatch n (countSv n 0 1 s)
      else useFrame n k h a (countSv n 0 1 s) := by
  obtain ⟨h1, h2, h3, h4⟩ := hno
  subst hn hsrc hx hq ha
  unfold takeSv
  refine if_neg ?_
  rw [not_or, not_or, not_or]
  exact ⟨not_not.mpr h1, not_not.mpr h2, not_not.mpr h3, by simpa using h4⟩

/-- A frame that names a stream is counted once in `FRAMES`, whatever its checks answer (R358). -/
theorem takeSv_named_counts (hno : NamesStream h.info.flow.toNat n k s) (hn : h.info.flow.toNat % 4096 = n)
    (hsrc : bits h.info.flow.toNat 12 12 = k) : Delivered s (takeSv h s) ∧
    lookD (takeSv h s).sv.cnt (n * 14) 0 = (lookD s.sv.cnt (n * 14) 0 + 1) % 2 ^ 64 ∧
    (takeSv h s).sv.noSub = s.sv.noSub := by
  have hfirst : lookD (countSv n 0 1 s).sv.cnt (n * 14) 0 = (lookD s.sv.cnt (n * 14) 0 + 1) % 2 ^ 64 :=
    lookD_bumpBy_self _ _ _
  have hstep : FrameStep n (countSv n 0 1 s) (takeSv h s) := by
    rw [takeSv_of_named hno hn hsrc rfl rfl rfl]
    refine .ite (.countSv (by decide) 1 _) (.ite (.countSv (by decide) 1 _) (.ite (.countSv (by decide) 1 _)
      (.ite (frameStep_idMismatch n _) ?_)))
    exact (frameStep_noteStandby n k h _ _).trans (frameStep_placeAsdus n k h _ _)
  have hcount : Delivered s (countSv n 0 1 s) := rfl
  exact ⟨hcount.trans hstep.frame, hstep.frames.trans hfirst, hstep.noSub⟩

end

/-! ### An ASDU of the active source (R337) -/

/-- Slot `slot` of tick `k` of the present time line holds the sample of an ASDU. -/
def HoldsSample (k : Nat) (d : Asdu) (arr : Nat) (l : List OpenTick) : Prop :=
  ∀ t ∈ l, t.rephase = none → t.k = k → ∀ z ∈ t.slots, z.slot = d.smpCnt →
    z.present = true ∧ z.samples = d.samples ∧ z.arr = arr

theorem holdsSample_fillSlot {d : Asdu} {arr : Nat} {f : SlotSt → SlotSt}
    (hf : ∀ q, (f q).slot = q.slot ∧ (f q).present = true ∧ (f q).samples = d.samples ∧ (f q).arr = arr)
    (l : List OpenTick) : HoldsSample k d arr (fillSlot k d.smpCnt f l) := by
  intro t ht hre hk z hz hslot
  obtain ⟨w, hw, rfl⟩ := List.mem_map.mp ht
  by_cases hcond : (w.rephase.isNone && decide (w.k = k)) = true
  · rw [if_pos hcond] at hz
    obtain ⟨y, hy, rfl⟩ := List.mem_map.mp hz
    by_cases hys : y.slot = d.smpCnt
    · rw [if_pos hys]
      exact (hf y).2
    · rw [if_neg hys] at hslot
      exact absurd hslot hys
  · rw [if_neg hcond] at hre hk
    exact absurd (by rw [hre, hk]; simp) hcond

theorem holdsSample_passTicks {d : Asdu} {arr : Nat} {l : List OpenTick} (h : HoldsSample k d arr l)
    (fs reorder lim : Nat) (dead : OpenTick → Bool) (ok : Bool) :
    HoldsSample k d arr (passTicks fs reorder lim dead ok l).1 := by
  intro t ht hre hk z hz hslot
  obtain ⟨w, hw, hwk, hwre, hall⟩ := passTicks_samples fs reorder lim dead ok l t ht
  obtain ⟨y, hy, hys, hyp, hysam, hyarr⟩ := hall z hz
  obtain ⟨h1, h2, h3⟩ := h w hw (hwre ▸ hre) (hwk ▸ hk) y hy (hys ▸ hslot)
  exact ⟨hyp.trans h1, hysam.trans h2, hyarr.trans h3⟩

/-- A stream with the sample of an ASDU in its slot of tick `k` (R337). -/
def sampledStrm (h : Held) (d : Asdu) (k arr : Nat) (x : Strm) (s : State) : Strm :=
  { extendTicks (baseRate s.cnp.rate) k x with
    ticks := fillSlot k d.smpCnt (fun q => { q with
      present := true, samples := d.samples, arr := arr
      marks := d.samples.map fun v => marksOf (syncLow x d.smpSynch) (h.info.verdict == 2) v.2 })
      (extendTicks (baseRate s.cnp.rate) k x).ticks }

section
variable {h : Held} {d : Asdu} {src f tau : Nat} (hts : h.info.ts = some f)
  (htau : nominalOf (rateHz (strmOf n s).rate) (lineAt s f) d.smpCnt = some tau)
  (hsrc : sourceIn (strmOf n s) (tickAbs (baseRate s.cnp.rate) tau) = src)
  (hopen : (strmOf n s).nextTick ≤ tickAbs (baseRate s.cnp.rate) tau)
  (hfree : slotTaken (tickAbs (baseRate s.cnp.rate) tau) d.smpCnt
    (extendTicks (baseRate s.cnp.rate) (tickAbs (baseRate s.cnp.rate) tau) (strmOf n s)).ticks = false)
include hts htau hsrc hopen hfree

theorem placeAsdu_of_open : ∃ low, placeAsdu n src h d s = advance n (fun _ => false) (countSv n 10 low (countSv n 1 1
    (setStrm n (sampledStrm h d (tickAbs (baseRate s.cnp.rate) tau) (lineAt s f) (strmOf n s) s) s))) := by
  have harr : arrivalOf h s = (lineAt s f, false) := by rw [arrivalOf, hts]
  refine ⟨b2n (syncLow (strmOf n s) d.smpSynch), ?_⟩
  -- written out without a comparison of two matches, for which the kernel would count to 250,000
  have hbody : placeAsdu = placeAsdu := rfl
  conv at hbody => rhs; delta placeAsdu
  generalize nominalOf = nominal at hbody htau
  rw [hbody]
  beta_reduce
  rw [harr]
  extract_lets -underBinder x fs rate a v
  have hnominal : nominal fs a.1 d.smpCnt = some tau := htau
  rw [hnominal]
  exact (if_neg (not_not.mpr hsrc)).trans ((if_neg (Nat.not_lt.mpr hopen)).trans (if_neg (by rw [hfree]; decide)))

/-- An ASDU of the active source of an open tick fills its slot (R337). -/
theorem placeAsdu_fills :
    lookD (placeAsdu n src h d s).sv.cnt (n * 14 + 1) 0 = (lookD s.sv.cnt (n * 14 + 1) 0 + 1) % 2 ^ 64 ∧
    HoldsSample (tickAbs (baseRate s.cnp.rate) tau) d (lineAt s f) (strmOf n (placeAsdu n src h d s)).ticks := by
  obtain ⟨low, heq⟩ := placeAsdu_of_open hts htau hsrc hopen hfree
  rw [heq]
  have hfill : HoldsSample (tickAbs (baseRate s.cnp.rate) tau) d (lineAt s f)
      (sampledStrm h d (tickAbs (baseRate s.cnp.rate) tau) (lineAt s f) (strmOf n s) s).ticks := by
    refine holdsSample_fillSlot (fun q => ?_) _
    exact ⟨rfl, rfl, rfl, rfl⟩
  generalize sampledStrm h d (tickAbs (baseRate s.cnp.rate) tau) (lineAt s f) (strmOf n s) s = y at hfill ⊢
  obtain ⟨-, hstrm, -, hcnt, -⟩ := advance_spec n (fun _ => false) (countSv n 10 low (countSv n 1 1 (setStrm n y s)))
  have hself : strmOf n (countSv n 10 low (countSv n 1 1 (setStrm n y s))) = y := strmOf_setStrm n y s
  refine ⟨?_, ?_⟩
  · rw [hcnt 1 (by decide)]
    exact (lookD_bumpBy_other _ _ (by omega)).trans (lookD_bumpBy_self _ _ _)
  · rw [hstrm]
    unfold passedTicks
    rw [hself]
    exact holdsSample_passTicks hfill _ _ _ _ _
end

theorem exec_svFrameRx_of_first {h : Held} {rest : List Held} (hse : s.sw.se0 = h :: rest)
    (hform : bits h.info.flow.toNat 31 30 ≠ 2) :
    exec .svFrameRx s = .next (takeSv h { s with sw := { s.sw with se0 := rest } }) := by
  show execSvFrameRx s = _
  unfold execSvFrameRx
  rw [hse]
  dsimp only
  rw [act, if_pos (bne_iff_ne.mpr hform)]

theorem authPasses {x : Strm} {v : Nat} (h : x.authReq = false ∨ v = 1) : ¬ (x.authReq && v != 1) = true := by
  rcases h with h | h <;> rw [h] <;> simp

/-- A frame of one ASDU that passes every check is used (R332). -/
theorem takeSv_of_matched {h : Held} {x : Strm} {q : SvSrc} {a : SvApdu} {d : Asdu}
    (hno : NamesStream h.info.flow.toNat n k s) (hn : h.info.flow.toNat % 4096 = n)
    (hsrc : bits h.info.flow.toNat 12 12 = k) (hx : strmOf n s = x) (hq : x.srcs.getD k {} = q) (ha : svOf h.frame = a)
    (hauth : x.authReq = false ∨ h.info.verdict = 1) (hsim : a.sBit = x.sim) (hwell : a.wellFormed = true)
    (hone : a.asdus = [d]) (hrange : d.smpCnt < rateHz x.rate) (happid : h.frame.appid = q.appid)
    (hcount : x.noasdu = 1) (hmatch : asduMatches x q d = true) :
    takeSv h s = placeAsdu n k h d (noteStandby n k h a (countSv n 0 1 s)) := by
  rw [takeSv_of_named hno hn hsrc hx hq ha, if_neg (authPasses hauth), if_neg (by simpa using hsim), hwell, hone,
    if_neg (by simpa using hrange), happid, hcount,
    if_neg (by rw [List.any_cons, hmatch, bne_self_eq_false]; exact Bool.false_ne_true), useFrame, hone]
  rfl

/-- A frame whose first ASDU is of a tick of its own source is no standby's (R332). -/
theorem noteStandby_of_active {h : Held} {a : SvApdu} {d : Asdu} {src f tau : Nat} (hone : a.asdus = [d])
    (hts : h.info.ts = some f) (htau : nominalOf (rateHz (strmOf n s).rate) (lineAt s f) d.smpCnt = some tau)
    (hsrc : sourceIn (strmOf n s) (tickAbs (baseRate s.cnp.rate) tau) = src) : noteStandby n src h a s = s := by
  have harr : arrivalOf h s = (lineAt s f, false) := by rw [arrivalOf, hts]
  -- written out without a comparison of two matches, for which the kernel would count to 250,000
  have hbody : noteStandby = noteStandby := rfl
  conv at hbody => rhs; delta noteStandby
  generalize nominalOf = nominal at hbody htau
  rw [hbody]
  beta_reduce
  rw [harr, hone]
  extract_lets -underBinder x first
  have hfirst : first = some tau := by
    refine Eq.trans ?_ htau
    show (([d].head?.map fun d => d.smpCnt).bind (nominal (rateHz (strmOf n s).rate) (lineAt s f))) = _
    rw [List.head?_cons, Option.map_some, Option.bind_some]
  rw [hfirst]
  exact if_neg (not_not.mpr hsrc)

/-- A frame that a check rejects is counted twice: in `FRAMES` and for the check (R332, R358). -/
theorem rejected_counts {i : Nat} (hi : i ≠ 0) (n : Nat) (s : State) :
    (countSv n i 1 (countSv n 0 1 s)).sv.streams = s.sv.streams ∧
    lookD (countSv n i 1 (countSv n 0 1 s)).sv.cnt (n * 14 + i) 0 = (lookD s.sv.cnt (n * 14 + i) 0 + 1) % 2 ^ 64 := by
  have hfirst : lookD (countSv n 0 1 s).sv.cnt (n * 14 + i) 0 = lookD s.sv.cnt (n * 14 + i) 0 :=
    lookD_bumpBy_other _ _ (by omega)
  exact ⟨rfl, (lookD_bumpBy_self _ _ _).trans (congrArg (fun m => (m + 1) % 2 ^ 64) hfirst)⟩

/-- The first tick of a stream at its deadline (R338). -/
theorem passedTicks_head {tk : OpenTick} {ts : List OpenTick} {dead : OpenTick → Bool}
    (hticks : (strmOf n s).ticks = tk :: ts) (hdead : dead tk = true) :
    ((passedTicks n dead s).head?.map fun z => z.slots.all fun q => q.passed) = some true := by
  unfold passedTicks passTicks
  rw [hticks]
  dsimp only
  rw [List.head?_cons, Option.map_some, hdead]
  exact congrArg some (List.all_eq_true.mpr (passIn_dead _ _ _ _ _))

/-- Settles O40: the checks of a frame in their order, and each row of a stream by its first open tick. -/
theorem sampledValuesAndTicks : Obligations.SampledValuesAndTicks := by
  unfold Obligations.SampledValuesAndTicks
  refine ⟨fun h rest s hse hform => ?_, fun n s hn => ⟨fun tk ts hen hticks hdead => ?_,
    fun tk ts hen hticks hre hk hstart hfilt => ?_, fun hen hlost hloss harb => ?_,
    fun k hen hauto hno hact hvalid hlast hstby hend hcmd => ?_⟩, fun w rest s hwork => ?_, fun s hre => ?_⟩
  · intro flow n src x q a named_
    have hexec := exec_svFrameRx_of_first hse hform
    generalize hv : { s with sw := { s.sw with se0 := rest } } = v at hexec
    have hfields : v.sw.se0 = rest ∧ v.gse = s.gse ∧ v.prt = s.prt ∧ v.rng = s.rng ∧ v.sv = s.sv ∧ v.cnp = s.cnp ∧
        ∀ f, lineAt v f = lineAt s f := by
      rw [← hv]
      exact ⟨rfl, rfl, rfl, rfl, rfl, rfl, fun _ => rfl⟩
    obtain ⟨hse0, hgse, hprt, hrng, hsv, hcnp, hline⟩ := hfields
    have hx : strmOf n v = x := strmOf_congr (congrArg Svs.streams hsv) n
    have hnames : NamesStream flow n src v ↔ named_ := by
      unfold NamesStream
      rw [hx]
    have hframe : Delivered v (takeSv h v) := by
      by_cases hno : named_
      · exact (takeSv_named_counts (hnames.mpr hno) rfl rfl).1
      · rw [takeSv_of_unnamed (mt hnames.mp hno)]
        rfl
    refine ⟨_, hexec, (congrArg (fun u : State => u.sw.se0) hframe).trans hse0, (congrArg State.gse hframe).trans hgse,
      (congrArg State.prt hframe).trans hprt, (congrArg State.rng hframe).trans hrng, fun hno => ?_, fun hno => ?_,
      fun hno hauth hverdict => ?_, fun hno hauth hsim => ?_, fun hno hauth hsim hform => ?_,
      fun d f tau hno hauth hsim hform hone hrange happid hcount hmatch hts htau => ?_⟩
    · rw [takeSv_of_unnamed (mt hnames.mp hno)]
      exact ⟨by rw [← hsv]; rfl, by rw [← hsv]; rfl, by rw [← hsv]; rfl⟩
    · obtain ⟨-, hcnt, hsub⟩ := takeSv_named_counts (hnames.mpr hno) rfl rfl
      exact ⟨by rw [hcnt, hsv], by rw [hsub, hsv]⟩
    · rw [takeSv_of_named (hnames.mpr hno) rfl rfl hx rfl rfl, if_pos (by rw [hauth]; simpa using hverdict)]
      obtain ⟨hstreams, hcnt⟩ := rejected_counts (i := 3) (by decide) n v
      exact ⟨by rw [hstreams, hsv], by rw [hcnt, hsv]⟩
    · rw [takeSv_of_named (hnames.mpr hno) rfl rfl hx rfl rfl, if_neg (authPasses hauth),
        if_pos (bne_iff_ne.mpr hsim)]
      obtain ⟨hstreams, hcnt⟩ := rejected_counts (i := 4) (by decide) n v
      exact ⟨by rw [hstreams, hsv], by rw [hcnt, hsv]⟩
    · rw [takeSv_of_named (hnames.mpr hno) rfl rfl hx rfl rfl, if_neg (authPasses hauth),
        if_neg (by simpa using hsim), if_pos (by rw [show (svOf h.frame).wellFormed = false from hform]; rfl)]
      obtain ⟨hstreams, hcnt⟩ := rejected_counts (i := 5) (by decide) n v
      exact ⟨by rw [hstreams, hsv], by rw [hcnt, hsv]⟩
    · intro k hsrc hopen hfree
      have hx' : strmOf n (countSv n 0 1 v) = x := hx
      have hbase : (countSv n 0 1 v).cnp = s.cnp := hcnp
      have hline' : lineAt (countSv n 0 1 v) f = lineAt s f := hline f
      have htake := takeSv_of_matched (hnames.mpr hno) rfl rfl hx rfl rfl hauth hsim hform hone hrange happid hcount hmatch
      have hfirst : lookD (countSv n 0 1 v).sv.cnt (n * 14 + 1) 0 = lookD s.sv.cnt (n * 14 + 1) 0 := by
        rw [← hsv]
        exact lookD_bumpBy_other _ _ (by omega)
      generalize countSv n 0 1 v = w at hx' hbase hline' htake hfirst
      have hfills := placeAsdu_fills (n := n) (s := w) (src := src) (d := d) hts
        (by rw [hx', hline']; exact htau) (by rw [hx', hbase]; exact hsrc) (by rw [hx', hbase]; exact hopen)
        (by rw [hx', hbase]; exact hfree)
      rw [hline', hbase, hfirst] at hfills
      rw [htake, noteStandby_of_active (n := n) (s := w) hone hts (by rw [hx', hline']; exact htau)
        (by rw [hx', hbase]; exact hsrc)]
      exact hfills
  · have hexec : exec (.svTickDeadline n tk.k) s =
        .next (advance n (fun t => t.rephase.isSome || decide (t.k ≤ tk.k)) s) := by
      refine named_act (decide_eq_true hn) ?_
      rw [hticks]
      simp [hen, hdead]
    obtain ⟨hframe, hstrm, -⟩ := advance_spec n (fun t => t.rephase.isSome || decide (t.k ≤ tk.k)) s
    refine ⟨_, hexec, (congrArg State.sw hframe :), (congrArg State.rng hframe :), (congrArg State.mem hframe :), ?_⟩
    rw [hstrm]
    exact passedTicks_head hticks (by simp)
  · have hexec : exec (.svTickClose n) s = .next (closeTick n tk s) := by
      have hmay : mayClose (strmOf n s) s = some tk := by
        unfold mayClose
        rw [hticks]
        exact if_pos (by simp [hen, hre, hk ▸ hstart, hk, hfilt])
      show execSvTickClose n s = _
      unfold execSvTickClose
      rw [hmay, named, if_pos (decide_eq_true hn)]
    obtain ⟨hframe, -, hothers⟩ := closeTick_frame n tk s
    obtain ⟨hnext, hlast, hloss, hdests⟩ := closeTick_strm hticks hre
    exact ⟨_, hexec, hnext, hlast, hloss, hdests, (congrArg State.rng hframe :), (congrArg State.sw hframe :),
      (congrArg State.prt hframe :), hothers⟩
  · have hexec : exec (.streamLost n) s = .next (svEvent 0x0301 n (latchSv 2 n (setStrm n { strmOf n s with lost := true } s))) :=
      named_act (decide_eq_true hn) (by simp [hen, hlost, hloss])
    refine ⟨_, hexec, ?_, getLsbD_latch_self _ (by decide),
      raise_osn (s := latchSv 2 n (setStrm n { strmOf n s with lost := true } s)) harb,
      fun k hk => look_setStrm_other hk _ s⟩
    exact congrArg Strm.lost (strmOf_setStrm n { strmOf n s with lost := true } s)
  · have hexec : exec (.automaticSourceSwitch n) s = .next (switchSource n (1 - (strmOf n s).active) s) := by
      refine named_act (decide_eq_true hn) ?_
      rw [hlast, hvalid]
      simp [hen, hauto, hno, hstby, hend, hcmd]
    exact ⟨_, hexec, switchSource_spec (by omega)⟩
  · have hexec : exec .filterSlot s = .next (filterWork w { s with flt := { s.flt with work := rest } }) := by
      show execFilterSlot s = _
      unfold execFilterSlot
      rw [hwork]
    obtain ⟨hframe, hrest, hothers, hdone⟩ := filterWork_spec w { s with flt := { s.flt with work := rest } }
    exact ⟨_, hexec, hrest, (congrArg State.sw hframe :), (congrArg State.rng hframe :), (congrArg State.mem hframe :),
      hothers, hdone⟩
  · obtain ⟨u, hexec, hoff, hwork, hframe⟩ := exec_rephase_spec hre
    exact ⟨u, hexec, hoff, hwork, (congrArg State.sw hframe :), (congrArg State.prt hframe :),
      (congrArg State.tim hframe :), (congrArg State.rng hframe :)⟩

end Sys2Proof.Machine
end

section
/-! Proof of the statement on GOOSE messages. -/

namespace Sys2Proof.Machine

open Sys2Proof

set_option Elab.async false

variable {n k : Nat} {h : Held} {g : GoosePdu} {x : GSub} {s t u v : State}

/-! ### Subscriptions (R349) -/

@[simp] theorem subOf_setSub (n : Nat) (x : GSub) (s : State) : subOf n (setSub n x s) = x := lookD_put_self _ _ _ _

theorem subOf_congr (h : t.gse.subs = s.gse.subs) (n : Nat) : subOf n t = subOf n s := by rw [subOf, subOf, h]

theorem look_setSub_other (h : k ≠ n) (x : GSub) (s : State) :
    look (setSub n x s).gse.subs k = look s.gse.subs k := look_put_other _ _ h

/-- A step on a GOOSE frame of subscription `n`: the streams, and every counter of the subscription but the one numbered
`i`, stay. -/
structure SubStep (n i : Nat) (s t : State) : Prop where
  frame : t = { s with sv := t.sv, gse := t.gse, sets := t.sets, mem := t.mem, cnp := t.cnp, arb := t.arb, hw := t.hw
                       log := t.log, obs := t.obs }
  streams : t.sv.streams = s.sv.streams
  counts : ∀ j, j ≠ i → lookD t.gse.cnt (n * 11 + j) 0 = lookD s.gse.cnt (n * 11 + j) 0

namespace SubStep
variable {i : Nat}

theorem refl (n i : Nat) (s : State) : SubStep n i s s := ⟨rfl, rfl, fun _ _ => rfl⟩

theorem trans (h : SubStep n i s t) (h' : SubStep n i t u) : SubStep n i s u := by
  refine ⟨?_, h'.streams.trans h.streams, fun j hj => (h'.counts j hj).trans (h.counts j hj)⟩
  have hframe := h'.frame
  rw [h.frame] at hframe
  exact hframe

theorem countSub (n i : Nat) (s : State) : SubStep n i s (countSub n i s) :=
  ⟨rfl, rfl, fun _ hj => lookD_bump_other _ (by omega)⟩

theorem setSub (n i : Nat) (x : GSub) (s : State) : SubStep n i s (setSub n x s) := ⟨rfl, rfl, fun _ _ => rfl⟩

theorem subEvent (n i code : Nat) (s : State) : SubStep n i s (subEvent code n s) := ⟨rfl, rfl, fun _ _ => rfl⟩

theorem latchSv (n i bit : Nat) (s : State) : SubStep n i s (latchSv bit n s) := ⟨rfl, rfl, fun _ _ => rfl⟩

theorem of_posted (h : Posted s t) : SubStep n i s t := by
  have hframe : t = { s with mem := t.mem, cnp := t.cnp, arb := t.arb, hw := t.hw, log := t.log, obs := t.obs } := h
  have hgse : t.gse = s.gse := (congrArg State.gse hframe :)
  have hsv : t.sv = s.sv := (congrArg State.sv hframe :)
  exact ⟨by rw [hframe], by rw [hsv], fun _ _ => by rw [hgse]⟩

theorem ite {p : Prop} [Decidable p] (h : SubStep n i s t) (h' : SubStep n i s u) :
    SubStep n i s (if p then t else u) := by
  split
  · exact h
  · exact h'

end SubStep

/-! ### Acceptance (R350, R351) -/

/-- A delivery of an image leaves what the message said (R351). -/
theorem deliverImage_spec (n i : Nat) (g : GoosePdu) (arr flags : Nat) (s : State) :
    SubStep n i s (deliverImage n g arr flags s) ∧
    ∃ d l, subOf n (deliverImage n g arr flags s) = { subOf n s with dests := d, last := l } := by
  have hpost := posted_deliverAll (subOf n s).dests (depthOf (subOf n s).depth) (imageLen (subOf n s)) arr 0 n
    (imageBody n (subOf n s) g arr flags) s
  unfold deliverImage
  dsimp only
  generalize deliverAll (subOf n s).dests _ _ arr 0 n _ s = v at hpost ⊢
  have hset : SubStep n i v (fireBinds 3 (fun w => w % 65536 == n) (setSub n { subOf n s with
      dests := destsAfter (subOf n s).dests s, last := some (g, arr, flags) } v)) := ⟨rfl, rfl, fun _ _ => rfl⟩
  exact ⟨(SubStep.of_posted hpost).trans hset, _, _, subOf_setSub n _ v⟩

/-- A subscription as an accepted message leaves it (R350). -/
def acceptedSub (g : GoosePdu) (x : GSub) (s : State) : GSub :=
  { x with any := true, stNum := g.stNum, sqNum := g.sqNum, stale := false, expiry := s.clk.frc + g.tal * 1000000 }

theorem acceptGoose_spec (n i : Nat) (h : Held) (g : GoosePdu) (deliver_ restart : Bool) (s : State) :
    SubStep n i s (acceptGoose n h g deliver_ restart s) ∧
    ∃ d l, subOf n (acceptGoose n h g deliver_ restart s) = { acceptedSub g (subOf n s) s with dests := d, last := l } := by
  unfold acceptGoose
  extract_lets x y s1 s2
  have hfirst : SubStep n i s s1 ∧ subOf n s1 = acceptedSub g (subOf n s) s := ⟨.setSub n i _ s, subOf_setSub n _ s⟩
  have hsecond : SubStep n i s s2 ∧ ∃ d l, subOf n s2 = { acceptedSub g (subOf n s) s with dests := d, last := l } := by
    obtain ⟨hstep, hsub⟩ := hfirst
    obtain ⟨himage, d, l, hdelivered⟩ := deliverImage_spec n i g (arrivalOf h s).1 (imageFlags g restart (h.info.verdict == 2)) s1
    by_cases hdeliver : (deliver_ || x.stale) = true
    · have hs2 : s2 = deliverImage n g (arrivalOf h s).1 (imageFlags g restart (h.info.verdict == 2)) s1 := if_pos hdeliver
      rw [hs2, hdelivered, hsub]
      exact ⟨hstep.trans himage, d, l, rfl⟩
    · have hs2 : s2 = s1 := if_neg hdeliver
      rw [hs2, hsub]
      exact ⟨hstep, _, _, rfl⟩
  clear_value s2
  obtain ⟨hstep, d, l, hsub⟩ := hsecond
  split
  · exact ⟨hstep.trans (.subEvent n i _ s2), d, l, hsub⟩
  · exact ⟨hstep, d, l, hsub⟩

theorem subStep_subMismatch (n : Nat) (s : State) : SubStep n 9 s (subMismatch n s) := by
  have hcount : SubStep n 9 s (latchSv 1 n (countSub n 9 s)) := (SubStep.countSub n 9 s).trans (.latchSv n 9 1 _)
  unfold subMismatch
  dsimp only
  exact .ite hcount ((hcount.trans (.setSub n 9 _ _)).trans (.subEvent n 9 _ _))

/-- A message that is judged is counted once, by what it is (R350). -/
theorem subStep_judgeGoose (n : Nat) (h : Held) (g : GoosePdu) (s : State) :
    ∃ i, i ≠ 0 ∧ SubStep n i s (judgeGoose n h g s) := by
  have haccept (i : Nat) (deliver_ restart : Bool) :
      SubStep n i s (acceptGoose n h g deliver_ restart (countSub n i s)) :=
    (SubStep.countSub n i s).trans (acceptGoose_spec n i h g deliver_ restart _).1
  unfold judgeGoose
  dsimp only
  split
  · exact ⟨1, by decide, haccept 1 true false⟩
  · split
    · split
      · exact ⟨2, by decide, haccept 2 false false⟩
      · exact ⟨3, by decide, .countSub n 3 s⟩
    · split
      · exact ⟨5, by decide, (haccept 5 true true).trans (.subEvent n 5 _ _)⟩
      · exact ⟨4, by decide, .countSub n 4 s⟩

/-! ### The checks of a GOOSE frame (R350) -/

theorem authPassed {v : Nat} (h : x.authReq = false ∨ v = 1) : ¬ (x.authReq && v != 1) = true := by
  rcases h with h | h <;> rw [h] <;> simp

theorem takeGoose_of_unnamed (hno : bits h.info.flow.toNat 29 11 ≠ 0 ∨ look s.gse.subs (h.info.flow.toNat % 2048) = none) :
    takeGoose h s = noSub h.info.flow.toNat s := by
  unfold takeGoose
  exact if_pos (hno.imp_right fun hnone => by rw [hnone]; rfl)

section
variable (hn : h.info.flow.toNat % 2048 = n) (hx : subOf n s = x) (hg : gooseOf h.frame = g)
  (hflow : bits h.info.flow.toNat 29 11 = 0) (hsub : look s.gse.subs n ≠ none)
include hn hx hg hflow hsub

/-- The checks of a frame that names a subscription, in their order (R350). -/
theorem takeGoose_of_named : takeGoose h s =
    if x.authReq && h.info.verdict != 1 then countSub n 6 (countSub n 0 s)
    else if g.sBit != x.sim then countSub n 7 (countSub n 0 s)
    else if !g.wellFormed || decide (x.maxData < g.allData.length) then countSub n 8 (countSub n 0 s)
    else if h.frame.appid != x.appid || g.gocbRef != x.ref || (x.chkRev && g.confRev != x.confRev) then
      subMismatch n (countSub n 0 s)
    else judgeGoose n h g (countSub n 0 s) := by
  subst hn hx hg
  unfold takeGoose
  refine if_neg ?_
  rw [not_or]
  exact ⟨not_not.mpr hflow, by simpa using hsub⟩

theorem takeGoose_counts : ∃ i, i ≠ 0 ∧ SubStep n i (countSub n 0 s) (takeGoose h s) := by
  rw [takeGoose_of_named hn hx hg hflow hsub]
  by_cases h1 : (x.authReq && h.info.verdict != 1) = true
  · rw [if_pos h1]
    exact ⟨6, by decide, .countSub n 6 _⟩
  rw [if_neg h1]
  by_cases h2 : (g.sBit != x.sim) = true
  · rw [if_pos h2]
    exact ⟨7, by decide, .countSub n 7 _⟩
  rw [if_neg h2]
  by_cases h3 : (!g.wellFormed || decide (x.maxData < g.allData.length)) = true
  · rw [if_pos h3]
    exact ⟨8, by decide, .countSub n 8 _⟩
  rw [if_neg h3]
  split
  · exact ⟨9, by decide, subStep_subMismatch n _⟩
  · exact subStep_judgeGoose n h g _
end

theorem rejectedSub_counts {i : Nat} (hi : i ≠ 0) (n : Nat) (s : State) :
    (countSub n i (countSub n 0 s)).gse.subs = s.gse.subs ∧
    lookD (countSub n i (countSub n 0 s)).gse.cnt (n * 11 + i) 0 = (lookD s.gse.cnt (n * 11 + i) 0 + 1) % 2 ^ 64 := by
  have hfirst : lookD (countSub n 0 s).gse.cnt (n * 11 + i) 0 = lookD s.gse.cnt (n * 11 + i) 0 :=
    lookD_bump_other _ (by omega)
  exact ⟨rfl, (lookD_bump_self _ _).trans (congrArg (fun m => (m + 1) % 2 ^ 64) hfirst)⟩

/-- A message with a newer stNum, or the first one, is accepted (R350). -/
theorem judgeGoose_of_newer (hx : subOf n s = x) (hnew : x.any = false ∨ 0 < (g.stNum - x.stNum).toInt) :
    judgeGoose n h g s = acceptGoose n h g true false (countSub n 1 s) := by
  subst hx
  unfold judgeGoose
  refine if_pos ?_
  rcases hnew with hany | hnum
  · rw [hany]
    rfl
  · rw [decide_eq_true hnum, Bool.or_true]

theorem takeGoose_of_newer (hn : h.info.flow.toNat % 2048 = n) (hx : subOf n s = x) (hg : gooseOf h.frame = g)
    (hflow : bits h.info.flow.toNat 29 11 = 0) (hsub : look s.gse.subs n ≠ none)
    (hauth : x.authReq = false ∨ h.info.verdict = 1) (hsim : g.sBit = x.sim) (hwell : g.wellFormed = true)
    (hlen : g.allData.length ≤ x.maxData) (happid : h.frame.appid = x.appid) (href : g.gocbRef = x.ref)
    (hrev : x.chkRev = false ∨ g.confRev = x.confRev) (hnew : x.any = false ∨ 0 < (g.stNum - x.stNum).toInt) :
    takeGoose h s = acceptGoose n h g true false (countSub n 1 (countSub n 0 s)) := by
  have hid : ¬ (h.frame.appid != x.appid || g.gocbRef != x.ref || (x.chkRev && g.confRev != x.confRev)) = true := by
    rw [happid, href]
    rcases hrev with hrev | hrev <;> rw [hrev] <;> simp
  rw [takeGoose_of_named hn hx hg hflow hsub, if_neg (authPassed hauth), if_neg (by simpa using hsim), hwell,
    if_neg (by simpa using hlen), if_neg hid]
  exact judgeGoose_of_newer hx hnew

/-- What an accepted message leaves in its subscription and its counters (R350). -/
theorem acceptGoose_values (n : Nat) (h : Held) (g : GoosePdu) (s : State) :
    let t := acceptGoose n h g true false (countSub n 1 (countSub n 0 s))
    (subOf n t).any = true ∧ (subOf n t).stNum = g.stNum ∧ (subOf n t).sqNum = g.sqNum ∧ (subOf n t).stale = false ∧
    (subOf n t).expiry = s.clk.frc + g.tal * 1000000 ∧
    lookD t.gse.cnt (n * 11 + 1) 0 = (lookD s.gse.cnt (n * 11 + 1) 0 + 1) % 2 ^ 64 := by
  intro t
  obtain ⟨hstep, d, l, hsub⟩ := acceptGoose_spec n 0 h g true false (countSub n 1 (countSub n 0 s))
  have hfields : (subOf n t).any = true ∧ (subOf n t).stNum = g.stNum ∧ (subOf n t).sqNum = g.sqNum ∧
      (subOf n t).stale = false ∧ (subOf n t).expiry = s.clk.frc + g.tal * 1000000 := by
    rw [hsub]
    exact ⟨rfl, rfl, rfl, rfl, rfl⟩
  obtain ⟨h1, h2, h3, h4, h5⟩ := hfields
  exact ⟨h1, h2, h3, h4, h5, (hstep.counts 1 (by decide)).trans (rejectedSub_counts (by decide) n s).2⟩

/-! ### Expiry and retransmission (R351, R354) -/

theorem staleImage_spec (n i : Nat) (s : State) : SubStep n i s (staleImage n s) ∧
    (∃ d, subOf n (staleImage n s) = { subOf n s with dests := d }) ∧
    ∀ k, k ≠ n → look (staleImage n s).gse.subs k = look s.gse.subs k := by
  unfold staleImage
  dsimp only
  split
  · rename_i g arr flags _
    have hpost := posted_deliverAll (subOf n s).dests (depthOf (subOf n s).depth) (imageLen (subOf n s)) arr 0 n
      (imageBody n (subOf n s) g arr (flags + 65536)) s
    generalize deliverAll (subOf n s).dests _ _ arr 0 n _ s = v at hpost ⊢
    have hset : SubStep n i v (fireBinds 3 (fun w => w % 65536 == n)
        (setSub n { subOf n s with dests := destsAfter (subOf n s).dests s } v)) := ⟨rfl, rfl, fun _ _ => rfl⟩
    have hgse : v.gse = s.gse := (congrArg State.gse hpost :)
    refine ⟨(SubStep.of_posted hpost).trans hset, ⟨_, subOf_setSub n _ v⟩, fun k hk => ?_⟩
    rw [← hgse]
    exact look_setSub_other hk _ v
  · exact ⟨.refl n i s, ⟨_, rfl⟩, fun _ _ => rfl⟩

/-- Settles O41: the checks of a message in their order, the expiry and the schedule. -/
theorem gooseMessages : Obligations.GooseMessages := by
  unfold Obligations.GooseMessages
  refine ⟨fun h rest s hse hform => ?_, fun n s hn hsub hany hstale hexp => ?_,
    fun n s hn hen hpub hdue hgate hauth => ?_⟩
  · intro flow n x g
    have hexec : exec .gooseFrameRx s = .next (takeGoose h { s with sw := { s.sw with se0 := rest } }) := by
      show execGooseFrameRx s = _
      unfold execGooseFrameRx
      rw [hse]
      dsimp only
      rw [act, if_pos (beq_iff_eq.mpr hform)]
    generalize hv : { s with sw := { s.sw with se0 := rest } } = v at hexec
    have hfields : v.sw.se0 = rest ∧ v.gse = s.gse ∧ v.sv = s.sv ∧ v.rng = s.rng ∧ v.clk = s.clk := by
      rw [← hv]
      exact ⟨rfl, rfl, rfl, rfl, rfl⟩
    obtain ⟨hse0, hgse, hsv, hrng, hclk⟩ := hfields
    have hx : subOf n v = x := subOf_congr (congrArg Gse.subs hgse) n
    have hlook : look v.gse.subs n = look s.gse.subs n := by rw [hgse]
    have hframe : (takeGoose h v).sw = v.sw ∧ (takeGoose h v).sv.streams = v.sv.streams ∧ (takeGoose h v).rng = v.rng := by
      by_cases hno : bits flow 29 11 ≠ 0 ∨ look v.gse.subs n = none
      · rw [takeGoose_of_unnamed hno]
        exact ⟨rfl, rfl, rfl⟩
      · rw [not_or] at hno
        obtain ⟨i, -, hstep⟩ := takeGoose_counts rfl rfl rfl (not_not.mp hno.1) hno.2
        exact ⟨(congrArg State.sw hstep.frame :), hstep.streams, (congrArg State.rng hstep.frame :)⟩
    obtain ⟨hsw, hstreams, hrng'⟩ := hframe
    refine ⟨_, hexec, by rw [hsw, hse0], by rw [hstreams, hsv], by rw [hrng', hrng], fun hno => ?_, fun hflow hsub => ?_⟩
    · rw [takeGoose_of_unnamed (hlook.symm ▸ hno)]
      exact ⟨by rw [← hsv]; rfl, by rw [← hgse]; rfl⟩
    · have hsub' : look v.gse.subs n ≠ none := hlook.symm ▸ hsub
      have hnamed := takeGoose_of_named (h := h) (n := n) (x := x) (g := g) rfl hx rfl hflow hsub'
      have hreject {i : Nat} (hi : i ≠ 0) (heq : takeGoose h v = countSub n i (countSub n 0 v)) :
          (takeGoose h v).gse.subs = s.gse.subs ∧
          lookD (takeGoose h v).gse.cnt (n * 11 + i) 0 = (lookD s.gse.cnt (n * 11 + i) 0 + 1) % 2 ^ 64 := by
        obtain ⟨hsubs, hcnt⟩ := rejectedSub_counts hi n v
        rw [heq]
        exact ⟨by rw [hsubs, hgse], by rw [hcnt, hgse]⟩
      refine ⟨?_, fun hauth hverdict => hreject (by decide) ?_, fun hauth hsim => hreject (by decide) ?_,
        fun hauth hsim hbad => hreject (by decide) ?_,
        fun hauth hsim hwell hlen happid href hrev hnew => ?_⟩
      · obtain ⟨i, hi, hstep⟩ := takeGoose_counts (h := h) (n := n) rfl hx rfl hflow hsub'
        rw [← hgse]
        exact (hstep.counts 0 hi.symm).trans (lookD_bump_self _ _)
      · rw [hnamed, if_pos (by rw [hauth]; simpa using hverdict)]
      · rw [hnamed, if_neg (authPassed hauth), if_pos (bne_iff_ne.mpr hsim)]
      · rw [hnamed, if_neg (authPassed hauth), if_neg (by simpa using hsim), if_pos (by simpa using hbad)]
      · have haccept := takeGoose_of_newer (h := h) (n := n) (x := x) (g := g) rfl hx rfl hflow hsub' hauth hsim hwell hlen
          happid href hrev hnew
        rw [haccept, ← hgse, ← hclk]
        exact acceptGoose_values n h g v
  · have hexec : exec (.talExpiry n) s = .next (subEvent 0x0310 n (latchSv 6 n (countSub n 10
        (staleImage n (setSub n { subOf n s with stale := true } s))))) := by
      refine named_act (decide_eq_true hn) ?_
      rw [Option.isSome_iff_ne_none.mpr hsub, hany, hstale, decide_eq_true hexp]
      rfl
    obtain ⟨hstep, ⟨d, hself⟩, hothers⟩ := staleImage_spec n 0 (setSub n { subOf n s with stale := true } s)
    rw [subOf_setSub] at hself
    generalize staleImage n (setSub n { subOf n s with stale := true } s) = v at hexec hstep hself hothers
    have hlast : subOf n (subEvent 0x0310 n (latchSv 6 n (countSub n 10 v))) = subOf n v := rfl
    refine ⟨_, hexec, by rw [hlast, hself], by rw [hlast, hself], getLsbD_latch_self _ (by decide), ?_,
      fun k hk => (hothers k hk).trans (look_setSub_other hk _ s)⟩
    exact (lookD_bump_self _ _).trans (congrArg (fun m => (m + 1) % 2 ^ 64) (hstep.counts 10 (by decide)))
  · generalize hq : ({ pubOf n s with vals := { (pubOf n s).vals with
      sqNum := numNext (pubOf n s).vals.sqNum, step := (pubOf n s).vals.step + 1
      nextAt := (pubOf n s).vals.nextAt + pubGap (pubOf n s) ((pubOf n s).vals.step + 1) } } : GPub) = q
    have hvals : q.vals = { (pubOf n s).vals with
        sqNum := numNext (pubOf n s).vals.sqNum, step := (pubOf n s).vals.step + 1
        nextAt := (pubOf n s).vals.nextAt + pubGap (pubOf n s) ((pubOf n s).vals.step + 1) } := by rw [← hq]
    have hqauth : pubAuth q = 0 := by
      rw [← hq]
      exact hauth
    have hexec : exec (.gooseRetransmission n) s =
        .next (sendPub n (pubGap (pubOf n s) ((pubOf n s).vals.step + 1)) none (setPub n q s)) := by
      rw [← hq]
      exact named_act (decide_eq_true hn) (by simp [hen, hpub, hdue])
    have hsend := sendPub_of_plain (n := n) (s := setPub n q s) hgate (by rw [pubOf_setPub]; exact hqauth)
      (pubGap (pubOf n s) ((pubOf n s).vals.step + 1)) none
    have hop : (pubReq n (pubGap (pubOf n s) ((pubOf n s).vals.step + 1)) none (setPub n q s)).op = none := rfl
    generalize (pubReq n (pubGap (pubOf n s) ((pubOf n s).vals.step + 1)) none (setPub n q s)) = r at hsend hop
    have hfin (v : State) : finishPub r stOk v = v := by
      unfold finishPub
      rw [hop]
    rw [hsend, hfin] at hexec
    have hsent := pubOf_toSe0Tx (n := n) (s := setPub n q s) (look_put_self _ _ _) r.held
    refine ⟨_, hexec, (congrArg GPub.vals hsent).trans hvals, toSe0Tx_store_length n _ _, lookD_bump_self _ _,
      fun k hk => ?_⟩
    rw [pubOf_toSe0Tx_other hk, pubOf_setPub_other hk]

end Sys2Proof.Machine
end

section
/-! Refutation of the statement on the messages of the master. -/

namespace Sys2Proof.Machine

open Sys2Proof

set_option Elab.async false

/-! ### The path delay that a Delay_Resp completes is noted at once -/

@[simp] theorem tbOf_setTb (n : Nat) (b : TBase) (s : State) : tbOf n (setTb n b s) = b := lookD_put_self _ _ _ _

/-- A Delay_Resp of the master of one time base alone (R301). -/
theorem exec_delayRespRx_of_one {c : PtpCopy} {n : Nat} {s : State} (hmem : c ∈ s.tim.inbox)
    (hkind : c.msg.kind = .delayResp) (hone : ((users c s).filter fun k => fromMaster (tbOf k s) c) = [n]) :
    exec (.delayRespRx c) s =
      .next (noteVals n (takeDelayResp c n { s with tim := { s.tim with inbox := s.tim.inbox.erase c } })) := by
  have hheld : (s.tim.inbox.contains c && c.msg.kind == .delayResp) = true := by
    rw [List.contains_iff_mem.mpr hmem, hkind]
    rfl
  generalize ht : ({ s with tim := { s.tim with inbox := s.tim.inbox.erase c } } : State) = t
  have hlist : ((users c t).filter fun k => fromMaster (tbOf k t) c) = [n] := by
    rw [← ht]
    exact hone
  show act _ _ _ = _
  rw [hheld, ht]
  dsimp only
  rw [hlist]
  rfl

/-- The latest mean path delay of an end-to-end time base is that of its delays (R323). -/
theorem path_noteVals {n : Nat} {s : State} {m : Nat × Nat × Nat} (hmaster : (tbOf n s).master = some m)
    (hp2p : tbP2p (tbOf n s) = false) (hsome : (tbOf n s).delays.isEmpty = false) : (tbOf n (noteVals n s)).path =
      roundDiv (tbOf n s).delays.sum (tbOf n s).delays.length := by
  rw [noteVals, tbOf_setTb]
  dsimp only
  rw [hmaster, Option.bind_some, pathDelay, if_neg (by rw [hp2p]; decide), if_neg (by rw [hsome]; decide)]
  rfl

/-- A Delay_Resp of the open exchange of a time base adds a path delay (R301). -/
theorem takeDelayResp_of_open {c : PtpCopy} {n q : Nat} {t3 m : Int} {s : State}
    (hopen : (tbOf n s).e2e = some (q, some t3)) (hsync : (tbOf n s).syncM = some m) (hseq : c.msg.seq = q)
    (hclock : c.msg.reqClock = clockId n) (hport : c.msg.reqPort = c.port + 1) :
    takeDelayResp c n s = setTb n { tbOf n s with
      delays := last4 ((tbOf n s).delays ++ [roundDiv (m + ((c.msg.origin * 65536 : Nat) - t3 - c.msg.corr)) 2])
      e2e := none } s := by
  unfold takeDelayResp
  dsimp only
  rw [hopen, hsync]
  dsimp only
  rw [hseq, hclock, hport, beq_self_eq_true, beq_self_eq_true, beq_self_eq_true]
  rfl

/-- Time base 0 follows a master on port 0 end to end; its Delay_Req of sequence number 0 left at t3 = 0. -/
def awaitsResp : TBase :=
  { cfg := some [1, 1, 0, 100], en := .on, acq := .locked, master := some (7, 1, 0), syncM := some 0
    e2e := some (0, some 0) }

/-- The Delay_Resp of its master, with t4 = 200 ns: the mean path delay is 100 ns. -/
def delayResp : PtpCopy :=
  { ts := some 0
    msg := { kind := .delayResp, messageType := 9, origin := 200, clock := 7, portNum := 1, reqClock := clockId 0
             reqPort := 1 } }

/-- The response waits in the time-base engine. -/
def respWaits : State where
  rst := { phase := .started }
  tim := { bases := [(0, awaitsResp)], inbox := [delayResp] }

/-- Refutes O43: the row of a Delay_Resp also notes the mean path delay as the latest value of the bank of its time base
(R323); in `respWaits` it becomes 100 ns, and the statement leaves it at 0. -/
theorem not_timeFollowsItsMaster : ¬ Obligations.TimeFollowsItsMaster := by
  unfold Obligations.TimeFollowsItsMaster
  intro h
  obtain ⟨-, -, -, hresp⟩ := h delayResp 0 respWaits List.mem_cons_self
  have husers : ((users delayResp respWaits).filter fun k => fromMaster (tbOf k respWaits) delayResp) = [0] := by
    decide +kernel
  have hnext := hresp 0 0 0 rfl husers rfl rfl rfl rfl rfl
  have hrow := exec_delayRespRx_of_one List.mem_cons_self rfl husers
  rw [takeDelayResp_of_open (q := 0) (t3 := 0) (m := 0) rfl rfl rfl rfl rfl] at hrow
  have hpath := congrArg (fun t => (tbOf 0 t).path) (Host.Outcome.next.inj (hrow.symm.trans hnext))
  dsimp only at hpath
  rw [path_noteVals (m := (7, 1, 0)) (by rw [tbOf_setTb]; rfl) (by rw [tbOf_setTb]; rfl) (by rw [tbOf_setTb]; rfl),
    tbOf_setTb, tbOf_setTb] at hpath
  exact absurd hpath (by decide)

end Sys2Proof.Machine
end

section
/-! Proof of the statement on the commands of time bases. -/

namespace Sys2Proof.Machine

open Sys2Proof

set_option Elab.async false

variable {c : Cmd} {n k : Nat} {d : Int} {p : Pps} {s t u : State}

/-! ### Time bases (R294) -/

theorem tbOf_congr (h : t.tim.bases = s.tim.bases) (n : Nat) : tbOf n t = tbOf n s := by rw [tbOf, tbOf, h]

theorem tbOf_setTb_other (h : k ≠ n) (b : TBase) (s : State) : tbOf k (setTb n b s) = tbOf k s :=
  lookD_put_other _ _ _ h

theorem roundDiv_zero {m : Nat} (h : 0 < m) : roundDiv 0 m = 0 := by
  unfold roundDiv
  dsimp only
  rw [Int.zero_emod, Int.zero_ediv, if_pos (by omega)]

/-- At the FRC value of its last change a time base holds the value of that change (R294). -/
theorem tbAt_anchor (b : TBase) : tbAt b b.a = b.b := by
  unfold tbAt
  dsimp only
  rw [Int.sub_self, Int.zero_mul, show (2 ^ 40 : Nat) = 1099511627776 from rfl, roundDiv_zero (by decide)]
  omega

/-! ### Compares and PPS_OUT (R315, R318) -/

/-- A step on the compares and PPS_OUT. -/
def Pulses (s t : State) : Prop :=
  t = { s with tim := { s.tim with
    cmps := t.tim.cmps, cmpNext := t.tim.cmpNext, ppsOut := t.tim.ppsOut, ppsNext := t.tim.ppsNext
    ppsHigh := t.tim.ppsHigh } }

theorem Pulses.refl (s : State) : Pulses s s := rfl

theorem Pulses.trans (h : Pulses s t) (h' : Pulses t u) : Pulses s u := by
  unfold Pulses at h h'
  rw [h] at h'
  exact h'

theorem Pulses.ite {q : Prop} [Decidable q] (h : Pulses s t) (h' : Pulses s u) :
    Pulses s (if q then t else u) := by
  split
  · exact h
  · exact h'

theorem pulses_armCmp (n t : Nat) (u : CmpUse) (s : State) : Pulses s (armCmp n t u s) := rfl

theorem pulses_cancelCmps (f : CmpUse → Bool) (s : State) : Pulses s (cancelCmps f s) := rfl

theorem pulses_armPps (t : Nat) (s : State) : Pulses s (armPps t s) := .ite (pulses_armCmp _ _ _ s) (.refl s)

theorem pulses_rearmPps (n t : Nat) (s : State) : Pulses s (rearmPps n t s) :=
  .ite ((pulses_cancelCmps _ s).trans (pulses_armPps t _)) (.refl s)

/-- The set-up that waited is the one of PPS_OUT (R318). -/
theorem applyPps_of_next (h : s.tim.ppsNext = some p) (t : Nat) :
    Pulses s (applyPps t s) ∧ (applyPps t s).tim.ppsOut = p ∧ (applyPps t s).tim.ppsNext = none := by
  unfold applyPps
  rw [h]
  dsimp only
  generalize hw : holdPps _ = w
  have hpulse : Pulses s w := by
    rw [← hw]
    rfl
  have hout : w.tim.ppsOut = p ∧ w.tim.ppsNext = none := by
    rw [← hw]
    exact ⟨rfl, rfl⟩
  refine ⟨hpulse.trans (pulses_armPps t w), ?_⟩
  rw [armPps]
  split
  · exact hout
  · exact hout

theorem pulses_applyPps (t : Nat) (s : State) : Pulses s (applyPps t s) := by
  cases h : s.tim.ppsNext with
  | none =>
    rw [applyPps, h]
    exact .refl s
  | some p => exact (applyPps_of_next h t).1

theorem pulses_rewaitPps (n : Nat) (s : State) : Pulses s (rewaitPps n s) :=
  .ite (.ite ((pulses_cancelCmps _ s).trans (pulses_armCmp _ _ _ _)) (pulses_applyPps 0 s)) (.refl s)

/-! ### Steps (R295, R299) -/

/-- A time base after a step of `d` at FRC value `f` (R295, R299). -/
def stepped (b : TBase) (d : Int) (f : Nat) : TBase :=
  { b with
    b := ((tbAt b f : Int) + d).toNat, a := f, stopSec := ((tbAt b f : Int) + d).toNat / 65536 / 1000000000
    acq := .locked, count := 0, okCount := 0, pending := 0, armed := false, lastAt := none
    syncM := b.syncM.map (· + d), e2e := b.e2e.map fun e => (e.1, e.2.map (· + d)) }

theorem tbAt_stepped (b : TBase) (d : Int) (f : Nat) : tbAt (stepped b d f) f = ((tbAt b f : Int) + d).toNat :=
  tbAt_anchor (stepped b d f)

/-- A step of time base `n` leaves it as `b`, and the other bases, the edges of PPS_IN and the frames. -/
structure TbStep (n : Nat) (b : TBase) (s t : State) : Prop where
  frame : t = { s with tim := t.tim, cnp := t.cnp, sv := t.sv, sets := t.sets, mem := t.mem, arb := t.arb, hw := t.hw
                       log := t.log, obs := t.obs }
  base : tbOf n t = b
  others : ∀ k, k ≠ n → tbOf k t = tbOf k s
  edge : t.tim.ppsLast = s.tim.ppsLast
  counts : t.tim.cnt = s.tim.cnt
  inbox : t.tim.inbox = s.tim.inbox

theorem TbStep.pulses {b : TBase} (h : TbStep n b s t) (h' : Pulses t u) : TbStep n b s u := by
  obtain ⟨x, hx⟩ : ∃ x, x = u.tim := ⟨_, rfl⟩
  unfold Pulses at h'
  rw [← hx] at h'
  have hbases : u.tim.bases = t.tim.bases := by rw [h']
  refine ⟨?_, (tbOf_congr hbases n).trans h.base, fun k hk => (tbOf_congr hbases k).trans (h.others k hk), ?_, ?_, ?_⟩
  · rw [h']
    conv_lhs => rw [h.frame]
  · rw [h']
    exact h.edge
  · rw [h']
    exact h.counts
  · rw [h']
    exact h.inbox

theorem canopyStep_frame (n : Nat) (s : State) :
    ∃ st c v, canopyStep n s = { s with sets := st, cnp := c, sv := v } := by
  unfold canopyStep
  split
  · exact ⟨_, _, _, rfl⟩
  · exact ⟨_, _, _, rfl⟩

/-- What a step does (R295, R299). -/
theorem stepTb_spec (n : Nat) (d : Int) (code bit : Nat) (s : State) :
    TbStep n (stepped (tbOf n s) d (frcNow s)) s (stepTb n d code bit s) ∧
      (arbHeld s = false → (stepTb n d code bit s).arb.osn = s.arb.osn + 1) := by
  unfold stepTb
  dsimp only
  generalize hw : tbEvent code n [] (some 1) _ = w
  have hstep : TbStep n (stepped (tbOf n s) d (frcNow s)) s w := by
    rw [← hw]
    exact ⟨rfl, tbOf_setTb n _ s, fun k hk => tbOf_setTb_other hk _ s, rfl, rfl, rfl⟩
  have hosn : arbHeld s = false → w.arb.osn = s.arb.osn + 1 := by
    intro harb
    rw [← hw]
    exact raise_osn (s := latchTb bit n (setTb n (stepped (tbOf n s) d (frcNow s)) s)) harb
  have hpulse := (pulses_rearmPps n (((tbAt (tbOf n s) (frcNow s) : Int) + d).toNat / 65536 + 1) w).trans
    (pulses_rewaitPps n _)
  generalize rewaitPps n _ = v at hpulse ⊢
  obtain ⟨st, c, x, hcanopy⟩ := canopyStep_frame n v
  have hv := hstep.pulses hpulse
  rw [hcanopy]
  refine ⟨⟨?_, hv.base, hv.others, hv.edge, hv.counts, hv.inbox⟩, fun harb => ?_⟩
  · rw [hv.frame]
  · unfold Pulses at hpulse
    exact (congrArg (fun z => z.arb.osn) hpulse :).trans (hosn harb)

/-! ### Enable and disable (R149, R299, R300, R321) -/

/-- A time base that is enabled, before a local one takes its time (R321). -/
def enabled (old : TBase) (f : Nat) : TBase :=
  { cfg := old.cfg, en := .on, a := f, b := f, theta := old.theta, ppsVal := old.ppsVal, gmId := old.gmId
    path := old.path, tti := old.tti, gmC37 := old.gmC37 }

theorem startTb_spec (n : Nat) (s : State) :
    (tbSource (tbOf n s) ≠ 0 → TbStep n (enabled (tbOf n s) (frcNow s)) s (startTb n s)) ∧
    (tbSource (tbOf n s) = 0 →
      TbStep n (stepped (enabled (tbOf n s) (frcNow s)) ((tbInit (tbOf n s) * 65536 : Nat) - (frcNow s : Int)) (frcNow s)) s
        (startTb n s) ∧
      (arbHeld s = false → (startTb n s).arb.osn = s.arb.osn + 1)) := by
  have hset : TbStep n (enabled (tbOf n s) (frcNow s)) s (setTb n (enabled (tbOf n s) (frcNow s)) s) :=
    ⟨rfl, tbOf_setTb n _ s, fun k hk => tbOf_setTb_other hk _ s, rfl, rfl, rfl⟩
  refine ⟨fun hsrc => ?_, fun hsrc => ?_⟩
  · have hif : startTb n s = _ :=
      congrArg (fun v => rearmPps n ((tbAt (tbOf n v) (frcNow v) + 65535) / 65536) v)
        (if_neg (c := tbSource (enabled (tbOf n s) (frcNow s)) = 0) hsrc)
    rw [hif]
    exact hset.pulses (pulses_rearmPps n _ _)
  · obtain ⟨hstep, hosn⟩ := stepTb_spec n ((tbInit (tbOf n s) * 65536 : Nat) - (frcNow s : Int)) 0x0501 0
      (setTb n (enabled (tbOf n s) (frcNow s)) s)
    rw [tbOf_setTb] at hstep
    have hif : startTb n s = _ :=
      congrArg (fun v => rearmPps n ((tbAt (tbOf n v) (frcNow v) + 65535) / 65536) v)
        (if_pos (c := tbSource (enabled (tbOf n s) (frcNow s)) = 0) hsrc)
    rw [hif]
    have hv : TbStep n (stepped (enabled (tbOf n s) (frcNow s)) ((tbInit (tbOf n s) * 65536 : Nat) - (frcNow s : Int))
        (frcNow s)) s (stepTb n ((tbInit (tbOf n s) * 65536 : Nat) - (frcNow s : Int)) 0x0501 0
        (setTb n (enabled (tbOf n s) (frcNow s)) s)) :=
      ⟨hstep.frame, hstep.base, fun k hk => (hstep.others k hk).trans (hset.others k hk), hstep.edge,
        hstep.counts, hstep.inbox⟩
    have hpulse := fun v => pulses_rearmPps n ((tbAt (tbOf n v) (frcNow v) + 65535) / 65536) v
    refine ⟨hv.pulses (hpulse _), fun harb => ?_⟩
    exact (congrArg (fun z => z.arb.osn) (hpulse _) :).trans (hosn harb)

theorem effTbEnable_of_off (hoff : (tbOf (arg0 c.desc) s).en = .off) :
    effTbEnable c s = (startTb (arg0 c.desc) s, stOk, none) := by
  unfold effTbEnable
  dsimp only
  rw [hoff]
  rfl

theorem canopyLeave_frame (n : Nat) (old s : State) : ∃ o, canopyLeave n old s = { s with cnp := { s.cnp with off := o } } := by
  unfold canopyLeave
  split
  · exact ⟨_, rfl⟩
  · exact ⟨_, rfl⟩

/-- A time base that is disabled while ON stops at the next whole second (R149, R321). -/
def stoppingTb (b : TBase) (f : Nat) : TBase :=
  { b with en := .stopping, held := false, stopSec := tbNs b f / 1000000000 }

theorem effTbDisable_of_on (hon : (tbOf (arg0 c.desc) s).en = .on) :
    ∃ o, effTbDisable c s = ({ setTb (arg0 c.desc) (stoppingTb (tbOf (arg0 c.desc) s) (frcNow s)) s with
      cnp := { s.cnp with off := o } }, stOk, none) := by
  unfold effTbDisable
  dsimp only
  rw [hon]
  obtain ⟨o, ho⟩ := canopyLeave_frame (arg0 c.desc) s
    (setTb (arg0 c.desc) (stoppingTb (tbOf (arg0 c.desc) s) (frcNow s)) s)
  exact ⟨o, congrArg (fun t => res t stOk) ho⟩

theorem effTbRearm_of_other (h : (tbOf (arg0 c.desc) s).acq ≠ .refused) :
    effTbRearm c s = (s, stStepRefused, none) := by
  unfold effTbRearm
  dsimp only
  rw [if_neg (by simpa using h)]
  rfl

theorem effTbRearm_of_refused (h : (tbOf (arg0 c.desc) s).acq = .refused) : ∃ e,
    effTbRearm c s = (recordOnly e (addTb (arg0 c.desc) 5 1
      (setTb (arg0 c.desc) { tbOf (arg0 c.desc) s with armed := true } s)), stOk, none) := by
  unfold effTbRearm
  dsimp only
  rw [h]
  exact ⟨_, rfl⟩

/-! ### The two pulse set-ups (R318, R319) -/

/-- The set-up of PPS_OUT that a block describes (R318). -/
def ppsBlock (c : Cmd) : Pps :=
  { tb := arg1 c.desc, en := tbit (wordAt c.block 0) 0, flag := tbit (wordAt c.block 0) 2
    width := wordAt c.block 1, phase := wordAt c.block 2 }

theorem effTbPps_of_in (h : arg0 c.desc = 0) : effTbPps c s =
    ({ s with tim := { s.tim with ppsIn :=
        { tb := arg1 c.desc, en := tbit (wordAt c.block 0) 0, flag := tbit (wordAt c.block 0) 1 } } }, stOk, none) := by
  unfold effTbPps
  dsimp only
  rw [if_pos h]
  rfl

theorem effTbPps_of_out (h : arg0 c.desc = 1) : ∃ u, effTbPps c s = (u, stOk, none) ∧ u.tim.bases = s.tim.bases ∧
    ((tbOf (arg1 c.desc) s).en = .on → u.tim.ppsOut = s.tim.ppsOut ∧ u.tim.ppsNext = some (ppsBlock c)) ∧
    ((tbOf (arg1 c.desc) s).en ≠ .on → u.tim.ppsOut = ppsBlock c ∧ u.tim.ppsNext = none) := by
  unfold effTbPps
  dsimp only
  rw [if_neg (by rw [h]; decide)]
  by_cases hon : (tbOf (arg1 c.desc) s).en = .on
  · rw [if_pos (by rw [hon]; rfl)]
    exact ⟨_, rfl, rfl, fun _ => ⟨rfl, rfl⟩, fun hoff => absurd hon hoff⟩
  · rw [if_neg (by simpa using hon)]
    obtain ⟨hpulse, hout, hnext⟩ := applyPps_of_next (p := ppsBlock c)
      (s := cancelCmps (fun u => u == .ppsSet) { s with tim := { s.tim with ppsNext := some (ppsBlock c) } }) rfl 0
    exact ⟨_, rfl, (congrArg (fun v => v.tim.bases) hpulse :), fun hyes => absurd hyes hon, fun _ => ⟨hout, hnext⟩⟩

/-- Settles O42: each command through its effect; an enable through the step of a local time base. -/
theorem timeBaseCommands : Obligations.TimeBaseCommands := by
  unfold Obligations.TimeBaseCommands
  intro c s n
  refine ⟨fun h => runNow_of_ready h rfl (judgeCmd_tbConfig s), fun h hoff => ?_, fun h hon => ?_,
    fun h => ⟨fun hacq => ?_, fun hacq => ?_⟩, fun h => ⟨fun hin => ?_, fun hout => ?_⟩⟩
  · have hexec : exec (.tbEnable c) s = .next (complete c (effTbEnable c s)) := runNow_of_ready h rfl (judgeCmd_tbEnable s)
    rw [effTbEnable_of_off hoff] at hexec
    obtain ⟨hother, hlocal⟩ := startTb_spec n s
    by_cases hsrc : tbSource (tbOf n s) = 0
    · obtain ⟨hstep, hosn⟩ := hlocal hsrc
      have hvalue : (stepped (enabled (tbOf n s) (frcNow s)) ((tbInit (tbOf n s) * 65536 : Nat) - (frcNow s : Int))
          (frcNow s)).b = tbInit (tbOf n s) * 65536 := by
        show ((tbAt (enabled (tbOf n s) (frcNow s)) (frcNow s) : Int) + _).toNat = _
        rw [show tbAt (enabled (tbOf n s) (frcNow s)) (frcNow s) = frcNow s from tbAt_anchor (enabled (tbOf n s) (frcNow s))]
        omega
      refine ⟨_, hexec, ?_, ?_, ?_, ?_, fun hno => absurd hsrc hno, fun _ => ⟨?_, ?_, hosn⟩, hstep.others,
        by rw [hstep.frame]⟩ <;> rw [hstep.base]
      · rfl
      · rfl
      · rfl
      · rfl
      · rfl
      · exact hvalue
    · have hstep := hother hsrc
      refine ⟨_, hexec, ?_, ?_, ?_, ?_, fun _ => ⟨?_, ?_⟩, fun hyes => absurd hyes hsrc, hstep.others,
        by rw [hstep.frame]⟩ <;> rw [hstep.base] <;> rfl
  · have hexec : exec (.tbDisable c) s = .next (complete c (effTbDisable c s)) :=
      runNow_of_ready h rfl (judgeCmd_tbDisable s)
    obtain ⟨o, heff⟩ := effTbDisable_of_on hon
    rw [heff] at hexec
    exact ⟨_, hexec, tbOf_setTb n _ s, fun k hk => tbOf_setTb_other hk _ s, rfl⟩
  · exact (runNow_of_ready h rfl (judgeCmd_tbRearm s)).trans (by rw [effTbRearm_of_other hacq])
  · have hexec : exec (.tbRearm c) s = .next (complete c (effTbRearm c s)) := runNow_of_ready h rfl (judgeCmd_tbRearm s)
    obtain ⟨e, heff⟩ := effTbRearm_of_refused hacq
    rw [heff] at hexec
    refine ⟨_, hexec, tbOf_setTb n _ s, lookD_bumpBy_self _ _ _, fun harb => ?_⟩
    exact raise_osn (s := addTb n 5 1 (setTb n { tbOf n s with armed := true } s)) harb
  · exact (runNow_of_ready h rfl (judgeCmd_tbPps s)).trans (by rw [effTbPps_of_in hin])
  · intro p
    have hexec : exec (.tbPps c) s = .next (complete c (effTbPps c s)) := runNow_of_ready h rfl (judgeCmd_tbPps s)
    obtain ⟨u, heff, hbases, hon, hoff⟩ := effTbPps_of_out (s := s) hout
    exact ⟨u, hexec.trans (by rw [heff]), hbases, hon, hoff⟩

end Sys2Proof.Machine
end

section
/-! Proof of the statement on compares, PPS input and PPS output. -/

namespace Sys2Proof.Machine

open Sys2Proof

set_option Elab.async false

variable {n k : Nat} {d : Int} {s t u : State}

/-! ### The last edge of PPS_IN (R319) -/

theorem ppsLast_stepTb (n : Nat) (d : Int) (code bit : Nat) (s : State) :
    (stepTb n d code bit s).tim.ppsLast = s.tim.ppsLast := (stepTb_spec n d code bit s).1.edge

theorem leaveHold_spec (n : Nat) (s : State) : ∃ c, leaveHold n s = { s with tim := { s.tim with cnt := c } } := by
  unfold leaveHold
  dsimp only
  split
  · exact ⟨_, rfl⟩
  · exact ⟨_, rfl⟩

theorem ppsLast_leaveHold (n : Nat) (s : State) : (leaveHold n s).tim.ppsLast = s.tim.ppsLast := by
  obtain ⟨c, h⟩ := leaveHold_spec n s
  rw [h]

theorem ppsLast_servo (n : Nat) (theta : Int) (f delta : Nat) (s : State) :
    (servo n theta f delta s).tim.ppsLast = s.tim.ppsLast := by
  unfold servo
  dsimp only
  split
  · rfl
  · rfl

theorem ppsLast_follow (n : Nat) (theta : Int) (beyond : Bool) (f delta : Nat) (s : State) :
    (follow n theta beyond f delta s).tim.ppsLast = s.tim.ppsLast := by
  unfold follow
  dsimp only
  split
  · split
    · exact ppsLast_leaveHold n s
    · rfl
  · exact (ppsLast_servo n theta f delta _).trans (ppsLast_leaveHold n s)

theorem ppsLast_refusedMeas (n : Nat) (theta : Int) (beyond : Bool) (s : State) :
    (refusedMeas n theta beyond s).tim.ppsLast = s.tim.ppsLast := by
  unfold refusedMeas
  dsimp only
  split
  · exact ppsLast_stepTb _ _ _ _ s
  · generalize (if beyond then 0 else (tbOf n s).okCount + 1) = m
    split
    · rfl
    · rfl

theorem ppsLast_measure (n : Nat) (theta : Int) (f delta : Nat) (s : State) :
    (measure n theta f delta s).tim.ppsLast = s.tim.ppsLast := by
  unfold measure
  dsimp only
  cases (tbOf n s).acq with
  | unacquired => exact ppsLast_stepTb _ _ _ _ _
  | refused => exact ppsLast_refusedMeas _ _ _ _
  | locked => exact ppsLast_follow _ _ _ _ _ _
  | holdover => exact ppsLast_follow _ _ _ _ _ _

theorem ppsLast_ppsMeasure (f : Nat) (delta : Option Nat) (n : Nat) (s : State) :
    (ppsMeasure f delta n s).tim.ppsLast = s.tim.ppsLast := by
  unfold ppsMeasure
  dsimp only
  split
  · exact ppsLast_stepTb _ _ _ _ _
  · cases delta with
    | none => rfl
    | some d => exact ppsLast_measure _ _ _ _ _

theorem ppsLast_eachTb (f : Nat) (delta : Option Nat) : ∀ (l : List Nat) (s : State),
    (eachTb (ppsMeasure f delta) l s).tim.ppsLast = s.tim.ppsLast
  | [], _ => rfl
  | n :: l, s => (ppsLast_eachTb f delta l _).trans (ppsLast_ppsMeasure f delta n s)

/-! ### Compares (R315) -/

/-- The state in which a compare that fires acts: it is no longer armed (R315). -/
def fired (c : Cmp) (s : State) : State :=
  { s with tim := { s.tim with cmps := s.tim.cmps.filter fun x => x.id != c.id } }

theorem exec_compareFire_of_due {c : Cmp} (h : (s.tim.cmps.find? fun x => x.id == c.id) = some c)
    (hdue : cmpDiff c s ≤ fireLead c) : exec (.compareFire c.id) s = .next (fireUse c (fired c s)) := by
  show execCompareFire c.id s = _
  unfold execCompareFire
  rw [h]
  dsimp only
  rw [decide_eq_true hdue]
  rfl

/-- A pending rollover becomes active (R443). -/
theorem activateRollover_of_pending (h : (slotOf n s).st = .rollPending) :
    (slotOf n (activateRollover n s)).st = .rollOverlap ∧
    (slotOf n (activateRollover n s)).overlapEnd = s.clk.frc + (slotOf (slotOf n s).succ s).overlap * 10000000 ∧
    (arbHeld s = false → (activateRollover n s).arb.osn = s.arb.osn + 1) := by
  unfold activateRollover
  dsimp only
  rw [h]
  generalize hx : ({ slotOf n s with st := _, overlapEnd := _ } : KSlot) = x
  have hslot : slotOf n (keyEvent 0x0603 n (some 2) none (setSlot n x s)) = x := lookD_put_self _ _ _ _
  refine ⟨?_, ?_, fun harb => raise_osn (s := latchKey 2 n (setSlot n x s)) harb⟩
  · exact (congrArg KSlot.st hslot).trans (by rw [← hx])
  · exact (congrArg KSlot.overlapEnd hslot).trans (by rw [← hx])

/-- PPS_OUT rises unless something holds it low (R318). -/
theorem ppsRise_of_free (h : ppsFree s = true) (target : Nat) :
    (ppsRise target s).tim.ppsHigh = true ∧ (ppsRise target s).tim.ppsFall = s.clk.frc + s.tim.ppsOut.width := by
  unfold ppsRise
  dsimp only
  rw [if_pos h]
  exact ⟨rfl, rfl⟩

/-! ### Edges of PPS_IN (R300, R319) -/

/-- The state in which an accepted edge at `f` is measured: it is noted at the time base of PPS_IN (R319). -/
def edgeNoted (f : Nat) (s : State) : State :=
  let s1 := setTb s.tim.ppsIn.tb { tbOf s.tim.ppsIn.tb s with ppsVal := tbNs (tbOf s.tim.ppsIn.tb s) f }
    { s with tim := { s.tim with ppsLast := some f } }
  if s.tim.ppsIn.flag then tbEvent 0x0508 s.tim.ppsIn.tb [] none s1 else s1

theorem exec_ppsInEdge_of_accepted {f : Nat} (hen : s.tim.ppsIn.en = true) (h : ppsEarly (tdcTime f) s = false) :
    exec (.ppsInEdge f) s = .next (eachTb (ppsMeasure (tdcTime f) (s.tim.ppsLast.map (tdcTime f - ·)))
      ((List.range 4).filter fun k => (tbOf k (edgeNoted (tdcTime f) s)).en != .off &&
        tbSource (tbOf k (edgeNoted (tdcTime f) s)) == 2) (edgeNoted (tdcTime f) s)) := by
  show execPpsInEdge f s = _
  unfold execPpsInEdge
  dsimp only
  rw [hen, h]
  rfl

/-- An accepted edge leaves each time base but for the value at the edge. -/
theorem edgeNoted_spec (f : Nat) (s : State) : (edgeNoted f s).tim.ppsLast = some f ∧ (edgeNoted f s).clk = s.clk ∧
    ∀ k, ∃ v, tbOf k (edgeNoted f s) = { tbOf k s with ppsVal := v } := by
  unfold edgeNoted
  dsimp only
  generalize hx : ({ tbOf s.tim.ppsIn.tb s with ppsVal := _ } : TBase) = x
  have hbases (k : Nat) : ∃ v, tbOf k (setTb s.tim.ppsIn.tb x { s with tim := { s.tim with ppsLast := some f } }) =
      { tbOf k s with ppsVal := v } := by
    by_cases hk : k = s.tim.ppsIn.tb
    · exact ⟨_, by rw [hk, tbOf_setTb, ← hx]⟩
    · exact ⟨(tbOf k s).ppsVal, tbOf_setTb_other hk _ _⟩
  generalize hw : setTb s.tim.ppsIn.tb x { s with tim := { s.tim with ppsLast := some f } } = w at hbases
  have hnoted : w.tim.ppsLast = some f ∧ w.clk = s.clk := by
    rw [← hw]
    exact ⟨rfl, rfl⟩
  split
  · exact ⟨hnoted.1, hnoted.2, hbases⟩
  · exact ⟨hnoted.1, hnoted.2, hbases⟩

theorem frcNow_congr (h : t.clk = s.clk) : frcNow t = frcNow s := by rw [frcNow, frcNow, h]

/-- The edge sets an UNACQUIRED time base to its `INIT_TIME` at the edge (R300). -/
theorem ppsMeasure_of_unacquired (hacq : (tbOf n s).acq = .unacquired) (f : Nat) (delta : Option Nat) : ∃ v,
    ppsMeasure f delta n s = stepTb n ((tbInit (tbOf n s) * 65536 : Nat) - (tbAt (tbOf n s) f : Int)) 0x0501 0
      (setTb n { tbOf n s with theta := v } s) := by
  have hbody : ppsMeasure = ppsMeasure := rfl
  conv at hbody => rhs; delta ppsMeasure
  rw [hbody]
  beta_reduce
  extract_lets b v sec
  clear_value sec
  rw [if_pos (show (b.acq == .unacquired) = true by rw [hacq]; rfl)]
  exact ⟨_, rfl⟩

theorem tbOf_ppsMeasure_of_unacquired (hacq : (tbOf n s).acq = .unacquired) (f : Nat) (delta : Option Nat) :
    (tbOf n (ppsMeasure f delta n s)).acq = .locked ∧
    tbAt (tbOf n (ppsMeasure f delta n s)) (frcNow s) = ((tbAt (tbOf n s) (frcNow s) : Int) +
      ((tbInit (tbOf n s) * 65536 : Nat) - (tbAt (tbOf n s) f : Int))).toNat := by
  obtain ⟨v, heq⟩ := ppsMeasure_of_unacquired hacq f delta
  rw [heq]
  generalize ((tbInit (tbOf n s) * 65536 : Nat) - (tbAt (tbOf n s) f : Int)) = d
  have hvalue : tbAt { tbOf n s with theta := v } (frcNow s) = tbAt (tbOf n s) (frcNow s) := rfl
  generalize ({ tbOf n s with theta := v } : TBase) = x at hvalue
  have hbase := (stepTb_spec n d 0x0501 0 (setTb n x s)).1.base
  rw [tbOf_setTb, frcNow_congr (t := setTb n x s) (s := s) rfl] at hbase
  rw [hbase]
  exact ⟨rfl, (tbAt_stepped x d (frcNow s)).trans (by rw [hvalue])⟩

/-- Settles O45: a compare through its use, an edge of PPS_IN through the step of the time base that it sets. -/
theorem comparesAndPulses : Obligations.ComparesAndPulses := by
  unfold Obligations.ComparesAndPulses
  refine ⟨fun c s hfind hdue => ?_, fun f s hen => ?_, fun s hhigh hfall => ?_⟩
  · refine ⟨_, exec_compareFire_of_due hfind hdue, fun r e huse => ?_, fun k huse hst => ?_, fun huse hfree => ?_,
      fun p huse hnext => ?_⟩ <;> (unfold fireUse; rw [huse]; dsimp only)
    · exact ⟨rfl, rfl⟩
    · exact activateRollover_of_pending hst
    · exact ppsRise_of_free (s := fired c s) hfree _
    · exact (applyPps_of_next (s := fired c s) hnext _).2
  · cases hearly : ppsEarly (tdcTime f) s
    · refine ⟨_, exec_ppsInEdge_of_accepted hen hearly, nofun, fun _ => ?_⟩
      obtain ⟨hlast, hclk, hbases⟩ := edgeNoted_spec (tdcTime f) s
      refine ⟨(ppsLast_eachTb _ _ _ _).trans hlast, fun k hone hacq => ?_⟩
      have hlist : ((List.range 4).filter fun j => (tbOf j (edgeNoted (tdcTime f) s)).en != .off &&
          tbSource (tbOf j (edgeNoted (tdcTime f) s)) == 2) = [k] := by
        rw [← hone]
        refine List.filter_congr fun j _ => ?_
        obtain ⟨v, hv⟩ := hbases j
        rw [hv]
        rfl
      rw [hlist]
      obtain ⟨v, hv⟩ := hbases k
      generalize edgeNoted (tdcTime f) s = w at hclk hv
      have hset := tbOf_ppsMeasure_of_unacquired (s := w) (n := k) (by rw [hv]; exact hacq) (tdcTime f)
        (s.tim.ppsLast.map (tdcTime f - ·))
      rw [hv, show frcNow w = frcNow s by rw [frcNow, frcNow, hclk]] at hset
      exact hset
    · refine ⟨latchTb 7 s.tim.ppsIn.tb (addTb s.tim.ppsIn.tb 7 1 s), ?_, fun _ => ⟨rfl, ?_, rfl, lookD_bumpBy_self _ _ _⟩, nofun⟩
      · show execPpsInEdge f s = _
        unfold execPpsInEdge
        dsimp only
        rw [hen, hearly]
        rfl
      · exact getLsbD_latch_self _ (by decide)
  · show act _ _ _ = _
    rw [hhigh, decide_eq_true hfall]
    rfl

end Sys2Proof.Machine
end

section
/-! Proof of the statement on the messages that the time-base engine sends, and on holdover. -/

namespace Sys2Proof.Machine

open Sys2Proof

set_option Elab.async false

variable {n p k port : Nat} {m : PtpMsg} {f : Frame} {ts : Option Nat} {s t u : State}

/-! ### A message leaves in queue 7 of its port (R308) -/

theorem notePause_ports (n k : Nat) (s : State) :
    ∃ a b, portOf k (notePause n s) = { portOf k s with pauseWait := a, pauseMet := b } := by
  unfold notePause
  dsimp only
  by_cases hk : k = n
  · subst hk
    have hset : portOf k (setPort k { portOf k s with pauseWait := some s.clk.frc, pauseMet := true } s) =
        { portOf k s with pauseWait := some s.clk.frc, pauseMet := true } := portOf_setPort _ _ _
    split
    · split
      · exact ⟨_, _, hset⟩
      · exact ⟨_, _, hset⟩
    · exact ⟨_, _, rfl⟩
  · have hset (x : Port) : portOf k (setPort n x s) = portOf k s := lookD_put_other _ _ _ hk
    refine ⟨(portOf k s).pauseWait, (portOf k s).pauseMet, ?_⟩
    split
    · split
      · exact hset _
      · exact hset _
    · rfl

/-- A frame that is offered to a queue leaves every port but for the wait of its pause (R265). -/
theorem enqueue_ports (h : Held) (q colour k : Nat) (s : State) :
    ∃ a b, portOf k (enqueue h q colour s) = { portOf k s with pauseWait := a, pauseMet := b } := by
  obtain ⟨e, he⟩ := (admitCode_spec q (cellsOf h.frame) colour s).2
  unfold enqueue
  dsimp only
  rw [he]
  generalize (admitCode q (cellsOf h.frame) colour s).1 = code
  split
  · exact notePause_ports (q / 8) k (noteLow (setQueue q _ (countQueue q code { s with free := e })))
  · refine ⟨(portOf k s).pauseWait, (portOf k s).pauseMet, ?_⟩
    have hsettle (x : Fate) (w : State) (hw : w.prt = s.prt) : portOf k (settle h.info x w) = portOf k s :=
      portOf_congr (congrArg Prt.ports ((settle_prt ..).trans hw)) k
    refine hsettle _ _ ?_
    split
    · rfl
    · rfl

/-- A frame for which the queue's minimum has room stands at the end of the queue (R265). -/
theorem enqueue_of_room {h : Held} {q colour : Nat} (hup : portUp (q / 8) s = true)
    (hroom : occQ q s + cellsOf h.frame ≤ (queueAt q s).min) :
    (queueAt q (enqueue h q colour s)).frames = (queueAt q s).frames ++ [h] := by
  have hadmit : admitCode q (cellsOf h.frame) colour s = (0, s) := by
    unfold admitCode
    dsimp only
    rw [hup, if_neg (by decide), if_pos hroom]
  unfold enqueue
  dsimp only
  rw [hadmit]
  generalize hw : noteLow (setQueue q _ _) = w
  have hqueue : queueAt q w = { queueAt q s with frames := (queueAt q s).frames ++ [h] } := by
    rw [← hw]
    exact queueAt_setQueue q _ (countQueue q 0 s)
  obtain ⟨x, hx⟩ := notePause_frame (q / 8) w
  rw [hx]
  exact (congrArg Queue.frames hqueue :)

/-- A message that is sent leaves the time bases and the ports, and is counted as sent at its port (R308, R323). -/
structure SentPtp (port : Nat) (s t : State) : Prop where
  tim : t.tim = { s.tim with tsCnt := bump s.tim.tsCnt (port * 7 + 3) }
  clk : t.clk = s.clk
  ports : ∀ k, ∃ a b, portOf k t = { portOf k s with pauseWait := a, pauseMet := b }

theorem sentPtp_sendPtp (n port : Nat) (f : Frame) (ts : Option Nat) (s : State) :
    SentPtp port s (sendPtp n port f ts s) := by
  obtain ⟨_, _, _, _, _, _, _, _, _, _, hframe⟩ :=
    (enqueued_enqueue { frame := f, info := { src := 50, flow := BitVec.ofNat 32 n, ts := ts } } (port * 8 + 7) 0
      (countTs port 3 s)).1
  refine ⟨?_, ?_, fun k => enqueue_ports _ _ _ k (countTs port 3 s)⟩
  · rw [sendPtp, hframe]
    rfl
  · rw [sendPtp, hframe]
    rfl

theorem sendPtp_of_room (hup : portUp port s = true)
    (hroom : occQ (port * 8 + 7) s + cellsOf f ≤ (queueAt (port * 8 + 7) s).min) :
    (queueAt (port * 8 + 7) (sendPtp n port f ts s)).frames = (queueAt (port * 8 + 7) s).frames ++
      [{ frame := f, info := { src := 50, flow := BitVec.ofNat 32 n, ts := ts } }] :=
  enqueue_of_room (s := countTs port 3 s) (by rw [show (port * 8 + 7) / 8 = port by omega]; exact hup) hroom

theorem sentPtp_sendFrom (n port len : Nat) (event : Bool) (m : PtpMsg) (s : State) :
    SentPtp port (setTb n { tbOf n s with seqNo := ((tbOf n s).seqNo + 1) % 65536 } s) (sendFrom n port len event m s) :=
  sentPtp_sendPtp ..

theorem SentPtp.base (h : SentPtp port s t) (k : Nat) : tbOf k t = tbOf k s := tbOf_congr (by rw [h.tim]) k

/-! ### The messages of a time base (R305, R308) -/

theorem exec_delayReqTx_of_due {r : Nat × Nat × Nat} (hn : n < 4) (hmaster : (tbOf n s).master = some r)
    (hen : (tbOf n s).en ≠ .off) (hsrc : tbSource (tbOf n s) = 1) (hp2p : tbP2p (tbOf n s) = false)
    (hdue : (tbOf n s).nextDreq ≤ s.clk.frc) : ∃ v m, v ≤ logNs (tbLog (tbOf n s) 2) ∧
    exec (.delayReqTx n) s = .next (sendFrom n r.2.2 64 true m (setTb n { tbOf n s with
      e2e := some ((tbOf n s).seqNo, none), nextDreq := s.clk.frc + logNs (tbLog (tbOf n s) 2) / 2 + v }
      { s with free := s.free + 1 })) := by
  refine ⟨(fresh s).1 % (logNs (tbLog (tbOf n s) 2) + 1),
    { ptpFrom n r.2.2 s with kind := .delayReq, messageType := 1, logInt := 127 }, Nat.lt_succ_iff.mp (Nat.mod_lt _ (Nat.succ_pos _)), ?_⟩
  show execDelayReqTx n s = _
  unfold execDelayReqTx
  dsimp only
  rw [hmaster]
  refine named_act (decide_eq_true hn) ?_
  rw [hsrc, hp2p, decide_eq_true hdue, bne_iff_ne.mpr hen]
  rfl

/-- A grandmaster whose Announce and Sync are both due on a port sends both (R308). -/
theorem exec_gmAnnounceSyncTx_of_due (hn : n < 4) (hp : p < 48) (hgm : gmActive (tbOf n s) = true)
    (hon : onPort (tbOf n s) p = true) (hup : portUp p s = true) (hquiet : quietNow (tbOf n s) p s = false)
    (hann : (lookD (tbOf n s).due p (0, 0)).1 ≤ s.clk.frc) (hsyn : (lookD (tbOf n s).due p (0, 0)).2 ≤ s.clk.frc) :
    ∃ m1 m2, exec (.gmAnnounceSyncTx n p) s = .next (setDue n p
      (s.clk.frc + logNs (tbLog (tbOf n s) 1), s.clk.frc + logNs (tbLog (tbOf n s) 0))
      (sendFrom n p 64 true m2 (sendFrom n p 82 false m1 s))) := by
  refine ⟨announceMsg n p s, syncMsg n p (sendFrom n p 82 false (announceMsg n p s) s), ?_⟩
  show execGmAnnounceSyncTx n p s = _
  unfold execGmAnnounceSyncTx
  dsimp only
  rw [decide_eq_true hann, decide_eq_true hsyn]
  refine named_act (by rw [decide_eq_true hn, decide_eq_true hp]; rfl) ?_
  rw [hgm, hon, hup, hquiet]
  rfl

/-- The row of a copy that the engine holds (R311). -/
theorem copyRow_of_held {c : PtpCopy} {i : PtpKind} (hmem : c ∈ s.tim.inbox) (hkind : c.msg.kind = i)
    (eff : State → State) : copyRow i c s eff =
      .next (eff { s with tim := { s.tim with inbox := s.tim.inbox.erase c } }) := by
  unfold copyRow
  rw [List.contains_iff_mem.mpr hmem, hkind, beq_self_eq_true]
  rfl

/-- The Delay_Resp of a grandmaster (R308). -/
def respMsg (c : PtpCopy) (n ts : Nat) (s : State) : PtpMsg :=
  { ptpFrom n c.port s with
    kind := .delayResp, messageType := 9, seq := c.msg.seq, corr := c.msg.corr, origin := tbNs (tbOf n s) ts
    logInt := tbLog (tbOf n s) 2, reqClock := c.msg.clock, reqPort := c.msg.portNum }

theorem takeDelayReq_of_master {c : PtpCopy} {ts : Nat} (hts : c.ts = some ts) (hgm : gmActive (tbOf n s) = true)
    (hup : portUp c.port s = true) (hquiet : quietNow (tbOf n s) c.port s = false) : takeDelayReq c n s =
      sendPtp n c.port (ptpFrame c.port 72 (tbUdp4 (tbOf n s)) false false (respMsg c n ts s)) none s := by
  unfold takeDelayReq
  rw [hts]
  dsimp only
  rw [hgm, hup, hquiet]
  rfl

theorem exec_delayReqRx_of_one {c : PtpCopy} (hmem : c ∈ s.tim.inbox) (hkind : c.msg.kind = .delayReq)
    (hone : users c s = [n]) : exec (.delayReqRx c) s =
      .next (takeDelayReq c n { s with tim := { s.tim with inbox := s.tim.inbox.erase c } }) := by
  refine (copyRow_of_held hmem hkind _).trans ?_
  generalize ht : ({ s with tim := { s.tim with inbox := s.tim.inbox.erase c } } : State) = t
  have hlist : users c t = [n] := by
    rw [← ht]
    exact hone
  rw [hlist]
  rfl

/-! ### Peer delay (R310) -/

theorem failPdelay_of_failed (h : pdelayFailed p s = true) :
    failPdelay p s = countTs p 6 (setPort p { portOf p s with pdelay := none } s) := if_pos h

theorem failPdelay_of_not (h : pdelayFailed p s = false) : failPdelay p s = s := if_neg (by rw [h]; decide)

/-- What a failed request leaves (R310). -/
theorem failPdelay_spec (p : Nat) (s : State) : (failPdelay p s).clk = s.clk ∧
    (failPdelay p s).tim.tsCnt = if pdelayFailed p s then bump s.tim.tsCnt (p * 7 + 6) else s.tim.tsCnt := by
  cases h : pdelayFailed p s
  · rw [failPdelay_of_not h]
    exact ⟨rfl, rfl⟩
  · rw [failPdelay_of_failed h]
    exact ⟨rfl, rfl⟩

/-- The Pdelay_Req of a port (R310). -/
def pdelayMsg (p : Nat) (s : State) : PtpMsg :=
  { kind := .pdelayReq, messageType := 2, domain := bits s.tim.pdly.toNat 15 8, seq := (portOf p s).pdelaySeq
    clock := clockId 0, portNum := p + 1, logInt := 127 }

/-- A port after its Pdelay_Req (R310). -/
def pdelayAsked (x : Port) (next : Nat) : Port :=
  { x with pdelay := some (x.pdelaySeq, none), pdelaySeq := (x.pdelaySeq + 1) % 65536, pdelayAt := next }

theorem exec_pdelayReqTx_of_due (hp : p < 48) (hen : s.tim.pdly.getLsbD 0 = true) (hup : portUp p s = true)
    (hdue : (portOf p s).pdelayAt ≤ s.clk.frc) : exec (.pdelayReqTx p) s =
      .next (sendPtp 0 p (ptpFrame p 72 false true true (pdelayMsg p s)) none
        (setPort p (pdelayAsked (portOf p s) (s.clk.frc + logNs (pdlyLog s))) (failPdelay p s))) := by
  show execPdelayReqTx p s = _
  unfold execPdelayReqTx
  dsimp only
  refine named_act (decide_eq_true hp) ?_
  rw [hup, decide_eq_true hdue, show tbit s.tim.pdly.toNat 0 = s.tim.pdly.getLsbD 0 from rfl, hen]
  rfl

/-- The Pdelay_Resp of a port (R310). -/
def pdelayRespMsg (c : PtpCopy) : PtpMsg :=
  { kind := .pdelayResp, messageType := 3, domain := c.msg.domain, seq := c.msg.seq, clock := clockId 0
    portNum := c.port + 1, logInt := 127, reqClock := c.msg.clock, reqPort := c.msg.portNum }

theorem exec_pdelayReqRx_of_up {c : PtpCopy} {ts : Nat} (hmem : c ∈ s.tim.inbox) (hkind : c.msg.kind = .pdelayReq)
    (hts : c.ts = some ts) (hen : s.tim.pdly.getLsbD 1 = true) (hup : portUp c.port s = true) :
    exec (.pdelayReqRx c) s = .next (sendPtp 0 c.port (ptpFrame c.port 72 false true true (pdelayRespMsg c)) (some ts)
      (countTs c.port 5 { s with tim := { s.tim with inbox := s.tim.inbox.erase c } })) := by
  refine (copyRow_of_held hmem hkind _).trans ?_
  dsimp only
  rw [hts, if_pos ?_]
  · rfl
  · rw [show tbit s.tim.pdly.toNat 1 = s.tim.pdly.getLsbD 1 from rfl, hen]
    exact (Bool.and_true _).trans ((Bool.true_and _).trans hup)

theorem exec_pdelayRespRx_of_open {c : PtpCopy} {q t1 t4 : Nat} (hmem : c ∈ s.tim.inbox)
    (hkind : c.msg.kind = .pdelayResp) (hopen : (portOf c.port s).pdelay = some (q, some t1))
    (hlive : s.clk.frc < (portOf c.port s).pdelayAt) (hts : c.ts = some t4) (hseq : c.msg.seq = q)
    (hclock : c.msg.reqClock = clockId 0) (hport : c.msg.reqPort = c.port + 1) :
    exec (.pdelayRespRx c) s = .next (eachTb noteVals (List.range 4) (setPort c.port { portOf c.port s with
        delays := last4 ((portOf c.port s).delays ++ [roundDiv ((t4 : Int) - t1 - c.msg.corr) 2]), pdelay := none }
      { s with tim := { s.tim with inbox := s.tim.inbox.erase c } })) := by
  show execPdelayRespRx c s = _
  unfold execPdelayRespRx
  rw [copyRow_of_held hmem hkind]
  generalize hw : ({ s with tim := { s.tim with inbox := s.tim.inbox.erase c } } : State) = w
  have hsame : portOf c.port w = portOf c.port s ∧ w.clk = s.clk := by
    rw [← hw]
    exact ⟨rfl, rfl⟩
  have hfail : pdelayFailed c.port w = false := by
    rw [pdelayFailed, hsame.1, hsame.2, decide_eq_false (by omega), Bool.and_false]
  rw [failPdelay_of_not hfail]
  dsimp only
  rw [hsame.1, hopen, hts]
  dsimp only
  rw [hseq, hclock, hport, beq_self_eq_true, beq_self_eq_true, beq_self_eq_true]
  rfl

/-! ### The loss of the source (R304, R305) -/

/-- A step that judges the masters of time base `n` anew, and leaves what its source and its time rest on. -/
structure Judged (n : Nat) (s t : State) : Prop where
  frame : t = { s with tim := { s.tim with bases := t.tim.bases, cnt := t.tim.cnt, ppsHigh := t.tim.ppsHigh } }
  base : ∃ r w, tbOf n t = { tbOf n s with master := r, syncWait := w }
  others : ∀ k, k ≠ n → tbOf k t = tbOf k s

theorem judged_refl (n : Nat) (s : State) : Judged n s s := ⟨rfl, ⟨_, _, rfl⟩, fun _ _ => rfl⟩

theorem Judged.setTb {r : Option (Nat × Nat × Nat)} (h : Judged n s t) :
    Judged n s (setTb n { tbOf n t with master := r } t) := by
  obtain ⟨m, w, hbase⟩ := h.base
  refine ⟨?_, ⟨r, w, by rw [tbOf_setTb, hbase]⟩, fun k hk => (tbOf_setTb_other hk _ t).trans (h.others k hk)⟩
  obtain ⟨b, y, heq⟩ : ∃ b y, Machine.setTb n { tbOf n t with master := r } t =
      { t with tim := { t.tim with bases := b, ppsHigh := y } } := ⟨_, _, rfl⟩
  rw [heq]
  conv_lhs => rw [h.frame]

/-- Syncs that cannot be used any more leave the master, and every counter but theirs (R301). -/
theorem lapse_spec (n : Nat) (all : Bool) (s : State) : Judged n s (lapse n all s) ∧
    (∃ w, tbOf n (lapse n all s) = { tbOf n s with syncWait := w }) ∧
    ∀ i, i ≠ 1 → lookD (lapse n all s).tim.cnt (n * 9 + i) 0 = lookD s.tim.cnt (n * 9 + i) 0 := by
  unfold lapse
  dsimp only
  generalize (tbOf n s).syncWait.filter _ = gone
  split
  · exact ⟨judged_refl n s, ⟨_, rfl⟩, fun _ _ => rfl⟩
  · generalize (tbOf n s).syncWait.filter _ = w
    have hbase : tbOf n (addTb n 1 gone.length (Machine.setTb n { tbOf n s with syncWait := w } s)) =
        { tbOf n s with syncWait := w } := tbOf_setTb n _ s
    exact ⟨⟨rfl, ⟨_, _, hbase⟩, fun k hk => tbOf_setTb_other hk _ s⟩, ⟨_, hbase⟩,
      fun i hi => lookD_bumpBy_other _ _ (by omega)⟩

/-- The selected master is the best qualified one (R304). -/
theorem selectMaster_of_current (h : (tbOf n s).master = (bestMaster (tbOf n s) s.clk.frc).map masterName) :
    selectMaster n s = Machine.setTb n { tbOf n s with master := (tbOf n s).master } s := by
  unfold selectMaster
  dsimp only
  rw [h]
  cases hbest : bestMaster (tbOf n s) s.clk.frc with
  | none =>
    dsimp only [Option.map_none]
    rw [if_pos (by rfl), hbest]
  | some f =>
    dsimp only [Option.map_some]
    rw [if_pos (by rw [sameMaster, beq_self_eq_true, beq_self_eq_true]; rfl), hbest]
    dsimp only
    rw [if_pos (by rw [sameMaster, beq_self_eq_true, beq_self_eq_true]; rfl)]

/-- Without a qualified master none is selected (R304). -/
theorem selectMaster_of_none (h : bestMaster (tbOf n s) s.clk.frc = none) : Judged n s (selectMaster n s) := by
  obtain ⟨hjudged, ⟨w, hbase⟩, -⟩ := lapse_spec n true s
  unfold selectMaster
  dsimp only
  rw [h]
  dsimp only [Option.map_none]
  cases hr : (tbOf n s).master with
  | none =>
    dsimp only
    rw [if_pos (by rfl), h]
    exact (judged_refl n s).setTb
  | some r =>
    dsimp only
    have hbest : bestMaster (tbOf n (lapse n true s)) (lapse n true s).clk.frc = none := by
      rw [hbase, hjudged.frame]
      exact h
    rw [if_neg (by nofun), hbest]
    exact hjudged.setTb

/-- The selection of another master than before, in the state that the change left (R304). -/
def changeMaster (n : Nat) (f : Foreign) (s : State) : State :=
  tbEvent 0x0505 n [] (some 1) (latchTb 4 n (addTb n 3 1 (Machine.setTb n { tbOf n s with
    master := some (masterName f), delays := [], syncM := none, e2e := none, syncAt := s.clk.frc, syncLog := 0 } s)))

theorem selectMaster_of_same {f : Foreign} {r : Nat × Nat × Nat} (h : bestMaster (tbOf n s) s.clk.frc = some f)
    (hr : (tbOf n s).master = some r) (hsame : sameMaster r (masterName f) = true) :
    selectMaster n s = Machine.setTb n { tbOf n s with master := some (masterName f) } s := by
  unfold selectMaster
  dsimp only
  rw [h, hr]
  dsimp only [Option.map_some]
  rw [if_pos hsame, h]
  dsimp only
  rw [if_pos hsame]

theorem selectMaster_of_change {f : Foreign} (h : bestMaster (tbOf n s) s.clk.frc = some f)
    (hsame : ((tbOf n s).master.any fun m => sameMaster m (masterName f)) = false) :
    selectMaster n s = changeMaster n f (lapse n true s) := by
  obtain ⟨hjudged, ⟨w, hbase⟩, -⟩ := lapse_spec n true s
  have hbest : bestMaster (tbOf n (lapse n true s)) (lapse n true s).clk.frc = some f := by
    rw [hbase, hjudged.frame]
    exact h
  unfold selectMaster
  dsimp only
  rw [h]
  cases hr : (tbOf n s).master with
  | none =>
    dsimp only [Option.map_some]
    rw [if_neg (by nofun), hbest]
    dsimp only
    rw [if_neg (by nofun)]
    rfl
  | some r =>
    rw [hr] at hsame
    have hno : ¬ sameMaster r (masterName f) = true := by
      rw [show sameMaster r (masterName f) = false from hsame]
      decide
    dsimp only [Option.map_some]
    rw [if_neg hno, hbest]
    dsimp only
    rw [if_neg hno]
    rfl

/-- The best qualified master is selected; another one than before is a change (R304). -/
theorem selectMaster_of_best {f : Foreign} (h : bestMaster (tbOf n s) s.clk.frc = some f) :
    (tbOf n (selectMaster n s)).master = some (masterName f) ∧
    (((tbOf n s).master.any fun m => sameMaster m (masterName f)) = false →
      (selectMaster n s).tim.evt.getLsbD 4 = true ∧
      lookD (selectMaster n s).tim.cnt (n * 9 + 3) 0 = (lookD s.tim.cnt (n * 9 + 3) 0 + 1) % 2 ^ 64) ∧
    (((tbOf n s).master.any fun m => sameMaster m (masterName f)) = true →
      lookD (selectMaster n s).tim.cnt (n * 9 + 3) 0 = lookD s.tim.cnt (n * 9 + 3) 0) := by
  cases hsame : (tbOf n s).master.any fun m => sameMaster m (masterName f)
  · rw [selectMaster_of_change h hsame]
    obtain ⟨-, -, hcounts⟩ := lapse_spec n true s
    generalize lapse n true s = v at hcounts
    refine ⟨congrArg TBase.master (tbOf_setTb n _ v), fun _ => ⟨getLsbD_latch_self _ (by decide), ?_⟩, nofun⟩
    exact (lookD_bumpBy_self v.tim.cnt (n * 9 + 3) 1).trans (by rw [hcounts 3 (by decide)])
  · obtain ⟨r, hr, hname⟩ := (Option.any_eq_true _ _).mp hsame
    rw [selectMaster_of_same h hr hname]
    exact ⟨congrArg TBase.master (tbOf_setTb n _ s), nofun, fun _ => rfl⟩

/-- A time base whose source is lost while it is LOCKED, in HOLDOVER (R305). -/
def holdover (n : Nat) (b : TBase) (s : State) : State :=
  tbEvent 0x0506 n [] (some 1) (latchTb 3 n (Machine.setTb n { b with acq := .holdover, holdAt := s.clk.frc } s))

/-- The masters of a time base are judged anew where it has a master to follow (R304, R305). -/
def rejudged (n : Nat) (s : State) : State := if tbSource (tbOf n s) = 1 then selectMaster n s else s

theorem exec_sourceLoss_of_due (hn : n < 4) (hen : (tbOf n s).en ≠ .off) (hcfg : (tbOf n s).cfg ≠ none)
    (hdue : (sourceLost (tbOf n s) s || masterStale (tbOf n s) s) = true) :
    exec (.sourceLoss n) s = .next
      (if (tbOf n (rejudged n s)).acq == .locked && sourceLost (tbOf n (rejudged n s)) (rejudged n s) then
        tbEvent 0x0506 n [] (some 1) (latchTb 3 n (Machine.setTb n
          { tbOf n (rejudged n s) with acq := .holdover, holdAt := s.clk.frc } (rejudged n s)))
      else rejudged n s) := by
  refine named_act (decide_eq_true hn) ?_
  rw [hdue, bne_iff_ne.mpr hen, Option.isSome_iff_ne_none.mpr hcfg]
  rfl

theorem sourceLost_of_judged (h : Judged n s t) : sourceLost (tbOf n t) t = sourceLost (tbOf n s) s := by
  obtain ⟨r, w, hbase⟩ := h.base
  rw [hbase, h.frame]
  rfl

/-- A source that is lost while no other master takes over is judged lost (R304, R305). -/
theorem judged_rejudged
    (h : bestMaster (tbOf n s) s.clk.frc = none ∨ masterStale (tbOf n s) s = false) : Judged n s (rejudged n s) := by
  unfold rejudged
  split
  · next hsrc =>
    obtain h | h := h
    · exact selectMaster_of_none h
    · rw [selectMaster_of_current]
      · exact (judged_refl n s).setTb
      · rw [masterStale, hsrc, beq_self_eq_true, Bool.true_and] at h
        exact of_not_not fun hne => Bool.false_ne_true (h.symm.trans (bne_iff_ne.mpr hne))
  · exact judged_refl n s

/-- Settles O44: every message through its row, whose frame the queue takes where its minimum has room; the loss of a
source through the judgement of the masters. -/
theorem timeMessagesAndHoldover : Obligations.TimeMessagesAndHoldover := by
  unfold Obligations.TimeMessagesAndHoldover
  refine ⟨fun n m s hn hmaster hen hsrc hp2p hdue => ?_, fun n p s hn hp hgm hon hup hquiet hann hsyn => ?_,
    fun c n ts s hmem hp hkind hone hts hgm hup hquiet hroom => ?_, fun p s hp hen hup hdue => ?_,
    fun c ts s hmem hp hkind hts hen hup hroom => ?_,
    fun c q t1 t4 s hmem hkind hopen hlive hts hseq hclock hport =>
      exec_pdelayRespRx_of_open hmem hkind hopen hlive hts hseq hclock hport,
    fun n s hn hen hcfg hlost hacq hbest harb => ?_, fun n f s hn hen hcfg hstale hbest => ?_⟩
  · obtain ⟨v, msg, hv, hexec⟩ := exec_delayReqTx_of_due hn hmaster hen hsrc hp2p hdue
    generalize hb : ({ tbOf n s with e2e := _, nextDreq := _ } : TBase) = b at hexec
    generalize hw : Machine.setTb n b { s with free := s.free + 1 } = w at hexec
    have hsent := sentPtp_sendFrom n m.2.2 64 true msg w
    have hbase := hsent.base n
    have hwb : tbOf n w = b := by rw [← hw, tbOf_setTb]
    have hts : w.tim.tsCnt = s.tim.tsCnt := by
      rw [← hw]
      rfl
    rw [tbOf_setTb, hwb] at hbase
    refine ⟨_, hexec, ?_, ?_, ?_, ?_, ?_⟩
    · rw [hbase, ← hb]
    · rw [hbase, ← hb]
    · rw [hbase, ← hb]
      exact Nat.le_add_right _ _
    · rw [hbase, ← hb]
      exact Nat.add_le_add_left hv _
    · rw [hsent.tim]
      exact (lookD_bump_self _ _).trans (by rw [← hts]; rfl)
  · obtain ⟨m1, m2, hexec⟩ := exec_gmAnnounceSyncTx_of_due hn hp hgm hon hup hquiet hann hsyn
    have hsent1 := sentPtp_sendFrom n p 82 false m1 s
    generalize sendFrom n p 82 false m1 s = v at hexec hsent1
    have hsent2 := sentPtp_sendFrom n p 64 true m2 v
    generalize sendFrom n p 64 true m2 v = w at hexec hsent2
    have hv := hsent1.base n
    have hw := hsent2.base n
    rw [tbOf_setTb] at hv hw
    refine ⟨_, hexec, ?_, ?_, ?_⟩
    · rw [setDue, tbOf_setTb]
      exact look_put_self _ _ _
    · rw [setDue, tbOf_setTb, hw, hv]
      dsimp only
      omega
    · show lookD w.tim.tsCnt (p * 7 + 3) 0 = _
      rw [hsent2.tim]
      refine (lookD_bump_self _ _).trans ?_
      show (lookD v.tim.tsCnt (p * 7 + 3) 0 + 1) % 2 ^ 64 = _
      rw [hsent1.tim]
      refine (congrArg (fun x => (x + 1) % 2 ^ 64) (lookD_bump_self _ _)).trans ?_
      show ((lookD s.tim.tsCnt (p * 7 + 3) 0 + 1) % 2 ^ 64 + 1) % 2 ^ 64 = _
      omega
  · have hexec := exec_delayReqRx_of_one hmem hkind hone
    generalize hw : ({ s with tim := { s.tim with inbox := s.tim.inbox.erase c } } : State) = w at hexec
    have hinbox : w.tim.inbox = s.tim.inbox.erase c := by rw [← hw]
    have hqueue : occQ (c.port * 8 + 7) w = occQ (c.port * 8 + 7) s ∧ queueAt (c.port * 8 + 7) w = queueAt (c.port * 8 + 7) s := by
      rw [← hw]
      exact ⟨rfl, rfl⟩
    have hbase : tbOf n w = tbOf n s := by
      rw [← hw]
      rfl
    have hup' : portUp c.port w = true := by
      rw [← hw]
      exact hup
    rw [takeDelayReq_of_master hts (by rw [hbase]; exact hgm) hup' (by rw [hbase, ← hw]; exact hquiet)] at hexec
    generalize hf : ptpFrame c.port 72 (tbUdp4 (tbOf n w)) false false (respMsg c n ts w) = f at hexec
    have hlen : f.len ≤ 128 := by
      rw [← hf]
      unfold ptpFrame
      dsimp only
      split <;> omega
    have hbody : f.body = .ptp (respMsg c n ts w) ∨ f.body = .udp4 320 0 (some (respMsg c n ts w)) := by
      rw [← hf]
      exact (ite_eq_or_eq _ _ _).symm
    refine ⟨_, { frame := f, info := { src := 50, flow := BitVec.ofNat 32 n } }, respMsg c n ts w, hexec, ?_, ?_, hbody, rfl, rfl, ?_, rfl, rfl, rfl⟩
    · rw [(sentPtp_sendPtp ..).tim]
      exact hinbox
    · rw [sendPtp_of_room hup' (by rw [hqueue.1, hqueue.2]; exact hroom f hlen), hqueue.2]
    · exact congrArg (tbNs · ts) hbase
  · have hexec := exec_pdelayReqTx_of_due hp hen hup hdue
    obtain ⟨-, hcnt⟩ := failPdelay_spec p s
    generalize failPdelay p s = v at hexec hcnt
    generalize hw : setPort p (pdelayAsked (portOf p s) (s.clk.frc + logNs (pdlyLog s))) v = w at hexec
    have hport : portOf p w = pdelayAsked (portOf p s) (s.clk.frc + logNs (pdlyLog s)) := by rw [← hw, portOf_setPort]
    have hwcnt : w.tim.tsCnt = v.tim.tsCnt := by
      rw [← hw]
      rfl
    have hsent := sentPtp_sendPtp 0 p (ptpFrame p 72 false true true (pdelayMsg p s)) none w
    obtain ⟨a, b, hkept⟩ := hsent.ports p
    rw [hport] at hkept
    refine ⟨_, hexec, by rw [hkept]; rfl, by rw [hkept]; rfl, by rw [hkept]; rfl, ?_⟩
    rw [hsent.tim]
    refine (lookD_bump_other _ (by omega)).trans ?_
    rw [hwcnt, hcnt, pdelayFailed, decide_eq_true hdue, Bool.and_true]
    split
    · exact lookD_bump_self _ _
    · rfl
  · have hexec := exec_pdelayReqRx_of_up hmem hkind hts hen hup
    generalize hw : countTs c.port 5 { s with tim := { s.tim with inbox := s.tim.inbox.erase c } } = w at hexec
    have hinbox : w.tim.inbox = s.tim.inbox.erase c ∧ w.tim.tsCnt = bump s.tim.tsCnt (c.port * 7 + 5) := by
      rw [← hw]
      exact ⟨rfl, rfl⟩
    have hqueue : occQ (c.port * 8 + 7) w = occQ (c.port * 8 + 7) s ∧ queueAt (c.port * 8 + 7) w = queueAt (c.port * 8 + 7) s := by
      rw [← hw]
      exact ⟨rfl, rfl⟩
    have hup' : portUp c.port w = true := by
      rw [← hw]
      exact hup
    have hsent := sentPtp_sendPtp 0 c.port (ptpFrame c.port 72 false true true (pdelayRespMsg c)) (some ts) w
    refine ⟨_, { frame := ptpFrame c.port 72 false true true (pdelayRespMsg c)
                 info := { src := 50, flow := BitVec.ofNat 32 0, ts := some ts } }, pdelayRespMsg c, hexec, ?_, ?_, ?_, rfl, rfl, rfl, rfl, rfl, rfl⟩
    · rw [hsent.tim]
      exact hinbox.1
    · rw [hsent.tim]
      refine (lookD_bump_other _ (by omega)).trans ?_
      rw [hinbox.2]
      exact lookD_bump_self _ _
    · rw [sendPtp_of_room hup' (by rw [hqueue.1, hqueue.2]; exact hroom _ (show 72 + 0 ≤ 128 by decide)), hqueue.2]
  · have hexec := exec_sourceLoss_of_due hn hen hcfg (by rw [hlost]; rfl)
    have hjudged := judged_rejudged hbest
    have hlost' := sourceLost_of_judged hjudged
    generalize rejudged n s = v at hexec hjudged hlost'
    obtain ⟨r, w, hbase⟩ := hjudged.base
    rw [if_pos (by rw [hlost', hlost, hbase, hacq]; rfl)] at hexec
    generalize hb : ({ tbOf n v with acq := _, holdAt := _ } : TBase) = b at hexec
    have hfin : tbOf n (tbEvent 0x0506 n [] (some 1) (latchTb 3 n (Machine.setTb n b v))) = b := tbOf_setTb n b v
    have hrst : v.rst = s.rst ∧ v.arb = s.arb := by
      rw [hjudged.frame]
      exact ⟨rfl, rfl⟩
    refine ⟨_, hexec, ?_, ?_, ?_, getLsbD_latch_self _ (by decide), ?_,
      fun k hk => (tbOf_setTb_other hk b v).trans (hjudged.others k hk)⟩
    · rw [hfin, ← hb]
    · rw [hfin, ← hb]
    · rw [hfin, ← hb, hbase]
    · have hosn := raise_osn (e := { src := 9, code := 0x0506, kind := 6, index := n, data := [], sev := some 1 })
        (s := latchTb 3 n (Machine.setTb n b v)) ((arbHeld_congr hrst.1).trans harb)
      have harb' : (latchTb 3 n (Machine.setTb n b v)).arb.osn = s.arb.osn := congrArg Arb.osn hrst.2
      exact Nat.lt_of_lt_of_eq (Nat.lt_succ_self _) ((congrArg (· + 1) harb').symm.trans hosn.symm)
  · have hexec := exec_sourceLoss_of_due hn hen hcfg (by rw [hstale, Bool.or_true])
    have hsrc : tbSource (tbOf n s) = 1 := by
      rw [masterStale, Bool.and_eq_true] at hstale
      exact eq_of_beq hstale.1
    rw [rejudged, if_pos hsrc] at hexec
    obtain ⟨hmaster, hchange, hsame⟩ := selectMaster_of_best hbest
    generalize selectMaster n s = v at hexec hmaster hchange hsame
    refine ⟨_, hexec, ?_, fun hany => ?_, fun hany => ?_⟩
    · split
      · exact (congrArg TBase.master (tbOf_setTb n _ v)).trans hmaster
      · exact hmaster
    · obtain ⟨hevt, hcnt⟩ := hchange hany
      split
      · refine ⟨?_, hcnt⟩
        show (latch v.tim.evt 3).getLsbD 4 = true
        rw [latch, BitVec.getLsbD_or, hevt]
        rfl
      · exact ⟨hevt, hcnt⟩
    · split
      · exact hsame hany
      · exact hsame hany

end Sys2Proof.Machine
end

section
/-! Proof of the statement on the key commands, the sweeper and the end of an overlap. -/

namespace Sys2Proof.Machine

open Sys2Proof

set_option Elab.async false

variable {c : Cmd} {k j : Nat} {st : KState} {x : KSlot} {s t : State}

/-! ### The store as a table (R425) -/

/-- A table whose keys rise holds what it lists. -/
theorem look_of_mem {α : Type} {t : Tbl α} {v : α} (hrise : keysRise t) (h : (k, v) ∈ t) : look t k = some v := by
  induction t with
  | nil => exact absurd h List.not_mem_nil
  | cons e r ih =>
    obtain ⟨a, w⟩ := e
    obtain ⟨hlow, hrest⟩ := List.pairwise_cons.mp (show ((a, w) :: r |>.map Prod.fst).Pairwise (· < ·) from hrise)
    rw [look]
    obtain heq | hmem := List.mem_cons.mp h
    · obtain ⟨rfl, rfl⟩ := Prod.mk.inj heq
      rw [if_pos rfl]
    · have hlt : a < k := hlow k (List.mem_map.mpr ⟨(k, v), hmem, rfl⟩)
      rw [if_neg (by omega), ih hrest hmem]

theorem slotOf_of_mem (hrise : keysRise s.key.slots) (h : (k, x) ∈ s.key.slots) : slotOf k s = x := by
  rw [slotOf, lookD, look_of_mem hrise h]
  rfl

theorem slotOf_congr (h : t.key.slots = s.key.slots) (k : Nat) : slotOf k t = slotOf k s := by rw [slotOf, slotOf, h]

theorem slotOf_setSlot_other (h : j ≠ k) (x : KSlot) (s : State) : slotOf j (setSlot k x s) = slotOf j s :=
  lookD_put_other _ _ _ h

/-! ### Events of the key store (R445, R448) -/

@[simp] theorem keyEvent_slots (code slot : Nat) (bit sev : Option Nat) (s : State) :
    (keyEvent code slot bit sev s).key.slots = s.key.slots := by
  unfold keyEvent
  cases bit <;> rfl

@[simp] theorem keyEvent_cnt (code slot : Nat) (bit sev : Option Nat) (s : State) :
    (keyEvent code slot bit sev s).key.cnt = s.key.cnt := by
  unfold keyEvent
  cases bit <;> rfl

@[simp] theorem keyEvent_store (code slot : Nat) (bit sev : Option Nat) (s : State) :
    (keyEvent code slot bit sev s).key.store = s.key.store := by
  unfold keyEvent
  cases bit <;> rfl

@[simp] theorem keyEvent_mram (code slot : Nat) (bit sev : Option Nat) (s : State) :
    (keyEvent code slot bit sev s).mram = s.mram := by
  unfold keyEvent
  cases bit <;> rfl

@[simp] theorem keyEvent_gft (code slot : Nat) (bit sev : Option Nat) (s : State) :
    (keyEvent code slot bit sev s).gft = s.gft := by
  unfold keyEvent
  cases bit <;> rfl

theorem keyEvents_keeps (code : Nat) (bit sev : Option Nat) (l : List Nat) (s : State) :
    (keyEvents code bit sev l s).key.slots = s.key.slots ∧ (keyEvents code bit sev l s).key.store = s.key.store ∧
    (keyEvents code bit sev l s).mram = s.mram ∧ (keyEvents code bit sev l s).gft = s.gft := by
  induction l generalizing s with
  | nil => exact ⟨rfl, rfl, rfl, rfl⟩
  | cons k ks ih =>
    obtain ⟨hslots, hstore, hmram, hgft⟩ := ih (keyEvent code k bit sev s)
    exact ⟨hslots.trans (keyEvent_slots ..), hstore.trans (keyEvent_store ..), hmram.trans (keyEvent_mram ..),
      hgft.trans (keyEvent_gft ..)⟩

/-! ### A slot that is no longer usable (R434, R444) -/

/-- What the end of a slot's use leaves of the store. -/
theorem killSlot_slots (k : Nat) (st : KState) (s : State) : (killSlot k st s).key.slots =
    put (s.key.slots.map fun e => if ((rollingInto k s).filter (· != k)).contains e.1 then (e.1, { e.2 with st := .valid })
      else e) k { slotOf k s with st := st } := by
  unfold killSlot
  exact (keyEvents_keeps ..).1

theorem killSlot_keeps (k : Nat) (st : KState) (s : State) : (killSlot k st s).key.store = s.key.store ∧
    (killSlot k st s).mram = s.mram ∧ (killSlot k st s).gft = s.gft := by
  unfold killSlot
  exact (keyEvents_keeps ..).2

theorem keysRise_killSlot (k : Nat) (st : KState) (h : keysRise s.key.slots) : keysRise (killSlot k st s).key.slots := by
  rw [killSlot_slots]
  refine keysRise_put (keysRise_map (fun e => ?_) h)
  split <;> rfl

theorem slotOf_killSlot_self (k : Nat) (st : KState) (s : State) :
    slotOf k (killSlot k st s) = { slotOf k s with st := st } := by
  rw [slotOf, killSlot_slots, lookD_put_self]

/-- Another slot stays, but for an old one that rolls into it, which is VALID again (R444). -/
theorem slotOf_killSlot_other (h : j ≠ k) (hrise : keysRise s.key.slots) (st : KState) :
    slotOf j (killSlot k st s) = slotOf j s ∨
    (rolling (slotOf j s) = true ∧ slotOf j (killSlot k st s) = { slotOf j s with st := .valid }) := by
  rw [slotOf, killSlot_slots, lookD_put_other _ _ _ h, lookD, look_map_entry (fun e => by split <;> rfl)]
  dsimp only
  by_cases hold : ((rollingInto k s).filter (· != k)).contains j = true
  · right
    obtain ⟨e, hmem, hj⟩ := List.mem_map.mp (List.mem_filter.mp (List.contains_iff_mem.mp hold)).1
    obtain ⟨a, x⟩ := e
    obtain ⟨hin, hroll⟩ := List.mem_filter.mp hmem
    obtain rfl : a = j := hj
    have hslot := slotOf_of_mem hrise hin
    rw [look_of_mem hrise hin, hslot, Option.map_some, if_pos hold]
    exact ⟨((Bool.and_eq_true _ _).mp hroll).1, rfl⟩
  · left
    cases hl : look s.key.slots j with
    | none => rw [slotOf, lookD, hl]; rfl
    | some x => rw [slotOf, lookD, hl, Option.map_some, if_neg hold]

theorem slotOf_killSlot_of_not_rolling (h : j ≠ k) (hrise : keysRise s.key.slots) (hno : rolling (slotOf j s) = false)
    (st : KState) : slotOf j (killSlot k st s) = slotOf j s := by
  obtain heq | ⟨hyes, -⟩ := slotOf_killSlot_other h hrise st
  · exact heq
  · exact absurd hyes (by rw [hno]; decide)

theorem slotOf_killSlots_of_not_rolling {l : List Nat} (h : j ∉ l) (hrise : keysRise s.key.slots)
    (hno : rolling (slotOf j s) = false) (st : KState) : slotOf j (killSlots st l s) = slotOf j s := by
  induction l generalizing s with
  | nil => rfl
  | cons i l ih =>
    have hkill := slotOf_killSlot_of_not_rolling (List.ne_of_not_mem_cons h) hrise hno st
    exact (ih (List.not_mem_of_not_mem_cons h) (keysRise_killSlot i st hrise) (by rw [hkill]; exact hno)).trans hkill

/-- Every slot of the list takes the state (R434). -/
theorem st_killSlots {l : List Nat} (h : j ∈ l) (hrise : keysRise s.key.slots)
    (hst : (st == .rollPending || st == .rollOverlap) = false) : (slotOf j (killSlots st l s)).st = st := by
  induction l generalizing s with
  | nil => exact absurd h List.not_mem_nil
  | cons i l ih =>
    have hrise' := keysRise_killSlot i st hrise
    by_cases hmem : j ∈ l
    · exact ih hmem hrise'
    · obtain rfl : j = i := (List.mem_cons.mp h).resolve_right hmem
      have hself := slotOf_killSlot_self j st s
      exact (congrArg KSlot.st ((slotOf_killSlots_of_not_rolling hmem hrise' (by rw [hself]; exact hst) st).trans hself) :)

/-- The Leaves under a Branch, by their slots (R434). -/
theorem mem_leavesOf (hrise : keysRise s.key.slots) :
    j ∈ leavesOf k s ↔ (slotOf j s).level = 2 ∧ (slotOf j s).parent = k ∧ usable (slotOf j s) = true := by
  unfold leavesOf
  refine ⟨fun h => ?_, fun ⟨hlevel, hparent, husable⟩ => ?_⟩
  · obtain ⟨⟨a, x⟩, hmem, hj⟩ := List.mem_map.mp h
    obtain ⟨hin, hcond⟩ := List.mem_filter.mp hmem
    obtain rfl : a = j := hj
    rw [slotOf_of_mem hrise hin]
    simpa [and_assoc] using hcond
  · cases hl : look s.key.slots j with
    | none =>
      rw [slotOf, lookD, hl] at hlevel
      exact absurd hlevel (by decide)
    | some x =>
      have hslot : slotOf j s = x := by rw [slotOf, lookD, hl]; rfl
      rw [hslot] at hlevel hparent husable
      exact List.mem_map.mpr ⟨(j, x), List.mem_filter.mpr ⟨mem_of_look hl, by simp [hlevel, hparent, husable]⟩, rfl⟩

/-- A Branch that is invalidated is INVALIDATED and its Leaves are ORPHANED (R434). -/
theorem invalidateBranch_spec (hrise : keysRise s.key.slots) (hlevel : (slotOf k s).level = 1) :
    (slotOf k (invalidateBranch k s)).st = .invalidated ∧
    ∀ j ∈ leavesOf k s, (slotOf j (invalidateBranch k s)).st = .orphaned := by
  have hslots : (invalidateBranch k s).key.slots = (orphanLeaves k (killSlot k .invalidated s)).key.slots :=
    keyEvent_slots ..
  have hself := slotOf_killSlot_self k .invalidated s
  have hrise' := keysRise_killSlot k .invalidated hrise
  refine ⟨?_, fun j hj => ?_⟩
  · have hno : k ∉ leavesOf k (killSlot k .invalidated s) := fun hmem => by
      have hleaf := ((mem_leavesOf hrise').mp hmem).1
      rw [hself] at hleaf
      exact absurd (hlevel.symm.trans hleaf) (by decide)
    rw [slotOf_congr hslots, orphanLeaves, slotOf_killSlots_of_not_rolling hno hrise' (by rw [hself]; rfl), hself]
  · obtain ⟨hleaf, hparent, husable⟩ := (mem_leavesOf hrise).mp hj
    have hne : j ≠ k := fun heq => by
      rw [heq] at hleaf
      exact absurd (hlevel.symm.trans hleaf) (by decide)
    have hmem : j ∈ leavesOf k (killSlot k .invalidated s) := by
      obtain hsame | ⟨-, hback⟩ := slotOf_killSlot_other hne hrise .invalidated
      · rw [mem_leavesOf hrise', hsame]
        exact ⟨hleaf, hparent, husable⟩
      · rw [mem_leavesOf hrise', hback]
        exact ⟨hleaf, hparent, rfl⟩
    rw [slotOf_congr hslots]
    exact st_killSlots hmem hrise' rfl

/-! ### KEY_LOAD (R429, R430) -/

theorem checkHolds_sealSlot (root : Bytes) (x : KSlot) : checkHolds root (sealSlot root x) = true := by
  have hcheck : ((sealSlot root x).check == slotCheck root (sealSlot root x)) = true := beq_self_eq_true _
  rw [checkHolds, hcheck, Bool.or_true]

theorem killSlots_keeps (st : KState) (l : List Nat) (s : State) : TestKeeps s (killSlots st l s) ∧
    (killSlots st l s).mram = s.mram ∧ (killSlots st l s).gft = s.gft := by
  induction l generalizing s with
  | nil => exact ⟨⟨rfl, rfl, rfl, rfl, rfl, rfl, rfl⟩, rfl, rfl⟩
  | cons k ks ih =>
    obtain ⟨hkeeps, hmram, hgft⟩ := ih (killSlot k st s)
    obtain ⟨-, hmram', hgft'⟩ := killSlot_keeps k st s
    exact ⟨(testKeeps_killSlot k st s).trans hkeeps, hmram.trans hmram', hgft.trans hgft'⟩

/-- A slot that is written holds what was written, with its counters at 0 (R431, R446). -/
theorem writeSlot_spec (k : Nat) (x : KSlot) (s : State) : slotOf k (writeSlot k x s) = x ∧
    (∀ i, i < 7 → lookD (writeSlot k x s).key.cnt (k * 7 + i) 0 = 0) ∧ (writeSlot k x s).mram = s.mram ∧
    (writeSlot k x s).rng = s.rng ∧ (writeSlot k x s).prt = s.prt ∧ (writeSlot k x s).sw = s.sw ∧
    (writeSlot k x s).gft = s.gft := by
  unfold writeSlot
  dsimp only
  generalize hv : (if (slotOf k s).level = 1 then orphanLeaves k s else s) = v
  have hkeeps : TestKeeps s v ∧ v.mram = s.mram ∧ v.gft = s.gft := by
    rw [← hv]
    split
    · exact killSlots_keeps .orphaned (leavesOf k s) s
    · exact ⟨⟨rfl, rfl, rfl, rfl, rfl, rfl, rfl⟩, rfl, rfl⟩
  generalize hw : (if (slotOf k s).level = 1 ∧ (leavesOf k s).length ≠ 0 then keyEvent 0x0602 k (some 1) (some 1) v else v)
    = w
  have hkeeps' : TestKeeps v w ∧ w.mram = v.mram ∧ w.gft = v.gft := by
    rw [← hw]
    split
    · exact ⟨testKeeps_keyEvent .., keyEvent_mram .., keyEvent_gft ..⟩
    · exact ⟨⟨rfl, rfl, rfl, rfl, rfl, rfl, rfl⟩, rfl, rfl⟩
  obtain ⟨⟨hsw, -, -, -, hprt, hrng, -⟩, hmram, hgft⟩ := hkeeps
  obtain ⟨⟨hsw', -, -, -, hprt', hrng', -⟩, hmram', hgft'⟩ := hkeeps'
  refine ⟨lookD_put_self _ _ _ _, fun i hi => ?_, hmram'.trans hmram, hrng'.trans hrng, hprt'.trans hprt, hsw'.trans hsw,
    hgft'.trans hgft⟩
  rw [lookD, look_filter_rejected (p := fun a => a / 7 != k) _ (by rw [show (k * 7 + i) / 7 = k by omega]; simp)]
  rfl

/-- The state in which KEY_LOAD judges its block: the parent of a Leaf is tested (R427). -/
def loadTested (c : Cmd) (s : State) : State :=
  if arg1 c.desc % 4 = 2 then testSlot (bits (arg1 c.desc) 18 8) s else s

theorem effKeyLoad_of_failed
    (h : checks (keyCases c.block (arg1 c.desc % 4) (bits (arg1 c.desc) 18 8) (loadTested c s)) ≠ stOk) :
    effKeyLoad c s =
      (loadTested c s, checks (keyCases c.block (arg1 c.desc % 4) (bits (arg1 c.desc) 18 8) (loadTested c s)), none) :=
  if_pos h

theorem effKeyLoad_of_unwrapped
    (h : checks (keyCases c.block (arg1 c.desc % 4) (bits (arg1 c.desc) 18 8) (loadTested c s)) = stOk) {key : Option Bytes}
    (hkey : unwrapKw (wrapKey (arg1 c.desc % 4) (bits (arg1 c.desc) 18 8) c.block (loadTested c s))
      ((c.block.drop 16).take 40) = key) : effKeyLoad c s = key.elim
        ({ loadTested c s with key := { (loadTested c s).key with store := bump (loadTested c s).key.store 3 } },
          stBadArg, none)
        (fun b => (writeSlot (arg0 c.desc) (loadedSlot (arg1 c.desc % 4) (bits (arg1 c.desc) 18 8) c.block b
          (loadTested c s)) (loadTested c s), stOk, none)) := by
  refine (if_neg (not_not_intro h)).trans ?_
  show (match unwrapKw (wrapKey (arg1 c.desc % 4) (bits (arg1 c.desc) 18 8) c.block (loadTested c s))
    ((c.block.drop 16).take 40) with
    | none => _
    | some key => _) = _
  rw [hkey]
  cases key <;> rfl

/-! ### KEY_INVALIDATE, KEY_QUERY and KEY_ROLLOVER (R434, R443) -/

theorem effKeyInvalidate_of_unusable (hcheck : checkHolds s.mram.root (slotOf (arg0 c.desc) s) = true)
    (h : usable (slotOf (arg0 c.desc) s) = false) :
    effKeyInvalidate c s = (s, notUsableStatus (slotOf (arg0 c.desc) s), none) := by
  unfold effKeyInvalidate
  dsimp only
  rw [testSlot_of_sound hcheck, h]
  rfl

theorem effKeyInvalidate_of_usable (hcheck : checkHolds s.mram.root (slotOf (arg0 c.desc) s) = true)
    (h : usable (slotOf (arg0 c.desc) s) = true) : effKeyInvalidate c s =
      if (slotOf (arg0 c.desc) s).level = 1 then
        (invalidateBranch (arg0 c.desc) s, stOk, some (BitVec.ofNat 32 (leavesOf (arg0 c.desc) s).length))
      else (killSlot (arg0 c.desc) .invalidated s, stOk, some (BitVec.ofNat 32 0)) := by
  unfold effKeyInvalidate
  dsimp only
  rw [testSlot_of_sound hcheck, h]
  rfl

theorem effKeyQuery_of_sound (hcheck : checkHolds s.mram.root (slotOf (arg0 c.desc) s) = true) :
    effKeyQuery c s = (s, stOk, some (BitVec.ofNat 32 (keyWord (slotOf (arg0 c.desc) s)))) := by
  unfold effKeyQuery
  dsimp only
  rw [testSlot_of_sound hcheck]
  rfl

/-- What KEY_ROLLOVER checks of its slots and its time base (R443). -/
def rollCases (c : Cmd) (s : State) : List (Bool × Nat) :=
  let x := slotOf (arg0 c.desc) s
  let y := slotOf (arg1 c.desc % 2048) s
  [(x.st == .valid, notUsableStatus x), (y.st == .valid, notUsableStatus y), (x.level == 2 && y.level == 2, stBadArg),
    (x.alg == y.alg && x.usage == y.usage && x.owner == y.owner && x.part == y.part, stBadArg),
    ((tbOf (bits (arg1 c.desc) 31 30) s).en == .on, stWrongState)]

theorem effKeyRollover_of_sound (hold : checkHolds s.mram.root (slotOf (arg0 c.desc) s) = true)
    (hnew : checkHolds s.mram.root (slotOf (arg1 c.desc % 2048) s) = true) : effKeyRollover c s =
      if checks (rollCases c s) ≠ stOk then (s, checks (rollCases c s), none)
      else (armCmp (bits (arg1 c.desc) 31 30) (leAt c.block 0 8) (.rollover (arg0 c.desc))
        (setSlot (arg0 c.desc) { slotOf (arg0 c.desc) s with st := .rollPending, succ := arg1 c.desc % 2048 } s),
          stOk, none) := by
  unfold effKeyRollover
  dsimp only
  rw [testSlot_of_sound hold, testSlot_of_sound hnew]
  rfl

theorem notUsableStatus_ne_ok (x : KSlot) : notUsableStatus x ≠ stOk := by
  unfold notUsableStatus
  split
  · decide
  · split <;> decide

/-! ### The sweeper and the end of an overlap (R427, R443) -/

theorem exec_keySweep_of_running (hk : k < 2048) (hcold : coldHeld s = false) : exec (.keySweep k) s =
    .next (if k = 2047 then { testSlot k s with key := { (testSlot k s).key with store := bump (testSlot k s).key.store 2 } }
      else testSlot k s) :=
  named_act (decide_eq_true hk) (by rw [hcold]; rfl)

/-- A slot whose check fails is BAD and counted (R427). -/
theorem foundBad_spec (k : Nat) (s : State) : (slotOf k (foundBad k s)).st = .bad ∧
    (foundBad k s).key.store = bump s.key.store 1 ∧ (foundBad k s).key.evt.getLsbD 0 = true := by
  obtain ⟨hstore, -, -⟩ := killSlot_keeps k .bad s
  have hself := slotOf_killSlot_self k .bad s
  unfold foundBad
  dsimp only
  generalize killSlot k .bad s = v at hstore hself
  refine ⟨(congrArg KSlot.st hself :), ?_, getLsbD_latch_self _ (by decide)⟩
  exact congrArg (bump · 1) hstore

/-- The old slot of a rollover that ends, with no key (R443). -/
def rolledSlot (k : Nat) (s : State) : KSlot :=
  sealSlot s.mram.root { slotOf k s with
    st := .rolled, key := [], block := [], succ := resolveSlot (slotOf k s).succ s }

theorem slotOf_rollSlot_self (k : Nat) (s : State) : slotOf k (rollSlot k s) = rolledSlot k s := lookD_put_self _ _ _ _

theorem slotOf_rollSlot_other (h : j ≠ k) (hst : (slotOf j s).st ≠ .rolled) :
    slotOf j (rollSlot k s) = slotOf j s := by
  unfold rollSlot
  dsimp only
  generalize resolveSlot (slotOf k s).succ s = n
  rw [slotOf, lookD_put_other _ _ _ h, lookD, look_map_entry (fun e => by split <;> rfl)]
  dsimp only
  cases hl : look s.key.slots j with
  | none =>
    rw [slotOf, lookD, hl]
    rfl
  | some x =>
    have hslot : slotOf j s = x := by rw [slotOf, lookD, hl]; rfl
    rw [hslot] at hst ⊢
    rw [Option.map_some, if_neg (by simp [hst])]
    rfl

/-- Settles O46: each key command through its effect on tested slots; the sweeper through `foundBad`, the end of an
overlap through `rollSlot`. -/
theorem keysSweepAndOverlap : Obligations.KeysSweepAndOverlap := by
  unfold Obligations.KeysSweepAndOverlap
  refine ⟨fun c s h => ?_, fun c s h => ?_, fun c key s h => ?_, fun c s h hcheck husable => ?_,
    fun c s h hrise hcheck husable => ?_, fun c s h hcheck => ?_, fun c s h hold hnew hst => ?_, fun c s h => ?_,
    fun k s hk hcold => ?_, fun k s hk hcold => ?_, fun k s hk hst hend harb => ?_⟩
  · intro lvl parent v hst
    exact (runNow_of_ready h rfl (judgeCmd_keyLoad s)).trans (by rw [effKeyLoad_of_failed hst]; rfl)
  · intro lvl parent v hst hkey
    exact (runNow_of_ready h rfl (judgeCmd_keyLoad s)).trans (by rw [effKeyLoad_of_unwrapped hst hkey]; rfl)
  · intro k lvl parent v hst hkey
    have hexec : exec (.keyLoad c) s = .next (complete c (effKeyLoad c s)) := runNow_of_ready h rfl (judgeCmd_keyLoad s)
    rw [effKeyLoad_of_unwrapped hst hkey] at hexec
    obtain ⟨hslot, hcnt, hmram, hrng, hprt, hsw, hgft⟩ := writeSlot_spec k (loadedSlot lvl parent c.block key v) v
    refine ⟨_, hexec, hslot, ?_, ?_, ?_, hcnt, hrng, hprt, hsw, hgft⟩
    · exact congrArg KSlot.st hslot
    · exact congrArg KSlot.key hslot
    · have hroot : checkHolds v.mram.root (loadedSlot lvl parent c.block key v) = true := checkHolds_sealSlot ..
      rw [← hslot, ← hmram] at hroot
      exact hroot
  · exact (runNow_of_ready h rfl (judgeCmd_keyInvalidate s)).trans (by rw [effKeyInvalidate_of_unusable hcheck husable])
  · intro k n
    have hexec : exec (.keyInvalidate c) s = .next (complete c (effKeyInvalidate c s)) :=
      runNow_of_ready h rfl (judgeCmd_keyInvalidate s)
    rw [effKeyInvalidate_of_usable hcheck husable] at hexec
    by_cases hlevel : (slotOf k s).level = 1
    · rw [if_pos hlevel] at hexec
      obtain ⟨hself, hleaves⟩ := invalidateBranch_spec hrise hlevel
      refine ⟨_, hexec.trans ?_, hself, fun _ => hleaves⟩
      rw [show n = (leavesOf k s).length from if_pos hlevel]
    · rw [if_neg hlevel] at hexec
      refine ⟨_, hexec.trans ?_, congrArg KSlot.st (slotOf_killSlot_self k .invalidated s), fun hyes => absurd hyes hlevel⟩
      rw [show n = 0 from if_neg hlevel]
  · exact (runNow_of_ready h rfl (judgeCmd_keyQuery s)).trans (by rw [effKeyQuery_of_sound hcheck])
  · have hcases : checks (rollCases c s) = notUsableStatus (slotOf (arg0 c.desc) s) := by
      unfold rollCases
      exact if_neg (by simpa using hst)
    refine (runNow_of_ready h rfl (judgeCmd_keyRollover s)).trans ?_
    rw [effKeyRollover_of_sound hold hnew, hcases, if_pos (notUsableStatus_ne_ok _)]
  · intro k n hold hnew hst hst' hlevel hlevel' halg husage howner hpart hon
    have hexec : exec (.keyRollover c) s = .next (complete c (effKeyRollover c s)) :=
      runNow_of_ready h rfl (judgeCmd_keyRollover s)
    have hcases : checks (rollCases c s) = stOk := by
      show checks [((slotOf k s).st == .valid, _), ((slotOf n s).st == .valid, _),
        ((slotOf k s).level == 2 && (slotOf n s).level == 2, _),
        ((slotOf k s).alg == (slotOf n s).alg && (slotOf k s).usage == (slotOf n s).usage &&
          (slotOf k s).owner == (slotOf n s).owner && (slotOf k s).part == (slotOf n s).part, _),
        ((tbOf (bits (arg1 c.desc) 31 30) s).en == .on, _)] = _
      simp [hst, hst', hlevel, hlevel', halg, husage, howner, hpart, hon, checks, stOk]
    rw [effKeyRollover_of_sound hold hnew, hcases, if_neg (not_not_intro rfl)] at hexec
    exact ⟨_, hexec, lookD_put_self _ _ _ _, rfl, fun j hj => slotOf_setSlot_other hj _ s⟩
  · show named _ (act _ _ _) = _
    rw [decide_eq_true hk, hcold]
    rfl
  · refine ⟨_, exec_keySweep_of_running hk hcold, ?_⟩
    have hstore : lookD (testSlot k s).key.store 2 0 = lookD s.key.store 2 0 := by
      rw [testSlot]
      split
      · rfl
      · rw [(foundBad_spec k s).2.1]
        exact lookD_bump_other _ (by decide)
    have hlap : ∀ t : State, (if k = 2047 then { t with key := { t.key with store := bump t.key.store 2 } } else t) =
        { t with key := { t.key with store := if k = 2047 then bump t.key.store 2 else t.key.store } } := by
      intro t
      split <;> rfl
    have hcount (l : Tbl Nat) : lookD (if k = 2047 then bump l 2 else l) 1 0 = lookD l 1 0 := by
      split
      · exact lookD_bump_other _ (by decide)
      · rfl
    rw [hlap]
    refine ⟨?_, ?_⟩
    · rw [← hstore]
      dsimp only
      split
      · exact lookD_bump_self _ _
      · rfl
    · cases hcheck : checkHolds s.mram.root (slotOf k s)
      · obtain ⟨hbad, hcnt, hevt⟩ := foundBad_spec k s
        rw [show testSlot k s = foundBad k s from if_neg (by rw [hcheck]; decide)]
        refine ⟨hbad, (hcount _).trans ?_, hevt⟩
        rw [hcnt]
        exact lookD_bump_self _ _
      · rw [testSlot_of_sound hcheck]
        exact ⟨rfl, rfl⟩
  · have hexec : exec (.overlapEnd k) s = .next (keyEvent 0x0604 k (some 2) none (rollSlot k s)) :=
      named_act (decide_eq_true hk) (by rw [hst, decide_eq_true hend]; rfl)
    have hself := slotOf_rollSlot_self k s
    refine ⟨_, hexec, congrArg KSlot.st hself, congrArg KSlot.key hself, congrArg KSlot.succ hself,
      getLsbD_latch_self _ (by decide), raise_osn (s := latchKey 2 k (rollSlot k s)) harb,
      fun j hj hst => slotOf_rollSlot_other hj hst⟩

end Sys2Proof.Machine
end

section
/-! Proof of the statement on recorders. -/

namespace Sys2Proof.Machine

open Sys2Proof

set_option Elab.async false

variable {c : Cmd} {n k : Nat} {s t u v : State}

/-! ### What a change of blindness leaves (R394) -/

theorem writeStatus_arb (n : Nat) (s : State) : (writeStatus n s).arb = s.arb ∧ (writeStatus n s).acq = s.acq := by
  obtain ⟨m, c, h⟩ := writeStatus_frame n s
  rw [h]
  exact ⟨rfl, rfl⟩

/-- A change of blindness takes no OSN, and counts dead time only. -/
theorem reblind_arb (n : Nat) (s : State) : (reblind n s).arb = s.arb ∧
    lookD (reblind n s).acq.cnt (n * 9) 0 = lookD s.acq.cnt (n * 9) 0 := by
  have hwrite (v : State) (harb : v.arb = s.arb) (hcnt : lookD v.acq.cnt (n * 9) 0 = lookD s.acq.cnt (n * 9) 0) :
      (writeStatus n v).arb = s.arb ∧ lookD (writeStatus n v).acq.cnt (n * 9) 0 = lookD s.acq.cnt (n * 9) 0 := by
    rw [(writeStatus_arb n v).1, (writeStatus_arb n v).2]
    exact ⟨harb, hcnt⟩
  unfold reblind
  dsimp only
  split
  · exact hwrite _ rfl rfl
  · exact hwrite _ rfl (lookD_bumpBy_other _ _ (by omega))
  · exact hwrite _ rfl rfl

/-- A recorder that is not blind has no blind interval (R394). -/
theorem reblind_of_seeing (h : isBlind (recOf n s) = false) : (recOf n (reblind n s)).blindSince = none := by
  have hwrite (v : State) : recOf n (writeStatus n v) = recOf n v := recOf_congr (congrArg Acqn.recs (writeStatus_arb n v).2) n
  unfold reblind
  dsimp only
  rw [h]
  cases hb : (recOf n s).blindSince with
  | none =>
    dsimp only
    rw [hwrite]
    exact hb
  | some t =>
    dsimp only
    rw [hwrite]
    exact congrArg Rec.blindSince (recOf_setRec n _ s)

/-! ### ACQ_CONFIG, ACQ_ARM and ACQ_DISARM (R392, R393, R396) -/

theorem swapBuffer_acq (old new : Nat) (s : State) : (swapBuffer old new s).acq = s.acq := by
  unfold swapBuffer freeFrames
  dsimp only
  split
  · rfl
  · split <;> rfl

/-- The recorder that ACQ_CONFIG leaves, but for its blind interval (R392). -/
theorem effAcqConfig_spec (c : Cmd) (s : State) : ∃ u, effAcqConfig c s = (u, stOk, none) ∧
    (∃ b d, recOf (arg0 c.desc) u = { recordAt c.block with blindSince := b, deadNs := d }) ∧
    ∀ k, k ≠ arg0 c.desc → recOf k u = recOf k s := by
  unfold effAcqConfig
  dsimp only
  generalize hv : swapBuffer _ _ _ = v
  have hrecs : v.acq.recs = s.acq.recs := by
    rw [← hv, swapBuffer_acq]
    rfl
  generalize hw : setRec (arg0 c.desc) (recordAt c.block) { v with acq := { v.acq with cnt := _ } } = w
  have hself : recOf (arg0 c.desc) w = recordAt c.block := by rw [← hw, recOf_setRec]
  obtain ⟨honly, b, d, hrec⟩ := reblind_spec (arg0 c.desc) w
  refine ⟨_, rfl, ⟨b, d, by rw [hrec, hself]⟩, fun k hk => (honly.others k hk).trans ?_⟩
  rw [← hw, recOf_setRec_other hk]
  exact recOf_congr hrecs k

/-- The recorder before its times are armed (R393, R396). -/
def armedRec (x : Rec) (s : State) : Rec :=
  let trigs := x.trigs.map fun t => { t with level := seenLevel s t, fired := false, cancelled := false }
  { x with
    en := .on, held := false, cap := .waiting, trigs := trigs, truth := truthNow trigs s
    hist := [], histCyc := [], detLog := [], wait := [], cur := none, nextRow := slotAfter (rateHz x.rate) (lineNow s)
    blindSince := none, deadNs := 0, lost := 0 }

/-- A time entry that cannot be armed is cancelled (R398). -/
def cancelEntry (e : Nat) (x : Rec) : Rec :=
  { x with trigs := x.trigs.zipIdx.map fun t => if t.2 = e then { t.1 with cancelled := true } else t.1 }

theorem cancelTrigger_recs (n e : Nat) (s : State) :
    (cancelUse (.trigger n e) s).acq.recs = alter s.acq.recs n (cancelEntry e) := rfl

/-- The arming of the times of a recorder changes its triggers only (R315, R395). -/
theorem armTimes_spec (n : Nat) (l : List (Trig × Nat)) (s : State) (h : look s.acq.recs n ≠ none) :
    (∃ g, recOf n (armTimes n l s) = { recOf n s with trigs := g }) ∧ (armTimes n l s).rng = s.rng ∧
    ∀ k, k ≠ n → recOf k (armTimes n l s) = recOf k s := by
  induction l generalizing s with
  | nil => exact ⟨⟨_, rfl⟩, rfl, fun _ _ => rfl⟩
  | cons q r ih =>
    obtain ⟨t, e⟩ := q
    rw [armTimes]
    split
    · exact ih s h
    · split
      · exact ih (armCmp s.cnp.tb t.target (.trigger n e) s) h
      · obtain ⟨x, hx⟩ := Option.ne_none_iff_exists'.mp h
        have hself : look (cancelUse (.trigger n e) s).acq.recs n = some (cancelEntry e x) := by
          rw [cancelTrigger_recs, look_alter_self, hx]
          rfl
        obtain ⟨⟨g, hg⟩, hrng, hothers⟩ := ih (cancelUse (.trigger n e) s) (by rw [hself]; nofun)
        have hrec : recOf n s = x := by rw [recOf, lookD, hx]; rfl
        refine ⟨⟨g, ?_⟩, hrng, fun k hk => (hothers k hk).trans ?_⟩
        · rw [hg, hrec, recOf, lookD, hself]
          rfl
        · rw [recOf, recOf, lookD, lookD, cancelTrigger_recs, look_alter_other _ _ hk]

/-- The recorder becomes ON, but for its triggers and its blind interval (R393, R396). -/
theorem startRec_spec (n : Nat) (s : State) :
    (∃ g b d, recOf n (startRec n s) =
      { armedRec (recOf n s) s with trigs := g, blindSince := b, deadNs := d }) ∧
    (startRec n s).rng = s.rng ∧ ∀ k, k ≠ n → recOf k (startRec n s) = recOf k s := by
  have hbody : startRec n s = reblind n (armTimes n (armedRec (recOf n s) s).trigs.zipIdx
      (setRec n (armedRec (recOf n s) s) s)) := rfl
  rw [hbody]
  generalize (armedRec (recOf n s) s).trigs.zipIdx = l
  obtain ⟨⟨g, hg⟩, hrng, hothers⟩ := armTimes_spec n l (setRec n (armedRec (recOf n s) s) s)
    (by rw [show look (setRec n (armedRec (recOf n s) s) s).acq.recs n = _ from look_put_self _ _ _]; nofun)
  generalize armTimes n l (setRec n (armedRec (recOf n s) s) s) = v at hg hrng hothers
  obtain ⟨honly, b, d, hrec⟩ := reblind_spec n v
  rw [hg, recOf_setRec] at hrec
  exact ⟨⟨g, b, d, hrec⟩, honly.rng.trans hrng,
    fun k hk => (honly.others k hk).trans ((hothers k hk).trans (recOf_setRec_other hk _ s))⟩

theorem effAcqArm_of_off (hoff : (recOf (arg0 c.desc) s).en = .off) :
    effAcqArm c s = (startRec (arg0 c.desc) s, stOk, none) := by
  unfold effAcqArm
  dsimp only
  rw [hoff]
  rfl

/-- A recorder that nothing holds reaches OFF (R149). -/
theorem offRec_of_unheld (hheld : (recOf n s).held = false) : (recOf n (offRec n s)).en = .off ∧
    (arbHeld s = false → (offRec n s).arb.osn = s.arb.osn + 1) := by
  unfold offRec
  dsimp only
  rw [hheld]
  generalize hw : setRec n _ (cancelCmps _ s) = w
  have hself : (recOf n w).en = .off ∧ w.arb = s.arb ∧ w.rst = s.rst := by
    rw [← hw]
    exact ⟨congrArg Rec.en (recOf_setRec n _ _), rfl, rfl⟩
  obtain ⟨honly, b, d, hrec⟩ := reblind_spec n w
  have harb := (reblind_arb n w).1
  generalize reblind n w = v at honly hrec harb
  have hrst : v.rst = s.rst := (congrArg State.rst honly.frame :).trans hself.2.2
  refine ⟨(congrArg Rec.en hrec :).trans hself.1, fun hheld => ?_⟩
  exact (raise_osn (s := v) ((arbHeld_congr hrst).trans hheld)).trans
    (congrArg (fun a : Arb => a.osn + 1) (harb.trans hself.2.1))

theorem effAcqDisarm_of_waiting (hon : (recOf (arg0 c.desc) s).en = .on) (hcap : (recOf (arg0 c.desc) s).cap = .waiting) :
    effAcqDisarm c s = (offRec (arg0 c.desc) s, stOk, none) := by
  unfold effAcqDisarm
  dsimp only
  rw [hon, hcap]
  rfl

theorem effAcqDisarm_of_busy (hon : (recOf (arg0 c.desc) s).en = .on) (hcap : (recOf (arg0 c.desc) s).cap ≠ .waiting) :
    effAcqDisarm c s = (reblind (arg0 c.desc) (setRec (arg0 c.desc)
      { recOf (arg0 c.desc) s with en := .stopping, held := false } s), stOk, none) := by
  unfold effAcqDisarm
  dsimp only
  rw [if_neg (by simpa using fun _ => hcap), hon]
  rfl

/-! ### A trigger with room opens a record (R401) -/

theorem makeRoom_of_room (h : needBytes (recOf n s) ≤ (recOf n s).freeB) (k : Nat) : makeRoom n k s = s := by
  cases k with
  | zero => rfl
  | succ k =>
    rw [makeRoom]
    exact if_pos (by simp [h])

/-- The recorder that a record opens on (R401). -/
def openedRec (n : Nat) (f : Fire) (s : State) : Rec :=
  { recOf n s with
    cap := .capturing, cur := some (newRecord n f s), freeB := (recOf n s).freeB - (newRecord n f s).commit
    nextNum := ((recOf n s).nextNum + 1) % 2 ^ 32, lost := 0, deadNs := 0 }

theorem fireTrig_of_room (hon : (recOf n s).en = .on) (hcap : (recOf n s).cap = .waiting)
    (hroom : needBytes (recOf n s) ≤ (recOf n s).freeB) (hhist : (recOf n s).hist = []) (f : Fire) :
    ∃ b d, recOf n (fireTrig n f s) = { openedRec n f s with blindSince := b, deadNs := d } := by
  have hopen : fireTrig n f s = openRecord n f s := by
    unfold fireTrig
    dsimp only
    rw [hon, if_neg (by decide), hcap]
    dsimp only
    rw [makeRoom_of_room hroom, if_pos hroom]
  have hbody : openRecord n f s = reblind n (recordRows n [] (acqEvent 0x0701 n (setRec n (openedRec n f s) s))) := by
    rw [← hhist]
    rfl
  rw [hopen, hbody]
  obtain ⟨-, b, d, hrec⟩ := reblind_spec n (acqEvent 0x0701 n (setRec n (openedRec n f s) s))
  refine ⟨b, d, hrec.trans ?_⟩
  rw [show recOf n (acqEvent 0x0701 n (setRec n (openedRec n f s) s)) = openedRec n f s from recOf_setRec n _ s]

/-- The trigger of ACQ_TRIGGER (R396). -/
def commandFire (s : State) : Fire := { group := 0, entry := 15, type := 5, time := lineFrac s (frcNow s), subst := false }

theorem effAcqTrigger_of_capturing {r : Record}
    (hcap : (recOf (arg0 c.desc) (fireTrig (arg0 c.desc) (commandFire s) s)).cap = .capturing)
    (hcur : (recOf (arg0 c.desc) (fireTrig (arg0 c.desc) (commandFire s) s)).cur = some r) :
    effAcqTrigger c s = (fireTrig (arg0 c.desc) (commandFire s) s, stOk, some (BitVec.ofNat 32 r.num)) := by
  unfold effAcqTrigger
  dsimp only
  rw [show ({ group := 0, entry := 15, type := 5, time := lineFrac s (frcNow s), subst := false } : Fire) = commandFire s
    from rfl, hcap, hcur]
  rfl

/-! ### ACQ_RELEASE (R414) -/

theorem effAcqRelease_of_stored {r : SRec} (h : storedRec (arg0 c.desc) (arg1 c.desc) s = some r) :
    effAcqRelease c s = (reblind (arg0 c.desc) (if isIdle r then freeRec (arg0 c.desc) r s
      else modStored (arg0 c.desc) r.num (fun y => { y with released := true }) s), stOk, none) := by
  unfold effAcqRelease
  dsimp only
  rw [h]
  rfl

/-- A record that is released is held no longer (R414). -/
theorem heldRecs_of_released (l : List SRec) (num : Nat) :
    ((l.map fun r => if r.num = num then { r with released := true } else r).filter fun r => !r.released).find?
      (fun r => r.num == num) = none := by
  refine List.find?_eq_none.mpr fun r hr => ?_
  obtain ⟨hin, hheld⟩ := List.mem_filter.mp hr
  obtain ⟨q, -, rfl⟩ := List.mem_map.mp hin
  intro hnum
  by_cases hq : q.num = num
  · rw [if_pos hq] at hheld
    exact Bool.false_ne_true hheld
  · rw [if_neg hq] at hnum
    exact hq (eq_of_beq hnum)

/-! ### Level changes and frames of SE1 (R395 to R397) -/

theorem exec_triggerLevelChange_of_first {ch : Change} {rest : List Change} (h : s.acq.changes = ch :: rest) :
    exec .triggerLevelChange s = .next (takeChange ch { s with acq := { s.acq with changes := rest } }) := by
  show execTriggerLevelChange s = _
  unfold execTriggerLevelChange
  rw [h]

/-- The recorder whose time entry `e` fires (R395). -/
def timeFired (e : Nat) (x : Rec) : Rec :=
  { x with trigs := x.trigs.zipIdx.map fun q => if q.2 = e then { q.1 with fired := true } else q.1 }

theorem takeChange_of_time {ch : Change} {e : Nat} {t : Trig} (hrecs : ch.recs = some (n, e))
    (ht : (recOf n s).trigs[e]? = some t) (htype : t.type = 4) (hfired : t.fired = false) (hcancelled : t.cancelled = false) :
    takeChange ch s = fireTrig n { group := t.group, entry := e, type := 4, time := ch.time, subst := false }
      (setRec n (timeFired e (recOf n s)) s) := by
  unfold takeChange
  rw [hrecs]
  show fireTime n e ch s = _
  unfold fireTime
  dsimp only
  rw [ht]
  dsimp only
  rw [htype, hfired, hcancelled]
  rfl

theorem exec_se1GooseRx_of_first {h : Held} {rest : List Held} (hse1 : s.sw.se1 = h :: rest) :
    exec .se1GooseRx s = .next (takeSe1 h { s with sw := { s.sw with se1 := rest } }) := by
  show execSe1GooseRx s = _
  unfold execSe1GooseRx
  rw [hse1]

/-- The tag of a frame, and whether an entry names it (R397). -/
def tagHit (h : Held) (s : State) : Bool := s.acq.recs.any fun e => e.2.trigs.any (hasTag (h.info.flow.toNat % 65536))

theorem takeSe1_of_other {h : Held}
    (hmiss : bits h.info.flow.toNat 31 16 ≠ 0xC000 ∨ ∀ g, h.frame.body = .goose g → g.wellFormed = false) :
    takeSe1 h s = se1Miss s := by
  unfold takeSe1
  dsimp only
  split
  · next g hg =>
    refine if_pos ?_
    obtain hflow | hform := hmiss
    · rw [bne_iff_ne.mpr hflow]
      rfl
    · rw [hform g hg, Bool.not_false, Bool.or_true]
  · rfl

theorem takeSe1_of_goose {h : Held} {g : GoosePdu} (hbody : h.frame.body = .goose g) (hform : g.wellFormed = true)
    (hflow : bits h.info.flow.toNat 31 16 = 0xC000) : takeSe1 h s =
      if look s.acq.stnums (h.info.flow.toNat % 65536) = some g.stNum.toNat then
        (if tagHit h s = true then s else se1Miss s)
      else if tagHit h s = true then { s with acq := { s.acq with
        stnums := put s.acq.stnums (h.info.flow.toNat % 65536) g.stNum.toNat
        changes := s.acq.changes ++ [gooseChange (h.info.flow.toNat % 65536) h g s] } }
      else se1Miss { s with acq := { s.acq with stnums := put s.acq.stnums (h.info.flow.toNat % 65536) g.stNum.toNat } } := by
  unfold takeSe1
  rw [hbody]
  dsimp only
  rw [hflow, hform]
  rfl

/-! ### Rows and stored records (R403, R407) -/

theorem trimHist_spec (x : Rec) : ∃ c d, trimHist x = { x with hist := lastN (histLen x) x.hist, histCyc := c, detLog := d } := by
  unfold trimHist
  dsimp only
  split
  · next h => exact ⟨_, _, by rw [h]⟩
  · next h => exact ⟨_, _, by rw [h]⟩

/-- A row of a recorder with no open record enters its history (R403). -/
theorem formRow_of_none (hcur : (recOf n s).cur = none) : formRow n s =
    acqAsk n (setRec n (trimHist { recOf n s with
      hist := (recOf n s).hist ++ [nextRowOf (recOf n s) s], nextRow := (recOf n s).nextRow + 1
      wait := del (recOf n s).wait (recOf n s).nextRow }) s) := by
  unfold formRow
  refine recordRow_of_none ?_ _
  obtain ⟨a, b, htrim⟩ := trimHist_spec { recOf n s with
      hist := (recOf n s).hist ++ [nextRowOf (recOf n s) s], nextRow := (recOf n s).nextRow + 1
      wait := del (recOf n s).wait (recOf n s).nextRow }
  refine (congrArg Rec.cur (recOf_setRec n _ s)).trans ?_
  rw [htrim]
  exact hcur

/-- A stored record of a recorder that stays ON (R407). -/
def storedIn (n : Nat) (r : Record) (s : State) : Rec :=
  let x := recOf n s
  let q : SRec := { num := r.num, data := exportForm n x r (nextOsn s) s }
  { x with
    cap := .waiting, cur := none, stored := x.stored ++ [q], freeB := x.freeB + r.commit - recSize q
    lastStored := r.num, lastOsn := nextOsn s, en := x.en }

theorem storeRecord_of_on (hon : (recOf n s).en = .on) (r : Record) : storeRecord n r s =
    reblind n (fireBinds 5 (fun w => w % 16 == n) (countRec n 0 1 (acqEvent 0x0702 n (acqAsk n
      (setRec n (storedIn n r s) s))))) := by
  unfold storeRecord
  dsimp only
  rw [if_neg (by rw [hon]; decide)]
  rfl

theorem exec_recordStored_of_done {r : Record} (hn : n < 16) (hcur : (recOf n s).cur = some r)
    (hdone : recDone (recOf n s) r s = true) (hon : (recOf n s).en = .on) :
    exec (.recordStored n) s = .next (storeRecord n r s) := by
  show execRecordStored n s = _
  unfold execRecordStored
  dsimp only
  rw [hcur]
  refine (named_act (decide_eq_true hn) hdone).trans ?_
  rw [if_neg (by rw [hon]; decide)]

/-! ### The statement -/

/-- The commands of a recorder (R392, R393, R396, R414). -/
theorem recorder_commands (c : Cmd) (s : State) :
    (ready (.acqConfig c) c s → ∃ u, exec (.acqConfig c) s = .next (complete c (u, stOk, none)) ∧
      (recOf (arg0 c.desc) u).trigs = (recordAt c.block).trigs ∧ (recOf (arg0 c.desc) u).chans = (recordAt c.block).chans ∧
      (recOf (arg0 c.desc) u).nextNum = 1 ∧ (recOf (arg0 c.desc) u).stored = [] ∧ (recOf (arg0 c.desc) u).en = .off ∧
      (recOf (arg0 c.desc) u).freeB = wordAt c.block 2 * 2 ^ 20 ∧
      (∀ k, k ≠ arg0 c.desc → recOf k u = recOf k s)) ∧
    (ready (.acqArm c) c s → (recOf (arg0 c.desc) s).en = .off → ∃ u,
      exec (.acqArm c) s = .next (complete c (u, stOk, none)) ∧
      (recOf (arg0 c.desc) u).en = .on ∧ (recOf (arg0 c.desc) u).cap = .waiting ∧ (recOf (arg0 c.desc) u).hist = [] ∧
      (recOf (arg0 c.desc) u).cur = none ∧ (recOf (arg0 c.desc) u).stored = (recOf (arg0 c.desc) s).stored ∧
      (∀ k, k ≠ arg0 c.desc → recOf k u = recOf k s) ∧ u.rng = s.rng) ∧
    (ready (.acqDisarm c) c s → (recOf (arg0 c.desc) s).en = .on →
      ((recOf (arg0 c.desc) s).cap = .waiting → (recOf (arg0 c.desc) s).held = false → ∃ u,
        exec (.acqDisarm c) s = .next (complete c (u, stOk, none)) ∧ (recOf (arg0 c.desc) u).en = .off ∧
        (arbHeld s = false → u.arb.osn = s.arb.osn + 1)) ∧
      ((recOf (arg0 c.desc) s).cap ≠ .waiting → ∃ u, exec (.acqDisarm c) s = .next (complete c (u, stOk, none)) ∧
        (recOf (arg0 c.desc) u).en = .stopping ∧ (recOf (arg0 c.desc) u).cap = (recOf (arg0 c.desc) s).cap ∧
        (recOf (arg0 c.desc) u).cur = (recOf (arg0 c.desc) s).cur ∧ (recOf (arg0 c.desc) u).blindSince = none ∧
        (∀ k, k ≠ arg0 c.desc → recOf k u = recOf k s) ∧ u.arb = s.arb)) := by
  refine ⟨fun h => ?_, fun h hoff => ?_, fun h hon => ⟨fun hcap hheld => ?_, fun hcap => ?_⟩⟩
  · have hexec : exec (.acqConfig c) s = .next (complete c (effAcqConfig c s)) := runNow_of_ready h rfl (judgeCmd_acqConfig s)
    obtain ⟨u, heff, ⟨b, d, hself⟩, hothers⟩ := effAcqConfig_spec c s
    rw [heff] at hexec
    refine ⟨u, hexec, ?_, ?_, ?_, ?_, ?_, ?_, hothers⟩ <;> rw [hself] <;> rfl
  · have hexec : exec (.acqArm c) s = .next (complete c (effAcqArm c s)) := runNow_of_ready h rfl (judgeCmd_acqArm s)
    rw [effAcqArm_of_off hoff] at hexec
    obtain ⟨⟨g, b, d, hself⟩, hrng, hothers⟩ := startRec_spec (arg0 c.desc) s
    refine ⟨_, hexec, ?_, ?_, ?_, ?_, ?_, hothers, hrng⟩ <;> rw [hself] <;> rfl
  · have hexec : exec (.acqDisarm c) s = .next (complete c (effAcqDisarm c s)) :=
      runNow_of_ready h rfl (judgeCmd_acqDisarm s)
    rw [effAcqDisarm_of_waiting hon hcap] at hexec
    exact ⟨_, hexec, offRec_of_unheld hheld⟩
  · have hexec : exec (.acqDisarm c) s = .next (complete c (effAcqDisarm c s)) :=
      runNow_of_ready h rfl (judgeCmd_acqDisarm s)
    rw [effAcqDisarm_of_busy hon hcap] at hexec
    generalize hx : ({ recOf (arg0 c.desc) s with en := .stopping, held := false } : Rec) = x at hexec
    obtain ⟨honly, b, d, hself⟩ := reblind_spec (arg0 c.desc) (setRec (arg0 c.desc) x s)
    have hblind := reblind_of_seeing (n := arg0 c.desc) (s := setRec (arg0 c.desc) x s) (by rw [recOf_setRec, ← hx]; rfl)
    rw [recOf_setRec] at hself
    refine ⟨_, hexec, ?_, ?_, ?_, hblind, fun k hk => (honly.others k hk).trans (recOf_setRec_other hk x s),
      (reblind_arb _ _).1⟩ <;> rw [hself, ← hx]

/-- Settles O47: the commands through the recorder that each leaves, the rows through the record that they open, extend
or store. -/
theorem recorders : Obligations.Recorders := by
  unfold Obligations.Recorders
  refine ⟨fun c s => ?_, fun ch rest n e t s hch hrecs ht htype hfired hcancelled hon hcap hroom hhist => ?_,
    fun h rest s hse1 => ?_, fun n s hn hen hready hcur => ?_, fun n r s hn hcur hdone hon => ?_⟩
  · intro n
    obtain ⟨hconfig, harm, hdisarm⟩ := recorder_commands c s
    refine ⟨hconfig, harm, hdisarm, fun h hcap hroom hhist harb => ?_, fun h r hstored => ?_⟩
    · have hexec : exec (.acqTrigger c) s = .next (complete c (effAcqTrigger c s)) :=
        runNow_of_ready h rfl (judgeCmd_acqTrigger s)
      have hjudge := judge_of_ready h rfl (judgeCmd_acqTrigger s)
      have hon : (recOf n s).en = .on := by
        have hcheck : ((recOf n s).en == .on) = true := check_of_checks_ok (e := (_, stWrongState)) hjudge
          (by simp [common, recArg, stOk, stWrongState, stDenied, stBadArg])
          (List.mem_append_right _ (List.mem_append_right _ (List.mem_singleton.mpr rfl)))
        exact eq_of_beq hcheck
      obtain ⟨b, d, hself⟩ := fireTrig_of_room hon hcap hroom hhist (commandFire s)
      have hcap' : (recOf n (fireTrig n (commandFire s) s)).cap = .capturing := by rw [hself]; rfl
      have hcur' : (recOf n (fireTrig n (commandFire s) s)).cur = some (newRecord n (commandFire s) s) := by rw [hself]; rfl
      rw [effAcqTrigger_of_capturing hcap' hcur'] at hexec
      refine ⟨_, _, hexec, hcap', hcur', rfl, rfl, ?_, by rw [hself]; rfl⟩
      show nextOsn s = _
      rw [nextOsn, harb]
      rfl
    · have hexec : exec (.acqRelease c) s = .next (complete c (effAcqRelease c s)) :=
        runNow_of_ready h rfl (judgeCmd_acqRelease s)
      rw [effAcqRelease_of_stored hstored] at hexec
      refine ⟨_, hexec, fun hidle => ?_, fun hbusy => ?_⟩
      · rw [hidle, if_pos rfl]
        obtain ⟨-, b, d, hself⟩ := reblind_spec n (freeRec n r s)
        rw [hself]
        exact ⟨congrArg Rec.stored (recOf_setRec n _ s), congrArg Rec.freeB (recOf_setRec n _ s)⟩
      · rw [hbusy, if_neg (by decide)]
        obtain ⟨-, b, d, hself⟩ := reblind_spec n (modStored n r.num (fun y => { y with released := true }) s)
        have hnum : r.num = arg1 c.desc := eq_of_beq (List.find?_some (p := fun q : SRec => q.num == arg1 c.desc) hstored)
        have hmod := recOf_setRec n
          { recOf n s with stored := (recOf n s).stored.map fun q => if q.num = r.num then { q with released := true } else q } s
        refine ⟨?_, (congrArg Rec.freeB hself :).trans (congrArg Rec.freeB hmod :)⟩
        rw [storedRec, heldRecs, hself, ← hnum]
        dsimp only
        rw [show (recOf n (modStored n r.num (fun y => { y with released := true }) s)).stored = _ from
          (congrArg Rec.stored hmod :)]
        exact heldRecs_of_released _ _
  · have hexec := exec_triggerLevelChange_of_first hch
    generalize hw : ({ s with acq := { s.acq with changes := rest } } : State) = w at hexec
    have hrec : recOf n w = recOf n s := by
      rw [← hw]
      rfl
    have hchanges : w.acq.changes = rest := by rw [← hw]
    rw [takeChange_of_time hrecs (by rw [hrec]; exact ht) htype hfired hcancelled, hrec] at hexec
    generalize hf : ({ group := t.group, entry := e, type := 4, time := ch.time, subst := false } : Fire) = f at hexec
    have hself := recOf_setRec n (timeFired e (recOf n s)) w
    have honly := acqOnly_fireTrig n f (setRec n (timeFired e (recOf n s)) w)
    obtain ⟨b, d, hopen⟩ := fireTrig_of_room (s := setRec n (timeFired e (recOf n s)) w) (by rw [hself]; exact hon)
      (by rw [hself]; exact hcap) (by rw [hself]; exact hroom) (by rw [hself]; exact hhist) f
    refine ⟨_, newRecord n f (setRec n (timeFired e (recOf n s)) w), hexec, honly.changes.trans hchanges, by rw [hopen]; rfl,
      by rw [hopen]; rfl, ?_, ?_⟩
    · rw [← hf]
      rfl
    · rw [← hf]
      rfl
  · have hexec := exec_se1GooseRx_of_first hse1
    generalize hw : ({ s with sw := { s.sw with se1 := rest } } : State) = w at hexec
    have hfields : w.acq = s.acq ∧ w.sw.se1 = rest ∧ w.prt = s.prt := by
      rw [← hw]
      exact ⟨rfl, rfl, rfl⟩
    obtain ⟨hacq, hrest, hprt⟩ := hfields
    have hframe : (takeSe1 h w).sw = w.sw ∧ (takeSe1 h w).prt = w.prt := by
      unfold takeSe1
      dsimp only
      split
      · split
        · exact ⟨rfl, rfl⟩
        · split
          · split <;> exact ⟨rfl, rfl⟩
          · split <;> exact ⟨rfl, rfl⟩
      · exact ⟨rfl, rfl⟩
    refine ⟨_, hexec, (congrArg Sw.se1 hframe.1).trans hrest, hframe.2.trans hprt, fun hmiss => ?_,
      fun g hbody hform hflow => ?_⟩
    · rw [takeSe1_of_other hmiss]
      show { w.acq with noMatch := (w.acq.noMatch + 1) % 2 ^ 64 } = _
      rw [hacq]
    · intro tag hit
      have hhit : tagHit h w = hit := by rw [tagHit, hacq]
      rw [takeSe1_of_goose hbody hform hflow, hhit, hacq]
      by_cases hlook : look s.acq.stnums tag = some g.stNum.toNat
      · rw [if_pos hlook]
        cases hc : hit
        · rw [if_neg (by decide)]
          refine ⟨?_, ?_, fun _ => ⟨?_, ?_⟩, nofun, nofun⟩
          · exact (congrArg (fun a : Acqn => look a.stnums tag) hacq).trans hlook
          · exact (congrArg Acqn.recs hacq :)
          · exact congrArg (fun a : Acqn => (a.noMatch + 1) % 2 ^ 64) hacq
          · exact (congrArg Acqn.changes hacq :)
        · rw [if_pos rfl, hacq]
          exact ⟨hlook, rfl, nofun, fun _ _ => rfl, fun _ hne => absurd hlook hne⟩
      · rw [if_neg hlook]
        cases hc : hit
        · rw [if_neg (by decide)]
          exact ⟨look_put_self _ _ _, rfl, fun _ => ⟨rfl, rfl⟩, nofun, nofun⟩
        · rw [if_pos rfl]
          exact ⟨look_put_self _ _ _, rfl, nofun, fun _ hyes => absurd hyes hlook, fun _ _ => ⟨rfl, _, rfl, rfl⟩⟩
  · have hexec : exec (.rowForm n) s = .next (formRow n s) :=
      named_act (decide_eq_true hn) (by rw [bne_iff_ne.mpr hen, hready]; rfl)
    rw [formRow_of_none hcur] at hexec
    generalize hx : ({ recOf n s with
      hist := (recOf n s).hist ++ [nextRowOf (recOf n s) s], nextRow := (recOf n s).nextRow + 1
      wait := del (recOf n s).wait (recOf n s).nextRow } : Rec) = x at hexec
    obtain ⟨a, b, htrim⟩ := trimHist_spec x
    have hself : recOf n (acqAsk n (setRec n (trimHist x) s)) = trimHist x := recOf_setRec n _ s
    refine ⟨_, hexec, ?_, ?_, fun k hk => recOf_setRec_other hk _ s, rfl, rfl⟩
    · rw [hself, htrim, ← hx]
    · rw [hself, htrim, ← hx]
      rfl
  · have hexec := exec_recordStored_of_done hn hcur hdone hon
    rw [storeRecord_of_on hon] at hexec
    generalize hw : fireBinds 5 (fun w => w % 16 == n) (countRec n 0 1 (acqEvent 0x0702 n (acqAsk n
      (setRec n (storedIn n r s) s)))) = w at hexec
    have hwself : recOf n w = storedIn n r s ∧
        lookD w.acq.cnt (n * 9) 0 = (lookD s.acq.cnt (n * 9) 0 + 1) % 2 ^ 64 := by
      rw [← hw]
      exact ⟨recOf_setRec n _ s, lookD_bumpBy_self _ _ _⟩
    obtain ⟨-, b, d, hself⟩ := reblind_spec n w
    rw [hwself.1] at hself
    refine ⟨_, hexec, by rw [hself]; rfl, by rw [hself]; rfl, by rw [hself]; rfl, by rw [hself]; rfl, by rw [hself]; rfl, ?_⟩
    exact (reblind_arb n w).2.trans hwself.2

end Sys2Proof.Machine
end

section
/-! Proof of the statement on the logbook. -/

namespace Sys2Proof.Machine

open Sys2Proof

set_option Elab.async false

variable {c : Cmd} {r : LogRec} {s t u v : State}

/-! ### Acceptance (R509, R511) -/

/-- A record that finds room. The new buffer is named, so that nothing reduces its length. -/
theorem acceptRec_of_room (h : s.log.unfl < Config.logBufMax) (r : LogRec) : ∃ b,
    b = lastN Config.logBufMax (s.log.buf ++ [stampRec r s]) ∧ acceptRec r s =
      { s with log := { s.log with
        buf := b
        newest := numAfter s.log.newest
        any := true
        unfl := s.log.unfl + 1
        oldestAt := if s.log.unfl = 0 then s.clk.now else s.log.oldestAt
        flushing := s.log.flushing || decide (2 ≤ r.sev) || decide (2048 ≤ s.log.unfl + 1) } } :=
  ⟨_, rfl, if_neg (by simpa [bufFull] using h)⟩

theorem acceptRec_of_full (h : Config.logBufMax ≤ s.log.unfl) : acceptRec r s =
    { s with log := { s.log with lost := min (s.log.lost + 1) 65535, lostSince := s.log.lostSince + 1 } } :=
  if_pos (decide_eq_true h)

/-- No record was lost, so none of code 0938h precedes (R509). -/
theorem accept_of_none_lost (h : s.log.lostSince = 0) : accept r s = acceptRec r s :=
  if_neg (by simp [h])

theorem accept_of_full (h : Config.logBufMax ≤ s.log.unfl) : accept r s = acceptRec r s :=
  if_neg (by rw [bufFull, decide_eq_true h, Bool.not_true, Bool.and_false]; decide)

/-- A record that finds room, and none lost before it (R509). -/
theorem accept_spec (hlost : s.log.lostSince = 0) (hroom : s.log.unfl < Config.logBufMax) (r : LogRec) :
    (accept r s).log.newest = numAfter s.log.newest ∧ (accept r s).log.unfl = s.log.unfl + 1 ∧
    (accept r s).log.lostSince = 0 ∧
    (accept r s).log.buf = lastN Config.logBufMax (s.log.buf ++ [stampRec r s]) := by
  obtain ⟨b, hb, heq⟩ := acceptRec_of_room hroom r
  rw [accept_of_none_lost hlost, heq]
  exact ⟨rfl, rfl, hlost, hb⟩

/-! ### The end of a buffer -/

/-- The last `m` entries of the last `n`, where `m` is not more. -/
theorem lastN_lastN {α : Type} {m n : Nat} (h : m ≤ n) (l : List α) : lastN m (lastN n l) = lastN m l := by
  unfold lastN
  rw [List.drop_drop, List.length_drop]
  congr 1
  omega

theorem lastN_append_singleton {α : Type} {m n : Nat} (h : m < n) (l : List α) (x : α) :
    lastN (m + 1) (lastN n (l ++ [x])) = lastN m l ++ [x] := by
  rw [lastN_lastN (by omega)]
  unfold lastN
  rw [List.length_append, List.length_singleton, List.drop_append_of_le_length (by omega)]
  congr 2
  omega

theorem lastN_zero {α : Type} (l : List α) : lastN 0 l = [] := List.drop_length

/-! ### LOG_NOTE (R510) -/

/-- Part `i` of a note. -/
def notePart (c : Cmd) (i : Nat) : Ev :=
  { src := 14, code := 0x0937, index := i, data := (c.block.drop (20 * i)).take (min 20 (48 - 20 * i)) }

/-- The state in which the three records of a note are accepted, where no request waits. -/
def noteRaised (c : Cmd) (s : State) : State := raise { src := 14, code := 0x0937, data := c.block.take 20 } s

theorem acceptWaiting_of_none (h : s.log.reqs = []) :
    acceptWaiting s = { s with log := { s.log with reqs := [] } } := by
  rw [acceptWaiting, h, acceptAll]

theorem effLogNote_of_room (hreqs : s.log.reqs = []) (hroom : s.log.unfl < Config.logBufMax) (hlost : s.log.lostSince = 0) :
    ∃ v, v.log.newest = s.log.newest ∧ v.log.unfl = s.log.unfl ∧ v.log.lostSince = 0 ∧
    effLogNote c s = (accept (logReq (notePart c 2) (nextOsn s) 0) (accept (logReq (notePart c 1) (nextOsn s) 0)
      (accept (logReq (notePart c 0) (nextOsn s) 0) v)), stOk, some (BitVec.ofNat 32 (numAfter s.log.newest))) := by
  have hwait : acceptWaiting (noteRaised c s) =
      { noteRaised c s with log := { (noteRaised c s).log with reqs := [] } } := acceptWaiting_of_none hreqs
  generalize hv : ({ noteRaised c s with log := { (noteRaised c s).log with reqs := [] } } : State) = v at hwait
  have hlog : v.log.newest = s.log.newest ∧ v.log.unfl = s.log.unfl ∧ v.log.lostSince = 0 := by
    rw [← hv]
    exact ⟨rfl, rfl, hlost⟩
  obtain ⟨hnewest, hunfl, hlost'⟩ := hlog
  refine ⟨v, hnewest, hunfl, hlost', ?_⟩
  have hbody : effLogNote c s =
      if bufFull (acceptWaiting (noteRaised c s)) then _ else
        resOk (acceptAll [logReq (notePart c 1) (nextOsn s) 0, logReq (notePart c 2) (nextOsn s) 0]
          (accept (logReq (notePart c 0) (nextOsn s) 0) (acceptWaiting (noteRaised c s))))
          (accept (logReq (notePart c 0) (nextOsn s) 0) (acceptWaiting (noteRaised c s))).log.newest := rfl
  rw [hbody, hwait, if_neg (by simpa [bufFull, hunfl] using hroom),
    (accept_spec hlost' (by rw [hunfl]; exact hroom) _).1, hnewest]
  rfl

/-! ### Rows of the logbook (R505, R506, R509, R511) -/

theorem exec_logbookRecord_of_granted {src : Nat} (hsrc : src < 16)
    (hfind : (s.log.reqs.find? fun x => x.src == src) = some r) (hgrant : (logGrant s).1 = [src]) :
    exec (.logbookRecord src) s = .next (accept r { s with log := { s.log with
      reqs := s.log.reqs.erase r, ptr := (logGrant s).2 } }) := by
  show execLogbookRecord src s = _
  unfold execLogbookRecord
  rw [hfind]
  exact named_act (decide_eq_true hsrc) (beq_iff_eq.mpr hgrant)

/-- A write of the persistent state takes the next generation (R505). -/
theorem savePstate_gen (m : Mram) :
    max (savePstate m).c0.gen (savePstate m).c1.gen = max m.c0.gen m.c1.gen + 1 := by
  unfold savePstate
  split
  · show max (m.c1.gen + 1) m.c1.gen = _
    omega
  · show max m.c0.gen (m.c0.gen + 1) = _
    omega

/-- A write of the persistent state leaves the present values (R505). -/
theorem savePstate_values (m : Mram) : (savePstate m).opsec = m.opsec ∧ (savePstate m).fails = m.fails ∧
    (savePstate m).newest = m.newest := by
  unfold savePstate
  split
  · exact ⟨rfl, rfl, rfl⟩
  · exact ⟨rfl, rfl, rfl⟩

/-- What a flush of unflushed records leaves. The records in MRAM are named, so that nothing reduces their number. -/
theorem flushed_of_unflushed (h : s.log.unfl ≠ 0) : ∃ m,
    m = lastN Config.logRingMax (s.log.mram ++ lastN s.log.unfl s.log.buf) ∧ flushed s =
      { s with
        log := { s.log with mram := m, flushed := s.log.newest, unfl := 0, flushing := false }
        mram := savePstate { s.mram with
          newest := s.log.newest, slot := (s.mram.slot + s.log.unfl) % Config.logRingMax } } := by
  refine ⟨_, rfl, ?_⟩
  unfold flushed
  rw [if_neg h, if_neg h]

/-- Settles O48: records through `accept`, a flush through `savePstate`. -/
theorem logbookKeepsRecords : Obligations.LogbookKeepsRecords := by
  unfold Obligations.LogbookKeepsRecords
  refine ⟨fun c s => ⟨fun h => ?_, fun h hreqs hlost hroom => ?_⟩, fun src r s hsrc hfind hgrant => ?_, fun s hvaux =>
    ⟨fun hunfl hold => ?_, fun hflush hunfl => ?_, ?_⟩⟩
  · intro rs
    exact ⟨runNow_of_ready h rfl (judgeCmd_logRead s), fun hring => resOut_of_host hring _ _ s⟩
  · have hexec : exec (.logNote c) s = .next (complete c (effLogNote c s)) := runNow_of_ready h rfl (judgeCmd_logNote s)
    obtain ⟨v, hnewest, hunfl, hlost', heff⟩ := effLogNote_of_room (c := c) hreqs (by omega) hlost
    rw [heff] at hexec
    obtain ⟨hn1, hu1, hl1, hb1⟩ := accept_spec hlost' (by omega) (logReq (notePart c 0) (nextOsn s) 0)
    generalize accept (logReq (notePart c 0) (nextOsn s) 0) v = v1 at hexec hn1 hu1 hl1 hb1
    obtain ⟨hn2, hu2, hl2, hb2⟩ := accept_spec hl1 (by omega) (logReq (notePart c 1) (nextOsn s) 0)
    generalize accept (logReq (notePart c 1) (nextOsn s) 0) v1 = v2 at hexec hn2 hu2 hl2 hb2
    obtain ⟨hn3, hu3, -, hb3⟩ := accept_spec hl2 (by omega) (logReq (notePart c 2) (nextOsn s) 0)
    refine ⟨_, hexec, by rw [hn3, hn2, hn1, hnewest], by rw [hu3, hu2, hu1, hunfl], ?_⟩
    rw [hb3, lastN_append_singleton (by omega), hb2, lastN_append_singleton (by omega), hb1,
      lastN_append_singleton (by omega), lastN_zero]
    rfl
  · refine ⟨_, exec_logbookRecord_of_granted hsrc hfind hgrant, fun hroom hlost => ?_, fun hfull => ?_⟩
    · generalize hw : ({ s with log := { s.log with reqs := s.log.reqs.erase r, ptr := (logGrant s).2 } } : State) = w
      have hfields : w.log = { s.log with reqs := s.log.reqs.erase r, ptr := (logGrant s).2 } ∧ stampRec r w = stampRec r s := by
        rw [← hw]
        exact ⟨rfl, rfl⟩
      obtain ⟨hlog, hstamp⟩ := hfields
      obtain ⟨b, hb, heq⟩ := acceptRec_of_room (s := w) (by rw [hlog]; exact hroom) r
      rw [accept_of_none_lost (by rw [hlog]; exact hlost), heq, hlog]
      rw [hstamp, hlog] at hb
      exact ⟨rfl, rfl, rfl, rfl, hb, rfl⟩
    · rw [accept_of_full (by exact hfull), acceptRec_of_full (by exact hfull)]
      exact ⟨rfl, rfl, rfl, rfl⟩
  · show act _ _ _ = _
    rw [hvaux, bne_iff_ne.mpr hunfl, decide_eq_true hold]
    rfl
  · have hexec : exec .flushComplete s = .next (flushed s) := by
      show act _ _ _ = _
      rw [hvaux, hflush]
      rfl
    obtain ⟨m, hm, heq⟩ := flushed_of_unflushed hunfl
    rw [heq] at hexec
    exact ⟨_, hexec, rfl, rfl, rfl, (savePstate_values _).2.2, hm, savePstate_gen _⟩
  · generalize hm : ({ s.mram with opsec := (s.mram.opsec + 1) % 2 ^ 32 } : Mram) = m
    have hexec : exec .operatingSecond s = .next { s with mram := if m.opsec % 60 = 0 then savePstate m else m } := by
      show act _ _ _ = _
      rw [hvaux, ← hm]
      rfl
    have hvalues : m.opsec = (s.mram.opsec + 1) % 2 ^ 32 ∧ m.fails = s.mram.fails ∧ m.c0 = s.mram.c0 ∧ m.c1 = s.mram.c1 := by
      rw [← hm]
      exact ⟨rfl, rfl, rfl, rfl⟩
    obtain ⟨hopsec, hfails, h0, h1⟩ := hvalues
    refine ⟨_, hexec, ?_, ?_, rfl, fun hno => ?_⟩
    · dsimp only
      split
      · exact (savePstate_values m).1.trans hopsec
      · exact hopsec
    · dsimp only
      split
      · exact (savePstate_values m).2.1.trans hfails
      · exact hfails
    · dsimp only
      rw [if_neg (by rw [hopsec]; exact hno)]
      exact ⟨h0, h1⟩

end Sys2Proof.Machine
end

section
/-! Proof of the statement on memory integrity. -/

namespace Sys2Proof.Machine

open Sys2Proof

set_option Elab.async false

variable {c : Cmd} {m k : Nat} {s t u v : State}

/-! ### What the action of an error leaves of the accounts (R494, R502) -/

/-- The accounts of the memories and their events stay. -/
def AccountsStay (s t : State) : Prop := t.ecc.mems = s.ecc.mems ∧ t.ecc.evt = s.ecc.evt

namespace AccountsStay

theorem refl (s : State) : AccountsStay s s := ⟨rfl, rfl⟩

theorem trans (h : AccountsStay s t) (h' : AccountsStay t u) : AccountsStay s u :=
  ⟨h'.1.trans h.1, h'.2.trans h.2⟩

theorem of_ecc (h : t.ecc = s.ecc) : AccountsStay s t := by
  rw [AccountsStay, h]
  exact ⟨rfl, rfl⟩

theorem ite {p : Prop} [Decidable p] (h : AccountsStay s t) (h' : AccountsStay s u) :
    AccountsStay s (if p then t else u) := by
  split
  · exact h
  · exact h'

theorem raise (e : Ev) (h : AccountsStay s t) : AccountsStay s (raise e t) := h

theorem keyEvent (code slot : Nat) (bit sev : Option Nat) (h : AccountsStay s t) :
    AccountsStay s (keyEvent code slot bit sev t) := by
  unfold Machine.keyEvent
  cases bit <;> exact h

theorem keyEvents (code : Nat) (bit sev : Option Nat) (l : List Nat) (h : AccountsStay s t) :
    AccountsStay s (keyEvents code bit sev l t) := by
  induction l generalizing t with
  | nil => exact h
  | cons k ks ih => exact ih (h.keyEvent code k bit sev)

theorem killSlot (k : Nat) (st : KState) (h : AccountsStay s t) : AccountsStay s (killSlot k st t) := by
  unfold Machine.killSlot
  exact keyEvents _ _ _ _ h

theorem killSlots (st : KState) (l : List Nat) (h : AccountsStay s t) : AccountsStay s (killSlots st l t) := by
  induction l generalizing t with
  | nil => exact h
  | cons k ks ih => exact ih (h.killSlot k st)

theorem foundBad (k : Nat) (h : AccountsStay s t) : AccountsStay s (foundBad k t) := by
  unfold Machine.foundBad
  exact keyEvent _ _ _ _ (h.killSlot k .bad)

theorem invalidateBranches (l : List Nat) (h : AccountsStay s t) : AccountsStay s (invalidateBranches l t) := by
  induction l generalizing t with
  | nil => exact h
  | cons k ks ih => exact ih (((h.killSlot k .invalidated).killSlots .orphaned _).keyEvent _ _ _ _)

theorem payloadLost (r : Nat) (q : Word) (h : AccountsStay s t) : AccountsStay s (payloadLost r q t) := by
  unfold Machine.payloadLost
  split
  · exact h
  · exact h.trans (of_ecc (modEntry_ecc ..))

theorem abandonEach (i : Nat) (l : List Chan) (h : AccountsStay s t) : AccountsStay s (abandonEach i l t) := by
  induction l generalizing t with
  | nil => exact h
  | cons c cs ih => exact ih (t := cnpEvent 0x0103 0 (i + 16 * chanNum c) none t) h

theorem abandonJoins (i : Nat) (h : AccountsStay s t) : AccountsStay s (abandonJoins i t) :=
  abandonEach i _ (t := setTriad i { triadOf i t with joining := [] } t) h

theorem replayPayloads (few : Bool) (l : List (Nat × Word)) (h : AccountsStay s t) :
    AccountsStay s (replayPayloads few l t) := by
  induction l generalizing t with
  | nil => exact h
  | cons e es ih => exact ih (ite (h.payloadLost _ _) (h.trans (of_ecc (modEntry_ecc ..))))

theorem isolate (i cause : Nat) (c : Chan) (h : AccountsStay s t) : AccountsStay s (isolate i cause c t) := by
  unfold Machine.isolate
  dsimp only
  refine ite (abandonJoins i ?_) (ite (h.abandonJoins i) h)
  exact replayPayloads _ _ (t := dropCopies i c _ (setTriad i _ t)) h

theorem isolateLane (c : Chan) (l : List Nat) (h : AccountsStay s t) : AccountsStay s (isolateLane c l t) := by
  induction l generalizing t with
  | nil => exact h
  | cons i is ih => exact ih (h.isolate i 2 c)

theorem payloadError (c : Chan) (h : AccountsStay s t) : AccountsStay s (payloadError c t) := by
  unfold Machine.payloadError
  dsimp only
  split
  · exact h
  · exact payloadLost _ _ (t := { (pick _ t).2 with cnp := _ }) h

theorem laneError (m loc ue : Nat) (h : AccountsStay s t) : AccountsStay s (laneError m loc ue t) := by
  unfold Machine.laneError
  refine ite (ite ?_ h) (ite (h.isolate _ 3 _) (ite (h.payloadError _) (ite h h)))
  exact isolateLane _ _ (t := { t with cnp := { t.cnp with lanes := _ } }) h

theorem acceptRec (r : LogRec) (h : AccountsStay s t) : AccountsStay s (acceptRec r t) := by
  obtain ⟨l, hl⟩ : ∃ l, Machine.acceptRec r t = { t with log := l } := by
    unfold Machine.acceptRec
    split
    · exact ⟨_, rfl⟩
    · exact ⟨_, rfl⟩
  rw [hl]
  exact h

theorem accept (r : LogRec) (h : AccountsStay s t) : AccountsStay s (accept r t) := by
  unfold Machine.accept
  dsimp only
  refine ite (AccountsStay.acceptRec r (AccountsStay.acceptRec _ ?_)) (AccountsStay.acceptRec r h)
  exact AccountsStay.raise _ (t := { t with log := _ }) h

theorem acceptAll (l : List LogRec) (h : AccountsStay s t) : AccountsStay s (acceptAll l t) := by
  induction l generalizing t with
  | nil => exact h
  | cons r rs ih => exact ih (h.accept r)

theorem trimAbort (why words : Nat) (h : AccountsStay s t) : AccountsStay s (trimAbort why words t) := by
  unfold Machine.trimAbort
  dsimp only
  exact ite h (acceptAll _ (t := { recordOnly _ { recordOnly _ { t with rst := _ } with rst := _ } with log := _ }) h)

theorem applyPins (h : AccountsStay s t) : AccountsStay s (applyPins t) := h

theorem clearWarm (h : AccountsStay s t) : AccountsStay s (clearWarm t) := by
  unfold Machine.clearWarm
  dsimp only
  exact applyPins (invalidateBranches _ (show AccountsStay s _ from h))

/-- A WARM source leaves the accounts (R74). -/
theorem pulseWarm (h : AccountsStay s t) : AccountsStay s (pulseSource .cmdWarm t) := by
  unfold pulseSource assertSource
  dsimp only
  rw [if_neg (show ¬ (sourceReach .cmdWarm == .cold) = true by decide)]
  generalize hw : noteSet 0x0100 (sourceNum .cmdWarm) { t with rst := assertRst .cmdWarm (some (t.clk.now + 1000)) t } = w
  have hw' : AccountsStay s w := by
    rw [← hw]
    exact h
  have hclear : AccountsStay s (if t.rst.reach == some .cold then w else Machine.clearWarm w) := ite hw' hw'.clearWarm
  generalize (if t.rst.reach == some .cold then w else Machine.clearWarm w) = v at hclear ⊢
  exact ite h (ite (trimAbort _ _ (t := sourceRecord .cmdWarm { v with rst := _ }) hclear) hclear)

/-- The action of an uncorrectable error leaves the accounts (R494). -/
theorem errorAction (m loc ue : Nat) (h : AccountsStay s t) : AccountsStay s (errorAction m loc ue t) := by
  unfold Machine.errorAction
  split
  · exact h.laneError _ _ _
  · exact h.laneError _ _ _
  · exact h.laneError _ _ _
  · exact h.isolate _ 3 _
  · exact h.isolate _ 3 _
  · exact h.isolate _ 3 _
  · exact h.pulseWarm
  · exact h.pulseWarm
  · exact ite h (h.foundBad _)
  · unfold bufferError
    dsimp only
    split
    · exact h
    · exact h
  · exact h
  · unfold streamError
    dsimp only
    split
    · exact h
    · exact h
  · unfold recorderError
    split
    · exact h
    · exact h
  · unfold fifoError
    dsimp only
    split
    · exact h
    · exact h
  · exact h
  · exact ite h (ite h h)

end AccountsStay

/-! ### The account of a memory (R496, R500, R502) -/

theorem eccOf_congr (h : AccountsStay s t) (m : Nat) : eccOf m t = eccOf m s := by rw [eccOf, eccOf, h.1]

@[simp] theorem eccOf_setEcc (m : Nat) (x : EccMem) (s : State) : eccOf m (setEcc m x s) = x := lookD_put_self _ _ _ _

theorem eccOf_setEcc_other (h : k ≠ m) (x : EccMem) (s : State) : eccOf k (setEcc m x s) = eccOf k s :=
  lookD_put_other _ _ _ h

theorem accountsStay_addRepair (m : Nat) (loc : BitVec 64) (s : State) : AccountsStay s (addRepair m loc s) :=
  .ite (.refl s) ⟨rfl, rfl⟩

/-- The bucket after one more correctable error (R500, R501). -/
theorem fillBucket_spec (hm : m < 16) (s : State) :
    ((eccOf m s).level + 1 < (eccOf m s).thresh →
      eccOf m (fillBucket m s) = { eccOf m s with level := (eccOf m s).level + 1 }) ∧
    ((eccOf m s).thresh ≤ (eccOf m s).level + 1 →
      eccOf m (fillBucket m s) = { eccOf m s with level := 0, ovf := min ((eccOf m s).ovf + 1) (2 ^ 32 - 1) } ∧
      (fillBucket m s).ecc.evt.getLsbD m = true) ∧
    ∀ k, k ≠ m → eccOf k (fillBucket m s) = eccOf k s := by
  unfold fillBucket
  dsimp only
  generalize 2 ^ 32 - 1 = most
  by_cases h : (eccOf m s).level + 1 < (eccOf m s).thresh
  · rw [if_pos h]
    exact ⟨fun _ => eccOf_setEcc m _ s, fun hno => absurd h (by omega), fun k hk => eccOf_setEcc_other hk _ s⟩
  · rw [if_neg h]
    exact ⟨fun hyes => absurd hyes h, fun _ => ⟨eccOf_setEcc m _ s, getLsbD_latch_self _ (by omega)⟩,
      fun k hk => eccOf_setEcc_other hk _ s⟩

/-- The state that a correctable error is noted in: its bucket filled, a hard location repaired (R500, R504). -/
def corrected (m : Nat) (l : BitVec 64) (s : State) : State :=
  let s1 := fillBucket m (setEcc m { eccOf m s with ce := ((eccOf m s).ce + 1) % 2 ^ 64, last := l } s)
  if ceHard m l s then addRepair m l s1 else s1

theorem exec_correctableError_of_read {loc : BitVec 64} (hm : m < 16)
    (h : noReader m (loc &&& 0x7FFFFFFFFFFFFFFF) s = false) : exec (.correctableError m loc) s =
      .next (noteSuspect m (loc &&& 0x7FFFFFFFFFFFFFFF) (corrected m (loc &&& 0x7FFFFFFFFFFFFFFF) s)) :=
  named_act (decide_eq_true hm) (by rw [h]; rfl)

theorem noteSuspect_spec (m : Nat) (l : BitVec 64) (s : State) :
    (∃ x, eccOf m (noteSuspect m l s) = { eccOf m s with suspects := x }) ∧ (noteSuspect m l s).ecc.evt = s.ecc.evt ∧
    ∀ k, k ≠ m → eccOf k (noteSuspect m l s) = eccOf k s :=
  ⟨⟨_, eccOf_setEcc m _ s⟩, rfl, fun _ hk => eccOf_setEcc_other hk _ s⟩

theorem corrected_spec (hm : m < 16) (l : BitVec 64) (s : State) :
    ((eccOf m s).level + 1 < (eccOf m s).thresh → eccOf m (corrected m l s) =
      { eccOf m s with ce := ((eccOf m s).ce + 1) % 2 ^ 64, last := l, level := (eccOf m s).level + 1 }) ∧
    ((eccOf m s).thresh ≤ (eccOf m s).level + 1 → eccOf m (corrected m l s) =
      { eccOf m s with ce := ((eccOf m s).ce + 1) % 2 ^ 64, last := l, level := 0
                       ovf := min ((eccOf m s).ovf + 1) (2 ^ 32 - 1) } ∧
      (corrected m l s).ecc.evt.getLsbD m = true) ∧
    ∀ k, k ≠ m → eccOf k (corrected m l s) = eccOf k s := by
  obtain ⟨hbelow, hover, hothers⟩ := fillBucket_spec hm
    (setEcc m { eccOf m s with ce := ((eccOf m s).ce + 1) % 2 ^ 64, last := l } s)
  rw [eccOf_setEcc] at hbelow hover
  unfold corrected
  dsimp only
  generalize fillBucket m _ = v at hbelow hover hothers
  have hstay : AccountsStay v (if ceHard m l s then addRepair m l v else v) :=
    .ite (accountsStay_addRepair m l v) (.refl v)
  refine ⟨fun h => (eccOf_congr hstay m).trans (hbelow h), fun h => ?_, fun k hk =>
    (eccOf_congr hstay k).trans ((hothers k hk).trans (eccOf_setEcc_other hk _ s))⟩
  obtain ⟨hself, hevt⟩ := hover h
  exact ⟨(eccOf_congr hstay m).trans hself, by rw [hstay.2]; exact hevt⟩

/-! ### Uncorrectable errors (R494 to R496, R502) -/

/-- The state in which an uncorrectable error acts: it is accounted, and its location is rewritten (R504). -/
def uncorrected (m : Nat) (l : BitVec 64) (s : State) : State := hardError m l (noteError m l s)

theorem exec_uncorrectableError_of_read {loc : BitVec 64} (hm : m < 16)
    (h : noReader m (loc &&& 0x7FFFFFFFFFFFFFFF) s = false) : exec (.uncorrectableError m loc) s =
      .next (errorAction m (loc &&& 0x7FFFFFFFFFFFFFFF).toNat
        (eccOf m (uncorrected m (loc &&& 0x7FFFFFFFFFFFFFFF) s)).ue (uncorrected m (loc &&& 0x7FFFFFFFFFFFFFFF) s)) :=
  named_act (decide_eq_true hm) (by rw [h]; rfl)

theorem uncorrected_spec (hm : m < 16) (l : BitVec 64) (s : State) :
    (eccOf m (uncorrected m l s)).ue = ((eccOf m s).ue + 1) % 2 ^ 64 ∧
    (eccOf m (uncorrected m l s)).last = l ||| 0x8000000000000000 ∧
    (uncorrected m l s).ecc.evt.getLsbD (16 + m) = true := by
  unfold uncorrected
  have hnote : eccOf m (noteError m l s) =
      { eccOf m s with ue := ((eccOf m s).ue + 1) % 2 ^ 64, last := l ||| 0x8000000000000000 } := eccOf_setEcc m _ s
  have hevt : (noteError m l s).ecc.evt.getLsbD (16 + m) = true := getLsbD_latch_self _ (by omega)
  generalize noteError m l s = v at hnote hevt
  unfold hardError
  dsimp only
  split
  · have hstay := accountsStay_addRepair m l v
    rw [eccOf_congr hstay, hstay.2, hnote]
    exact ⟨rfl, rfl, hevt⟩
  · rw [eccOf_setEcc, hnote]
    exact ⟨rfl, rfl, hevt⟩

/-- An uncorrectable error of the key store leaves its slot BAD (R494). -/
theorem st_keyError (k : Nat) (s : State) : (slotOf k (keyError k s)).st = .bad := by
  unfold keyError
  by_cases h : (slotOf k s).st = .bad
  · rw [if_pos (beq_iff_eq.mpr h)]
    exact h
  · rw [if_neg (by simpa using h)]
    exact (foundBad_spec k s).1

theorem bits_masked (loc : BitVec 64) : bits (loc &&& 0x7FFFFFFFFFFFFFFF).toNat 10 0 = bits loc.toNat 10 0 := by
  have hmask : (loc &&& 0x7FFFFFFFFFFFFFFF).toNat = loc.toNat % 2 ^ 63 := by
    rw [BitVec.toNat_and]
    exact Nat.and_two_pow_sub_one_eq_mod loc.toNat 63
  rw [hmask]
  unfold bits
  omega

/-! ### Laps and leaks (R499, R500) -/

theorem lapLate_of_over (hover : lapOver m s = true) (hlate : (eccOf m s).late = false) :
    lapLate m s = eccEvent 0x0934 m [] none (setEcc m { eccOf m s with late := true } s) :=
  if_pos (by rw [hover, hlate]; rfl)

theorem lapLate_of_within (hover : lapOver m s = false) : lapLate m s = s :=
  if_neg (by rw [hover]; exact Bool.false_ne_true)

/-- A lap that is found late is so in its account only. -/
theorem lapLate_spec (m : Nat) (s : State) : (∃ b, eccOf m (lapLate m s) = { eccOf m s with late := b }) ∧
    (lapLate m s).clk = s.clk ∧ ∀ k, k ≠ m → eccOf k (lapLate m s) = eccOf k s := by
  unfold lapLate
  split
  · exact ⟨⟨_, eccOf_setEcc m _ s⟩, rfl, fun k hk => eccOf_setEcc_other hk _ s⟩
  · exact ⟨⟨_, rfl⟩, rfl, fun _ _ => rfl⟩

theorem patrolAsk_spec (m : Nat) (s : State) : AccountsStay s (patrolAsk m s) ∧ (patrolAsk m s).clk = s.clk := by
  unfold patrolAsk
  split
  · exact ⟨⟨rfl, rfl⟩, rfl⟩
  · exact ⟨.refl s, rfl⟩

/-- Settles O49: errors through the account that each leaves, which the action of an uncorrectable one keeps. -/
theorem memoryIntegrity : Obligations.MemoryIntegrity := by
  unfold Obligations.MemoryIntegrity
  refine ⟨fun m loc s hm => ?_, fun m s hm => ⟨fun ms hends => ?_, fun ms hends => ?_, fun hrun hover hlate harb => ?_,
    fun hno => ?_⟩, fun s => ⟨fun hdue => ?_, fun hdue => ?_⟩,
    fun c s => ⟨fun h => runNow_of_ready h rfl (judgeCmd_eccBucket s), fun h => ?_⟩⟩
  · intro x l hread
    obtain ⟨hbelow, hover, hothers⟩ := corrected_spec hm l s
    have hcorr := exec_correctableError_of_read hm hread
    obtain ⟨⟨y, hself⟩, hevt, hothers'⟩ := noteSuspect_spec m l (corrected m l s)
    refine ⟨⟨_, hcorr, ?_⟩, ?_⟩
    · have hcases : x.level + 1 < x.thresh ∨ x.thresh ≤ x.level + 1 := Nat.lt_or_ge _ _
      refine ⟨?_, ?_, ?_, ?_, fun hlt => ?_, fun hge => ?_, fun k hk => (hothers' k hk).trans (hothers k hk)⟩
      · obtain h | h := hcases
        · rw [hself, hbelow h]
        · rw [hself, (hover h).1]
      · obtain h | h := hcases
        · rw [hself, hbelow h]
        · rw [hself, (hover h).1]
      · obtain h | h := hcases
        · rw [hself, hbelow h]
        · rw [hself, (hover h).1]
      · obtain h | h := hcases
        · rw [hself, hbelow h]
        · rw [hself, (hover h).1]
      · rw [hself, hbelow hlt]
        exact ⟨rfl, rfl⟩
      · rw [hself, (hover hge).1, hevt]
        exact ⟨rfl, rfl, (hover hge).2⟩
    · obtain ⟨hue, hlast, hevt'⟩ := uncorrected_spec hm l s
      have huncorr := exec_uncorrectableError_of_read hm hread
      have hstay := (AccountsStay.refl (uncorrected m l s)).errorAction m l.toNat (eccOf m (uncorrected m l s)).ue
      refine ⟨_, huncorr, ?_, by rw [eccOf_congr hstay]; exact hlast, by rw [hstay.2]; exact hevt', fun h7 => ?_⟩
      · rw [eccOf_congr hstay]
        exact hue
      · subst h7
        rw [← bits_masked]
        exact st_keyError _ _
  · have hexec : exec (.scrubLapEnd m ms) s = .next (setEcc m { eccOf m (patrolAsk m (lapLate m s)) with
        lapMs := min ms (2 ^ 31 - 1), late := false, lap := (eccOf m (patrolAsk m (lapLate m s))).lap + 1
        lapAt := some (patrolAsk m (lapLate m s)).clk.now } (patrolAsk m (lapLate m s))) :=
      named_act (decide_eq_true hm) hends
    obtain ⟨⟨b, hlate⟩, hclk, hothers⟩ := lapLate_spec m s
    obtain ⟨hstay, hclk'⟩ := patrolAsk_spec m (lapLate m s)
    generalize patrolAsk m (lapLate m s) = v at hexec hstay hclk'
    have hv : eccOf m v = { eccOf m s with late := b } := (eccOf_congr hstay m).trans hlate
    refine ⟨_, hexec, ?_, ?_, ?_, ?_, ?_, fun k hk =>
      (eccOf_setEcc_other hk _ v).trans ((eccOf_congr hstay k).trans (hothers k hk))⟩ <;> rw [eccOf_setEcc]
    · rw [hv]
    · rw [hclk', hclk]
    · rw [hv]
  · show named _ (act _ _ _) = _
    rw [decide_eq_true hm, hends]
    rfl
  · have hexec : exec (.scrubLapLate m) s = .next (lapLate m s) := named_act (decide_eq_true hm) (by rw [hrun]; rfl)
    rw [lapLate_of_over hover hlate] at hexec
    exact ⟨_, hexec, congrArg EccMem.late (eccOf_setEcc m _ s), raise_osn (s := setEcc m _ s) harb⟩
  · show named _ (act (!scrubStopped m s) s (lapLate m s)) = _
    obtain hstop | hover := hno
    · rw [decide_eq_true hm, hstop]
      rfl
    · rw [decide_eq_true hm, lapLate_of_within hover]
      exact congrArg Host.Outcome.next (ite_self _)
  · have hexec : exec .bucketLeak s = .next { s with ecc := { s.ecc with
      leakAt := s.mram.opsec
      mems := s.ecc.mems.map fun e => (e.1, { e.2 with level := e.2.level - 1 }) } } := by
      show act _ _ _ = _
      rw [hdue]
      rfl
    refine ⟨_, hexec, rfl, fun m => ?_⟩
    show (look (s.ecc.mems.map fun e => (e.1, { e.2 with level := e.2.level - 1 })) m).getD {} = _
    rw [look_map_entry (g := fun e : Nat × EccMem => (e.1, { e.2 with level := e.2.level - 1 })) (fun _ => rfl),
      eccOf, lookD]
    cases look s.ecc.mems m with
    | none => rfl
    | some x => rfl
  · show act _ _ _ = _
    rw [hdue]
    rfl
  · exact ⟨runNow_of_ready h rfl (judgeCmd_eccQuery s), fun hring => resOut_of_host hring _ _ s⟩

end Sys2Proof.Machine
end

section
/-! Proof of the statement on observation. -/

namespace Sys2Proof.Machine

open Sys2Proof

set_option Elab.async false

variable {c : Cmd} {k t : Nat} {r : TrRec} {rs : List TrRec} {s : State}

/-! ### Sensors (R170, R171) -/

/-- A table of the function `f` on a list of keys, of which only the values that `p` accepts are kept. -/
theorem look_filter_map {α : Type} (f : Nat → α) (p : α → Bool) (ks : List Nat) (hk : k ∈ ks) :
    look ((ks.map fun i => (i, f i)).filter fun e => p e.2) k = if p (f k) = true then some (f k) else none := by
  have key (l : List Nat) : look ((l.map fun i => (i, f i)).filter fun e => p e.2) k =
      if k ∈ l ∧ p (f k) = true then some (f k) else none := by
    induction l with
    | nil => simp [look]
    | cons i l ih =>
      rw [List.map_cons, List.filter_cons]
      by_cases hi : i = k
      · subst hi
        by_cases hp : p (f i) = true
        · simp [hp, look]
        · rw [if_neg hp, ih]
          simp [hp]
      · by_cases hp : p (f i) = true
        · simp [hp, look, hi, ih, Ne.symm hi]
        · rw [if_neg hp, ih]
          simp [Ne.symm hi]
  rw [key ks]
  simp [hk]

/-- A poll whose sensor gave no value keeps the last one, or holds a free value (R171; log entry 22). -/
theorem unreadValue_spec (p : Poll) (s : State) : (∃ n, (unreadValue p s).2 = { s with free := n }) ∧
    (p.readAt ≠ none → (unreadValue p s).1 = p.value) := by
  unfold unreadValue
  cases hat : p.readAt with
  | none => exact ⟨⟨_, rfl⟩, fun h => absurd rfl h⟩
  | some a => exact ⟨⟨_, rfl⟩, fun _ => rfl⟩

/-! ### The trace port (R549, R550) -/

theorem queueRecord_of_room (hlane : leastLane s (lanesOf s.obs.lanes) = some t)
    (hroom : (laneQueue t s).length < 1024) : queueRecord r s =
      { s with obs := { s.obs with queues := put s.obs.queues t (laneQueue t s ++ [r]) } } := by
  rw [queueRecord, hlane]
  exact if_neg (Nat.not_le.mpr hroom)

theorem queueRecord_of_full (hlane : leastLane s (lanesOf s.obs.lanes) = some t)
    (hfull : 1024 ≤ (laneQueue t s).length) : queueRecord r s = dropRecord s := by
  rw [queueRecord, hlane]
  exact if_pos hfull

theorem queueRecord_keeps (r : TrRec) (s : State) : (queueRecord r s).obs.ready = s.obs.ready ∧
    { queueRecord r s with obs := s.obs } = s := by
  cases hlane : leastLane s (lanesOf s.obs.lanes) with
  | none =>
    rw [queueRecord, hlane]
    exact ⟨rfl, rfl⟩
  | some t =>
    obtain hroom | hfull := Nat.lt_or_ge (laneQueue t s).length 1024
    · rw [queueRecord_of_room hlane hroom]
      exact ⟨rfl, rfl⟩
    · rw [queueRecord_of_full hlane hfull]
      exact ⟨rfl, rfl⟩

/-- The least loaded lane depends on the queues alone. -/
theorem leastLane_congr {u : State} (h : u.obs.queues = s.obs.queues) (l : List Nat) :
    leastLane u l = leastLane s l := by
  have hq (i : Nat) : laneQueue i u = laneQueue i s := congrArg (fun q => lookD q i []) h
  induction l with
  | nil => rfl
  | cons i l ih =>
    rw [leastLane, leastLane, ih]
    cases leastLane s l with
    | none => rfl
    | some j => simp only [hq]

/-! ### The statement -/

/-- Settles O50: each command stores or answers its block, a poll and a trace record change what they name. -/
theorem observationTakesEffect : Obligations.ObservationTakesEffect := by
  unfold Obligations.ObservationTakesEffect
  refine ⟨fun c s => ⟨fun h => ?_, fun h l hbank => ?_, fun h => ?_, fun h => ?_, fun h => ?_⟩,
    fun v s => ⟨fun hall hpcie => ?_, fun hpart => ?_⟩, fun n a v p s hn hpoll hphase hdue => ?_,
    fun r rs s hready => ?_, fun t r rs s ht hqueue hlane hclk => ?_⟩
  · exact ⟨_, runNow_of_ready h rfl (judgeCmd_obsTrace s), rfl, rfl, rfl, rfl, rfl, rfl, rfl⟩
  · have hlen : (snapBlock l s).length = 16 + 8 * l.length := by
      rw [snapBlock, List.length_append, List.length_append, toLe_length, toLe_length, List.length_flatMap]
      simp [toLe_length, Nat.mul_comm]
    have heff : effObsSnapshot c s = resOut c (snapBlock l s) (some (BitVec.ofNat 32 (16 + 8 * l.length))) s := by
      rw [effObsSnapshot, hbank, ← hlen]
      rfl
    refine ⟨?_, fun hring => resOut_of_host hring _ _ s⟩
    rw [← heff]
    exact runNow_of_ready h rfl (judgeCmd_obsSnapshot s)
  · refine ⟨_, runNow_of_ready h rfl (judgeCmd_snsConfig s), fun i hi => ?_, rfl⟩
    refine (look_filter_map (pollAt c.block) (fun p => p.addr != 0) _ (List.mem_range.mpr hi)).trans ?_
    simp
  · exact ⟨runNow_of_ready h rfl (judgeCmd_snsRead s), fun hring => resOut_of_host hring _ _ _⟩
  · exact ⟨runNow_of_ready h rfl (judgeCmd_obsIdent s), fun hring => resOut_of_host hring _ _ s⟩
  · have hsome : s.rst.pcieAt.isSome = true := Option.isSome_iff_ne_none.mpr hpcie
    show act (s.rst.pcieAt.isSome && v.toNat / 65536 == 65535) _ _ = _
    rw [hsome, hall]
    rfl
  · show act (s.rst.pcieAt.isSome && v.toNat / 65536 == 65535) _ _ = _
    rw [beq_false_of_ne hpart, Bool.and_false]
    rfl
  · have hact : (s.rst.phase == .started && pollDue p s) = true := by
      rw [hphase, hdue]
      rfl
    have hexec (d : BitVec 16 × State)
        (hd : d = if a then (if p.len = 1 then v &&& 0xFF else v, s) else unreadValue p s) :
        exec (.sensorPoll n a v) s = .next { d.2 with hw := { s.hw with
          polls := put s.hw.polls n { p with value := d.1, acked := a, readAt := some s.clk.now } } } := by
      subst hd
      show named _ (match look s.hw.polls n with | none => _ | some p => _) = _
      rw [hpoll]
      exact named_act (decide_eq_true hn) hact
    cases a with
    | true =>
      exact ⟨_, _, hexec _ rfl, look_put_self _ _ _, fun _ => rfl, nofun,
        fun k hk => look_put_other _ _ hk, rfl⟩
    | false =>
      obtain ⟨⟨m, hfree⟩, hlast⟩ := unreadValue_spec p s
      refine ⟨_, _, hexec (unreadValue p s) rfl, look_put_self _ _ _, nofun, fun _ => hlast,
        fun k hk => look_put_other _ _ hk, ?_⟩
      rw [hfree]
  · have hexec : exec .traceRecord s = .next (queueRecord r { s with obs := { s.obs with ready := rs } }) := by
      show execTraceRecord s = _
      rw [execTraceRecord, hready]
    obtain ⟨hrest, hframe⟩ := queueRecord_keeps r { s with obs := { s.obs with ready := rs } }
    have hlanes := leastLane_congr (s := s) (u := { s with obs := { s.obs with ready := rs } }) rfl
      (lanesOf s.obs.lanes)
    refine ⟨_, hexec, hrest, congrArg (fun u : State => { u with obs := s.obs }) hframe,
      fun t ht hroom => ?_, fun t ht hfull => ?_⟩
    · rw [queueRecord_of_room (hlanes.trans ht) hroom]
      exact ⟨lookD_put_self _ _ _ _, rfl⟩
    · rw [queueRecord_of_full (hlanes.trans ht) hfull]
      exact ⟨rfl, rfl⟩
  · have hexec : exec (.traceUnit t) s = .next (sendUnit t r { s with obs := { s.obs with
        queues := put s.obs.queues t rs } }) := by
      have hback : sdclkBack s = s := if_pos hclk
      show named _ (match laneQueue t s with | [] => _ | r :: rs => _) = _
      rw [hqueue, hback]
      exact named_act (decide_eq_true ht) hlane
    exact ⟨_, hexec, lookD_put_self _ _ _ _, lookD_put_self _ _ _ _, rfl, rfl⟩

end Sys2Proof.Machine
end

section
/-! Proof of the statement on the state right after reset and the idle step. -/

namespace Sys2Proof.Machine

open Sys2Proof

set_option Elab.async false

variable {s : State}

/-! ### What the transmitters of the Graft link change (R463) -/

/-- The Graft engine alone differs. -/
def LinkOnly (s t : State) : Prop := { t with gft := s.gft } = s

namespace LinkOnly

theorem trans {s t u : State} (h : LinkOnly s t) (h' : LinkOnly t u) : LinkOnly s u := by
  unfold LinkOnly at h h' ⊢
  exact (congrArg (fun v : State => { v with gft := s.gft }) h').trans h

theorem startFrame (lane : Nat) (s : State) : LinkOnly s (startFrame lane s) := by
  unfold Machine.startFrame
  split
  · rfl
  · split
    · rfl
    · rename_i q ptr _
      unfold LinkOnly
      cases q.seq with
      | none => rfl
      | some n => rfl

theorem frameStarts (s : State) : LinkOnly s (frameStarts s) := (startFrame 0 s).trans (startFrame 1 _)

theorem gftQueue (fs : List TxReq) (s : State) : LinkOnly s (gftQueue fs s) :=
  trans (t := { s with gft := { s.gft with txWait := s.gft.txWait ++ fs } }) rfl (frameStarts _)

theorem gftSend (b : GBody) (ls : List Nat) (s : State) : LinkOnly s (gftSend b ls s) := gftQueue _ s

theorem gftSendOne (b : GBody) (s : State) : LinkOnly s (gftSendOne b s) := by
  unfold Machine.gftSendOne
  split
  · rfl
  · exact gftQueue _ s

theorem sendAck (mark : Option Nat) (s : State) : LinkOnly s (sendAck mark s) :=
  trans (t := { s with gft := { s.gft with rxSince := 0 } }) rfl (gftSendOne _ _)

theorem linkTimers (s : State) : LinkOnly s (linkTimers s) := by
  unfold Machine.linkTimers
  split
  · rfl
  · exact trans (t := { s with gft := { s.gft with helloDue := s.clk.now + 2000 } }) rfl
      ((gftSend _ _ _).trans (sendAck _ _))

end LinkOnly

theorem startFrame_of_noLane (lane : Nat) (h : s.gft.lanes = []) : startFrame lane s = s := by
  rw [startFrame, h]
  rfl

theorem frameStarts_of_noLane (h : s.gft.lanes = []) : frameStarts s = s := by
  rw [frameStarts, startFrame_of_noLane 0 h, startFrame_of_noLane 1 h]

theorem linkTimers_of_noLane (h : s.gft.lanes = []) : linkTimers s = s := by
  rw [linkTimers, h]
  rfl

/-- HELLOs and an ACK that are due leave, and are due again 2,000 ns later (R462, R464). -/
theorem helloDue_linkTimers (hlanes : s.gft.lanes ≠ []) (hcold : coldHeld s = false)
    (hdue : s.gft.helloDue ≤ s.clk.now) : (linkTimers s).gft.helloDue = s.clk.now + 2000 := by
  have hno : (s.gft.lanes.isEmpty || coldHeld s || decide (s.clk.now < s.gft.helloDue)) = false := by
    rw [List.isEmpty_eq_false_iff.mpr hlanes, hcold, decide_eq_false (Nat.not_lt.mpr hdue)]
    rfl
  rw [linkTimers, if_neg (by rw [hno]; exact Bool.false_ne_true), sendAck]
  exact (eq_of_core (core_gftSendOne _ _) Gft.helloDue fun _ => rfl).trans
    (eq_of_core (core_gftSend _ _ _) Gft.helloDue fun _ => rfl)

/-- Settles O60: the reset state is evaluated field by field; the idle step is `idle` with its two link parts. -/
theorem resetStateAndIdle : Obligations.ResetStateAndIdle := by
  unfold Obligations.ResetStateAndIdle
  refine ⟨rfl, List.Pairwise.nil, rfl, rfl, rfl, rfl, rfl, rfl, rfl, rfl, rfl, rfl, rfl, rfl, fun s hnone => ?_⟩
  intro t
  have hstep : step s = .next (frameStarts (linkTimers t)) := by rw [step, hnone]; rfl
  refine ⟨hstep, fun hlanes => ?_, fun hlanes hcold hdue => helloDue_linkTimers hlanes hcold hdue, fun u hu => ?_⟩
  · have hlanes' : t.gft.lanes = [] := hlanes
    rw [hstep, linkTimers_of_noLane hlanes', frameStarts_of_noLane hlanes']
  · rw [← Host.Outcome.next.inj (hstep.symm.trans hu)]
    exact ((LinkOnly.linkTimers t).trans (LinkOnly.frameStarts _))

end Sys2Proof.Machine
end

section
/-! Proof of the statement on the ends of STOPPING objects. -/

namespace Sys2Proof.Machine

open Sys2Proof

set_option Elab.async false

variable {n : Nat} {s t : State}

/-! ### A time base that is OFF has no compare (R317) -/

/-- Time base `n` is OFF, has no rate, and no compare names it. -/
structure TbOff (n : Nat) (s : State) : Prop where
  off : (tbOf n s).en = .off
  rate : (tbOf n s).rate = 0
  free : ∀ c ∈ s.tim.cmps, c.tb ≠ n

namespace TbOff

/-- Fewer compares keep it so. -/
theorem of_sublist (h : TbOff n s) (hb : t.tim.bases = s.tim.bases) (hc : ∀ c ∈ t.tim.cmps, c ∈ s.tim.cmps) :
    TbOff n t := by
  obtain ⟨hoff, hrate, hfree⟩ := h
  have hbase : tbOf n t = tbOf n s := tbOf_congr hb n
  exact ⟨by rw [hbase]; exact hoff, by rw [hbase]; exact hrate, fun c h => hfree c (hc c h)⟩

theorem of_tim (h : TbOff n s) (ht : t.tim = s.tim) : TbOff n t :=
  h.of_sublist (congrArg Tim.bases ht) fun c hc => by rwa [ht] at hc

/-- PPS_OUT is not armed on a time base that is OFF (R318). -/
theorem armPps (h : TbOff n s) (target : Nat) : TbOff n (armPps target s) := by
  unfold Machine.armPps
  dsimp only
  split
  · rename_i hon
    have htb : s.tim.ppsOut.tb ≠ n := fun heq => by
      rw [heq, h.off] at hon
      simp at hon
    refine ⟨h.off, h.rate, fun c hc => ?_⟩
    obtain hold | hnew := List.mem_append.mp hc
    · exact h.free c hold
    · rw [List.mem_singleton.mp hnew]
      exact htb
  · exact h

theorem applyPps (h : TbOff n s) (target : Nat) : TbOff n (applyPps target s) := by
  cases hnext : s.tim.ppsNext with
  | none => rwa [Machine.applyPps, hnext]
  | some p =>
    rw [Machine.applyPps, hnext]
    refine armPps ?_ target
    exact h.of_sublist rfl fun c hc => (List.mem_filter.mp hc).1

theorem loadDone (h : TbOff n s) (q : Pend) : TbOff n (loadDone q s) := by
  unfold Machine.loadDone
  split
  · exact h
  · split
    · exact h.of_sublist rfl fun c hc => (List.mem_filter.mp hc).1
    · exact h

theorem releasePend (h : TbOff n s) (k : Nat) (lost : Bool) : TbOff n (releasePend k lost s) := by
  unfold Machine.releasePend
  dsimp only
  split
  · exact h
  · rw [channelDone]
    refine loadDone ?_ _
    exact h.of_tim rfl

theorem cancelLoad (h : TbOff n s) (ring gen : Nat) (seq : Word) : TbOff n (cancelLoad ring gen seq s) := by
  unfold Machine.cancelLoad
  generalize List.range 16 = l
  induction l generalizing s with
  | nil => exact h
  | cons k l ih =>
    refine ih ?_
    dsimp only
    split
    · split
      · exact h.releasePend k true
      · exact h
    · exact h

theorem cancelUse (h : TbOff n s) (u : CmpUse) : TbOff n (cancelUse u s) := by
  cases u with
  | rollover k =>
    unfold Machine.cancelUse
    dsimp only
    split
    · exact h.of_tim rfl
    · exact h
  | ppsOut => exact h
  | ppsSet => exact h.applyPps 0
  | load r g q => exact h.cancelLoad r g q
  | trigger r e => exact h.of_tim rfl

theorem cancelUses (h : TbOff n s) (l : List Cmp) : TbOff n (cancelUses l s) := by
  induction l generalizing s with
  | nil => exact h
  | cons c l ih => exact ih (h.cancelUse c.use)

end TbOff

/-- A time base that no command holds is OFF once it has stopped (R313, R317). -/
theorem stopTb_of_unheld (hheld : (tbOf n s).held = false) : TbOff n (stopTb n s) := by
  obtain ⟨c, hleave⟩ := leaveHold_spec n s
  obtain ⟨hjudged, ⟨w, hbase⟩, -⟩ := lapse_spec n true (leaveHold n s)
  have hcmps : (lapse n true (leaveHold n s)).tim.cmps = s.tim.cmps := by
    rw [(congrArg (fun u : State => u.tim.cmps) hjudged.frame :), hleave]
  have hunheld : (tbOf n (lapse n true (leaveHold n s))).held = false := by
    rw [hbase, tbOf_congr (show (leaveHold n s).tim.bases = s.tim.bases by rw [hleave]) n]
    exact hheld
  unfold stopTb
  dsimp only
  rw [hunheld]
  generalize hs1 : setTb n _ _ = s1
  have hoff : TbOff n s1 := by
    rw [← hs1]
    refine ⟨congrArg TBase.en (tbOf_setTb n _ _), congrArg TBase.rate (tbOf_setTb n _ _), fun d hd => ?_⟩
    have hd' : d ∈ (lapse n true (leaveHold n s)).tim.cmps.filter fun c => c.tb != n := hd
    simpa using (List.mem_filter.mp hd').2
  refine TbOff.of_tim (TbOff.cancelUses ?_ _) rfl
  split
  · exact hoff
  · exact ⟨hoff.off, hoff.rate, hoff.free⟩

/-! ### The other kinds -/

/-- A partition that no command holds is CREATED and OFF once it has stopped (R149). -/
theorem stopPart_of_unheld {x : Part} (hx : look s.cnp.parts n = some x) (hheld : x.held = false) :
    (arbHeld s = false → (stopPart n s).arb.osn = s.arb.osn + 1) ∧
    ((look (stopPart n s).cnp.parts n).map fun y => (y.en, y.st)) = some (.off, .created) := by
  have hbody : stopPart n s = raise { src := 0, code := 1, kind := 1, index := n }
      (setPart n { x with en := .off, held := false, st := .created, lastTick := false } s) := by
    rw [stopPart, partOf, hx]
    dsimp only
    rw [hheld]
    rfl
  obtain ⟨l, w, hlook⟩ := look_raise (e := { src := 0, code := 1, kind := 1, index := n })
    (look_setPart_self n { x with en := .off, held := false, st := .created, lastTick := false } s)
  rw [hbody]
  exact ⟨fun harb => raise_osn (s := setPart n _ s) harb, by rw [hlook]; rfl⟩

theorem stopRing_of_unheld {x : Ring} (hx : look s.rng.rings n = some x) (hheld : x.held = false) : stopRing n s =
    raise { src := 0, code := 1, kind := 2, index := n } (setRing n { x with st := .off, held := false } s) := by
  rw [stopRing, ringOf, hx]
  dsimp only
  rw [hheld]
  rfl

theorem stopRing_of_held {x : Ring} (hx : look s.rng.rings n = some x) (hheld : x.held = true) : stopRing n s =
    raise { src := 0, code := 2, kind := 2, index := n } (raise { src := 0, code := 1, kind := 2, index := n }
      (setRing n { x with st := .on, held := false } s)) := by
  rw [stopRing, ringOf, hx]
  dsimp only
  rw [hheld]
  rfl

theorem arbHeld_setRing (n : Nat) (x : Ring) (s : State) : arbHeld (setRing n x s) = arbHeld s :=
  have hrst : (setRing n x s).rst = s.rst := by
    obtain ⟨m, c, h⟩ := setRing_frame (r := n) (x := x) (s := s)
    rw [h]
  arbHeld_congr hrst

theorem look_setRing_self (n : Nat) (x : Ring) (s : State) : look (setRing n x s).rng.rings n = some x := by
  obtain ⟨m, c, h⟩ := setRing_frame (r := n) (x := x) (s := s)
  rw [h]
  exact look_put_self _ _ _

/-- A stream that no command holds is OFF once it has stopped (R149). -/
theorem stopStream_of_unheld (hheld : (strmOf n s).held = false) (harb : arbHeld s = false) :
    (stopStream n s).arb.osn = s.arb.osn + 1 ∧ (strmOf n (stopStream n s)).en = .off := by
  unfold stopStream
  dsimp only
  rw [hheld]
  exact ⟨raise_osn (s := setStrm n _ _) harb, congrArg Strm.en (strmOf_setStrm n _ _)⟩

theorem stopPub_of_unheld (hheld : (pubOf n s).held = false) : stopPub n s =
    raise { src := 0, code := 1, kind := 4, index := n } (setPub n { pubOf n s with en := .off } s) := by
  unfold stopPub
  dsimp only
  rw [hheld]
  rfl

theorem stopPort_of_unheld (hheld : (portOf n s).held = false) : (portOf n (stopPort n s)).en = .off := by
  unfold stopPort
  dsimp only
  rw [hheld]
  exact congrArg Port.en (portOf_setPort n _ _)

theorem stopOut_of_unheld (hheld : (outCh n s).held = false) (hpend : (outCh n s).pend = none) : stopOut n s =
    raise { src := 0, code := 1, kind := 8, index := n }
      (setOut n { outCh n s with en := .off, held := false, w := false, pullIn := false, inPeriod := false } s) := by
  unfold stopOut
  dsimp only
  rw [releasePend_of_none hpend, hheld]
  rfl

/-- The pins of a channel that is OFF have their safe levels (R537). -/
theorem drivePins_of_off {c : OutCh} (hoff : c.en = .off) (hcold : coldPins s = false) :
    drivePins c s = { c with pinA := safeA c, pinB := safeB c, dueA := false, dueB := false } := by
  have hrule : pinRule c s = .safe := by
    rw [pinRule, hcold, hoff]
    simp
  rw [drivePins, hrule]
  rfl

theorem en_drivePins (c : OutCh) (s : State) : (drivePins c s).en = c.en := by
  unfold drivePins drive
  split <;> rfl

theorem stopBin_of_unheld (hheld : (binOf n s).held = false) : stopBin n s =
    levelChange 2 n false (raise { src := 0, code := 1, kind := 9, index := n }
      (setBin n { binOf n s with en := .off, held := false, state := false, runOpen := false } s)) := by
  unfold stopBin
  dsimp only
  rw [hheld]
  rfl

/-- Settles O59: one row for the nine kinds, each with the operation that stops its object. -/
theorem stoppingEnds : Obligations.StoppingEnds := by
  unfold Obligations.StoppingEnds
  intro n s harb
  refine ⟨fun x hn hstop hx hheld => ?_, fun x hn hstop hx hheld => ?_, fun x hn hstop hx hheld => ?_,
    fun hn hstop hheld => ?_, fun hn hstop hheld => ?_, fun hn hstop hheld => ?_, fun hn hstop hheld => ?_,
    fun x hn hstop hx hheld => ?_, fun hn hstop hheld hpend => ?_, fun hn hstop hheld => ?_, rfl⟩
  · obtain ⟨hosn, hlook⟩ := stopPart_of_unheld hx hheld
    exact ⟨_, named_act (decide_eq_true hn) hstop, hosn harb, hlook⟩
  · have hexec : exec (.stoppingEnd 2 n) s = .next (stopRing n s) := named_act (decide_eq_true hn) hstop
    rw [stopRing_of_unheld hx hheld] at hexec
    refine ⟨_, hexec, ?_, look_setRing_self n _ s⟩
    rw [raise_osn ((arbHeld_setRing n _ s).trans harb), setRing_arb]
  · have hexec : exec (.stoppingEnd 2 n) s = .next (stopRing n s) := named_act (decide_eq_true hn) hstop
    rw [stopRing_of_held hx hheld] at hexec
    refine ⟨_, hexec, ?_, look_setRing_self n _ s⟩
    rw [raise_osn (s := raise _ (setRing n _ s)) ((arbHeld_setRing n _ s).trans harb),
      raise_osn ((arbHeld_setRing n _ s).trans harb), setRing_arb]
  · obtain ⟨hosn, hoff⟩ := stopStream_of_unheld hheld harb
    exact ⟨_, named_act (decide_eq_true hn) hstop, hosn, hoff⟩
  · have hexec : exec (.stoppingEnd 4 n) s = .next (stopPub n s) := named_act (decide_eq_true hn) hstop
    rw [stopPub_of_unheld hheld] at hexec
    exact ⟨_, hexec, raise_osn (s := setPub n _ s) harb, pubOf_setPub n _ s⟩
  · exact ⟨_, named_act (decide_eq_true hn) hstop, stopPort_of_unheld hheld⟩
  · obtain ⟨hoff, hrate, hfree⟩ := stopTb_of_unheld hheld
    exact ⟨_, named_act (decide_eq_true hn) hstop, hoff, hrate, hfree⟩
  · have hrec : (recOf n s).held = false := by
      rw [recOf, lookD, hx]
      exact hheld
    obtain ⟨hoff, hosn⟩ := offRec_of_unheld hrec
    exact ⟨_, named_act (decide_eq_true hn) hstop, hosn harb, hoff⟩
  · have hexec : exec (.stoppingEnd 8 n) s = .next (stopOut n s) := named_act (decide_eq_true hn) hstop
    rw [stopOut_of_unheld hheld hpend] at hexec
    refine ⟨_, hexec, raise_osn (s := setOut n _ s) harb, ?_, fun hcold => ?_⟩
    · exact (congrArg OutCh.en (outCh_setOut n _ s)).trans (en_drivePins _ s)
    · have hpins := (outCh_setOut n _ s).trans (drivePins_of_off (c := { outCh n s with
        en := .off, held := false, w := false, pullIn := false, inPeriod := false }) rfl hcold)
      exact ⟨congrArg OutCh.pinA hpins, congrArg OutCh.pinB hpins⟩
  · have hexec : exec (.stoppingEnd 9 n) s = .next (stopBin n s) := named_act (decide_eq_true hn) hstop
    rw [stopBin_of_unheld hheld] at hexec
    have hself := binOf_setBin n { binOf n s with en := .off, held := false, state := false, runOpen := false } s
    exact ⟨_, hexec, raise_osn (s := setBin n _ s) harb, congrArg BinIn.en hself, congrArg BinIn.state hself⟩

end Sys2Proof.Machine
end

section
/-! Proof of the statement on writes of the setup window. -/

namespace Sys2Proof.Machine

open Sys2Proof

set_option Elab.async false

variable {o i : Nat} {v : Word} {s t : State}

/-! ### What the window reads rests on no passed vote (R553) -/

section
variable (e : Emission) (s : State)

theorem readLow_usePassed (o : Nat) : readLow o (usePassed e s) = readLow o s := by
  unfold readLow
  split <;> rfl

theorem readNet_usePassed (o : Nat) : readNet o (usePassed e s) = readNet o s := by
  unfold readNet
  split <;> rfl

theorem readHigh_usePassed (o : Nat) : readHigh o (usePassed e s) = readHigh o s := by
  unfold readHigh
  split <;> rfl

/-! The registers of the numbered objects. -/

theorem regTriad_usePassed (i : Nat) : regTriad i (usePassed e s) = regTriad i s := rfl

theorem regPort_usePassed (i : Nat) : regPort i (usePassed e s) = regPort i s := rfl

theorem regTb_usePassed (i : Nat) : regTb i (usePassed e s) = regTb i s := rfl

theorem regMeas_usePassed (i : Nat) : regMeas i (usePassed e s) = regMeas i s := rfl

theorem regAcq_usePassed (i : Nat) : regAcq i (usePassed e s) = regAcq i s := rfl

theorem regLap_usePassed (i : Nat) : regLap i (usePassed e s) = regLap i s := rfl

theorem logWindow_usePassed (i : Nat) : logWindow i (usePassed e s) = logWindow i s := rfl

theorem regOut_usePassed (i : Nat) : regOut i (usePassed e s) = regOut i s := rfl

theorem regSnap_usePassed (i j : Nat) : regSnap i j (usePassed e s) = regSnap i j s := rfl

theorem regAt_usePassed (o : Nat) : regAt o (usePassed e s) = regAt o s := by
  unfold regAt
  extract_lets i within
  rw [regTriad_usePassed, regPort_usePassed, regTb_usePassed, regSnap_usePassed, regMeas_usePassed, regAcq_usePassed,
    regLap_usePassed, logWindow_usePassed, regOut_usePassed, readLow_usePassed, readNet_usePassed, readHigh_usePassed]

theorem readReg_usePassed (o w : Nat) : readReg o w (usePassed e s) = readReg o w s := by
  rw [readReg, regAt_usePassed, readReg]
end

/-! ### The bits that a write clears (R13, R14) -/

theorem clears_of_none (h : s.sets = []) (o : Nat) (v : Word) : clears o v s = v := by rw [clears, h]; rfl

/-- A bit that the module sets at the instant of the write is not cleared (R14). -/
theorem getLsbD_clears_of_set (hi : i < 32) (h : (o, i) ∈ s.sets) : (clears o v s).getLsbD i = false := by
  unfold clears
  have hstep (e : Nat × Nat) (w : Word) (hw : w.getLsbD i = false) :
      (if e.1 = o then w &&& ~~~(BitVec.ofNat 32 (2 ^ e.2)) else w).getLsbD i = false := by
    split
    · rw [BitVec.getLsbD_and, hw, Bool.false_and]
    · exact hw
  have hkeep (l : List (Nat × Nat)) (w : Word) (hw : w.getLsbD i = false) :
      (l.foldl (fun w e => if e.1 = o then w &&& ~~~(BitVec.ofNat 32 (2 ^ e.2)) else w) w).getLsbD i = false := by
    induction l generalizing w with
    | nil => exact hw
    | cons e l ih => exact ih _ (hstep e w hw)
  generalize s.sets = l at h
  induction l generalizing v with
  | nil => simp at h
  | cons e l ih =>
    obtain rfl | hmem := List.mem_cons.mp h
    · refine hkeep l _ ?_
      dsimp only
      rw [if_pos rfl, BitVec.getLsbD_and, BitVec.getLsbD_not, BitVec.getLsbD_ofNat]
      simp [hi]
    · exact ih hmem

/-! ### What a write leaves unchanged -/

/-- What no register holds: memory, the OSN, the persistent state, the rings and the journal, the partitions, the keys
and the time bases (R553). -/
def outside (s : State) : List Host.Cell × Arb × Mram × Tbl Ring × List JRec × Tbl Part × Tbl KSlot × Tbl TBase :=
  (s.mem, s.arb, s.mram, s.rng.rings, s.rng.jrnl, s.cnp.parts, s.key.slots, s.tim.bases)

theorem outside_ite {q : Prop} [Decidable q] (h : outside t = outside s) : outside (if q then t else s) = outside s := by
  split
  · exact h
  · rfl

theorem outside_writeLock (v : Word) (s : State) : outside (writeLock v s) = outside s := outside_ite rfl

theorem outside_writeHash (v : Word) (s : State) : outside (writeHash v s) = outside s := outside_ite rfl

theorem outside_writeSnap (v : Word) (s : State) : outside (writeSnap v s) = outside s := outside_ite rfl

theorem outside_writeObs (v : Word) (s : State) : outside (writeObs v s) = outside s := outside_ite rfl

theorem outside_writeTc (v : Word) (s : State) : outside (writeTc v s) = outside s := by
  unfold writeTc
  split <;> rfl

theorem outside_writePort (n : Nat) (v : Word) (s : State) : outside (writePort n v s) = outside s := outside_ite rfl

theorem outside_writeAt (o : Nat) (v : Word) (s : State) : outside (writeAt o v s) = outside s := by
  unfold writeAt
  dsimp only
  split
  case h_1 => exact outside_writeLock v s
  case h_9 => exact outside_writeTc v s
  case h_10 => exact outside_writeHash v s
  case h_12 => exact outside_writeSnap v s
  case h_23 => exact outside_writeObs v s
  all_goals rfl

theorem outside_writeReg (o w : Nat) (v : Word) (s : State) : outside (writeReg o w v s) = outside s := by
  unfold writeReg
  refine outside_ite ?_
  split
  · exact outside_writePort _ v s
  · exact outside_writeAt o v s

theorem writeReg_of_bad {w : Nat} (h : w ≠ 4 ∨ o % 4 ≠ 0) (v : Word) (s : State) : writeReg o w v s = s :=
  if_neg fun hgood => h.elim (fun hw => hw hgood.1) (fun ho => ho hgood.2)

/-- Settles O58: a write of the window is `writeReg`, which `writeAt` resolves at each register. -/
theorem registerWrites : Obligations.RegisterWrites := by
  unfold Obligations.RegisterWrites
  refine ⟨fun o w v s hnone => ?_, fun o w v s hpcie => ?_, fun v s => ⟨fun hv hrun hpcie => ?_, fun hv hpcie => ?_,
    fun hrun => ?_, fun hnone => ?_, fun hv => ?_⟩, fun o s ho hp0 => ⟨fun w hpass => ?_, fun w v hpass => ?_⟩⟩
  · show act s.rst.pcieAt.isSome _ _ = _
    rw [hnone]
    rfl
  · have hexec : exec (.registerWrite o w v) s = .next (writeReg o w v s) := by
      show act s.rst.pcieAt.isSome _ _ = _
      rw [Option.isSome_iff_ne_none.mpr hpcie]
      rfl
    have hout := outside_writeReg o w v s
    refine ⟨_, hexec, fun hbad => writeReg_of_bad hbad v s, ?_, ?_, ?_, ?_, ?_, ?_, ?_, ?_⟩
    · rintro (rfl | rfl | rfl | rfl | rfl) <;> exact ite_self s
    · rintro rfl rfl hsets
      show { s with rst := { s.rst with cause := w1c s.rst.cause (clears 0x0100 v s) } } = _
      rw [clears_of_none hsets]
      rfl
    · rintro rfl rfl i hi hset
      show (s.rst.cause &&& ~~~((clears 0x0100 v s).setWidth 10)).getLsbD i = _
      rw [BitVec.getLsbD_and, BitVec.getLsbD_not, BitVec.getLsbD_setWidth,
        getLsbD_clears_of_set (by omega) hset]
      simp [hi]
    · rintro rfl rfl
      rfl
    · rintro rfl rfl hsets
      show (s.pow.alm && !tbit (clears 0x0044 v s).toNat 31) = _
      rw [clears_of_none hsets]
      rfl
    · rintro rfl rfl hsets
      show w1c s.rng.evt (clears 0x0404 v s) = _
      rw [clears_of_none hsets]
      rfl
    · rintro rfl rfl
      rfl
    · simpa [outside] using hout
  · show act s.rst.pcieAt.isSome _ (if (tbit v.toNat 0 && !warmHeld s) = true then _ else _) = _
    have hlock : (tbit v.toNat 0 && !warmHeld s) = true := by
      have hbit : tbit v.toNat 0 = true := hv
      rw [hbit, warmHeld, hrun]
      rfl
    rw [Option.isSome_iff_ne_none.mpr hpcie, if_pos hlock]
    rfl
  · have hbit : tbit v.toNat 0 = true := hv
    show act s.rst.pcieAt.isSome _ (if tbit v.toNat 0 = true then _ else _) = _
    rw [Option.isSome_iff_ne_none.mpr hpcie, if_pos hbit]
    rfl
  · have hlock : (tbit v.toNat 0 && !warmHeld s) = false := by
      rw [warmHeld, bne_iff_ne.mpr hrun]
      simp
    show act s.rst.pcieAt.isSome s (if (tbit v.toNat 0 && !warmHeld s) = true then _ else _) = _
    rw [hlock]
    exact congrArg Host.Outcome.next (ite_self s)
  · have hidle (t : State) : act s.rst.pcieAt.isSome s t = .next s := by
      rw [hnone]
      rfl
    refine ⟨hidle _, hidle _, hidle _, ?_⟩
    show act (s.rst.pcieAt.isSome && _) _ _ = _
    rw [hnone]
    rfl
  · have hbit : tbit v.toNat 0 = false := hv
    constructor
    · show act s.rst.pcieAt.isSome s (if (tbit v.toNat 0 && !warmHeld s) = true then _ else _) = _
      rw [hbit]
      exact congrArg Host.Outcome.next (ite_self s)
    · show act s.rst.pcieAt.isSome s (if tbit v.toNat 0 = true then _ else _) = _
      rw [hbit]
      exact congrArg Host.Outcome.next (ite_self s)
  · have hact : (p0Exists s && hasPassed (.mirror o ⟨w, none⟩) s) = true := by
      rw [hp0, hasPassed, List.contains_iff_mem.mpr hpass]
      rfl
    refine ⟨_, named_act (decide_eq_true ho) hact, readReg_usePassed _ s o w, rfl, fun hbad => ?_, rfl⟩
    exact if_neg fun hgood => hbad.elim (fun hw => hw hgood.1) (fun ho => ho hgood.2)
  · have hact : (p0Exists s && hasPassed (.mirror o ⟨w, some v⟩) s) = true := by
      rw [hp0, hasPassed, List.contains_iff_mem.mpr hpass]
      rfl
    exact named_act (decide_eq_true ho) hact

end Sys2Proof.Machine
end

section
/-! Refutation of the statement on supplies and references. -/

namespace Sys2Proof.Machine

open Sys2Proof

set_option Elab.async false

/-- A module that has lost VAUX after it was good, with one rail still up. -/
def lastRail : State where
  pow := { risen := true, rails := [.vio33] }

/-- Once no rail is left, VAUX has not been good before the next rise (R52). -/
theorem risen_after_lastRail : exec (.railFault .vio33) lastRail =
    .next { lastRail with pow := { lastRail.pow with rails := [], risen := false } } := rfl

/-- Refutes O54: where VAUX is down and the last rail goes, the model also forgets that VAUX had been good, so that the next
rise is checked against R50 anew; the statement leaves that as it was. -/
theorem not_suppliesAndReferences : ¬ Obligations.SuppliesAndReferences := by
  unfold Obligations.SuppliesAndReferences
  intro h
  obtain ⟨-, -, hrails, -⟩ := h
  obtain ⟨-, -, -, hdown⟩ := hrails .vio33 lastRail
  have hnext := hdown rfl List.mem_cons_self
  have hrisen := congrArg (fun t => t.pow.risen) (Host.Outcome.next.inj (risen_after_lastRail.symm.trans hnext))
  exact absurd hrisen (by decide)

end Sys2Proof.Machine
end

section
/-! Proof of the statement on reset sources. -/

namespace Sys2Proof.Machine

open Sys2Proof

set_option Elab.async false

variable {src : Source} {o : Option Nat} {s t u : State}

/-! ### Events and records (R4, R509) -/

/-- From `s` to `t` events are raised and records taken. -/
def Logged (s t : State) : Prop :=
  t = { s with arb := t.arb, hw := t.hw, mem := t.mem, cnp := t.cnp, log := t.log, obs := t.obs }

/-- Nothing is in memory, and there is no ring and no partition. -/
structure Blank (s : State) : Prop where
  mem : s.mem = []
  rings : s.rng.rings = []
  parts : s.cnp.parts = []

namespace Logged

theorem refl (s : State) : Logged s s := rfl

theorem trans (h : Logged s t) (h' : Logged t u) : Logged s u := by
  unfold Logged at h h'
  rw [h] at h'
  exact h'

theorem raise (e : Ev) (s : State) : Logged s (raise e s) := rfl

theorem acceptRec (r : LogRec) (s : State) : Logged s (acceptRec r s) := by
  unfold Machine.acceptRec
  split
  · rfl
  · rfl

theorem accept (r : LogRec) (s : State) : Logged s (accept r s) := by
  unfold Machine.accept
  dsimp only
  split
  · exact (raise _ { s with log := { s.log with lostSince := 0 } }).trans ((acceptRec _ _).trans (acceptRec r _))
  · exact acceptRec r s

theorem acceptAll (l : List LogRec) (s : State) : Logged s (acceptAll l s) := by
  induction l generalizing s with
  | nil => exact refl s
  | cons r l ih => exact (accept r s).trans (ih _)

theorem acceptWaiting (s : State) : Logged s (acceptWaiting s) :=
  acceptAll s.log.reqs { s with log := { s.log with reqs := [] } }

theorem sourceRecord (src : Source) (s : State) : Logged s (sourceRecord src s) := rfl

theorem rst_eq (h : Logged s t) : t.rst = s.rst := (congrArg State.rst h :)

end Logged

namespace Blank

/-- An event of a module with no ring and no partition is written nowhere (R133). -/
theorem raise (h : Blank s) (e : Ev) : Blank (raise e s) := by
  have hhost : evToHost e s = false := by
    rw [evToHost, h.rings]
    exact Bool.and_false _
  have hp0 : evToP0 e s = false := by
    rw [evToP0, p0Exists, h.parts]
    exact Bool.and_false _
  refine ⟨?_, h.rings, ?_⟩
  · unfold Machine.raise
    rw [hhost, hp0]
    simpa [applyWrites] using h.mem
  · unfold Machine.raise
    rw [h.parts]
    rfl

theorem acceptRec (h : Blank s) (r : LogRec) : Blank (acceptRec r s) := by
  unfold Machine.acceptRec
  split
  · exact ⟨h.mem, h.rings, h.parts⟩
  · exact ⟨h.mem, h.rings, h.parts⟩

theorem accept (h : Blank s) (r : LogRec) : Blank (accept r s) := by
  unfold Machine.accept
  dsimp only
  split
  · exact ((raise (s := { s with log := { s.log with lostSince := 0 } })
      ⟨h.mem, h.rings, h.parts⟩ _).acceptRec _).acceptRec r
  · exact h.acceptRec r

theorem acceptAll (l : List LogRec) (h : Blank s) : Blank (acceptAll l s) := by
  induction l generalizing s with
  | nil => exact h
  | cons r l ih => exact ih (h.accept r)

theorem acceptWaiting (h : Blank s) : Blank (acceptWaiting s) :=
  acceptAll (s := { s with log := { s.log with reqs := [] } }) s.log.reqs ⟨h.mem, h.rings, h.parts⟩

theorem sourceRecord (h : Blank s) (src : Source) : Blank (sourceRecord src s) := h.raise _

theorem keyEvent (h : Blank s) (code slot : Nat) (bit sev : Option Nat) : Blank (keyEvent code slot bit sev s) := by
  unfold Machine.keyEvent
  cases bit with
  | none => exact h.raise _
  | some i => exact raise (s := latchKey i slot s) ⟨h.mem, h.rings, h.parts⟩ _

theorem keyEvents (code : Nat) (bit sev : Option Nat) (l : List Nat) (h : Blank s) :
    Blank (keyEvents code bit sev l s) := by
  induction l generalizing s with
  | nil => exact h
  | cons k l ih => exact ih (h.keyEvent code k bit sev)

theorem killSlot (h : Blank s) (k : Nat) (st : KState) : Blank (killSlot k st s) := by
  unfold Machine.killSlot
  exact keyEvents _ _ _ _ ⟨h.mem, h.rings, h.parts⟩

theorem killSlots (st : KState) (l : List Nat) (h : Blank s) : Blank (killSlots st l s) := by
  induction l generalizing s with
  | nil => exact h
  | cons k l ih => exact ih (h.killSlot k st)

theorem invalidateBranches (l : List Nat) (h : Blank s) : Blank (invalidateBranches l s) := by
  induction l generalizing s with
  | nil => exact h
  | cons k l ih => exact ih ((killSlots _ _ (h.killSlot k .invalidated)).keyEvent _ _ _ _)

end Blank

/-! ### The invalidation of Branches (R435) -/

/-- From `s` to `t` key slots change, with their compares and their events. -/
structure Keyed (s t : State) : Prop where
  frame : t = { s with arb := t.arb, hw := t.hw, mem := t.mem, cnp := t.cnp, log := t.log, obs := t.obs
                       sets := t.sets, key := t.key, tim := t.tim }
  bases : t.tim.bases = s.tim.bases

namespace Keyed

theorem refl (s : State) : Keyed s s := ⟨rfl, rfl⟩

theorem trans (h : Keyed s t) (h' : Keyed t u) : Keyed s u := by
  refine ⟨?_, h'.bases.trans h.bases⟩
  have hframe := h'.frame
  rw [h.frame] at hframe
  exact hframe

theorem keyEvent (code slot : Nat) (bit sev : Option Nat) (s : State) : Keyed s (keyEvent code slot bit sev s) := by
  cases bit with
  | none => exact ⟨rfl, rfl⟩
  | some i => exact ⟨rfl, rfl⟩

theorem keyEvents (code : Nat) (bit sev : Option Nat) (l : List Nat) (s : State) :
    Keyed s (keyEvents code bit sev l s) := by
  induction l generalizing s with
  | nil => exact refl s
  | cons k l ih => exact (keyEvent code k bit sev s).trans (ih _)

theorem killSlot (k : Nat) (st : KState) (s : State) : Keyed s (killSlot k st s) := by
  unfold Machine.killSlot
  dsimp only
  refine trans ?_ (keyEvents _ _ _ _ _)
  exact ⟨rfl, rfl⟩

theorem killSlots (st : KState) (l : List Nat) (s : State) : Keyed s (killSlots st l s) := by
  induction l generalizing s with
  | nil => exact refl s
  | cons k l ih => exact (killSlot k st s).trans (ih _)

theorem invalidateBranches (l : List Nat) (s : State) : Keyed s (invalidateBranches l s) := by
  induction l generalizing s with
  | nil => exact refl s
  | cons k l ih =>
    exact ((killSlot k .invalidated s).trans ((killSlots _ _ _).trans (keyEvent _ _ _ _ _))).trans (ih _)

end Keyed

/-! ### What a WARM reset clears (R77) -/

/-- A WARM reset empties memory, rings and partitions, withdraws the pulses of the ports, and keeps the sources, the time
bases, the persistent state and the counters of the ports. -/
theorem clearWarm_spec (s : State) : Blank (clearWarm s) ∧ (clearWarm s).rst = { s.rst with cfgLock := false } ∧
    (clearWarm s).prt = { s.prt with ports := s.prt.ports.map fun e => (e.1, warmPort s.clk.frc e.2) } ∧
    (clearWarm s).tim.bases = s.tim.bases ∧ (clearWarm s).mram = s.mram ∧ (clearWarm s).clk = s.clk := by
  unfold clearWarm
  dsimp only
  generalize hv : ({ s with boot := _, prt := _, rst := _, hw := _, rng := _, cnp := _, pgk := _, mem := _, sw := _, tim := _, sv := _, gse := _, flt := _, acq := _, gft := _, key := _, bin := _ } : State) = v
  have hblank : Blank v := by
    rw [← hv]
    exact ⟨rfl, rfl, rfl⟩
  generalize partBranches none v = l
  have hkeyed := Keyed.invalidateBranches l v
  have hgone : Blank (applyPins (invalidateBranches l v)) :=
    have h := hblank.invalidateBranches l
    ⟨h.mem, h.rings, h.parts⟩
  have hfields : v.rst = { s.rst with cfgLock := false } ∧
      v.prt = { s.prt with ports := s.prt.ports.map fun e => (e.1, warmPort s.clk.frc e.2) } ∧
      v.tim.bases = s.tim.bases ∧ v.mram = s.mram ∧ v.clk = s.clk := by
    rw [← hv]
    exact ⟨rfl, rfl, rfl, rfl, rfl⟩
  obtain ⟨hrst, hprt, hbases, hmram, hclk⟩ := hfields
  exact ⟨hgone, (congrArg State.rst hkeyed.frame :).trans hrst, (congrArg State.prt hkeyed.frame :).trans hprt,
    hkeyed.bases.trans hbases, (congrArg State.mram hkeyed.frame :).trans hmram,
    (congrArg State.clk hkeyed.frame :).trans hclk⟩

/-! ### The assertion of a source (R74, R78 to R84) -/

/-- The state in which the record of an assertion is taken. -/
def assertedBy (src : Source) (o : Option Nat) (s : State) : State :=
  let s1 := noteSet 0x0100 (sourceNum src) { s with rst := assertRst src o s }
  let s2 := if sourceReach src == .cold then { clearCold s1 with sets := s1.sets }
    else if s.rst.reach == some .cold then s1 else clearWarm s1
  { s2 with rst := { s2.rst with phase := .held } }

theorem assertSource_eq (hload : s.rst.loadFail = false) : assertSource src o s =
    if s.rst.phase = .trim then trimAbort 0 (trimWords s) (sourceRecord src (assertedBy src o s))
    else sourceRecord src (assertedBy src o s) := by
  rw [assertSource, hload, if_neg Bool.false_ne_true]
  rfl

/-- One of the first three aborts of the trim load is counted with its record (R84). -/
theorem trimAbort_of_few (h : s.rst.trimAborts < 3) (why words : Nat) : ∃ e, trimAbort why words s =
    raise e { s with rst := { s.rst with trimAborts := s.rst.trimAborts + 1 } } :=
  ⟨_, if_pos h⟩

/-- The fourth abort holds the module, and the flush starts (R85). -/
theorem trimAbort_of_many (h : 3 ≤ s.rst.trimAborts) (why words : Nat) : ∃ e e', trimAbort why words s =
    startFlush (acceptWaiting (raise e' { raise e { s with rst := { s.rst with trimAborts := s.rst.trimAborts + 1 } }
      with rst := { s.rst with trimAborts := s.rst.trimAborts + 1, loadFail := true, phase := .held } })) :=
  ⟨_, _, if_neg (by omega)⟩

theorem Blank.startFlush (h : Blank s) : Blank (startFlush s) := ⟨h.mem, h.rings, h.parts⟩

theorem Blank.withRst (h : Blank s) (r : Rst) : Blank { s with rst := r } := ⟨h.mem, h.rings, h.parts⟩

theorem Logged.withRst (h : Logged s t) (r : Rst) : Logged { s with rst := r } { t with rst := r } := by
  unfold Logged at h ⊢
  exact congrArg (fun v : State => { v with rst := r }) h

/-- An abort of the trim load takes its records and counts (R84, R85). -/
theorem trimAbort_spec (why words : Nat) (s : State) :
    (∃ n f p, (s.rst.phase = .held → p = .held) ∧
      Logged { s with rst := { s.rst with trimAborts := n, loadFail := f, phase := p } } (trimAbort why words s)) ∧
    (Blank s → Blank (trimAbort why words s)) := by
  have hcases : s.rst.trimAborts < 3 ∨ 3 ≤ s.rst.trimAborts := Nat.lt_or_ge _ _
  obtain h | h := hcases
  · obtain ⟨e, heq⟩ := trimAbort_of_few h why words
    rw [heq]
    exact ⟨⟨_, _, _, id, .raise e _⟩, fun hblank => (hblank.withRst _).raise e⟩
  · obtain ⟨e, e', heq⟩ := trimAbort_of_many h why words
    rw [heq]
    have hfirst := Logged.raise e { s with rst := { s.rst with trimAborts := s.rst.trimAborts + 1 } }
    refine ⟨⟨s.rst.trimAborts + 1, true, .held, fun _ => rfl, ?_⟩, fun hblank => ?_⟩
    · exact ((hfirst.withRst _).trans (.raise e' _)).trans ((Logged.acceptWaiting _).trans rfl)
    · exact ((((hblank.withRst _).raise e).withRst _).raise e').acceptWaiting.startFlush

/-- The assertion of a source, from the state in which its record is taken. -/
theorem assertSource_spec (src : Source) (o : Option Nat) (hload : s.rst.loadFail = false) :
    (∃ n f, Logged { assertedBy src o s with rst := { (assertedBy src o s).rst with trimAborts := n, loadFail := f } }
      (assertSource src o s)) ∧ (Blank (assertedBy src o s) → Blank (assertSource src o s)) := by
  rw [assertSource_eq hload]
  generalize hv : assertedBy src o s = v
  have hphase : v.rst.phase = .held := by rw [← hv]; rfl
  split
  · obtain ⟨⟨n, f, p, hp, hlog⟩, hblank⟩ := trimAbort_spec 0 (trimWords s) (sourceRecord src v)
    refine ⟨⟨n, f, ?_⟩, fun h => hblank (h.sourceRecord src)⟩
    rw [hp hphase, ← hphase] at hlog
    exact ((Logged.sourceRecord src v).withRst _).trans hlog
  · exact ⟨⟨_, _, .sourceRecord src v⟩, fun h => h.sourceRecord src⟩

theorem assertedBy_of_cold (h : sourceReach src = .cold) (o : Option Nat) (s : State) : assertedBy src o s =
    { clearCold { s with rst := assertRst src o s } with sets := (0x0100, sourceNum src) :: s.sets } := by
  unfold assertedBy
  rw [h]
  rfl

theorem assertedBy_of_warm (h : sourceReach src = .warm) (o : Option Nat) (hreach : s.rst.reach ≠ some .cold) :
    assertedBy src o s = let v := clearWarm (noteSet 0x0100 (sourceNum src) { s with rst := assertRst src o s })
      { v with rst := { v.rst with phase := .held } } := by
  have hno : (s.rst.reach == some .cold) = false := by
    rw [beq_eq_false_iff_ne]
    exact hreach
  unfold assertedBy
  rw [h, hno]
  rfl

/-- The sources, `RST_CAUSE` and the reach after an assertion (R81, R82, R96); the module is held. -/
theorem assertedBy_rst (src : Source) (o : Option Nat) (s : State) :
    (assertedBy src o s).rst.sources = addSource src o s ∧
    (assertedBy src o s).rst.cause = s.rst.cause ||| BitVec.ofNat 10 (2 ^ sourceNum src) ∧
    (assertedBy src o s).rst.reach = (assertRst src o s).reach ∧ (assertedBy src o s).rst.phase = .held := by
  unfold assertedBy
  dsimp only
  split
  · exact ⟨rfl, rfl, rfl, rfl⟩
  · split
    · exact ⟨rfl, rfl, rfl, rfl⟩
    · obtain ⟨-, hrst, -⟩ := clearWarm_spec (noteSet 0x0100 (sourceNum src) { s with rst := assertRst src o s })
      rw [hrst]
      exact ⟨rfl, rfl, rfl, rfl⟩

/-- The sources, `RST_CAUSE` and the reach of a module that asserts a source; it is held. -/
theorem assertSource_rst (src : Source) (o : Option Nat) (hload : s.rst.loadFail = false) :
    (assertSource src o s).rst.phase = .held ∧ (src, o) ∈ (assertSource src o s).rst.sources ∧
    (assertSource src o s).rst.cause.getLsbD (sourceNum src) = true ∧
    (assertSource src o s).rst.reach =
      if sourceReach src = .cold ∨ s.rst.reach = some .cold then some .cold else some .warm := by
  obtain ⟨⟨n, f, hlog⟩, -⟩ := assertSource_spec src o hload
  obtain ⟨hsources, hcause, hreach, hphase⟩ := assertedBy_rst src o s
  rw [hlog.rst_eq]
  refine ⟨hphase, ?_, ?_, hreach⟩
  · show (src, o) ∈ (assertedBy src o s).rst.sources
    rw [hsources, addSource]
    exact List.mem_append_right _ (List.mem_singleton_self _)
  · show (assertedBy src o s).rst.cause.getLsbD _ = true
    rw [hcause]
    exact getLsbD_latch_self s.rst.cause (by cases src <;> decide)

/-- A source of COLD reach empties memory, rings, partitions, time bases and keys, and leaves the island and the persistent
state (R77). -/
theorem assertSource_cold (h : sourceReach src = .cold) (o : Option Nat) (hload : s.rst.loadFail = false) :
    Blank (assertSource src o s) ∧ (assertSource src o s).tim.bases = [] ∧ (assertSource src o s).key.slots = [] ∧
    (assertSource src o s).mram = s.mram ∧ (assertSource src o s).pow.rails = s.pow.rails ∧
    (assertSource src o s).rst.resetN = s.rst.resetN := by
  obtain ⟨⟨n, f, hlog⟩, hblank⟩ := assertSource_spec src o hload
  have hcold := assertedBy_of_cold h o s
  rw [hcold] at hlog hblank
  refine ⟨hblank ⟨rfl, rfl, rfl⟩, ?_⟩
  exact ⟨(congrArg (fun u : State => u.tim.bases) hlog :), (congrArg (fun u : State => u.key.slots) hlog :),
    (congrArg State.mram hlog :), (congrArg (fun u : State => u.pow.rails) hlog :),
    (congrArg (fun u : State => u.rst.resetN) hlog :)⟩

/-- A source of WARM reach empties memory, rings and partitions, and keeps time bases, the persistent state and the
counters of the ports (R77). -/
theorem assertSource_warm (h : sourceReach src = .warm) (o : Option Nat) (hload : s.rst.loadFail = false)
    (hreach : s.rst.reach ≠ some .cold) : Blank (assertSource src o s) ∧
    (assertSource src o s).prt = { s.prt with ports := s.prt.ports.map fun e => (e.1, warmPort s.clk.frc e.2) } ∧
    (assertSource src o s).tim.bases = s.tim.bases ∧ (assertSource src o s).mram = s.mram := by
  obtain ⟨⟨n, f, hlog⟩, hblank⟩ := assertSource_spec src o hload
  have hwarm := assertedBy_of_warm h o hreach
  dsimp only at hwarm
  rw [hwarm] at hlog hblank
  obtain ⟨hgone, hrst, hprt, hbases, hmram, -⟩ :=
    clearWarm_spec (noteSet 0x0100 (sourceNum src) { s with rst := assertRst src o s })
  generalize clearWarm _ = v at hlog hblank hgone hrst hprt hbases hmram
  exact ⟨hblank (hgone.withRst _), (congrArg State.prt hlog :).trans hprt,
    (congrArg (fun u : State => u.tim.bases) hlog :).trans hbases, (congrArg State.mram hlog :).trans hmram⟩

/-! ### The rows (R74, R75, R91, R93) -/

theorem look_map_snd {α : Type} (f : α → α) (l : Tbl α) (k : Nat) :
    look (l.map fun e => (e.1, f e.2)) k = (look l k).map f :=
  look_map_entry (g := fun e : Nat × α => (e.1, f e.2)) (fun _ => rfl) l k

theorem source_left (src : Source) (s : State) : ∀ x ∈ (releaseSource src s).rst.sources, x.1 ≠ src := fun _ hx => by
  simpa using (List.mem_filter.mp hx).2

theorem exec_resetN {ns : Nat} {high : Bool} (hvaux : s.pow.vaux = true) (hns : 1000 ≤ ns) (h : s.rst.resetN = !high) :
    exec (.resetN high ns) s = .next (if high then releaseSource .resetN { s with rst := { s.rst with resetN := high } }
      else assertSource .resetN none { s with rst := { s.rst with resetN := high } }) := by
  show act (s.pow.vaux && decide (1000 ≤ ns) && s.rst.resetN != high) _ _ = _
  rw [hvaux, decide_eq_true hns, h]
  cases high <;> rfl

theorem exec_wrstN {ns : Nat} {high : Bool} (hvaux : s.pow.vaux = true) (hns : 1000 ≤ ns) (h : s.rst.wrstN = !high) :
    exec (.wrstN high ns) s = .next (if high then releaseSource .wrstN { s with rst := { s.rst with wrstN := high } }
      else assertSource .wrstN none { s with rst := { s.rst with wrstN := high } }) := by
  show act (s.pow.vaux && decide (1000 ≤ ns) && s.rst.wrstN != high) _ _ = _
  rw [hvaux, decide_eq_true hns, h]
  cases high <;> rfl

/-- A failed start counts and pulses the boot-timer source (R93). -/
theorem failedStart_spec (why : Nat) (hload : s.rst.loadFail = false) :
    (failedStart why s).mram.fails = s.mram.fails + 1 ∧ (failedStart why s).rst.phase = .held ∧
    (failedStart why s).rst.reach = some .cold ∧ (failedStart why s).rst.cause.getLsbD 4 = true := by
  unfold failedStart pulseSource
  dsimp only
  generalize hw : recordOnly _ _ = w
  have hfields : w.mram = savePstate { s.mram with fails := s.mram.fails + 1 } ∧ w.rst = s.rst := by
    rw [← hw]
    exact ⟨rfl, rfl⟩
  obtain ⟨hmram, hrst⟩ := hfields
  have hload' : w.rst.loadFail = false := by rw [hrst]; exact hload
  obtain ⟨hphase, -, hcause, hreach⟩ := assertSource_rst .bootTimer (some (w.clk.now + 1000)) hload'
  obtain ⟨-, -, -, hkept, -⟩ := assertSource_cold (src := .bootTimer) rfl (some (w.clk.now + 1000)) hload'
  obtain ⟨-, hfails, -⟩ := savePstate_values { s.mram with fails := s.mram.fails + 1 }
  exact ⟨by rw [hkept, hmram, hfails], hphase, hreach, hcause⟩

theorem savePstate_counts (m : Mram) : (savePstate m).session = m.session ∧ (savePstate m).epoch = m.epoch := by
  unfold savePstate
  split
  · exact ⟨rfl, rfl⟩
  · exact ⟨rfl, rfl⟩

/-- The release of a reset once its sources allow it (R81, R82). -/
theorem exec_resetRelease (hvaux : s.pow.vaux = true) (hload : s.rst.loadFail = false) (hstrap : s.rst.strapInvalid = false)
    (hheld : s.rst.phase = .held) {r : Reach} (hreach : s.rst.reach = some r)
    (hready : (if r = .cold ∧ s.rst.needAll = false then (liveSources s).all fun x => sourceReach x.1 == .warm
      else (liveSources s).isEmpty) = true) :
    exec .resetRelease s = .next (if r = .cold then releaseCold s else releaseWarm s) := by
  show act _ _ _ = _
  rw [hvaux, hload, hstrap, hheld, hreach]
  cases r with
  | cold =>
    cases hall : s.rst.needAll with
    | false =>
      rw [hall, if_pos ⟨rfl, rfl⟩] at hready
      simp [hready, act]
    | true =>
      rw [hall, if_neg (by simp)] at hready
      simp [hready, act]
  | warm =>
    rw [if_neg (by simp)] at hready
    simp [hready, act]

/-- Settles O55: an assertion by `assertSource_rst` with what each reach clears, and the releases. -/
theorem resetSources : Obligations.ResetSources := by
  unfold Obligations.ResetSources
  refine ⟨fun ns s hvaux hns => ⟨fun hpin hload => ?_, fun hpin => ?_, fun hpin hload hreach hrun => ?_, fun hpin => ?_⟩,
    fun h s => ?_, fun s hrun hload => ⟨fun hon hdone hlate => ?_, fun hlate => ?_⟩,
    fun s hvaux hload hstrap hheld => ⟨fun hreach hlive => ?_, fun hall hlive => ?_, fun hreach hlive => ?_⟩⟩
  · have hexec := exec_resetN (high := false) hvaux hns hpin
    generalize hv : ({ s with rst := { s.rst with resetN := false } } : State) = v at hexec
    have hload' : v.rst.loadFail = false := by rw [← hv]; exact hload
    have hkept : v.pow.rails = s.pow.rails ∧ v.rst.resetN = false := by rw [← hv]; exact ⟨rfl, rfl⟩
    obtain ⟨hphase, hmem, hcause, hreach⟩ := assertSource_rst .resetN none hload'
    obtain ⟨hblank, hbases, hslots, -, hrails, hlow⟩ := assertSource_cold (src := .resetN) rfl none hload'
    exact ⟨_, hexec, hlow.trans hkept.2, hphase, hreach, hmem, hcause, hblank.mem, hblank.rings, hblank.parts, hbases,
      hslots, hrails.trans hkept.1⟩
  · exact ⟨_, exec_resetN (high := true) hvaux hns hpin, rfl, source_left .resetN _, rfl⟩
  · have hexec := exec_wrstN (high := false) hvaux hns hpin
    generalize hv : ({ s with rst := { s.rst with wrstN := false } } : State) = v at hexec
    have hload' : v.rst.loadFail = false := by rw [← hv]; exact hload
    have hreach' : v.rst.reach ≠ some .cold := by rw [← hv]; exact hreach
    have hkept : v.prt = s.prt ∧ v.clk = s.clk ∧ v.tim = s.tim ∧ v.mram = s.mram := by rw [← hv]; exact ⟨rfl, rfl, rfl, rfl⟩
    obtain ⟨hprt, hclk, htim, hmram⟩ := hkept
    obtain ⟨hphase, -, hcause, hnow⟩ := assertSource_rst .wrstN none hload'
    rw [if_neg (fun h => h.elim nofun hreach')] at hnow
    obtain ⟨hblank, hports, hbases, hstate⟩ := assertSource_warm (src := .wrstN) rfl none hload' hreach'
    refine ⟨_, hexec, hphase, hnow, hcause, hblank.mem, hblank.rings, hblank.parts, ?_, fun n => ?_, ?_, hstate.trans hmram⟩
    · exact (congrArg Prt.cnt hports).trans (show v.prt.cnt = s.prt.cnt by rw [hprt])
    · refine (congrArg (fun q : Prt => look q.ports n) hports).trans ?_
      rw [hprt, hclk]
      exact look_map_snd _ _ n
    · exact hbases.trans (congrArg Tim.bases htim)
  · exact ⟨_, exec_wrstN (high := true) hvaux hns hpin, rfl, source_left .wrstN _, rfl⟩
  · refine ⟨_, rfl, rfl, rfl, rfl, ?_, ?_⟩
    · rintro rfl
      rfl
    · rintro rfl hlock hnone
      show (if (!true || !pllLocked s) = true then none else s.rst.pcieAt.orElse _) = _
      rw [hlock, hnone]
      rfl
  · have hexec : exec .bootTimerExpiry s = .next (failedStart 0 s) := by
      show act _ _ _ = _
      rw [hrun, hon, hdone, decide_eq_true hlate]
      rfl
    obtain ⟨hfails, hphase, hreach, hcause⟩ := failedStart_spec 0 hload
    exact ⟨_, hexec, hfails, hphase, hreach, hcause⟩
  · have hexec : exec .watchdogExpiry s = .next (pulseSource .wdog s) := by
      show act _ _ _ = _
      rw [hrun, decide_eq_true hlate]
      rfl
    obtain ⟨hphase, hmem, hcause, -⟩ := assertSource_rst .wdog (some (s.clk.now + 1000)) hload
    exact ⟨_, hexec, hphase, hcause, hmem⟩
  · have hready : (if (Reach.cold = .cold ∧ s.rst.needAll = false) then
        (liveSources s).all fun x => sourceReach x.1 == .warm else (liveSources s).isEmpty) = true := by
      obtain ⟨hall, hwarm⟩ | hnone := hlive
      · rw [if_pos ⟨rfl, hall⟩]
        exact hwarm
      · rw [hnone]
        exact ite_self _
    obtain ⟨hsession, hepoch⟩ := savePstate_counts { s.mram with
      session := (s.mram.session + 1) % 2 ^ 32, epoch := min (s.mram.epoch + 1) 0xFFFFFF }
    exact ⟨_, exec_resetRelease hvaux hload hstrap hheld hreach hready, rfl, hsession, hepoch, rfl, rfl⟩
  · have hno : (liveSources s).isEmpty = false := List.isEmpty_eq_false_iff.mpr hlive
    show act _ _ _ = _
    rw [hall, hno]
    simp [act]
  · have hready : (if (Reach.warm = .cold ∧ s.rst.needAll = false) then
        (liveSources s).all fun x => sourceReach x.1 == .warm else (liveSources s).isEmpty) = true := by
      rw [hlive]
      exact ite_self _
    exact ⟨_, exec_resetRelease hvaux hload hstrap hheld hreach hready, rfl, rfl, rfl⟩

end Sys2Proof.Machine
end

section
/-! Proof of the statement on the release sequence, Heartwood start and the images. -/

namespace Sys2Proof.Machine

open Sys2Proof

set_option Elab.async false

variable {r slot : Nat} {s t : State}

/-! ### The release sequence (R83 to R87, R91) -/

/-- A row whose guard holds takes effect. -/
theorem act_of {a : Bool} (h : a = true) (s u : State) : act a s u = .next u := by
  rw [h]
  rfl

theorem inPhase_of {p : Phase} {ns : Nat} (hvaux : s.pow.vaux = true) (hphase : s.rst.phase = p)
    (hat : s.rst.phaseAt + ns ≤ s.clk.now) : inPhase p ns s = true := by
  rw [inPhase, hvaux, hphase, decide_eq_true hat, beq_self_eq_true]
  rfl

theorem noSpares_rst (l : List Nat) (s : State) : (noSpares l s).rst = s.rst ∧ (noSpares l s).pgk = s.pgk ∧
    (noSpares l s).ecc = s.ecc := by
  induction l generalizing s with
  | nil => exact ⟨rfl, rfl, rfl⟩
  | cons m l ih => exact ih _

theorem liveSources_congr (hr : t.rst.sources = s.rst.sources) (hc : t.clk = s.clk) : liveSources t = liveSources s := by
  rw [liveSources, liveSources, hr, hc]

/-- A CRC that does not match is one of the first three aborts (R84). -/
theorem trimMismatch_of_few (hfew : s.rst.trimAborts < 3) (hload : s.rst.loadFail = false) :
    (trimMismatch s).rst.trimAborts = s.rst.trimAborts + 1 ∧ (trimMismatch s).rst.phaseAt = s.clk.now ∧
    (liveSources s = [] → (trimMismatch s).rst.phase = .trim) ∧
    (liveSources s ≠ [] → (trimMismatch s).rst.phase = .held ∧ (trimMismatch s).rst.needAll = true) := by
  obtain ⟨e, heq⟩ := trimAbort_of_few hfew 1 6144
  have hlive : liveSources (trimAbort 1 6144 s) = liveSources s :=
    liveSources_congr (by rw [heq]; rfl) (by rw [heq]; rfl)
  have hfields : (trimAbort 1 6144 s).rst.loadFail = false ∧
      (trimAbort 1 6144 s).rst.trimAborts = s.rst.trimAborts + 1 ∧ (trimAbort 1 6144 s).clk = s.clk := by
    rw [heq]
    exact ⟨hload, rfl, rfl⟩
  unfold trimMismatch
  generalize trimAbort 1 6144 s = v at hlive hfields
  obtain ⟨hok, haborts, hclk⟩ := hfields
  dsimp only
  rw [hok, hlive, ← hclk]
  by_cases hnone : liveSources s = []
  · rw [hnone]
    exact ⟨haborts, rfl, fun _ => rfl, fun h => absurd rfl h⟩
  · rw [List.isEmpty_eq_false_iff.mpr hnone]
    exact ⟨haborts, rfl, fun h => absurd h hnone, fun _ => ⟨rfl, rfl⟩⟩

/-- A CRC that does not match is the fourth abort (R85). -/
theorem trimMismatch_of_many (hmany : 3 ≤ s.rst.trimAborts) : (trimMismatch s).rst.phase = .held ∧
    (trimMismatch s).rst.loadFail = true ∧ (trimMismatch s).log.flushing = true := by
  obtain ⟨e, e', heq⟩ := trimAbort_of_many hmany 1 6144
  have hrst : (trimAbort 1 6144 s).rst =
      { s.rst with trimAborts := s.rst.trimAborts + 1, loadFail := true, phase := .held } := by
    rw [heq]
    exact (Logged.acceptWaiting _).rst_eq
  have hflush : (trimAbort 1 6144 s).log.flushing = true := by
    rw [heq]
    rfl
  have hself : trimMismatch s = trimAbort 1 6144 s := by
    unfold trimMismatch
    dsimp only
    rw [hrst]
    rfl
  rw [hself, hrst]
  exact ⟨rfl, rfl, hflush⟩

/-! ### Heartwood start (R91, R92, R144) -/

theorem turnTo_of_some {l : List Nat} (h : l ≠ []) (s : State) : turnTo l s = { s with boot := { s.boot with
    sources := l, readAt := s.clk.now, hostOpen := l.head? == some 2, hostPending := false
    lastTried := l.headD s.boot.lastTried } } := by
  unfold turnTo
  dsimp only
  rw [List.isEmpty_eq_false_iff.mpr h]
  rfl

theorem writeShadow_frame (r : Nat) (s : State) : ∃ m c, writeShadow r s = { s with mem := m, cnp := c } := by
  unfold writeShadow
  split
  · exact ringVis_frame _ _ _ _
  · exact ⟨_, _, rfl⟩

/-- The two command rings at Heartwood start (R144). -/
def startRings : Tbl Ring := [(Config.ringP0, ringP0Start), (Config.ringHost, ringHostStart)]

theorem look_startRings (r : Nat) : look startRings r =
    if r = 2048 then some ringP0Start else if r = 2049 then some ringHostStart else none := by
  by_cases h0 : r = 2048
  · subst h0
    rfl
  · by_cases h1 : r = 2049
    · subst h1
      rfl
    · have hp0 : Config.ringP0 ≠ r := Ne.symm h0
      have hhost : Config.ringHost ≠ r := Ne.symm h1
      rw [if_neg h0, if_neg h1, startRings, look, if_neg hp0, look, if_neg hhost, look]

/-- The module as Heartwood starts, before its ticks (R91, R144). -/
def startedNow (s : State) : State :=
  { s with
    rst := { s.rst with
      sources := [], phase := .started, phaseAt := s.clk.now, reach := none
      lastReach := if s.rst.reach == some Reach.warm then 2 else 1 }
    boot := bootStart s
    rng := { s.rng with rings := startRings }
    hw := { polls := s.hw.polls }
    prt := { s.prt with ports := s.prt.ports.map fun (e : Nat × Port) => (e.1, { e.2 with freed := false }) } }

theorem heartwoodStart_eq (s : State) : heartwoodStart s =
    let s2 := writeShadow Config.ringHost { startedNow s with cnp := tickStart (startedNow s) }
    if s2.boot.seedling then applyPins (seedPort s2) else turnTo (strapSources s2.rst.strapBin) s2 := rfl

/-- A Heartwood start that does not fall into Seedling turns to its image sources (R91, R92). -/
theorem heartwoodStart_spec (hfails : s.mram.fails < 3) (hbin : s.rst.strapBin ≠ 0)
    (hsources : strapSources s.rst.strapBin ≠ []) :
    (heartwoodStart s).rst.phase = .started ∧ (heartwoodStart s).boot.sources = strapSources s.rst.strapBin ∧
    (heartwoodStart s).boot.timerOn = true ∧ (heartwoodStart s).boot.seedling = false ∧
    (heartwoodStart s).boot.startAt = s.clk.now ∧ (heartwoodStart s).rng.rings = startRings := by
  have hseed : (decide (3 ≤ s.mram.fails) || s.rst.strapBin == 0) = false := by
    rw [decide_eq_false (by omega), beq_eq_false_iff_ne.mpr hbin]
    rfl
  have hfields : (startedNow s).rst.phase = .started ∧ (startedNow s).rst.strapBin = s.rst.strapBin ∧
      (startedNow s).rng.rings = startRings ∧ (startedNow s).boot.startAt = s.clk.now ∧
      (startedNow s).boot.seedling = (decide (3 ≤ s.mram.fails) || s.rst.strapBin == 0) ∧
      (startedNow s).boot.timerOn = !(decide (3 ≤ s.mram.fails) || s.rst.strapBin == 0) := ⟨rfl, rfl, rfl, rfl, rfl, rfl⟩
  rw [heartwoodStart_eq]
  generalize startedNow s = v at hfields
  obtain ⟨hphase, hsame, hrings, hat, hseedling, htimer⟩ := hfields
  obtain ⟨m, c, hshadow⟩ := writeShadow_frame Config.ringHost { v with cnp := tickStart v }
  rw [hshadow]
  dsimp only
  rw [hseedling, hseed, if_neg Bool.false_ne_true, hsame, turnTo_of_some hsources]
  rw [hseed] at hseedling htimer
  exact ⟨hphase, rfl, htimer, hseedling, hat, hrings⟩

/-! ### Images (R92, R166) -/

/-- The read of the slot at the head of the order ends (R92). -/
theorem exec_imageSourceDone {i : ImageSeen} {rest : List Nat} (hsources : s.boot.sources = slot :: rest)
    (hphase : s.rst.phase = .started) (hseed : s.boot.seedling = false) (hrun : s.boot.running = false) (hslot : slot ≠ 2)
    (hat : s.boot.readAt + readTime slot i s ≤ s.clk.now) : exec (.imageSourceDone i) s =
      .next (if !i.answers then refuseImage stFlashFault s
        else if slotPasses slot i s then acceptImage slot (slotHeader slot i s) (slotBody slot i s)
          { s with boot := { s.boot with flashBusy := false } }
        else refuseImage stImageRefused { s with boot := { s.boot with flashBusy := false } }) := by
  have hact : (s.rst.phase == .started && !s.boot.seedling && !s.boot.running && slot != 2 &&
      decide (s.boot.readAt + readTime slot i s ≤ s.clk.now)) = true := by
    rw [hphase, hseed, hrun, bne_iff_ne.mpr hslot, decide_eq_true hat]
    rfl
  show execImageSourceDone i s = _
  rw [execImageSourceDone, hsources]
  dsimp only
  rw [hact]
  rfl

theorem refuseImage_of_rest {rest : List Nat} (hsources : s.boot.sources = slot :: rest) (hrest : rest ≠ []) (st : Nat) :
    (refuseImage st s).boot.sources = rest ∧ (refuseImage st s).boot.running = s.boot.running ∧
    (refuseImage st s).boot.lastStatus = st := by
  rw [refuseImage, hsources, List.tail_cons, turnTo_of_some hrest]
  exact ⟨rfl, rfl, rfl⟩

/-- Settles O56: one step of the release sequence for each row, then the start and the images. -/
theorem releaseAndStart : Obligations.ReleaseAndStart := by
  unfold Obligations.ReleaseAndStart
  refine ⟨fun s hvaux hphase hat w crc => ?_, fun codes s hvaux hphase hat hlen hsmall => ?_,
    fun s hvaux hphase hat => ?_, fun l s hvaux hphase hat hl => ?_, fun s hmay hfails hbin hsources => ?_,
    fun i slot rest s hsources hphase hseed hrun hslot hat => ?_,
    fun s hphase hopen hhost hbin hat hrest => ?_⟩
  · have hin := inPhase_of hvaux hphase hat
    have hexec : exec (.trimLoadEnd w crc) s = .next (if trimMatches w crc then
        trimDone { s with rst := { s.rst with shadow := w } } else
        trimMismatch { s with rst := { s.rst with shadow := w } }) := act_of hin _ _
    refine ⟨fun hok => ?_, fun hbad hfew hload => ?_, fun hbad hmany => ?_⟩
    · rw [hok] at hexec
      exact ⟨_, hexec, rfl, rfl, rfl⟩
    · rw [hbad] at hexec
      exact ⟨_, hexec, trimMismatch_of_few (s := { s with rst := { s.rst with shadow := w } }) hfew hload⟩
    · rw [hbad] at hexec
      exact ⟨_, hexec, trimMismatch_of_many (s := { s with rst := { s.rst with shadow := w } }) (Nat.le_of_eq hmany.symm)⟩
  · have hall : (codes.all fun c => decide (c < 64)) = true := by simpa using hsmall
    have hact : (inPhase .strap 36000 s && codes.length == 16 && codes.all fun c => decide (c < 64)) = true := by
      rw [inPhase_of hvaux hphase hat, hall, hlen]
      rfl
    refine ⟨fun bin hbin hvalid => ?_, fun hnone htries => ?_, fun hbin => ?_⟩
    · have hexec : exec (.strapMeasurementEnd codes) s = .next (strapAccept bin (codes.getLastD 0) s) := by
        show execStrapMeasurementEnd codes s = _
        rw [execStrapMeasurementEnd, hbin, hact]
        dsimp only
        rw [if_neg hvalid]
        rfl
      exact ⟨_, hexec, rfl, rfl, rfl, rfl⟩
    · have hexec : exec (.strapMeasurementEnd codes) s = .next
          (toPhase .strap { s with rst := { s.rst with strapTries := s.rst.strapTries + 1 } }) := by
        show execStrapMeasurementEnd codes s = _
        rw [execStrapMeasurementEnd, hnone, hact]
        dsimp only
        rw [if_neg (by omega)]
        rfl
      exact ⟨_, hexec, rfl, rfl⟩
    · have hexec : exec (.strapMeasurementEnd codes) s = .next (strapHold s) := by
        show execStrapMeasurementEnd codes s = _
        rw [execStrapMeasurementEnd, hbin, hact]
        rfl
      exact ⟨_, hexec, rfl, rfl⟩
  · have hin := inPhase_of (ns := 0) hvaux hphase hat
    cases hdue : s.out.inhDue with
    | false =>
      have hexec : exec .pllLock s = .next (toPhase .lanes { s with
          clk := { s.clk with frc := 0, frcOn := true }
          rst := { s.rst with pcieAt := if s.rst.perstN then some s.clk.now else none } }) := by
        refine (act_of hin _ _).trans (congrArg Host.Outcome.next ?_)
        exact if_neg (by rw [toPhase, hdue]; exact Bool.false_ne_true)
      exact ⟨_, hexec, rfl, rfl, rfl, hdue, rfl⟩
    | true =>
      obtain ⟨u, hexec, hu⟩ : ∃ u, exec .pllLock s = .next (raise { src := 13, code := 0x0A10, sev := some 1 } u) ∧
          u = { toPhase .lanes { s with
            clk := { s.clk with frc := 0, frcOn := true }
            rst := { s.rst with pcieAt := if s.rst.perstN then some s.clk.now else none } } with
            out := { s.out with inhDue := false } } :=
        ⟨_, (act_of hin _ _).trans (congrArg Host.Outcome.next (if_pos hdue)), rfl⟩
      subst hu
      exact ⟨_, hexec, rfl, rfl, rfl, rfl, rfl⟩
  · have hact : (inPhase .lanes 0 s && l.all fun m => decide (m < 16)) = true := by
      rw [inPhase_of (ns := 0) hvaux hphase hat, List.all_eq_true.mpr fun m hm => decide_eq_true (hl m hm)]
      rfl
    have hexec : exec (.lanesTrained l) s = .next (noSpares l (toPhase .warmHold { s with
      pgk := { s.pgk with hard := [] }
      ecc := { s.ecc with exhausted := !l.isEmpty } })) := act_of hact _ _
    obtain ⟨hrst, hpgk, hecc⟩ := noSpares_rst l (toPhase .warmHold { s with
      pgk := { s.pgk with hard := [] }
      ecc := { s.ecc with exhausted := !l.isEmpty } })
    refine ⟨_, hexec, ?_, ?_, ?_⟩
    · rw [hrst]
      rfl
    · rw [hpgk]
      rfl
    · rw [hecc]
      rfl
  · obtain ⟨hphase, himages, htimer, hseed, hat, hrings⟩ := heartwoodStart_spec hfails hbin hsources
    refine ⟨_, act_of hmay _ _, hphase, himages, htimer, hseed, hat, fun r => ?_, fun r x hx => ?_⟩
    · rw [hrings, look_startRings]
      split
      · simp [*]
      · split
        · simp [*]
        · simp [*]
    · rw [hrings, look_startRings] at hx
      split at hx
      · cases hx
        exact ⟨rfl, rfl, rfl, rfl⟩
      · split at hx
        · cases hx
          exact ⟨rfl, rfl, rfl, rfl⟩
        · cases hx
  · have hexec := exec_imageSourceDone hsources hphase hseed hrun hslot hat
    refine ⟨fun hans hpass => ?_, fun hans hfail hrest => ?_, fun hans hrest => ?_⟩
    · rw [hans, hpass] at hexec
      obtain ⟨⟨x, hx, -⟩, hrunning, hsl, hver⟩ := acceptImage_frame slot (slotHeader slot i s) (slotBody slot i s)
        { s with boot := { s.boot with flashBusy := false } }
      exact ⟨_, hexec, hrunning, hsl, hver, Option.isSome_of_eq_some hx⟩
    · rw [hans, hfail] at hexec
      obtain ⟨hleft, hstays, hst⟩ := refuseImage_of_rest (s := { s with boot := { s.boot with flashBusy := false } })
        hsources hrest stImageRefused
      exact ⟨_, hexec, hleft, hstays.trans hrun, hst⟩
    · rw [hans] at hexec
      obtain ⟨hleft, hstays, hst⟩ := refuseImage_of_rest hsources hrest stFlashFault
      exact ⟨_, hexec, hleft, hstays.trans hrun, hst⟩
  · have hact : (s.rst.phase == .started && s.boot.hostOpen && !hostStarting s && strapImage s.rst.strapBin == 3 &&
        decide (s.boot.startAt + 2000000000 ≤ s.clk.now)) = true := by
      rw [hphase, hopen, hhost, hbin, decide_eq_true hat]
      rfl
    refine ⟨_, act_of hact _ _, ?_⟩
    rw [turnTo_of_some hrest]

end Sys2Proof.Machine
end

section
/-! Proof of the statement on module reset, boot commands and Seedling frames. -/

namespace Sys2Proof.Machine

open Sys2Proof

set_option Elab.async false

variable {c : Cmd} {k n lane : Nat} {src : Source} {s t : State}

/-! ### A completion leaves the reset unit and the persistent state (R109, R111) -/

@[simp] theorem logFrame_mram (r : Nat) (e : JRec) (s : State) : (logFrame r e s).mram = s.mram := by
  unfold logFrame
  dsimp only
  split
  · split
    · simp
    · rfl
  · rfl

theorem writeCompl_mram (r : Nat) (x : Ring) (e : JRec) (s : State) : (writeCompl r x e s).mram = s.mram := by
  unfold writeCompl
  extract_lets osn woke flags y slot s1 s2 rng2 s3 s4 s5
  obtain ⟨c, hc⟩ := localCompl_frame r x e slot s
  obtain ⟨c', hc'⟩ := noteCompl_frame r y e flags { s with cnp := c }
  have h1 : s1.mram = s.mram := by
    simp only [s1, hc, hc']
    rfl
  obtain ⟨m, c, h2⟩ : ∃ m c, s2 = { s1 with mem := m, cnp := c } := writeCompl_frame r x e slot s1
  have h5 : s5.mram = s1.mram := by simp [s5, s4, s3, h2]
  rw [← h1]
  split
  · exact h5
  · exact h5

theorem complEvents_keeps (r : Nat) (e : JRec) (s : State) :
    (complEvents r e s).rst = s.rst ∧ (complEvents r e s).mram = s.mram := by
  unfold complEvents
  split
  · exact ⟨rfl, rfl⟩
  · split <;> exact ⟨rfl, rfl⟩

theorem writeNext_keeps (r : Nat) (s : State) : (writeNext r s).rst = s.rst ∧ (writeNext r s).mram = s.mram := by
  unfold writeNext
  split
  · rename_i x e _ _
    obtain ⟨hrst, hmram⟩ := complEvents_keeps r e (writeCompl r x e s)
    exact ⟨hrst.trans (writeCompl_arb_rst r x e s).2, hmram.trans (writeCompl_mram r x e s)⟩
  · exact ⟨rfl, rfl⟩

theorem writeReady_keeps (r m : Nat) (s : State) :
    (writeReady r m s).rst = s.rst ∧ (writeReady r m s).mram = s.mram := by
  induction m generalizing s with
  | zero => exact ⟨rfl, rfl⟩
  | succ m ih =>
    obtain ⟨hrst, hmram⟩ := ih (writeNext r s)
    exact ⟨hrst.trans (writeNext_keeps r s).1, hmram.trans (writeNext_keeps r s).2⟩

theorem finishCmd_keeps (c : Cmd) (st : Nat) (x : Option Word) (s : State) :
    (finishCmd c st x s).rst = s.rst ∧ (finishCmd c st x s).mram = s.mram := by
  unfold finishCmd
  split
  · exact ⟨rfl, rfl⟩
  · exact ⟨rfl, rfl⟩

theorem complete_keeps (c : Cmd) (x : Res) : (complete c x).rst = x.1.rst ∧ (complete c x).mram = x.1.mram := by
  obtain ⟨l, hrem⟩ := remember_frame c x.2.1 x.2.2 x.1
  unfold complete
  dsimp only
  rw [hrem]
  split
  · exact ⟨gftSendOne_rst _ _, gftSendOne_mram _ _⟩
  · exact finishCmd_keeps c x.2.1 x.2.2 _

/-! ### Commands that reset the module (R74, R95, R157) -/

/-- The state in which the pulse of a command that resets the module begins. -/
def beforePulse (c : Cmd) (s : State) : State := writeReady c.ring Config.journalMax (complete c (s, stOk, none))

theorem beforePulse_keeps (c : Cmd) (s : State) :
    (beforePulse c s).rst = s.rst ∧ (beforePulse c s).mram = s.mram := by
  obtain ⟨hrst, hmram⟩ := writeReady_keeps c.ring Config.journalMax (complete c (s, stOk, none))
  obtain ⟨hrst', hmram'⟩ := complete_keeps c (s, stOk, none)
  exact ⟨hrst.trans hrst', hmram.trans hmram'⟩

theorem completeThenPulse_of_ok (c : Cmd) (src : Source) (s : State) :
    completeThenPulse c src (s, stOk, none) = pulseSource src (beforePulse c s) := by
  unfold completeThenPulse beforePulse
  dsimp only
  rw [if_pos rfl]

theorem perform_of_ok {judge : Cmd → State → Nat} {eff : Cmd → State → Res} (h : statusOf judge c s = stOk) :
    perform judge eff c s = eff c s := if_pos h

theorem exec_moduleReset (h : ready (.moduleReset c) c s) (hbefore : earlierFinished c s = true) :
    exec (.moduleReset c) s = .next (pulseSource (if arg0 c.desc = 1 then .cmdCold else .cmdWarm) (beforePulse c s)) := by
  obtain ⟨hholds, hok⟩ := holds_and_ok_of_ready (op := 0x0130) h rfl (judgeCmd_moduleReset s)
  refine (act_of ?_ _ _).trans (congrArg Host.Outcome.next ?_)
  · rw [hholds, hbefore]
    simp
  · rw [perform_of_ok hok]
    exact completeThenPulse_of_ok c _ s

theorem exec_seedlingExit (h : ready (.seedlingExit c) c s) (hbefore : earlierFinished c s = true) :
    exec (.seedlingExit c) s = .next (pulseSource .cmdCold
      (beforePulse c { s with mram := savePstate { s.mram with fails := 0 } })) := by
  obtain ⟨hholds, hok⟩ := holds_and_ok_of_ready (op := 0x0920) h rfl (judgeCmd_seedlingExit s)
  refine (act_of ?_ _ _).trans (congrArg Host.Outcome.next ?_)
  · rw [hholds, hbefore]
    simp
  · rw [perform_of_ok hok]
    exact completeThenPulse_of_ok c _ _

/-! ### Seedling's requests (R94, R172) -/

/-- The module as it executes a request. -/
def seedHeard (f : Frame) (q : SeedReq) (s : State) : State :=
  { s with boot := { s.boot with seedXid := some q.xid, seedFrom := f.sa, seedReply := [] } }

theorem seedRun_of_stale (f : Frame) {q : SeedReq} (h : genField q.desc ≠ 1) (s : State) :
    ∃ st, seedRun f q s = seedRespond (seedCmd q) st none (seedHeard f q s) := by
  refine ⟨stStaleGen, ?_⟩
  have hfail (d : Bool) : seedChecks q d = stStaleGen := by
    rw [seedChecks, beq_eq_false_iff_ne.mpr h]
    rfl
  unfold seedRun
  dsimp only
  rw [hfail]
  rfl

theorem seedRun_boot (f : Frame) (q : SeedReq) (s : State) :
    (seedRun f q s).boot.seedXid = some q.xid ∧ (seedRun f q s).boot.seedFrom = f.sa := by
  unfold seedRun
  dsimp only
  generalize (if _ = stOk then _ else _) = st
  split
  · exact ⟨rfl, rfl⟩
  · exact ⟨rfl, rfl⟩

theorem seedRun_of_exit (f : Frame) {q : SeedReq} (hgen : genField q.desc = 1) (hflags : flagsOf q.desc / 4 = 0)
    (hiova : iovaOf q.desc = 0) (hop : opOf q.desc = 0x0920) (hjudge : judgeCmd (seedCmd q) s = some stOk) :
    seedRun f q s = startCmd (seedCmd q) (seedHeard f q s) := by
  have hop' : 0x0920 = opOf (seedCmd q).desc := hop.symm
  have hown : judgeCmd (seedCmd q) (seedHeard f q s) = some stOk := by
    rw [judgeCmd_seedlingExit _ hop'] at hjudge ⊢
    exact hjudge
  have hchecks : seedChecks q true = stOk := by
    rw [seedChecks, hgen, hflags, hiova]
    rfl
  unfold seedRun
  show (if _ then _ else _) = _
  rw [show judgeCmd (seedCmd q) { s with boot := { s.boot with
    seedXid := some q.xid, seedFrom := f.sa, seedReply := [] } } = some stOk from hown, Option.isSome_some, hchecks, hop]
  rfl

/-- A request that the module acts on, while none executes (R172). -/
theorem exec_seedlingFrameRx_of_idle {f : Frame} {q : SeedReq} (hphase : s.rst.phase = .started)
    (hseed : s.boot.seedling = true) (hup : portUp 0 s = true) (hacc : seedAccepts f q = true) (hidle : seedBusy s = false) :
    exec (.seedlingFrameRx f q) s = .next (if seedRetry q s then
        { s with boot := { s.boot with seedOut := s.boot.seedOut ++ [s.boot.seedReply] } }
      else if s.hw.exec.isSome then s else seedRun f q s) := by
  refine (act_of (by rw [hphase, hseed, hup, hacc]; rfl) _ _).trans (congrArg Host.Outcome.next ?_)
  rw [hidle]
  rfl

/-! ### The loss of SDCLK (R61, R460) -/

theorem portOf_setPort_other (h : k ≠ n) (x : Port) (s : State) : portOf k (setPort n x s) = portOf k s :=
  lookD_put_other _ _ _ h

/-- The loss of a link leaves the other ports. -/
theorem linkGone_other (h : k ≠ n) (cause : Nat) (s : State) : portOf k (linkGone n cause s) = portOf k s := by
  have hwait : portOf k (endWait n s) = portOf k s := by
    unfold endWait
    dsimp only
    split
    · exact portOf_setPort_other h _ s
    · rfl
  have habort (v : State) : portOf k (abortTx n v) = portOf k v := by
    unfold abortTx
    dsimp only
    rw [portOf_congr (aborts_keeps ..).1, portOf_setPort_other h]
  unfold linkGone
  dsimp only
  split
  · rfl
  · split
    · generalize hs1 : abortTx n (endWait n s) = s1
      generalize hs2 : setPort n (downPort cause s.clk.frc (portOf n s1)) s1 = s2
      generalize hs3 : portNote 0x0402 n (lossSev n cause s) (latchLink n (countPort n 36 (flushPort n s2))) = s3
      have hports : s3.prt.ports = s2.prt.ports := by rw [← hs3, portNote_ports, flushPort_prt]
      rw [portOf_congr (congrArg Prt.ports (pathLink_keeps n false s3).1), portOf_congr hports, ← hs2,
        portOf_setPort_other h, ← hs1, habort, hwait]
    · exact portOf_setPort_other h _ s

theorem portsGone_down (l : List Nat) (hk : k ∈ l ∨ (portOf k s).link = .down) :
    (portOf k (portsGone l s)).link = .down := by
  induction l generalizing s with
  | nil => exact hk.elim (fun h => absurd h List.not_mem_nil) id
  | cons n l ih =>
    by_cases hkn : k = n
    · subst hkn
      exact ih (.inr (linkGone_setup k 4 s).1)
    · refine ih (hk.imp (fun h => (List.mem_cons.mp h).resolve_left hkn) fun h => ?_)
      rw [linkGone_other hkn]
      exact h

theorem lanes_laneEvent (lane : Nat) (s : State) : (laneEvent lane s).gft.lanes = s.gft.lanes := by
  unfold laneEvent noteComplete
  dsimp only
  split
  · rfl
  · rfl

theorem lanes_moveUnacked (lane : Nat) (s : State) : (moveUnacked lane s).gft.lanes = s.gft.lanes := by
  unfold moveUnacked
  dsimp only
  split
  · exact eq_of_core (core_gftQueue _ _) Gft.lanes fun _ => rfl
  · rfl

/-- A lane goes DOWN, and the other stays (R460). -/
theorem lanes_laneDown (lane : Nat) (s : State) :
    (laneDown lane s).gft.lanes = s.gft.lanes.filter fun l => l != lane := by
  unfold laneDown
  split
  · rw [lanes_laneEvent, lanes_moveUnacked]
  · rename_i hno
    refine (List.filter_eq_self.mpr fun l hl => bne_iff_ne.mpr ?_).symm
    rintro rfl
    exact hno (List.contains_iff_mem.mpr hl)

theorem prt_laneDown (lane : Nat) (s : State) : (laneDown lane s).prt = s.prt := by
  have hevent (v : State) : (laneEvent lane v).prt = v.prt := by
    unfold laneEvent noteComplete
    dsimp only
    split <;> rfl
  have hmove (v : State) : (moveUnacked lane v).prt = v.prt := by
    unfold moveUnacked
    dsimp only
    split
    · exact gftQueue_prt _ _
    · rfl
  unfold laneDown
  split
  · rw [hevent, hmove]
  · rfl

/-- Both Graft lanes and the trace lanes go down with SDCLK (R61). -/
def sdclkLost (s : State) : State :=
  { laneDown 1 (laneDown 0 s) with
    pow := { (laneDown 1 (laneDown 0 s)).pow with sdclk := false }
    obs := { (laneDown 1 (laneDown 0 s)).obs with sending := [] } }

/-- Settles O57: the commands by their completion and the pulse after it, Seedling's rows, and the loss of SDCLK. -/
theorem startCommandsAndSeedling : Obligations.StartCommandsAndSeedling := by
  unfold Obligations.StartCommandsAndSeedling
  refine ⟨fun c s hload => ⟨fun h hbefore hreach _ => ?_, fun h hbefore _ => ?_, fun h harb => ?_, fun h => ?_⟩,
    fun f q s hphase hseed hup hacc hidle => ⟨fun hretry => ?_, fun hretry hfree => ?_⟩,
    fun s hphase hseed hat => ?_, fun s => ?_⟩
  · obtain ⟨hrst, -⟩ := beforePulse_keeps c s
    have hexec := exec_moduleReset h hbefore
    generalize beforePulse c s = v at hrst hexec
    have hload' : v.rst.loadFail = false := by rw [hrst]; exact hload
    have hreach' : v.rst.reach = none := by rw [hrst]; exact hreach
    by_cases hone : arg0 c.desc = 1
    · rw [if_pos hone] at hexec
      obtain ⟨hheld, -, hcause, hnow⟩ := assertSource_rst .cmdCold (some (v.clk.now + 1000)) hload'
      obtain ⟨hblank, -⟩ := assertSource_cold (src := .cmdCold) rfl (some (v.clk.now + 1000)) hload'
      exact ⟨_, hexec, hheld, hblank.mem, hblank.rings, fun _ => ⟨hnow, hcause⟩, fun htwo => by omega⟩
    · rw [if_neg hone] at hexec
      obtain ⟨hheld, -, hcause, hnow⟩ := assertSource_rst .cmdWarm (some (v.clk.now + 1000)) hload'
      rw [hreach'] at hnow
      obtain ⟨hblank, -⟩ := assertSource_warm (src := .cmdWarm) rfl (some (v.clk.now + 1000)) hload'
        (by rw [hreach']; nofun)
      exact ⟨_, hexec, hheld, hblank.mem, hblank.rings, fun h => absurd h hone, fun _ => ⟨hnow, hcause⟩⟩
  · obtain ⟨hrst, hmram⟩ := beforePulse_keeps c { s with mram := savePstate { s.mram with fails := 0 } }
    have hexec := exec_seedlingExit h hbefore
    generalize beforePulse c _ = v at hrst hmram hexec
    have hload' : v.rst.loadFail = false := by rw [hrst]; exact hload
    obtain ⟨hheld, -, hcause, hnow⟩ := assertSource_rst .cmdCold (some (v.clk.now + 1000)) hload'
    obtain ⟨-, -, -, hkept, -⟩ := assertSource_cold (src := .cmdCold) rfl (some (v.clk.now + 1000)) hload'
    obtain ⟨-, hfails, -⟩ := savePstate_values { s.mram with fails := 0 }
    exact ⟨_, hexec, hheld, hnow, by rw [pulseSource, hkept, hmram, hfails], hcause⟩
  · obtain ⟨-, hfails, -⟩ := savePstate_values { s.mram with fails := 0 }
    exact ⟨_, runNow_of_ready h rfl (judgeCmd_bootComplete s), rfl, rfl, hfails,
      raise_osn (s := { s with boot := _, mram := _ }) harb, rfl⟩
  · exact runNow_of_ready h rfl (judgeCmd_imgHostLoad s)
  · have hexec := exec_seedlingFrameRx_of_idle hphase hseed hup hacc hidle
    rw [hretry] at hexec
    exact hexec
  · have hexec := exec_seedlingFrameRx_of_idle hphase hseed hup hacc hidle
    rw [hretry, hfree] at hexec
    have hexec : exec (.seedlingFrameRx f q) s = .next (seedRun f q s) := hexec
    obtain ⟨hxid, hfrom⟩ := seedRun_boot f q s
    refine ⟨_, hexec, hxid, hfrom, fun hgen => ?_, fun hgen hflags hiova hop hjudge => ?_⟩
    · obtain ⟨st, hrun⟩ := seedRun_of_stale f hgen s
      rw [hrun]
      exact ⟨rfl, List.length_append⟩
    · rw [seedRun_of_exit f hgen hflags hiova hop hjudge]
      rfl
  · exact act_of (by rw [hphase, hseed, decide_eq_true hat]; rfl) _ _
  · have hexec : exec .sdclkLoss s = .next (sdclkLost (portsGone (List.range 48) s)) := rfl
    have hdown (n : Nat) (hn : n < 48) : (portOf n (portsGone (List.range 48) s)).link = .down :=
      portsGone_down _ (.inl (List.mem_range.mpr hn))
    generalize portsGone (List.range 48) s = v at hexec hdown
    have hlanes : (sdclkLost v).gft.lanes = (v.gft.lanes.filter fun l => l != 0).filter fun l => l != 1 := by
      rw [← lanes_laneDown, ← lanes_laneDown]
      rfl
    have hprt : (sdclkLost v).prt = v.prt := (prt_laneDown 1 _).trans (prt_laneDown 0 v)
    refine ⟨_, hexec, rfl, rfl, ?_, ?_, fun n hn => ?_⟩
    · rw [hlanes]
      simp
    · rw [hlanes]
      simp
    · rw [portOf_congr (congrArg Prt.ports hprt)]
      exact hdown n hn

end Sys2Proof.Machine
end

section
/-! What the operations that a standby holds, the restore of the image and a partition's reset leave of a Graft pair. -/

namespace Sys2Proof.Machine

open Sys2Proof

set_option Elab.async false

/-- The Graft engine without the transmitters of its lanes, the held operations and their LOGs, the event bits and the
counters. -/
def Gft.fixed (g : Gft) : Gft := { g.core with held := [], logs := [], confChans := [], evt := 0, cnt := [] }

theorem eq_of_fixed {α : Type} {g g' : Gft} (h : g'.fixed = g.fixed) (f : Gft → α) (hf : ∀ z, f z = f z.fixed) :
    f g' = f g := by
  rw [hf g', h, ← hf g]

theorem fixed_evt (g : Gft) (e : BitVec 8) : { g with evt := e }.fixed = g.fixed := rfl

/-- No partition with a mirror list is in shadow execution. -/
def Idles (s : State) : Prop := ∀ e ∈ s.cnp.parts, e.2.mirror = [] ∨ e.2.current = false

/-- The OSN has not fallen, and of the Graft engine the roles, the mirror image and the count of commits are the same; with `b`
a mirror with no partition in shadow execution stays so. -/
structure Steady (b : Bool) (s t : State) : Prop where
  fixed : t.gft.fixed = s.gft.fixed
  commits : lookD t.gft.cnt 0 0 = lookD s.gft.cnt 0 0
  osn : s.arb.osn ≤ t.arb.osn
  idles : b = true → Idles s → Idles t

section
variable {b : Bool} {s t : State}

theorem Steady.refl (b : Bool) (s : State) : Steady b s s := ⟨rfl, rfl, Nat.le_refl _, fun _ h => h⟩

section
variable {pending : List Instr} {free : Nat} {sets : List (Nat × Nat)} {clk : Clock} {pow : Power} {rst : Rst} {boot : Boot}
  {arb : Arb} {hw : Hw} {rng : Rng} {cnp : Cnp} {pgk : Pgk} {mem : List Host.Cell} {prt : Prt} {sw : Sw} {tim : Tim} {sv : Svs}
  {gse : Gse} {flt : Flt} {acq : Acqn} {key : Keys} {gft : Gft} {ecc : Ecc} {log : Logb} {mram : Mram} {bin : Bins} {out : Outs}
  {obs : Obs}

/-- An update that leaves the partitions keeps the pair. -/
theorem Steady.upd (h : Steady b s t) (hfixed : gft.fixed = t.gft.fixed := by exact rfl)
    (hcnt : gft.cnt = t.gft.cnt := by exact rfl) (harb : t.arb.osn ≤ arb.osn := by exact Nat.le_refl _)
    (hparts : cnp.parts = t.cnp.parts := by exact rfl) :
    Steady b s ⟨pending, free, sets, clk, pow, rst, boot, arb, hw, rng, cnp, pgk, mem, prt, sw, tim, sv, gse, flt, acq, key,
      gft, ecc, log, mram, bin, out, obs⟩ where
  fixed := hfixed.trans h.fixed
  commits := hcnt ▸ h.commits
  osn := Nat.le_trans h.osn harb
  idles hb hs := by
    unfold Idles
    dsimp only
    rw [hparts]
    exact h.idles hb hs

/-- An update of the partitions too keeps the rest. -/
theorem Steady.updParts (h : Steady false s t) (hfixed : gft.fixed = t.gft.fixed := by exact rfl)
    (hcnt : gft.cnt = t.gft.cnt := by exact rfl) (harb : t.arb.osn ≤ arb.osn := by exact Nat.le_refl _) :
    Steady false s ⟨pending, free, sets, clk, pow, rst, boot, arb, hw, rng, cnp, pgk, mem, prt, sw, tim, sv, gse, flt, acq, key,
      gft, ecc, log, mram, bin, out, obs⟩ where
  fixed := hfixed.trans h.fixed
  commits := hcnt ▸ h.commits
  osn := Nat.le_trans h.osn harb
  idles := nofun

/-- A change of one partition that leaves its mirror list and starts no shadow execution. -/
theorem Steady.updPart {p : Nat} {f : Part → Part} (h : Steady b s t) (hparts : cnp.parts = alter t.cnp.parts p f)
    (hf : ∀ x, (f x).mirror = x.mirror ∧ (x.current = false → (f x).current = false))
    (hfixed : gft.fixed = t.gft.fixed := by exact rfl)
    (hcnt : gft.cnt = t.gft.cnt := by exact rfl) (harb : t.arb.osn ≤ arb.osn := by exact Nat.le_refl _) :
    Steady b s ⟨pending, free, sets, clk, pow, rst, boot, arb, hw, rng, cnp, pgk, mem, prt, sw, tim, sv, gse, flt, acq, key,
      gft, ecc, log, mram, bin, out, obs⟩ where
  fixed := hfixed.trans h.fixed
  commits := hcnt ▸ h.commits
  osn := Nat.le_trans h.osn harb
  idles hb hs := by
    have ht : Idles t := h.idles hb hs
    intro e he
    have he' : e ∈ alter t.cnp.parts p f := hparts ▸ he
    obtain ⟨d, hd, rfl⟩ := List.mem_map.mp he'
    split
    · obtain ⟨hmirror, hcurrent⟩ := hf d.2
      exact (ht d hd).imp (fun hnil => hmirror.trans hnil) hcurrent
    · exact ht d hd
end

theorem Steady.ite {c : Prop} [Decidable c] (ht : Steady b s t) (hu : Steady b s u) : Steady b s (if c then t else u) := by
  split
  · exact ht
  · exact hu

theorem Steady.foldl {α : Type} {f : State → α → State} (hf : ∀ {t a}, Steady b s t → Steady b s (f t a)) {l : List α}
    (h : Steady b s t) : Steady b s (l.foldl f t) := by
  induction l generalizing t with
  | nil => exact h
  | cons a l ih => exact ih (hf h)
end

section
variable {b : Bool} {s t : State}

theorem osn_le_arbNext (src : Nat) (s : State) : s.arb.osn ≤ (arbNext src s).osn := by
  unfold arbNext
  split
  · exact Nat.le_refl _
  · exact Nat.le_succ _

theorem steady_grant {src : Nat} (h : Steady b s t) : Steady b s (grant src t) := h.upd rfl rfl (osn_le_arbNext src t)

/-- An event adds lines and held writes to P0, and changes no other partition. -/
theorem raise_parts (e : Ev) (t : State) : ∃ f : Part → Part, (raise e t).cnp.parts = alter t.cnp.parts 0 f ∧
    ∀ x, (f x).mirror = x.mirror ∧ (x.current = false → (f x).current = false) := by
  unfold raise
  dsimp only
  refine ⟨_, rfl, fun x => ?_⟩
  exact ⟨rfl, id⟩

theorem steady_raise {e : Ev} (h : Steady b s t) : Steady b s (raise e t) := by
  obtain ⟨f, hparts, hf⟩ := raise_parts e t
  exact h.updPart hparts hf rfl rfl (osn_le_arbNext e.src t)

theorem steady_recordOnly {e : Ev} (h : Steady b s t) : Steady b s (recordOnly e t) := steady_raise h

theorem steady_noteSet {off bit : Nat} (h : Steady b s t) : Steady b s (noteSet off bit t) := h.upd

theorem steady_freeFrames {n : Nat} (h : Steady b s t) : Steady b s (freeFrames n t) := .ite h.upd h.upd

theorem steady_modPart {p : Nat} {f : Part → Part} (h : Steady false s t) : Steady false s (modPart p f t) := h.updParts

theorem steady_setPart {p : Nat} {x : Part} (h : Steady false s t) : Steady false s (setPart p x t) := h.updParts

theorem steady_ioEvent {i : Nat} {e : Ev} (h : Steady b s t) : Steady b s (ioEvent i e t) := steady_raise h.upd

theorem steady_deliver {p iova : Nat} {b0 : Bytes} (h : Steady false s t) : Steady false s (deliver p iova b0 t) :=
  h.updParts

theorem steady_land {p iova : Nat} {b0 : Bytes} (h : Steady false s t) : Steady false s (land p iova b0 t) :=
  .ite h.updParts (steady_deliver h)

theorem steady_visWrite {p iova : Nat} {b0 : Bytes} (h : Steady false s t) : Steady false s (visWrite p iova b0 t) := by
  unfold visWrite
  split
  · exact .ite (steady_modPart h) (steady_land h)
  · exact h

theorem steady_ringVis {r iova : Nat} {b0 : Bytes} (h : Steady false s t) : Steady false s (ringVis r iova b0 t) := by
  unfold ringVis
  split
  · exact steady_visWrite h
  · exact h.upd

theorem steady_writeShadow {r : Nat} (h : Steady false s t) : Steady false s (writeShadow r t) := by
  unfold writeShadow
  split
  · exact steady_ringVis h
  · exact h

theorem steady_modEntry {r gen : Nat} {seq : Word} {f : JRec → JRec} (h : Steady b s t) :
    Steady b s (modEntry r gen seq f t) :=
  .ite h.upd h.upd

theorem steady_finishOp {r gen : Nat} {seq : Word} {status : Nat} {result : Option Word} {short : Bool} (h : Steady b s
    t) :
    Steady b s (finishOp r gen seq status result short t) :=
  h.upd

theorem steady_finishNow {r : Nat} {seq : Word} {status : Nat} {result : Option Word} (h : Steady b s t) :
    Steady b s (finishNow r seq status result t) :=
  steady_finishOp h

theorem steady_ringEvent {bit code kind r : Nat} {data : Bytes} {sev : Option Nat} (h : Steady b s t) :
    Steady b s (ringEvent bit code kind r data sev t) :=
  steady_raise (.upd (steady_noteSet h))

theorem steady_offEvents {kind index : Nat} {held : Bool} (h : Steady b s t) :
    Steady b s (offEvents kind index held t) :=
  .ite (steady_raise (steady_raise h)) (steady_raise h)

theorem steady_armCmp {tb target : Nat} {use : CmpUse} (h : Steady b s t) : Steady b s (armCmp tb target use t) := h.upd

theorem steady_cancelCmps {p : CmpUse → Bool} (h : Steady b s t) : Steady b s (cancelCmps p t) := h.upd

theorem steady_seedRespond {c : Cmd} {st : Nat} {x : Option Word} (h : Steady b s t) :
    Steady b s (seedRespond c st x t) :=
  .upd (steady_grant h)

theorem steady_finishCmd {c : Cmd} {st : Nat} {x : Option Word} (h : Steady b s t) : Steady b s (finishCmd c st x t) :=
  .ite (steady_seedRespond h) (steady_finishOp h)

theorem steady_latchKey {bit slot : Nat} (h : Steady b s t) : Steady b s (latchKey bit slot t) := steady_noteSet h.upd

theorem steady_keyEvent {code slot : Nat} {bit sev : Option Nat} (h : Steady b s t) :
    Steady b s (keyEvent code slot bit sev t) := by
  unfold keyEvent
  exact steady_raise (by split; exacts [(steady_latchKey h), h])

theorem steady_keyEvents {code : Nat} {bit sev : Option Nat} :
    ∀ (l : List Nat) {t : State}, Steady b s t → Steady b s (keyEvents code bit sev l t)
  | [], _, h => h
  | _ :: l, _, h => steady_keyEvents l (steady_keyEvent h)

theorem steady_killSlot {k : Nat} {st : KState} (h : Steady b s t) : Steady b s (killSlot k st t) :=
  steady_keyEvents _ (h.upd)

theorem steady_killSlots {st : KState} : ∀ (l : List Nat) {t : State}, Steady b s t → Steady b s (killSlots st l t)
  | [], _, h => h
  | _ :: l, _, h => steady_killSlots l (steady_killSlot h)

theorem steady_orphanLeaves {k : Nat} (h : Steady b s t) : Steady b s (orphanLeaves k t) := steady_killSlots _ h

theorem steady_invalidateBranch {k : Nat} (h : Steady b s t) : Steady b s (invalidateBranch k t) :=
  steady_keyEvent (steady_orphanLeaves (steady_killSlot h))

theorem steady_invalidateBranches : ∀ (l : List Nat) {t : State}, Steady b s t → Steady b s (invalidateBranches l t)
  | [], _, h => h
  | _ :: l, _, h => steady_invalidateBranches l (steady_invalidateBranch h)

theorem steady_foundBad {k : Nat} (h : Steady b s t) : Steady b s (foundBad k t) := by
  unfold foundBad
  exact steady_keyEvent (.upd (steady_killSlot h))

theorem steady_testSlot {k : Nat} (h : Steady b s t) : Steady b s (testSlot k t) := .ite h (steady_foundBad h)

theorem steady_testSlots : ∀ (l : List Nat) {t : State}, Steady b s t → Steady b s (testSlots l t)
  | [], _, h => h
  | _ :: l, _, h => steady_testSlots l (steady_testSlot h)

theorem steady_loadAsk {i : Nat} (h : Steady b s t) : Steady b s (loadAsk i t) := h.upd

theorem steady_setLane {lane : Nat} {j : LaneJob} (h : Steady b s t) : Steady b s (setLane lane j t) := h.upd

theorem steady_loadVerify {lane : Nat} {h0 : Held} {a : Action} (h : Steady b s t) :
    Steady b s (loadVerify lane h0 a t) := by
  unfold loadVerify
  extract_lets s1 s2 k w
  have hs2 : Steady b s s2 := steady_testSlots _ (steady_testSlot (steady_loadAsk h))
  exact steady_setLane hs2

theorem steady_loadTag {lane : Nat} {t0 : TagReq} (h : Steady b s t) : Steady b s (loadTag lane t0 t) :=
  steady_setLane (steady_testSlot (steady_loadAsk h))

theorem steady_startLane {e : Nat × Nat} (h : Steady b s t) : Steady b s (startLane t e) := by
  unfold startLane
  exact .ite (by split; exacts [h, (steady_loadVerify h.upd)]) (by split; exacts [h, (steady_loadTag h.upd)])

theorem steady_laneCycle (h : Steady b s t) : Steady b s (laneCycle t) := .foldl (fun h => steady_startLane h) h.upd

theorem steady_laneCycles : ∀ (n : Nat) {t : State}, Steady b s t → Steady b s (laneCycles n t)
  | 0, _, h => h
  | n + 1, _, h => steady_laneCycles n (steady_laneCycle h)

theorem steady_fillLanes (h : Steady b s t) : Steady b s (fillLanes t) := steady_laneCycles _ h

theorem steady_setOut {n : Nat} {c : OutCh} (h : Steady b s t) : Steady b s (setOut n c t) := h.upd

theorem steady_unmatched {e : JRec} (h : Steady b s t) : Steady b s (unmatched e t) := steady_ringEvent h

theorem steady_unmatchedAll : ∀ (l : List JRec) {t : State}, Steady b s t → Steady b s (unmatchedAll l t)
  | [], _, h => h
  | _ :: l, _, h => steady_unmatchedAll l (steady_unmatched h)

theorem steady_newEventLine {r : Nat} (h : Steady false s t) : Steady false s (newEventLine r t) := .ite (steady_visWrite h.upd) h

theorem steady_newGeneration {r : Nat} (h : Steady false s t) : Steady false s (newGeneration r t) := by
  unfold newGeneration
  split
  · exact h
  · exact steady_unmatchedAll _ (steady_newEventLine (steady_writeShadow h.upd))

theorem steady_putLoad {p dst : Nat} {load : Bytes} (h : Steady false s t) : Steady false s (putLoad p dst load t) :=
  h.updParts

theorem steady_destGone {goose : Bool} {n : Nat} (h : Steady b s t) : Steady b s (destGone goose n t) :=
  steady_raise (.upd (steady_noteSet h))

theorem steady_destsGone {goose : Bool} : ∀ (l : List Nat) {t : State}, Steady b s t → Steady b s (destsGone goose l t)
  | [], _, h => h
  | _ :: l, _, h => steady_destsGone l (steady_destGone h)

theorem steady_removeDests {p : Nat} (h : Steady b s t) : Steady b s (removeDests p t) :=
  steady_destsGone _ (steady_destsGone _ h.upd)

theorem steady_dropRun {p : Nat} (h : Steady false s t) : Steady false s (dropRun p t) := h.updParts

theorem steady_reclaim {p : Nat} (h : Steady false s t) : Steady false s (reclaim p t) := by
  unfold reclaim
  split
  · exact h
  · exact steady_freeFrames h.updParts

theorem steady_dropPre {p : Nat} (h : Steady false s t) : Steady false s (dropPre p t) := by
  unfold dropPre
  split
  · exact h
  · exact steady_setPart h.upd

theorem steady_ringAtReset {r : Nat} (h : Steady false s t) : Steady false s (ringAtReset r t) := by
  unfold ringAtReset
  split
  · exact .ite (steady_offEvents h.upd) h
  · exact h

theorem steady_ringsAtReset : ∀ (l : List Nat) {t : State}, Steady false s t → Steady false s (ringsAtReset l t)
  | [], _, h => h
  | _ :: l, _, h => steady_ringsAtReset l (steady_newGeneration (steady_ringAtReset h))

theorem steady_resetPart {p : Nat} (h : Steady false s t) : Steady false s (resetPart p t) := by
  unfold resetPart
  split
  · exact h
  · exact .ite (steady_offEvents (steady_setPart h)) (steady_setPart h)

theorem steady_narrowRecord {source target reach : Nat} (h : Steady b s t) :
    Steady b s (narrowRecord source target reach t) :=
  steady_recordOnly h

theorem steady_soil {p : Nat} (h : Steady false s t) : Steady false s (soil p t) := steady_modPart h

theorem steady_partitionReset {p : Nat} (h : Steady false s t) : Steady false s (partitionReset p t) := by
  unfold partitionReset
  extract_lets load s1 s2 s3 s4
  have hs3 : Steady false s s3 :=
    steady_ringsAtReset _ (steady_reclaim (steady_soil (steady_dropPre (steady_dropRun (steady_narrowRecord h)))))
  have hs4 : Steady false s s4 := by
    simp only [s4]
    clear_value load
    split
    · exact steady_soil (steady_putLoad hs3)
    · exact hs3
  exact steady_removeDests (steady_invalidateBranches _ (steady_resetPart hs4))

theorem steady_destroyPart {p : Nat} (h : Steady false s t) : Steady false s (destroyPart p t) := by
  unfold destroyPart
  extract_lets n s1 _ s2
  have hs2 : Steady false s s2 := steady_freeFrames (.updParts (steady_dropPre (steady_dropRun h)))
  exact steady_removeDests (steady_invalidateBranches _ hs2)

theorem steady_setTriad {t0 : Nat} {x : Triad} (h : Steady b s t) : Steady b s (setTriad t0 x t) := h.upd

theorem steady_markStale {p : Nat} (h : Steady b s t) : Steady b s (markStale p t) :=
  h.updPart (f := fun x => { x with current := false, stale := true }) rfl fun _ => ⟨rfl, fun _ => rfl⟩

theorem steady_countOut {n i : Nat} (h : Steady b s t) : Steady b s (countOut n i t) := h.upd

theorem steady_suppress {n : Nat} (h : Steady b s t) : Steady b s (suppress n t) :=
  .ite h (.ite (steady_setOut h) (steady_ioEvent (steady_setOut h)))

theorem steady_loadDone {q : Pend} (h : Steady b s t) : Steady b s (loadDone q t) := by
  unfold loadDone
  split
  · exact h
  · exact .ite (steady_finishOp (steady_cancelCmps h.upd)) h

theorem steady_channelDone {q : Pend} {n : Nat} {loaded lost : Bool} (h : Steady b s t) :
    Steady b s (channelDone q n loaded lost t) :=
  steady_loadDone h.upd

theorem steady_releasePend {n : Nat} {lost : Bool} (h : Steady b s t) : Steady b s (releasePend n lost t) := by
  unfold releasePend
  extract_lets
  split
  · exact h
  · exact steady_channelDone (steady_setOut h)

theorem steady_countPeriod {n : Nat} {c : OutCh} (h : Steady b s t) : Steady b s (countPeriod n c t) := by
  unfold countPeriod
  extract_lets s1 s2
  have hs2 : Steady b s s2 := .ite (steady_countOut (steady_countOut h)) (steady_countOut h)
  exact .ite (steady_suppress (steady_countOut hs2)) (.ite (steady_suppress (steady_countOut hs2)) hs2)

theorem steady_beginPeriod {n t0 : Nat} (h : Steady b s t) : Steady b s (beginPeriod n t0 t) :=
  steady_countPeriod (steady_setOut h)

theorem steady_takeLoad {n t0 : Nat} {q : Pend} (h : Steady b s t) : Steady b s (takeLoad n t0 q t) := by
  unfold takeLoad
  extract_lets c y econ s1 s2
  have hs2 : Steady b s s2 := .ite (steady_setOut (steady_countOut h)) (.ite (steady_setOut (steady_countOut h))
    (steady_beginPeriod (steady_setOut (steady_countOut h))))
  exact steady_channelDone hs2

theorem steady_stageEff {r : Nat} {seq : Word} (h : Steady b s t) : Steady b s (stageEff r seq t) := by
  unfold stageEff
  split
  · exact h
  · exact steady_finishNow (steady_setOut h)

theorem steady_loadChan {q : Pend} {when_ n : Nat} (h : Steady b s t) : Steady b s (loadChan q when_ t n) :=
  .ite (steady_takeLoad (steady_releasePend h)) (steady_setOut (steady_releasePend h))

theorem steady_loadEff {r : Nat} {seq : Word} {block : Bytes} (h : Steady b s t) :
    Steady b s (loadEff r seq block t) := by
  unfold loadEff
  split
  · exact h
  · exact .ite (steady_finishNow h) (.foldl (fun h => steady_loadChan h) (.ite (steady_armCmp h.upd) h.upd))

theorem steady_pulseEff {r : Nat} {seq : Word} (h : Steady b s t) : Steady b s (pulseEff r seq t) := by
  unfold pulseEff
  split
  · exact h
  · exact .ite (steady_finishNow h) (.ite (steady_suppress (steady_countOut (steady_countOut (steady_setOut h))))
      (steady_countOut (steady_setOut h)))

theorem steady_submit {h0 : Held} {slot auth owner : Nat} (h : Steady b s t) :
    Steady b s (submit h0 slot auth owner t) :=
  .ite h.upd (steady_fillLanes h.upd)

theorem steady_sendEff {r : Nat} {seq : Word} {f : Frame} (h : Steady b s t) : Steady b s (sendEff r seq f t) := by
  unfold sendEff
  split
  · exact h
  · exact .ite (steady_finishNow h) (.ite (steady_finishNow h) (steady_submit h.upd))

theorem steady_finishPub {t0 : TagReq} {status : Nat} (h : Steady b s t) : Steady b s (finishPub t0 status t) := by
  unfold finishPub
  split
  · exact steady_finishOp h
  · exact h

theorem steady_toSe0Tx {e : Nat} {h0 : Held} (h : Steady b s t) : Steady b s (toSe0Tx e h0 t) := h.upd

theorem steady_setRec {n : Nat} {x : Rec} (h : Steady b s t) : Steady b s (setRec n x t) := h.upd

theorem steady_countRec {n i k : Nat} (h : Steady b s t) : Steady b s (countRec n i k t) := h.upd

theorem steady_writeStatus {n : Nat} (h : Steady false s t) : Steady false s (writeStatus n t) := by
  unfold writeStatus
  extract_lets
  split
  · exact .ite (steady_visWrite h) h
  · exact h

theorem steady_reblind {n : Nat} (h : Steady false s t) : Steady false s (reblind n t) := by
  unfold reblind
  exact steady_writeStatus (by split; exacts [(steady_setRec h), (steady_countRec (steady_setRec h)), h])

theorem steady_setPub {n : Nat} {x : GPub} (h : Steady b s t) : Steady b s (setPub n x t) := h.upd

theorem steady_countPub {n i : Nat} (h : Steady b s t) : Steady b s (countPub n i t) := h.upd

theorem steady_sendPub {e gap : Nat} {op : Option (Nat × Nat × Word)} (h : Steady b s t) :
    Steady b s (sendPub e gap op t) :=
  .ite (steady_finishPub h) (.ite (steady_finishPub (steady_toSe0Tx h)) (steady_fillLanes h.upd))

theorem steady_publishEff {r : Nat} {seq : Word} {data : Bytes} (h : Steady b s t) :
    Steady b s (publishEff r seq data t) := by
  unfold publishEff
  split
  · exact h
  · exact .ite (steady_finishNow h) (.ite (steady_finishNow (steady_countPub h)) (steady_sendPub (steady_countPub
      (steady_setPub h))))

theorem steady_modStored {n num : Nat} {f : SRec → SRec} (h : Steady b s t) : Steady b s (modStored n num f t) :=
  steady_setRec h

theorem steady_freeRec {n : Nat} {r : SRec} (h : Steady b s t) : Steady b s (freeRec n r t) := steady_setRec h

theorem steady_quitExport {x : XOp} (h : Steady false s t) : Steady false s (quitExport x t) := by
  unfold quitExport
  extract_lets
  split
  · exact .ite (steady_reblind (steady_freeRec (steady_modStored h.upd))) (steady_modStored h.upd)
  · exact steady_modStored h.upd

theorem steady_gftEvent {code kind index : Nat} {bit : Option Nat} {data : Bytes} (h : Steady b s t) :
    Steady b s (gftEvent code kind index bit data t) := by
  unfold gftEvent
  refine steady_raise ?_
  split
  · exact (steady_noteSet h).upd (fixed_evt t.gft _)
  · exact h

theorem steady_countGft {i n : Nat} (h : Steady b s t) (hi : i ≠ 0 := by decide) : Steady b s (countGft i n t) where
  fixed := h.fixed
  commits := (lookD_bumpBy_other _ n (Ne.symm hi)).trans h.commits
  osn := h.osn
  idles := h.idles

theorem steady_endFwd {f : Fwd} (h : Steady b s t) : Steady b s (endFwd f t) := .upd (steady_finishCmd h)

theorem steady_endFwds : ∀ (l : List Fwd) {t : State}, Steady b s t → Steady b s (endFwds l t)
  | [], _, h => h
  | _ :: l, _, h => steady_endFwds l (steady_endFwd h)

theorem steady_quitExports {p : Nat} (h : Steady false s t) : Steady false s (quitExports p t) :=
  .foldl (fun h => steady_quitExport h) h

theorem steady_destroyShadow {p : Nat} (h : Steady false s t) : Steady false s (destroyShadow p t) :=
  steady_destroyPart (.upd (steady_quitExports h))

theorem steady_destroyShadows : ∀ (l : List Nat) {t : State}, Steady false s t → Steady false s (destroyShadows l t)
  | [], _, h => h
  | _ :: l, _, h => steady_destroyShadows l (steady_destroyShadow h)

theorem steady_takePub {n : Nat} {v : PubValues} (h : Steady b s t) : Steady b s (takePub n v t) := steady_setPub h

theorem steady_opEffect {b0 : Nat} {h0 : HeldOp} {d : Desc} (h : Steady b s t) : Steady b s (opEffect b0 h0 d t) := by
  unfold opEffect
  extract_lets
  split
  · exact steady_sendEff h
  · exact steady_publishEff h
  · exact steady_stageEff h
  · exact steady_loadEff h
  · exact steady_pulseEff h

theorem steady_applyLog {h0 : HeldOp} {l : LogInfo} {d : Desc} (h : Steady b s t) : Steady b s (applyLog h0 l d t) := by
  have hdone : Steady b s (countGft 8 1 (finishNow h0.ring h0.seq l.status (some l.result) t)) :=
    steady_countGft (steady_finishNow h)
  unfold applyLog
  refine .ite hdone ?_
  split
  · exact .ite hdone (steady_takePub hdone)
  · exact (steady_opEffect hdone).upd
  · exact hdone

theorem steady_meetLog {h0 : HeldOp} {l : LogInfo} (h : Steady b s t) : Steady b s (meetLog h0 l t) := by
  unfold meetLog
  split
  · exact h.upd
  · exact .ite (steady_applyLog h.upd) (steady_markStale h.upd)

theorem steady_matchLogs : ∀ (l : List HeldOp) {t : State}, Steady b s t → Steady b s (matchLogs l t)
  | [], _, h => h
  | _ :: l, _, h => by
    unfold matchLogs
    refine steady_matchLogs l ?_
    split
    · exact steady_meetLog h
    · exact h

theorem steady_dropUnmatched {from_ : Nat} (h : Steady b s t) : Steady b s (dropUnmatched from_ t) :=
  .foldl (fun h => steady_countGft (steady_markStale h)) h.upd

theorem steady_pageBack {p : Nat} {e : Nat × List Host.Cell} (h : Steady false s t) : Steady false s (pageBack p t e) := by
  unfold pageBack
  split
  · exact h
  · exact .ite h.upd (steady_setPart h.upd)

theorem steady_dropUndo {p : Nat} (h : Steady b s t) : Steady b s (dropUndo p t) := h.upd

theorem steady_imageBack {p : Nat} (h : Steady false s t) : Steady false s (imageBack p t) := by
  unfold imageBack
  extract_lets mine s1 s2 jrnl
  have hs1 : Steady false s s1 := .foldl (fun h => steady_pageBack h) (steady_quitExports (steady_dropUndo (steady_dropRun h)))
  exact .upd (steady_modPart hs1)

theorem steady_reseed {p : Nat} (h : Steady false s t) : Steady false s (reseed p t) :=
  steady_setTriad (steady_countGft (steady_imageBack h))

theorem steady_reseeds : ∀ (l : List Nat) {t : State}, Steady false s t → Steady false s (reseeds l t)
  | [], _, h => h
  | _ :: l, _, h => steady_reseeds l (steady_reseed h)

theorem steady_restoreOld {p : Nat} (h : Steady false s t) : Steady false s (restoreOld p t) := by
  unfold restoreOld
  exact steady_gftEvent (steady_modPart (steady_imageBack h))

theorem steady_takePart {e : Nat × Part} (h : Steady false s t) : Steady false s (takePart t e) :=
  .ite h (.ite (steady_restoreOld h) (steady_partitionReset h))

theorem steady_runHeld {h0 : HeldOp} (h : Steady b s t) : Steady b s (runHeld t h0) := by
  unfold runHeld
  split
  · exact h
  · exact steady_countGft (.ite (steady_opEffect (steady_modEntry h)) (steady_finishNow (steady_modEntry h)))
end

end Sys2Proof.Machine
end

section
/-! Proof of the statement on Graft commands, lanes and link frames. -/

namespace Sys2Proof.Machine

open Sys2Proof

set_option Elab.async false

variable {c : Cmd} {lane : Nat} {l : GLink} {s : State}

/-! ### Events of the Graft engine, and the end of a pairing (R464, R478, R485) -/

theorem getLsbD_latch_of {n i j : Nat} {l : BitVec n} (h : l.getLsbD j = true) : (latch l i).getLsbD j = true := by
  rw [latch, BitVec.getLsbD_or, h]
  rfl

/-- The completeness of the pair and its event bit alone change in the Graft engine, and no bit falls. -/
theorem noteComplete_gft (s : State) : ∃ c e, (noteComplete s).gft = { s.gft with complete := c, evt := e } ∧
    ∀ i, s.gft.evt.getLsbD i = true → e.getLsbD i = true := by
  unfold noteComplete
  dsimp only
  split
  · exact ⟨_, _, rfl, fun _ h => h⟩
  · exact ⟨_, _, rfl, fun _ h => getLsbD_latch_of h⟩

theorem freeFrames_gft (n : Nat) (s : State) : (freeFrames n s).gft = s.gft := by
  unfold freeFrames
  dsimp only
  split <;> rfl

theorem freeFrames_cnp (n : Nat) (s : State) : (freeFrames n s).cnp = s.cnp := by
  unfold freeFrames
  dsimp only
  split <;> rfl

theorem endFwd_gft (f : Fwd) (s : State) : (endFwd f s).gft = s.gft := by
  unfold endFwd finishCmd
  dsimp only
  split <;> rfl

theorem endFwds_gft (fs : List Fwd) (s : State) : (endFwds fs s).gft = s.gft := by
  induction fs generalizing s with
  | nil => rfl
  | cons f fs ih => exact (ih _).trans (endFwd_gft f s)

/-- What the end of a pairing leaves of the Graft engine. -/
def parted (g : Gft) : Gft :=
  { forgetSent { g with waitAck := [] } with
    phase := .unpaired, ownId := 0, peerId := 0, peer := none, switchDue := false, acks := []
    txWait := g.txWait.filter fun q => gftClass (bodyType q.frame.body) != 2 }

theorem unpaired_gft (s : State) : (unpaired s).gft = parted s.gft := by
  unfold unpaired
  dsimp only
  rw [endFwds_gft]
  rfl

theorem foldl_dropRun_gft (ps : List (Nat × Part)) (s : State) :
    (ps.foldl (fun u e => dropRun e.1 u) s).gft = s.gft := by
  induction ps generalizing s with
  | nil => rfl
  | cons e ps ih => exact ih _

/-- A standby keeps its role when shadow execution stops, and stays as it is while ACTIVE_N is high (R477). -/
theorem detach_gft (s : State) : (detach s).gft =
    if s.gft.line then s.gft else { s.gft with phase := .detached, held := [], logs := [] } := by
  unfold detach
  dsimp only
  split
  · rfl
  · show ({ (List.foldl _ s _).gft with phase := _, held := _, logs := _ } : Gft) = _
    rw [foldl_dropRun_gft]

/-- The module after UNPAIR (R485). -/
theorem unpairNow_spec (s : State) : (unpairNow s).gft.phase = .unpaired ∧ (unpairNow s).gft.ownId = 0 ∧
    (unpairNow s).gft.peerId = 0 ∧ (unpairNow s).gft.waitAck = [] ∧
    (unpairNow s).gft.role = if s.gft.role = .standby then .idle else s.gft.role := by
  unfold unpairNow
  dsimp only
  by_cases hrole : s.gft.role = .standby
  · rw [if_pos (beq_iff_eq.mpr hrole), if_pos hrole]
    obtain ⟨himage, -, -, -⟩ := steady_destroyShadows ((s.cnp.parts.filter fun e => e.1 != 0).map Prod.fst)
      (Steady.refl false (dropImage (unpaired s)))
    have hdrop : (dropImage (unpaired s)).gft.phase = .unpaired ∧ (dropImage (unpaired s)).gft.ownId = 0 ∧
        (dropImage (unpaired s)).gft.peerId = 0 ∧ (dropImage (unpaired s)).gft.waitAck = [] := by
      unfold dropImage
      rw [freeFrames_gft]
      dsimp only
      rw [unpaired_gft]
      exact ⟨rfl, rfl, rfl, rfl⟩
    obtain ⟨hphase, hown, hpeer, hwait⟩ := hdrop
    exact ⟨(eq_of_fixed himage Gft.phase fun _ => rfl).trans hphase, (eq_of_fixed himage Gft.ownId fun _ => rfl).trans hown,
      (eq_of_fixed himage Gft.peerId fun _ => rfl).trans hpeer, (eq_of_fixed himage Gft.waitAck fun _ => rfl).trans hwait, rfl⟩
  · rw [if_neg fun h => hrole (beq_iff_eq.mp h), if_neg hrole]
    obtain ⟨c, e, hgft, -⟩ := noteComplete_gft { unpaired s with gft := { (unpaired s).gft with watching := false } }
    rw [hgft]
    dsimp only
    rw [unpaired_gft]
    exact ⟨rfl, rfl, rfl, rfl, rfl⟩

/-! ### A frame that a lane takes (R462) -/

/-- The Graft engine whose lane has taken a frame, with `r` frames received since the last ACK. -/
def tookGft (lane r : Nat) (s : State) : Gft :=
  { s.gft with
    laneRx := put s.gft.laneRx lane ((lookD s.gft.laneRx lane 0 + 1) % 2 ^ 32), lastRx := s.clk.now, rxSince := r }

theorem core_sendAck (mark : Option Nat) (s : State) :
    (sendAck mark s).gft.core = { s.gft with rxSince := 0 }.core := core_gftSendOne _ _

theorem tookFrame_eq (lane : Nat) (s : State) : tookFrame lane s =
    if 16 ≤ s.gft.rxSince + 1 then sendAck none { s with gft := tookGft lane (s.gft.rxSince + 1) s }
    else { s with gft := tookGft lane (s.gft.rxSince + 1) s } := rfl

/-- A lane that takes a frame moves its receive sequence, and the transmitters may send an ACK. -/
theorem tookFrame_spec (lane : Nat) (s : State) : LinkOnly s (tookFrame lane s) ∧
    ∃ r, (tookFrame lane s).gft.core = (tookGft lane r s).core := by
  rw [tookFrame_eq]
  split
  · exact ⟨LinkOnly.trans (t := { s with gft := tookGft lane (s.gft.rxSince + 1) s }) rfl (LinkOnly.sendAck _ _), 0,
      core_sendAck _ _⟩
  · exact ⟨rfl, _, rfl⟩

/-- Before the sixteenth frame no ACK leaves. -/
theorem tookFrame_of_few (h : s.gft.rxSince + 1 < 16) :
    tookFrame lane s = { s with gft := tookGft lane (s.gft.rxSince + 1) s } := by
  rw [tookFrame_eq, if_neg (Nat.not_le.mpr h)]

theorem onLane_of_up (h : linkUp l s) (f : State → State) : onLane l s f =
    .next (if nextOnLane l s then f (tookFrame l.lane s) else if l.crcOk then s else countGft 11 1 s) := by
  obtain ⟨hlane, hup, hcold⟩ := h
  refine named_act (decide_eq_true hlane) ?_
  rw [List.contains_iff_mem.mpr hup, hcold]
  rfl

theorem onLane_of_ready (h : linkReady l s) (f : State → State) :
    onLane l s f = .next (f (tookFrame l.lane s)) := by
  rw [onLane_of_up h.1, if_pos h.2]

theorem onLane_of_other (h : linkUp l s) (hnext : nextOnLane l s = false) (f : State → State) :
    onLane l s f = .next (if l.crcOk then s else countGft 11 1 s) := by
  rw [onLane_of_up h, hnext]
  rfl

/-! ### Commands at their boundary (R457, R465, R484) -/

/-- The state in which GFT_MIRROR has replaced the list of its partition, before the completeness is noted (R465). -/
def mirrorSet (c : Cmd) (s : State) : State :=
  let p := argPart c
  let l := regionList c.block
  let standby := s.gft.role == .standby
  let u := modPart p (fun x => { x with mirror := l, current := false, stale := standby && !l.isEmpty }) s
  if standby then trimImage p u
  else if activePaired s then pagesToCopy { u with gft := sendAnew p u.gft } else u

theorem mirrorSet_frame (c : Cmd) (s : State) : (mirrorSet c s).rng = s.rng ∧ (mirrorSet c s).cnp =
    (modPart (argPart c) (fun x => { x with
      mirror := regionList c.block, current := false
      stale := s.gft.role == .standby && !(regionList c.block).isEmpty }) s).cnp := by
  unfold mirrorSet
  extract_lets p l standby u
  split
  · unfold trimImage
    dsimp only
    exact ⟨freeFrames_rng _ _, freeFrames_cnp _ _⟩
  · split <;> exact ⟨rfl, rfl⟩

theorem look_mirrorSet {x : Part} (h : look s.cnp.parts (argPart c) = some x) :
    ((look (noteComplete (mirrorSet c s)).cnp.parts (argPart c)).map fun y => (y.mirror, y.current)) =
      some (regionList c.block, false) := by
  have hset : look (mirrorSet c s).cnp.parts (argPart c) = some { x with
      mirror := regionList c.block, current := false
      stale := s.gft.role == .standby && !(regionList c.block).isEmpty } := by
    rw [(mirrorSet_frame c s).2]
    exact look_modPart_of _ _ _ h
  obtain ⟨-, -, -, -, hparts⟩ := noteComplete_frame (mirrorSet c s)
  obtain ⟨lines, held, hlook⟩ := hparts _ _ hset
  rw [hlook]
  rfl

/-- The active that resigns says so on every lane, and its outputs wait (R457). -/
theorem resign_gft (hpair : activePaired s = true) (hnone : s.gft.resignAt = none) :
    (resign s).gft.core = { s.gft with resignAt := some s.clk.now }.core := by
  unfold resign
  rw [hpair, hnone]
  exact core_gftSendAll _ _

/-! ### Lanes (R460) -/

theorem laneEvent_evt (lane : Nat) (s : State) : (laneEvent lane s).gft.evt.getLsbD 6 = true := by
  obtain ⟨c, e, hgft, hbits⟩ := noteComplete_gft (gftEvent 0x0817 0 lane (some 6) [] s)
  unfold laneEvent
  rw [hgft]
  exact hbits 6 (getLsbD_latch_self _ (by decide))

theorem sdclkBack_gft (s : State) : (sdclkBack s).gft = s.gft := by
  unfold sdclkBack
  split <;> rfl

theorem graftLaneUp_spec (hlane : lane < 2) (hdown : lane ∉ s.gft.lanes) (hcold : coldHeld s = false) : ∃ u,
    exec (.graftLaneUp lane) s = .next u ∧ u.gft.evt.getLsbD 6 = true ∧
    ∀ l, l ∈ u.gft.lanes ↔ l = lane ∨ l ∈ s.gft.lanes := by
  have hact : (!s.gft.lanes.contains lane && !coldHeld s) = true := by
    rw [hcold, Bool.not_eq_true' _ |>.mpr (Bool.eq_false_iff.mpr fun h => hdown (List.contains_iff_mem.mp h))]
    rfl
  refine ⟨_, named_act (decide_eq_true hlane) hact, ?_, fun l => ?_⟩
  · exact (congrArg (·.getLsbD 6) (eq_of_core (core_frameStarts _) Gft.evt fun _ => rfl)).trans (laneEvent_evt _ _)
  · rw [eq_of_core (core_frameStarts _) Gft.lanes fun _ => rfl, lanes_laneEvent, sdclkBack_gft]
    dsimp only
    split
    · rename_i h0
      rw [List.mem_cons, h0]
    · rw [List.mem_append, List.mem_singleton, or_comm]

theorem graftLaneDown_spec (hlane : lane < 2) (hup : lane ∈ s.gft.lanes) : ∃ u,
    exec (.graftLaneDown lane) s = .next u ∧ u.gft.evt.getLsbD 6 = true ∧
    ∀ l, l ∈ u.gft.lanes ↔ l ≠ lane ∧ l ∈ s.gft.lanes := by
  have hexec : exec (.graftLaneDown lane) s = .next (laneDown lane s) := if_pos (decide_eq_true hlane)
  refine ⟨_, hexec, ?_, fun l => ?_⟩
  · unfold laneDown
    rw [if_pos (List.contains_iff_mem.mpr hup)]
    exact laneEvent_evt _ _
  · rw [lanes_laneDown, List.mem_filter, bne_iff_ne, and_comm]

/-! ### Acknowledgements (R462, R468, R478) -/

theorem linkOnly_countGft (i n : Nat) (s : State) : LinkOnly s (countGft i n s) := rfl

/-- What an ACK leaves unacknowledged is counted, and waits for its lane. -/
theorem takeAck_spec (l0 l1 : Word) (s : State) : LinkOnly s (takeAck l0 l1 s) ∧
    ∃ n, (takeAck l0 l1 s).gft.core = { s.gft with cnt := bumpBy s.gft.cnt 12 n }.core := by
  unfold takeAck
  extract_lets u0 u1 g t l
  refine ⟨LinkOnly.trans (t := t) rfl ((LinkOnly.gftQueue l t).trans (linkOnly_countGft _ _ _)), l.length, ?_⟩
  have hqueue : (gftQueue l t).gft.core = s.gft.core := core_gftQueue t l
  have hcnt : (gftQueue l t).gft.cnt = s.gft.cnt := eq_of_core hqueue Gft.cnt fun _ => rfl
  show { (gftQueue l t).gft.core with cnt := bumpBy (gftQueue l t).gft.cnt 12 l.length } = _
  rw [hqueue, hcnt]
  rfl

theorem resends_of_noWait (lane : Nat) (l : List (Nat × GFrame)) (h : s.gft.txWait = []) :
    (resends lane l s).length = l.length := by
  unfold resends
  rw [h]
  exact (congrArg List.length (List.filter_eq_self.mpr fun _ _ => rfl)).trans (List.length_map _)

/-- With no frame waiting, every unacknowledged frame is sent again and counted. -/
theorem takeAck_of_noWait (l0 l1 : Word) (h : s.gft.txWait = []) : lookD (takeAck l0 l1 s).gft.cnt 12 0 =
    (lookD s.gft.cnt 12 0 + ((keepUnacked l0 (lookD s.gft.unacked 0 [])).length +
      (keepUnacked l1 (lookD s.gft.unacked 1 [])).length)) % 2 ^ 64 := by
  unfold takeAck
  extract_lets u0 u1 g t l
  have hlen : l.length = u0.length + u1.length := by
    simp only [l]
    rw [List.length_append, resends_of_noWait (s := t) 0 u0 h, resends_of_noWait (s := t) 1 u1 h]
  have hcnt : (gftQueue l t).gft.cnt = s.gft.cnt := eq_of_core (core_gftQueue t l) Gft.cnt fun _ => rfl
  show lookD (bumpBy (gftQueue l t).gft.cnt 12 l.length) 12 0 = _
  rw [lookD_bumpBy_self, hcnt, hlen]

theorem commitQueue_first {m : Nat} {e : Nat × Nat} (rest : List (Nat × Nat)) (h : e.1 = m) :
    commitQueue m (e :: rest) = some ([e], rest) := by
  subst h
  simp [commitQueue]

theorem mirrorDone_first {m : Nat} {e : Nat × Nat} {rest : List (Nat × Nat)} (hqueue : s.gft.queue = e :: rest)
    (h : e.1 = m) : mirrorDone m s = countGft 0 1 { s with gft := { s.gft with
      queue := rest, bytes := e.2, late := decide (2 ≤ rest.length), mark := m } } := by
  unfold mirrorDone
  rw [hqueue, commitQueue_first rest h]
  rfl

/-! ### The loss of the partner (R464) -/

/-- The loss of the partner is reported. -/
def lossNoted (s : State) : State :=
  gftEvent 0x0810 0 0 (some 0) [] { s with gft := { s.gft with lost := true, watching := false } }

theorem partnerLost_of_due (hwatch : s.gft.watching = true) (hlate : s.gft.lastRx + 20000 ≤ s.clk.now) :
    exec .partnerLost s = .next (if s.gft.role == .standby then detach (lossNoted s)
      else if isPaired s then noteComplete (unpaired (lossNoted s)) else lossNoted s) := by
  refine act_of ?_ _ _
  rw [watches, hwatch, decide_eq_true hlate]
  rfl

/-! ### The statement -/

theorem named_act_of_not {a b : Bool} (ha : a = true) (hb : b = false) (s u : State) : named a (act b s u) = .next s := by
  rw [ha, hb]
  rfl

/-- An ACK on a module that is not ACTIVE takes back what its `LSEQ`s leave. -/
theorem ack_of_other (l0 l1 : Word) {a : OnLink AckInfo} (h : linkReady a.link s) (hrole : s.gft.role ≠ .active) :
    exec (.ack l0 l1 a) s = .next (takeAck l0 l1 (tookFrame a.link.lane s)) := by
  show execAck l0 l1 a s = _
  rw [execAck, onLane_of_ready h]
  obtain ⟨-, n, hcore⟩ := takeAck_spec l0 l1 (tookFrame a.link.lane s)
  obtain ⟨-, r, htook⟩ := tookFrame_spec a.link.lane s
  have hrole' : (takeAck l0 l1 (tookFrame a.link.lane s)).gft.role = s.gft.role :=
    (eq_of_core hcore Gft.role fun _ => rfl).trans (eq_of_core htook Gft.role fun _ => rfl)
  dsimp only
  rw [hrole', if_pos (by rw [bne_iff_ne.mpr hrole]; rfl)]

/-- An ACK with a mark on the paired ACTIVE: its mirror has committed, and the standby is known (R468, R478). -/
theorem ack_of_active (l0 l1 : Word) {a : OnLink AckInfo} {m : Nat} (h : linkReady a.link s) (hmark : a.body.mark = some m)
    (hrole : s.gft.role = .active) (hphase : s.gft.phase = .active) : exec (.ack l0 l1 a) s =
      .next (noteComplete (peerState a.body (mirrorDone (m % 2 ^ 48) (takeAck l0 l1 (tookFrame a.link.lane s))))) := by
  show execAck l0 l1 a s = _
  rw [execAck, onLane_of_ready h]
  obtain ⟨-, n, hcore⟩ := takeAck_spec l0 l1 (tookFrame a.link.lane s)
  obtain ⟨-, r, htook⟩ := tookFrame_spec a.link.lane s
  have hrole' : (takeAck l0 l1 (tookFrame a.link.lane s)).gft.role = .active :=
    (eq_of_core hcore Gft.role fun _ => rfl).trans ((eq_of_core htook Gft.role fun _ => rfl).trans hrole)
  have hphase' : (takeAck l0 l1 (tookFrame a.link.lane s)).gft.phase = .active :=
    (eq_of_core hcore Gft.phase fun _ => rfl).trans ((eq_of_core htook Gft.phase fun _ => rfl).trans hphase)
  dsimp only
  rw [hrole', hphase', hmark]
  rfl

/-- The ACTIVE takes the ACK of its first mirror: the queue moves on, the commit is counted, and the standby's partitions are as
the ACK says. -/
theorem ack_of_first (l0 l1 : Word) {a : OnLink AckInfo} {m : Nat} {e : Nat × Nat} {rest : List (Nat × Nat)}
    (h : linkReady a.link s) (hmark : a.body.mark = some m) (hrole : s.gft.role = .active) (hphase : s.gft.phase = .active)
    (hqueue : s.gft.queue = e :: rest) (hfirst : e.1 = m % 2 ^ 48) : ∃ u,
    exec (.ack l0 l1 a) s = .next u ∧ u.gft.queue = rest ∧ u.gft.mark = m % 2 ^ 48 ∧ u.gft.lost = false ∧
    u.gft.partnerOk = (a.body.shadowing && a.body.sound) ∧
    lookD u.gft.cnt 0 0 = (lookD s.gft.cnt 0 0 + 1) % 2 ^ 64 ∧
    ∀ p x, look s.cnp.parts p = some x → x.mirror ≠ [] →
      ((look u.cnp.parts p).map fun y => y.current) = some (a.body.current.contains p) := by
  have hexec := ack_of_active l0 l1 h hmark hrole hphase
  obtain ⟨htookOnly, r, htook⟩ := tookFrame_spec a.link.lane s
  obtain ⟨htakeOnly, n, htake⟩ := takeAck_spec l0 l1 (tookFrame a.link.lane s)
  have hparts : (takeAck l0 l1 (tookFrame a.link.lane s)).cnp.parts = s.cnp.parts :=
    (congrArg (fun v : State => v.cnp.parts) (htookOnly.trans htakeOnly) :)
  have hqueue' : (takeAck l0 l1 (tookFrame a.link.lane s)).gft.queue = e :: rest :=
    (eq_of_core htake Gft.queue fun _ => rfl).trans ((eq_of_core htook Gft.queue fun _ => rfl).trans hqueue)
  have hcnt : lookD (takeAck l0 l1 (tookFrame a.link.lane s)).gft.cnt 0 0 = lookD s.gft.cnt 0 0 :=
    (congrArg (lookD · 0 0) (eq_of_core htake Gft.cnt fun _ => rfl)).trans
      ((lookD_bumpBy_other _ n (by decide)).trans (congrArg (lookD · 0 0) (eq_of_core htook Gft.cnt fun _ => rfl)))
  generalize takeAck l0 l1 (tookFrame a.link.lane s) = v at hexec hparts hqueue' hcnt
  rw [mirrorDone_first hqueue' hfirst] at hexec
  generalize hw : peerState a.body _ = w at hexec
  obtain ⟨c, evt, hgft, -⟩ := noteComplete_gft w
  obtain ⟨-, -, -, -, hnote⟩ := noteComplete_frame w
  have hwgft : w.gft.queue = rest ∧ w.gft.mark = m % 2 ^ 48 ∧ w.gft.lost = false ∧
      w.gft.partnerOk = (a.body.shadowing && a.body.sound) ∧ w.gft.cnt = bumpBy v.gft.cnt 0 1 := by
    rw [← hw]
    exact ⟨rfl, rfl, rfl, rfl, rfl⟩
  obtain ⟨hq, hm, hl, hok, hc⟩ := hwgft
  refine ⟨_, hexec, ?_, ?_, ?_, ?_, ?_, fun p x hx hmirror => ?_⟩
  · rw [hgft]; exact hq
  · rw [hgft]; exact hm
  · rw [hgft]; exact hl
  · rw [hgft]; exact hok
  · rw [hgft]
    show lookD w.gft.cnt 0 0 = _
    rw [hc, lookD_bumpBy_self, hcnt]
  · have hlook : look w.cnp.parts p = some { x with current := a.body.current.contains p } := by
      rw [← hw]
      have hmap := look_map_entry (α := Part) (g := fun e => if e.2.mirror.isEmpty then e else
        (e.1, { e.2 with current := a.body.current.contains e.1 })) (fun e => by split <;> rfl) s.cnp.parts p
      show look (v.cnp.parts.map _) p = _
      rw [hparts]
      refine hmap.trans ?_
      rw [hx, Option.map_some]
      dsimp only
      rw [if_neg fun hnil => hmirror (List.isEmpty_iff.mp hnil)]
    obtain ⟨lines, held, hnoted⟩ := hnote _ _ hlook
    rw [hnoted]
    rfl

/-- An ACK on a module that is not ACTIVE counts the frames that it takes back. -/
theorem ack_of_few (l0 l1 : Word) {a : OnLink AckInfo} (h : linkReady a.link s) (hrole : s.gft.role ≠ .active)
    (hwait : s.gft.txWait = []) (hfew : s.gft.rxSince + 1 < 16) : ∃ u,
    exec (.ack l0 l1 a) s = .next u ∧ u.gft.lastRx = s.clk.now ∧ lookD u.gft.cnt 12 0 =
      (lookD s.gft.cnt 12 0 + ((keepUnacked l0 (lookD s.gft.unacked 0 [])).length +
        (keepUnacked l1 (lookD s.gft.unacked 1 [])).length)) % 2 ^ 64 ∧ u.rng = s.rng ∧ u.arb = s.arb := by
  have hexec := ack_of_other l0 l1 h hrole
  obtain ⟨htookOnly, -⟩ := tookFrame_spec a.link.lane s
  have htook : (tookFrame a.link.lane s).gft = tookGft a.link.lane (s.gft.rxSince + 1) s :=
    congrArg State.gft (tookFrame_of_few hfew)
  generalize tookFrame a.link.lane s = v at hexec htookOnly htook
  have hlast : v.gft.lastRx = s.clk.now := (congrArg Gft.lastRx htook :)
  have hcnt : v.gft.cnt = s.gft.cnt := (congrArg Gft.cnt htook :)
  have hunacked : v.gft.unacked = s.gft.unacked := (congrArg Gft.unacked htook :)
  have hwait' : v.gft.txWait = [] := (congrArg Gft.txWait htook :).trans hwait
  obtain ⟨honly, n, hcore⟩ := takeAck_spec l0 l1 v
  refine ⟨_, hexec, ?_, ?_, ?_, ?_⟩
  · exact (eq_of_core hcore Gft.lastRx fun _ => rfl).trans hlast
  · rw [takeAck_of_noWait l0 l1 hwait', hcnt, hunacked]
  · exact (congrArg State.rng (htookOnly.trans honly) :)
  · exact (congrArg State.arb (htookOnly.trans honly) :)

/-- A HELLO that is the next frame of its lane (R464). -/
theorem hello_of_next {lseq : Word} (hlane : lane < 2) (hup : lane ∈ s.gft.lanes) (hcold : coldHeld s = false) (osn : Nat)
    (hnext : lseq = BitVec.ofNat 32 (lookD s.gft.laneRx lane 0)) : ∃ u, exec (.hello lane lseq (some osn)) s = .next u ∧
    u.gft.helloOsn = osn ∧ u.gft.helloAt = s.clk.now ∧ u.gft.lastRx = s.clk.now ∧
    look u.gft.laneRx lane = some ((lookD s.gft.laneRx lane 0 + 1) % 2 ^ 32) ∧ u.arb = s.arb ∧ u.rng = s.rng := by
  have hready : linkReady { lane := lane, lseq := lseq, crcOk := (some osn).isSome } s :=
    ⟨⟨hlane, hup, hcold⟩, by rw [nextOnLane, hnext]; exact beq_self_eq_true _⟩
  have hexec : exec (.hello lane lseq (some osn)) s = execHello lane lseq (some osn) s := rfl
  rw [execHello, onLane_of_ready hready] at hexec
  dsimp only at hexec
  obtain ⟨honly, r, hcore⟩ := tookFrame_spec lane s
  refine ⟨_, hexec, rfl, ?_, ?_, ?_, ?_, ?_⟩
  · exact (congrArg (fun v : State => v.clk.now) honly :)
  · exact eq_of_core hcore Gft.lastRx fun _ => rfl
  · exact (congrArg (look · lane) (eq_of_core hcore Gft.laneRx fun _ => rfl)).trans (look_put_self _ _ _)
  · exact (congrArg State.arb honly :)
  · exact (congrArg State.rng honly :)

/-- A HELLO that is not the next frame of its lane, or whose CRC fails, is discarded (R462). -/
theorem hello_of_other {lseq : Word} (hlane : lane < 2) (hup : lane ∈ s.gft.lanes) (hcold : coldHeld s = false)
    (osn : Option Nat) (hother : nextOnLane { lane := lane, lseq := lseq, crcOk := osn.isSome } s = false) :
    exec (.hello lane lseq osn) s = .next (if osn.isSome then s else countGft 11 1 s) := by
  show execHello lane lseq osn s = _
  rw [execHello, onLane_of_other ⟨hlane, hup, hcold⟩ hother]

/-- A paired ACTIVE that loses its partner goes on unpaired (R464). -/
theorem partnerLost_of_active (hwatch : s.gft.watching = true) (hlate : s.gft.lastRx + 20000 ≤ s.clk.now)
    (hrole : s.gft.role = .active) (hphase : s.gft.phase = .active) : ∃ u, exec .partnerLost s = .next u ∧
    u.gft.lost = true ∧ u.gft.role = .active ∧ u.gft.phase = .unpaired ∧ u.gft.evt.getLsbD 0 = true ∧
    u.gft.watching = false := by
  have hexec := partnerLost_of_due hwatch hlate
  rw [if_neg (by rw [hrole]; decide), if_pos (by rw [isPaired, hphase]; decide)] at hexec
  obtain ⟨c, e, hgft, hbits⟩ := noteComplete_gft (unpaired (lossNoted s))
  rw [unpaired_gft] at hgft hbits
  refine ⟨_, hexec, ?_, ?_, ?_, ?_, ?_⟩
  · rw [hgft]; rfl
  · rw [hgft]; exact hrole
  · rw [hgft]; rfl
  · rw [hgft]; exact hbits 0 (getLsbD_latch_self s.gft.evt (by decide))
  · rw [hgft]; rfl

/-- A standby that loses its partner is DETACHED, unless ACTIVE_N is high and it claims (R464, R477). -/
theorem partnerLost_of_standby (hwatch : s.gft.watching = true) (hlate : s.gft.lastRx + 20000 ≤ s.clk.now)
    (hrole : s.gft.role = .standby) (hphase : s.gft.phase = .shadowing) : ∃ u, exec .partnerLost s = .next u ∧
    u.gft.lost = true ∧ u.gft.role = .standby ∧
    u.gft.phase = (if s.gft.line then .shadowing else .detached) ∧ u.gft.evt.getLsbD 0 = true := by
  have hexec := partnerLost_of_due hwatch hlate
  rw [if_pos (beq_iff_eq.mpr hrole)] at hexec
  have hgft := detach_gft (lossNoted s)
  have hevt : (lossNoted s).gft.evt.getLsbD 0 = true := getLsbD_latch_self s.gft.evt (by decide)
  by_cases hline : s.gft.line = true
  · rw [if_pos (show (lossNoted s).gft.line = true from hline)] at hgft
    refine ⟨_, hexec, ?_, ?_, ?_, ?_⟩
    · rw [hgft]; rfl
    · rw [hgft]; exact hrole
    · rw [hgft, if_pos hline]; exact hphase
    · rw [hgft]; exact hevt
  · rw [if_neg (show ¬(lossNoted s).gft.line = true from hline)] at hgft
    refine ⟨_, hexec, ?_, ?_, ?_, ?_⟩
    · rw [hgft]; rfl
    · rw [hgft]; exact hrole
    · rw [hgft, if_neg hline]
    · rw [hgft]; exact hevt

/-- Settles O51: the two commands act at once, the two of class T at their boundary, and each frame of the link through what its
lane takes. -/
theorem graftCommandsAndLink : Obligations.GraftCommandsAndLink := by
  unfold Obligations.GraftCommandsAndLink
  refine ⟨⟨fun c s => ⟨fun h => ?_, fun h => ?_⟩,
      fun c t s hwait hdue => ⟨fun hop hp x hx => ?_, fun hop hpair hnone => ?_⟩⟩,
    fun lane s hlane => ⟨fun hdown hcold => graftLaneUp_spec hlane hdown hcold, fun hcold => ?_,
      fun hup => graftLaneDown_spec hlane hup, fun hdown => ?_,
      fun hup hcold lseq osn => ⟨fun hnext => ?_, fun hother => ?_, ?_⟩⟩,
    fun l0 l1 a s h hrole hwait hfew => ?_,
    fun l0 l1 a m e rest s h hmark hrole hphase hqueue hfirst => ack_of_first l0 l1 h hmark hrole hphase hqueue hfirst,
    fun s hwatch hlate => ⟨fun hrole hphase => ?_, fun hrole hphase => ?_⟩, fun s hwatch => ?_⟩
  · have hexec : exec (.gftUnpair c) s = .next (complete c (effGftUnpair c s)) :=
      runNow_of_ready h rfl (judgeCmd_gftUnpair s)
    obtain ⟨hphase, hown, hpeer, hack, hrole⟩ := unpairNow_spec (gftSendAll .unpair s)
    rw [eq_of_core (core_gftSendAll _ _) Gft.role fun _ => rfl] at hrole
    exact ⟨_, hexec, hphase, hown, hpeer, hack, hrole⟩
  · exact ⟨runNow_of_ready h rfl (judgeCmd_gftStatus s), fun hring => resOut_of_host hring _ _ s⟩
  · rw [tickCommand_of_due hwait hdue]
    rw [effAtTick, hop]
    refine ⟨_, _, rfl, look_mirrorSet hx, fun hnil => ?_, ?_⟩
    · rw [hnil]
      rfl
    · obtain ⟨hrng, -⟩ := noteComplete_frame (mirrorSet c { s with hw := { s.hw with tWait := none } })
      exact hrng.trans (mirrorSet_frame c { s with hw := { s.hw with tWait := none } }).1
  · rw [tickCommand_of_due hwait hdue]
    have hcore := resign_gft (s := { s with hw := { s.hw with tWait := none } }) hpair hnone
    have hrole : s.gft.role = .active := by
      unfold activePaired at hpair
      simp only [Bool.and_eq_true, beq_iff_eq] at hpair
      exact hpair.1.1
    rw [effAtTick, hop]
    have hat := eq_of_core hcore Gft.resignAt fun _ => rfl
    have hact := (eq_of_core hcore Gft.role fun _ => rfl).trans hrole
    refine ⟨_, rfl, hat, congrArg Option.isSome hat, hact, ?_⟩
    unfold gateOpen
    dsimp only
    rw [hact, hat]
    rfl
  · refine (named_act_of_not (decide_eq_true hlane) ?_ _ _)
    rw [hcold]
    exact Bool.and_false _
  · have hexec : exec (.graftLaneDown lane) s = .next (laneDown lane s) := if_pos (decide_eq_true hlane)
    rw [hexec, laneDown, if_neg fun h => hdown (List.contains_iff_mem.mp h)]
  · exact hello_of_next hlane hup hcold osn hnext
  · exact hello_of_other hlane hup hcold _ (beq_eq_false_iff_ne.mpr hother)
  · exact hello_of_other hlane hup hcold none rfl
  · exact ack_of_few l0 l1 h hrole hwait hfew
  · exact partnerLost_of_active hwatch hlate hrole hphase
  · exact partnerLost_of_standby hwatch hlate hrole hphase
  · show act (watches s && _) s _ = _
    rw [watches, hwatch]
    rfl

end Sys2Proof.Machine
end

section
/-! Proof of the statement on the interlock and the hand-over of ACTIVE_N. -/

namespace Sys2Proof.Machine

open Sys2Proof

set_option Elab.async false

variable {s : State}

/-! ### A frame that every lane takes (R452, R457, R485) -/

/-- The Graft engine without what the frames that lanes take change. -/
def Gft.still (g : Gft) : Gft := { g.core with laneRx := [], lastRx := 0, rxSince := 0 }

theorem eq_of_still {α : Type} {g g' : Gft} (h : g'.still = g.still) (f : Gft → α) (hf : ∀ z, f z = f z.still) :
    f g' = f g := by
  rw [hf g', h, ← hf g]

theorem still_tookFrame (lane : Nat) (s : State) : (tookFrame lane s).gft.still = s.gft.still := by
  obtain ⟨-, r, hcore⟩ := tookFrame_spec lane s
  exact (congrArg (fun g : Gft => { g with laneRx := [], lastRx := 0, rxSince := 0 }) hcore :)

theorem foldl_tookFrame_spec (lanes : List Nat) (s : State) :
    LinkOnly s (lanes.foldl (fun t l => tookFrame l t) s) ∧
    (lanes.foldl (fun t l => tookFrame l t) s).gft.still = s.gft.still := by
  induction lanes generalizing s with
  | nil => exact ⟨rfl, rfl⟩
  | cons l lanes ih =>
    obtain ⟨honly, hstill⟩ := ih (tookFrame l s)
    exact ⟨(tookFrame_spec l s).1.trans honly, hstill.trans (still_tookFrame l s)⟩

/-- A frame on every lane acts on a state in which the lanes alone have changed. -/
theorem onLanes_of_up (hlanes : s.gft.lanes ≠ []) (hcold : coldHeld s = false) (f : State → State) :
    ∃ v, LinkOnly s v ∧ v.gft.still = s.gft.still ∧ onLanes s f = f v := by
  obtain ⟨honly, hstill⟩ := foldl_tookFrame_spec s.gft.lanes s
  refine ⟨_, honly, hstill, ?_⟩
  unfold onLanes
  rw [List.isEmpty_eq_false_iff.mpr hlanes, hcold]
  rfl

theorem onLanes_of_none (h : s.gft.lanes = []) (f : State → State) : onLanes s f = s := by
  unfold onLanes
  rw [h]
  rfl

/-! ### A switch-over (R33, R479, R480) -/

theorem freeFrames_arb (n : Nat) (s : State) : (freeFrames n s).arb = s.arb := by
  unfold freeFrames
  dsimp only
  split <;> rfl

/-- The Graft engine of a STANDBY that has become ACTIVE. -/
structure TookOver (handover : Bool) (g0 g : Gft) : Prop where
  role : g.role = .active
  phase : g.phase = if handover then .active else .unpaired
  ownId : g.ownId = if handover then g0.ownId else 0
  peerId : g.peerId = if handover then g0.peerId else 0
  driving : g.driving = true
  claimAt : g.claimAt = none
  lost : g.lost = true
  mirror : g.mirror = []

/-- The state whose partitions, entries and held operations the standby takes, before its image goes. -/
def takenOver (handover : Bool) (s : State) : State :=
  let s0 := matchLogs s.gft.held s
  let s1 := applyPins { s0 with arb := { s0.arb with osn := resumeOsn s - 1 }, gft := activeGft handover s0.gft }
  let s2 := s1.cnp.parts.foldl takePart s1
  let s3 := resumeRedun { s2 with gse := { s2.gse with pubs := s2.gse.pubs.map fun e => (e.1, reschedule s2 e.2) } }
  s3.gft.held.foldl runHeld s3

theorem takenOver_spec (handover : Bool) (s : State) : resumeOsn s - 1 ≤ (takenOver handover s).arb.osn ∧
    (takenOver handover s).gft.fixed = (activeGft handover (matchLogs s.gft.held s).gft).fixed := by
  unfold takenOver
  extract_lets s0 arb s1 s2 gse s3
  have h2 : Steady false s1 s2 := .foldl (fun h => steady_takePart h) (Steady.refl false s1)
  have h3 : Steady false s1 s3 := h2.upd
  obtain ⟨hfixed, -, hosn, -⟩ : Steady false s1 (s3.gft.held.foldl runHeld s3) := .foldl (fun h => steady_runHeld h) h3
  exact ⟨hosn, hfixed⟩

/-- The Graft engine without the mirror image and what belongs to it. -/
def imageless (g : Gft) : Gft :=
  { g with
    mirror := [], mirrorRings := [], mirrorJrnl := [], mirrorCtx := [], mirrorPubs := [], mirrorRedun := []
    mirrorChans := [], confChans := [], staged := [], commits := [], fresh := [], held := [], logs := [], mark := 0
    markOsn := 0, synced := false, goodCommits := 0 }

theorem dropImage_gft (s : State) : (dropImage s).gft = imageless s.gft := freeFrames_gft _ _

theorem dropImage_arb (s : State) : (dropImage s).arb = s.arb := freeFrames_arb _ _

/-- The image has gone, and the partitions run on this module. -/
def handedOver (handover : Bool) (s : State) : State :=
  modMirrored (fun x => { x with current := false, stale := false })
    { dropImage s with gft := { forgetSent (dropImage s).gft with copied := peerPages handover (dropImage s) } }

theorem switchOver_eq (handover : Bool) (s : State) : ∃ b, switchOver handover s =
    gftEvent 0x0812 0 0 (some 2) b (countGft 14 1 (handedOver handover (takenOver handover s))) := ⟨_, rfl⟩

theorem handedOver_gft (handover : Bool) (s : State) : ∃ l,
    (handedOver handover s).gft = { forgetSent (imageless s.gft) with copied := l } := by
  unfold handedOver
  rw [dropImage_gft]
  exact ⟨_, rfl⟩

theorem switchOver_gft (handover : Bool) (s : State) : ∃ l c e, (switchOver handover s).gft =
    { forgetSent (imageless (takenOver handover s).gft) with copied := l, cnt := c, evt := e } := by
  obtain ⟨b, heq⟩ := switchOver_eq handover s
  obtain ⟨l, hgft⟩ := handedOver_gft handover (takenOver handover s)
  rw [heq]
  generalize handedOver handover (takenOver handover s) = v at hgft
  refine ⟨l, bumpBy v.gft.cnt 14 1, latch v.gft.evt 2, ?_⟩
  exact (congrArg (fun g : Gft => { g with cnt := bumpBy v.gft.cnt 14 1, evt := latch v.gft.evt 2 }) hgft :)

theorem switchOver_osn (handover : Bool) (s : State) :
    (takenOver handover s).arb.osn ≤ (switchOver handover s).arb.osn := by
  obtain ⟨b, heq⟩ := switchOver_eq handover s
  have harb : (handedOver handover (takenOver handover s)).arb = (takenOver handover s).arb := dropImage_arb _
  rw [heq, ← harb]
  generalize handedOver handover (takenOver handover s) = v
  exact osn_le_arbNext 11 v

theorem switchOver_spec (handover : Bool) (s : State) : TookOver handover s.gft (switchOver handover s).gft := by
  obtain ⟨-, hfixed⟩ := takenOver_spec handover s
  have hmatch := (steady_matchLogs s.gft.held (Steady.refl false s)).fixed
  have hown : (matchLogs s.gft.held s).gft.ownId = s.gft.ownId := eq_of_fixed hmatch Gft.ownId fun _ => rfl
  have hpeer : (matchLogs s.gft.held s).gft.peerId = s.gft.peerId := eq_of_fixed hmatch Gft.peerId fun _ => rfl
  generalize matchLogs s.gft.held s = v at hfixed hown hpeer
  obtain ⟨l, c, e, hgft⟩ := switchOver_gft handover s
  rw [hgft]
  generalize (takenOver handover s).gft = g at hfixed
  exact {
    role := eq_of_fixed hfixed Gft.role fun _ => rfl
    phase := eq_of_fixed hfixed Gft.phase fun _ => rfl
    ownId := (eq_of_fixed hfixed Gft.ownId fun _ => rfl).trans (by unfold activeGft; dsimp only; rw [hown])
    peerId := (eq_of_fixed hfixed Gft.peerId fun _ => rfl).trans (by unfold activeGft; dsimp only; rw [hpeer])
    driving := eq_of_fixed hfixed Gft.driving fun _ => rfl
    claimAt := eq_of_fixed hfixed Gft.claimAt fun _ => rfl
    lost := eq_of_fixed hfixed Gft.lost fun _ => rfl
    mirror := rfl }

/-- The count of OSNs goes on from the resumed one (R33). -/
theorem resumeOsn_le_switchOver (handover : Bool) (s : State) : resumeOsn s ≤ (switchOver handover s).arb.osn + 1 := by
  have htaken := (takenOver_spec handover s).1
  have hosn := switchOver_osn handover s
  omega

/-! ### The end of an active (R457, R458) -/

/-- A module that has stopped being ACTIVE is IDLE and unpaired, and drives as before. -/
theorem toIdle_spec (s : State) : (toIdle s).gft.role = .idle ∧ (toIdle s).gft.driving = s.gft.driving ∧
    (toIdle s).gft.phase = .unpaired ∧ (toIdle s).gft.line = s.gft.line := by
  obtain ⟨c, e, hgft, -⟩ := noteComplete_gft { unpaired s with gft := { (unpaired s).gft with
    role := .idle, lost := false, watching := false } }
  have htoIdle : (toIdle s).gft = _ := hgft
  rw [htoIdle]
  dsimp only
  rw [unpaired_gft]
  exact ⟨rfl, rfl, rfl, rfl⟩

theorem gateOpen_of_idle (h : s.gft.role = .idle) : gateOpen s = false := by
  unfold gateOpen
  rw [h]

/-! ### RESIGN and TAKEN (R457, R484) -/

/-- The standby that hears RESIGN takes over, and its count of OSNs goes on behind the active's (R33, R457). -/
theorem resign_row_spec (hrole : s.gft.role = .standby) (hclaim : s.gft.claimAt = none) (hlanes : s.gft.lanes ≠ [])
    (hcold : coldHeld s = false) : ∃ u, exec .resign s = .next u ∧ u.gft.role = .active ∧ u.gft.phase = .active ∧
    u.gft.driving = true ∧ u.gft.lost = true ∧ u.gft.mirror = [] ∧
    max (max (s.gft.markOsn + 2 ^ 24) (s.gft.helloOsn + 2 ^ 24)) (s.arb.osn + 1) ≤ u.arb.osn + 1 := by
  obtain ⟨v, honly, hstill, hexec⟩ := onLanes_of_up hlanes hcold fun t =>
    if t.gft.role == .standby && t.gft.claimAt.isNone then gftSendAll .taken (switchOver true t) else t
  rw [show v.gft.role = .standby from (eq_of_still hstill Gft.role fun _ => rfl).trans hrole,
    show v.gft.claimAt = none from (eq_of_still hstill Gft.claimAt fun _ => rfl).trans hclaim,
    if_pos (show (Role.standby == Role.standby && (none : Option Nat).isNone) = true from rfl)] at hexec
  have hresume : resumeOsn v = max (max (s.gft.markOsn + 2 ^ 24) (s.gft.helloOsn + 2 ^ 24)) (s.arb.osn + 1) := by
    rw [resumeOsn, eq_of_still hstill Gft.markOsn fun _ => rfl, eq_of_still hstill Gft.helloOsn fun _ => rfl,
      show v.arb = s.arb from (congrArg State.arb honly :)]
  have hover := switchOver_spec true v
  have hosn := resumeOsn_le_switchOver true v
  rw [hresume] at hosn
  generalize switchOver true v = w at hexec hover hosn
  have hcore := core_gftSendAll w .taken
  have harb : (gftSendAll .taken w).arb = w.arb := (congrArg State.arb (LinkOnly.gftSend .taken w.gft.lanes w) :)
  exact ⟨_, congrArg Host.Outcome.next hexec, (eq_of_core hcore Gft.role fun _ => rfl).trans hover.role,
    (eq_of_core hcore Gft.phase fun _ => rfl).trans hover.phase,
    (eq_of_core hcore Gft.driving fun _ => rfl).trans hover.driving,
    (eq_of_core hcore Gft.lost fun _ => rfl).trans hover.lost,
    (eq_of_core hcore Gft.mirror fun _ => rfl).trans hover.mirror, by rw [harb]; exact hosn⟩

/-- TAKEN reaches a module that has resigned: it no longer drives the line. -/
theorem taken_of_resigned {t : Nat} (hat : s.gft.resignAt = some t) (hlanes : s.gft.lanes ≠ []) (hcold : coldHeld s = false) :
    ∃ v, v.gft.still = s.gft.still ∧ exec .taken s = .next (if s.gft.switchDue then
      applyPins (noteComplete (oldActive (endFwds v.gft.waitAck
        { undrive v with gft := { (undrive v).gft with waitAck := [] } })))
      else toIdle (undrive v)) := by
  obtain ⟨v, -, hstill, hexec⟩ := onLanes_of_up hlanes hcold fun u =>
    if u.gft.resignAt.isSome then
      if u.gft.switchDue then applyPins (noteComplete (oldActive (endFwds (undrive u).gft.waitAck
        { undrive u with gft := { (undrive u).gft with waitAck := [] } })))
      else toIdle (undrive u)
    else u
  rw [show v.gft.resignAt = some t from (eq_of_still hstill Gft.resignAt fun _ => rfl).trans hat,
    show v.gft.switchDue = s.gft.switchDue from eq_of_still hstill Gft.switchDue fun _ => rfl] at hexec
  exact ⟨v, hstill, congrArg Host.Outcome.next hexec⟩

/-- The old active of a switch is a STANDBY that waits for its copy (R484). -/
theorem oldActive_spec (s : State) : (oldActive s).gft.role = .standby ∧ (oldActive s).gft.phase = .syncing ∧
    (oldActive s).gft.driving = s.gft.driving ∧ (oldActive s).gft.switchDue = false := ⟨rfl, rfl, rfl, rfl⟩

/-! ### Claims (R456) -/

/-- A claim that is due is confirmed or given up. -/
theorem claimConfirmation_of_due {t : Nat} (hclaim : s.gft.claimAt = some t) (hdue : t + 200 ≤ s.clk.now) (low : Bool) :
    exec (.claimConfirmation low) s = .next (if low then claimed s
      else gftEvent 0x0818 0 0 (some 7) [] { undrive s with gft := { (undrive s).gft with line := true } }) := by
  refine act_of ?_ _ _
  rw [hclaim]
  exact decide_eq_true hdue

theorem waited_of_early (hline : s.gft.line = true) (hsince : s.gft.lineSince ≠ 0)
    (hearly : s.clk.now < s.gft.lineSince + claimWait s.gft) : waited s = false := by
  rw [waited, hline, beq_eq_false_iff_ne.mpr hsince, decide_eq_false (Nat.not_le.mpr hearly)]
  rfl

/-- A tick boundary that is overdue makes the active IDLE (R458). -/
theorem keepaliveLapse_spec (hrole : s.gft.role = .active) (hdrive : s.gft.driving = true) (hstart : s.rst.phase = .started)
    (hover : s.cnp.tickFrc + (s.cnp.tickEnd - s.cnp.tickStart) + 4000 ≤ s.clk.frc) : ∃ u,
    exec .keepaliveLapse s = .next u ∧ u.gft.role = .idle ∧ u.gft.driving = false := by
  refine ⟨_, act_of ?_ _ _, (toIdle_spec _).1, (toIdle_spec _).2.1⟩
  rw [hrole, hdrive, hstart, tickOverdue, decide_eq_true hover]
  rfl

/-- Settles O52: each row through the state that its frame or its time finds, with `switchOver_spec` and `toIdle_spec`. -/
theorem graftInterlock : Obligations.GraftInterlock := by
  unfold Obligations.GraftInterlock
  refine ⟨fun s hrole hclaim hlanes hcold => resign_row_spec hrole hclaim hlanes hcold,
    fun t s hat => ⟨fun hlanes hcold hswitch => ?_, fun hlanes hcold hswitch => ?_, fun hdue hstart => ?_⟩,
    fun s hlanes => ⟨congrArg Host.Outcome.next (onLanes_of_none hlanes _),
      congrArg Host.Outcome.next (onLanes_of_none hlanes _)⟩,
    fun s hstart hseed hrole hdrive hclaim => ⟨fun hwait => act_of ?_ _ _, fun hline hsince hearly => ?_⟩,
    fun t s hclaim hdue => ⟨fun hrole => ?_, fun hrole => ?_, ?_⟩, fun s hrole hdrive hstart hover => ?_⟩
  · obtain ⟨v, -, hexec⟩ := taken_of_resigned hat hlanes hcold
    rw [hswitch] at hexec
    obtain ⟨hrole, hdrive, hphase, -⟩ := toIdle_spec (undrive v)
    exact ⟨_, hexec, hrole, hdrive, hphase, gateOpen_of_idle hrole⟩
  · obtain ⟨v, -, hexec⟩ := taken_of_resigned hat hlanes hcold
    rw [hswitch, if_pos rfl] at hexec
    generalize hw : endFwds v.gft.waitAck { undrive v with gft := { (undrive v).gft with waitAck := [] } } = w at hexec
    have hdrive : w.gft.driving = false := by
      rw [← hw, endFwds_gft]
      rfl
    obtain ⟨hrole, hphase, hkept, hdue⟩ := oldActive_spec w
    obtain ⟨c, e, hgft, -⟩ := noteComplete_gft (oldActive w)
    have hpins : (applyPins (noteComplete (oldActive w))).gft = _ := hgft
    refine ⟨_, hexec, ?_, ?_, ?_, ?_⟩
    · rw [hpins]; exact hrole
    · rw [hpins]; exact hphase
    · rw [hpins]; exact hkept.trans hdrive
    · rw [hpins]; exact hdue
  · refine ⟨_, act_of ?_ _ _, (toIdle_spec _).1, (toIdle_spec _).2.1, (toIdle_spec _).2.2.2⟩
    rw [hat, hstart, Option.map_some, Option.getD_some, decide_eq_true hdue]
    rfl
  · have hidle : (s.gft.role == .idle || s.gft.role == .standby) = true := by rcases hrole with h | h <;> rw [h] <;> rfl
    rw [hstart, hseed, hidle, hdrive, hclaim, hwait]
    rfl
  · show act (_ && waited s) s _ = _
    rw [waited_of_early hline hsince hearly, Bool.and_false]
    rfl
  · have hexec := claimConfirmation_of_due hclaim hdue true
    rw [if_pos rfl, claimed, if_neg (by rw [hrole]; decide)] at hexec
    exact ⟨_, hexec, rfl, rfl, rfl, rfl, rfl⟩
  · have hexec := claimConfirmation_of_due hclaim hdue true
    rw [if_pos rfl, claimed, if_pos (by rw [hrole]; rfl)] at hexec
    have hspec := switchOver_spec false s
    have hosn := resumeOsn_le_switchOver false s
    refine ⟨_, hexec, hspec.role, hspec.phase, hspec.ownId, hspec.peerId, hspec.driving, hspec.claimAt, ?_⟩
    exact Nat.le_trans (Nat.le_trans (Nat.le_max_left _ _) (Nat.le_max_left _ _)) hosn
  · exact ⟨_, claimConfirmation_of_due hclaim hdue false, rfl, rfl, rfl, getLsbD_latch_self s.gft.evt (by decide)⟩
  · obtain ⟨u, hexec, hidle, hfree⟩ := keepaliveLapse_spec hrole hdrive hstart hover
    exact ⟨u, hexec, hidle, hfree, gateOpen_of_idle hidle⟩

end Sys2Proof.Machine
end

section
/-! Proof of the statement on the frames of a pair. -/

namespace Sys2Proof.Machine

open Sys2Proof

set_option Elab.async false

variable {l : GLink} {s : State}

/-! ### The state in which a frame acts (R462) -/

/-- The lane has taken its frame: the Graft engine alone differs, by what frames that lanes take change. -/
theorem tookFrame_is (lane : Nat) (s : State) : ∃ g, tookFrame lane s = { s with gft := g } ∧
    g.still = s.gft.still ∧ g.lastRx = s.clk.now := by
  obtain ⟨honly, r, hcore⟩ := tookFrame_spec lane s
  refine ⟨(tookFrame lane s).gft, ?_, still_tookFrame lane s, eq_of_core hcore Gft.lastRx fun _ => rfl⟩
  exact (congrArg (fun v : State => { v with gft := (tookFrame lane s).gft }) honly :)

theorem standbyLive_congr {g : Gft} (h : g.still = s.gft.still) : standbyLive { s with gft := g } = standbyLive s := by
  unfold standbyLive
  dsimp only
  rw [eq_of_still h Gft.role fun _ => rfl, eq_of_still h Gft.phase fun _ => rfl]

theorem isPaired_congr {g : Gft} (h : g.still = s.gft.still) : isPaired { s with gft := g } = isPaired s := by
  unfold isPaired
  dsimp only
  rw [eq_of_still h Gft.phase fun _ => rfl]

theorem notCommitted_congr {g : Gft} (h : g.still = s.gft.still) (mark : Nat) :
    notCommitted mark { s with gft := g } = notCommitted mark s := by
  unfold notCommitted
  dsimp only
  rw [eq_of_still h Gft.synced fun _ => rfl, eq_of_still h Gft.mark fun _ => rfl]
  rfl

/-! ### CMD on the standby (R470, R472) -/

/-- The acknowledgement that the standby has kept of a forwarded command. -/
def kept (c : Cmd) (a : Nat × Nat × Word × Nat) : Bool := a.1 == c.ring && a.2.1 == genField c.desc && a.2.2.1 == c.desc.w1

/-- A forwarded command on a standby that shadows is acknowledged again where it was executed before, and runs otherwise. -/
theorem cmd_of_shadowing {w : FwdCmd} (h : linkReady l s) (hrole : s.gft.role = .standby) (hphase : s.gft.phase = .shadowing)
    (hfwd : forwards w.cmd = true) : exec (.cmd ⟨l, w⟩) s = .next (match s.gft.acks.find? (kept w.cmd) with
      | some a => gftSendOne (.cmdack w.cmd.ring w.cmd.desc.w1 a.2.2.2) (tookFrame l.lane s)
      | none => runForwarded w (tookFrame l.lane s)) := by
  show execCmd ⟨l, w⟩ s = _
  rw [execCmd, onLane_of_ready h]
  dsimp only
  have hstill := still_tookFrame l.lane s
  generalize tookFrame l.lane s = v at hstill
  have hrole' : v.gft.role = .standby := (eq_of_still hstill Gft.role fun _ => rfl).trans hrole
  have hphase' : v.gft.phase = .shadowing := (eq_of_still hstill Gft.phase fun _ => rfl).trans hphase
  rw [isPaired, hrole', hphase', hfwd, eq_of_still hstill Gft.acks fun _ => rfl]
  rfl

/-- The standby keeps how it acknowledges a forwarded command. -/
def keepAck (c : Cmd) (st : Nat) (s : State) : State :=
  { s with gft := { s.gft with acks := s.gft.acks ++ [(c.ring, genField c.desc, c.desc.w1, st)] } }

/-- The forwarded command has run with status `st` and result `x`: its acknowledgement is kept and leaves. -/
def fwdAcked (c : Cmd) (st : Nat) (x : Option Word) (s : State) : State :=
  let t := gftSendOne (.cmdack c.ring c.desc.w1 st) (remember c st x (keepAck c st s))
  if st = stOk ∨ st = stDeferred then noteFwd c.ring c.desc.w1 t else t

theorem fwdAcked_spec (c : Cmd) (st : Nat) (x : Option Word) (s : State) :
    (fwdAcked c st x s).gft.acks = s.gft.acks ++ [(c.ring, genField c.desc, c.desc.w1, st)] ∧
    (fwdAcked c st x s).gft.phase = s.gft.phase ∧ (fwdAcked c st x s).gft.line = s.gft.line ∧
    (fwdAcked c st x s).flt = s.flt := by
  obtain ⟨l, hrem⟩ := remember_frame c st x (keepAck c st s)
  have hcore := core_gftSendOne (remember c st x (keepAck c st s)) (.cmdack c.ring c.desc.w1 st)
  have honly := LinkOnly.gftSendOne (.cmdack c.ring c.desc.w1 st) (remember c st x (keepAck c st s))
  have hflt := congrArg State.flt honly
  rw [hrem] at hcore hflt
  have hsent : fwdAcked c st x s =
      if st = stOk ∨ st = stDeferred then noteFwd c.ring c.desc.w1 (gftSendOne (.cmdack c.ring c.desc.w1 st)
        { keepAck c st s with hw := { (keepAck c st s).hw with config := l } })
      else gftSendOne (.cmdack c.ring c.desc.w1 st) { keepAck c st s with hw := { (keepAck c st s).hw with config := l } } := by
    rw [← hrem]
    rfl
  rw [hsent]
  generalize gftSendOne _ _ = t at hcore hflt
  have hacks := eq_of_core hcore Gft.acks fun _ => rfl
  have hphase := eq_of_core hcore Gft.phase fun _ => rfl
  have hline := eq_of_core hcore Gft.line fun _ => rfl
  split
  · exact ⟨hacks, hphase, hline, hflt⟩
  · exact ⟨hacks, hphase, hline, hflt⟩

theorem runForwarded_eq (w : FwdCmd) {st st' : Nat} {x : Option Word} {t : State}
    (hjudge : judgeCmd { w.cmd with ring := ringFwd } s = some st)
    (hr : (if st = stOk then effForwarded { w.cmd with ring := ringFwd } s else res s st) = (t, st', x)) :
    runForwarded w s = if st' = w.status then fwdAcked w.cmd st' x t else detach (fwdAcked w.cmd st' x t) := by
  unfold runForwarded fwdAcked keepAck
  dsimp only
  rw [hjudge, Option.getD_some, hr]

/-- A forwarded command that fails its checks on the standby is acknowledged with their status; another status than the active's
leaves the standby DETACHED (R470). -/
theorem cmd_of_failed {w : FwdCmd} {st : Nat} (h : linkReady l s) (hrole : s.gft.role = .standby)
    (hphase : s.gft.phase = .shadowing) (hfwd : forwards w.cmd = true) (hnew : s.gft.acks.find? (kept w.cmd) = none)
    (hjudge : judgeCmd { w.cmd with ring := ringFwd } (tookFrame l.lane s) = some st) (hfail : st ≠ stOk) : ∃ u,
    exec (.cmd ⟨l, w⟩) s = .next u ∧
    u.gft.acks = s.gft.acks ++ [(w.cmd.ring, genField w.cmd.desc, w.cmd.desc.w1, st)] ∧
    (st = w.status → u.gft.phase = .shadowing) ∧ (st ≠ w.status → s.gft.line = false → u.gft.phase = .detached) := by
  have hexec := cmd_of_shadowing h hrole hphase hfwd
  rw [hnew] at hexec
  dsimp only at hexec
  rw [runForwarded_eq w hjudge (if_neg hfail)] at hexec
  have hstill := still_tookFrame l.lane s
  generalize tookFrame l.lane s = v at hexec hstill
  obtain ⟨hacks, hphased, hline, -⟩ := fwdAcked_spec w.cmd st none v
  rw [eq_of_still hstill Gft.acks fun _ => rfl] at hacks
  have hshadow : (fwdAcked w.cmd st none v).gft.phase = .shadowing :=
    hphased.trans ((eq_of_still hstill Gft.phase fun _ => rfl).trans hphase)
  by_cases hsame : st = w.status
  · rw [if_pos hsame] at hexec
    exact ⟨_, hexec, hacks, fun _ => hshadow, fun hne => absurd hsame hne⟩
  · rw [if_neg hsame] at hexec
    refine ⟨_, hexec, ?_, fun heq => absurd heq hsame, fun _ hlow => ?_⟩
    · rw [detach_gft]
      split <;> exact hacks
    · have hlow' : (fwdAcked w.cmd st none v).gft.line = false :=
        hline.trans ((eq_of_still hstill Gft.line fun _ => rfl).trans hlow)
      rw [detach_gft, hlow']
      rfl

/-- FLT_COEFF runs on the standby as on the active (R470). -/
theorem cmd_of_fltCoeff {w : FwdCmd} (h : linkReady l s) (hrole : s.gft.role = .standby)
    (hphase : s.gft.phase = .shadowing) (hfwd : forwards w.cmd = true) (hnew : s.gft.acks.find? (kept w.cmd) = none)
    (hjudge : judgeCmd { w.cmd with ring := ringFwd } (tookFrame l.lane s) = some stOk) (hop : opOf w.cmd.desc = 0x0332)
    (hok : w.status = stOk) : ∃ u, exec (.cmd ⟨l, w⟩) s = .next u ∧ u.gft.phase = .shadowing ∧
    u.gft.acks = s.gft.acks ++ [(w.cmd.ring, genField w.cmd.desc, w.cmd.desc.w1, stOk)] ∧
    u.flt.coeff = put s.flt.coeff (arg0 w.cmd.desc) (coeffsIn w.cmd) := by
  have heff : effForwarded { w.cmd with ring := ringFwd } (tookFrame l.lane s) =
      effFltCoeff { w.cmd with ring := ringFwd } (tookFrame l.lane s) := by
    rw [effForwarded]
    dsimp only
    rw [hop]
    rfl
  have hexec := cmd_of_shadowing h hrole hphase hfwd
  rw [hnew] at hexec
  dsimp only at hexec
  rw [runForwarded_eq w hjudge ((if_pos rfl).trans heff)] at hexec
  obtain ⟨honly, -⟩ := tookFrame_spec l.lane s
  have hstill := still_tookFrame l.lane s
  have hflt : (tookFrame l.lane s).flt = s.flt := (congrArg State.flt honly :)
  generalize tookFrame l.lane s = v at hexec hstill hflt
  rw [if_pos hok.symm] at hexec
  obtain ⟨hacks, hphased, -, hcoeff⟩ := fwdAcked_spec w.cmd stOk none
    { v with flt := { v.flt with coeff := put v.flt.coeff (arg0 w.cmd.desc) (coeffsIn { w.cmd with ring := ringFwd }) } }
  refine ⟨_, hexec, ?_, ?_, ?_⟩
  · exact hphased.trans ((eq_of_still hstill Gft.phase fun _ => rfl).trans hphase)
  · exact hacks.trans (congrArg (· ++ _) (eq_of_still hstill Gft.acks fun _ => rfl))
  · refine (congrArg (·.coeff) hcoeff).trans ?_
    dsimp only
    rw [hflt]
    rfl

/-! ### CMDACK on the active (R470) -/

/-- A command or an operation of its ring's present generation finishes with this status and result (R109, R126). -/
theorem endedAs_finishOp {r : Nat} {seq : Word} {e : JRec} (hfind : findEntry r (genOf r s) seq s = some e)
    (hlive : e.stage ≠ .finished) (hfresh : e.replayed = false) (st : Nat) (x : Option Word) :
    endedAs r seq st x (finishOp r (genOf r s) seq st x false s) := by
  have hgen : genOf r (finishOp r (genOf r s) seq st x false s) = genOf r s := rfl
  have halone : (finishOp r (genOf r s) seq st x false s).rng.orphans.any (isEntry r (genOf r s) seq) = false := by
    refine List.any_eq_false.mpr fun j hj => ?_
    simpa using (List.mem_filter.mp hj).2
  show (entryOf r seq (finishOp r (genOf r s) seq st x false s)).map _ = _
  rw [entryOf_of_find (by rw [hgen]; exact halone), hgen, findEntry_finishOp_self hfind hlive hfresh]
  rfl

theorem endedAs_congr {r : Nat} {seq : Word} {st : Nat} {x : Option Word} {t u : State} (h : u.rng = t.rng)
    (ht : endedAs r seq st x t) : endedAs r seq st x u := by
  show (entryOf r seq u).map _ = _
  rw [entryOf_congr h]
  exact ht

/-- The waiting command is taken off the list, and its sequence is noted. -/
def ackTaken (ring : Nat) (seq : Word) (f : Fwd) (s : State) : State :=
  noteFwd ring seq { s with gft := { s.gft with waitAck := s.gft.waitAck.erase f } }

theorem cmdack_of_waiting {ring : Nat} {seq : Word} {a : OnLink Nat} {f : Fwd} (h : linkReady a.link s)
    (hfound : (s.gft.waitAck.find? fun f => f.cmd.ring == ring && f.cmd.desc.w1 == seq) = some f) :
    exec (.cmdack ring seq a) s = .next (if f.status = a.body then endFwd f (ackTaken ring seq f (tookFrame a.link.lane s))
      else cmdDiffers (endFwd f (ackTaken ring seq f (tookFrame a.link.lane s)))) := by
  show execCmdack ring seq a s = _
  rw [execCmdack, onLane_of_ready h]
  dsimp only
  have hstill := still_tookFrame a.link.lane s
  generalize tookFrame a.link.lane s = v at hstill
  rw [eq_of_still hstill Gft.waitAck fun _ => rfl, hfound, ackTaken, eq_of_still hstill Gft.waitAck fun _ => rfl]

/-- A command that was forwarded completes with its own status (R470). -/
theorem endedAs_endFwd {f : Fwd} {e : JRec} (hring : f.cmd.ring ≠ ringSeed)
    (hfind : findEntry f.cmd.ring (genOf f.cmd.ring s) f.cmd.desc.w1 s = some e)
    (hgen : genField f.cmd.desc = genOf f.cmd.ring s) (hlive : e.stage ≠ .finished) (hfresh : e.replayed = false) :
    endedAs f.cmd.ring f.cmd.desc.w1 f.status f.result (endFwd f s) := by
  have hrng : (endFwd f s).rng =
      (finishOp f.cmd.ring (genOf f.cmd.ring s) f.cmd.desc.w1 f.status f.result false s).rng := by
    unfold endFwd finishCmd
    rw [if_neg hring, hgen]
  exact endedAs_congr hrng (endedAs_finishOp hfind hlive hfresh _ _)

theorem endFwd_arb {f : Fwd} (hring : f.cmd.ring ≠ ringSeed) (s : State) : (endFwd f s).arb = s.arb := by
  unfold endFwd finishCmd
  rw [if_neg hring]
  rfl

theorem cmdDiffers_spec (s : State) : (cmdDiffers s).rng = s.rng ∧ (cmdDiffers s).gft.waitAck = s.gft.waitAck ∧
    (cmdDiffers s).gft.evt.getLsbD 4 = true ∧ (cmdDiffers s).gft.partnerOk = false := by
  unfold cmdDiffers
  generalize hw : gftEvent 0x0815 0 0 (some 4) [] { s with gft := { s.gft with partnerOk := false } } = w
  have hfields : w.rng = s.rng ∧ w.gft.waitAck = s.gft.waitAck ∧ w.gft.evt = latch s.gft.evt 4 ∧
      w.gft.partnerOk = false := by
    rw [← hw]
    exact ⟨rfl, rfl, rfl, rfl⟩
  obtain ⟨hrng, hwait, hevt, hok⟩ := hfields
  obtain ⟨hnrng, -⟩ := noteComplete_frame w
  obtain ⟨c, e, hgft, hbits⟩ := noteComplete_gft w
  rw [hgft]
  exact ⟨hnrng.trans hrng, hwait, hbits 4 (by rw [hevt]; exact getLsbD_latch_self _ (by decide)), hok⟩

/-- CMDACK completes its command with the active's status; another status on the standby is noted (R470). -/
theorem cmdack_spec {ring : Nat} {seq : Word} {a : OnLink Nat} {f : Fwd} {e : JRec} (h : linkReady a.link s)
    (hfound : (s.gft.waitAck.find? fun f => f.cmd.ring == ring && f.cmd.desc.w1 == seq) = some f) (hring : ring ≠ ringSeed)
    (hfind : findEntry ring (genOf ring s) seq s = some e) (hgen : genField f.cmd.desc = genOf ring s)
    (hlive : e.stage ≠ .finished) (hfresh : e.replayed = false) : ∃ u, exec (.cmdack ring seq a) s = .next u ∧
    endedAs ring seq f.status f.result u ∧ u.gft.waitAck = s.gft.waitAck.erase f ∧
    (f.status = a.body → u.gft.evt = s.gft.evt ∧ u.arb = s.arb) ∧
    (f.status ≠ a.body → u.gft.evt.getLsbD 4 = true ∧ u.gft.partnerOk = false) := by
  have hexec := cmdack_of_waiting h hfound
  have hpair := List.find?_some hfound
  simp only [Bool.and_eq_true, beq_iff_eq] at hpair
  obtain ⟨rfl, rfl⟩ := hpair
  obtain ⟨honly, -⟩ := tookFrame_spec a.link.lane s
  have hstill := still_tookFrame a.link.lane s
  generalize tookFrame a.link.lane s = v at hexec honly hstill
  have hrng : v.rng = s.rng := (congrArg State.rng honly :)
  have harb : v.arb = s.arb := (congrArg State.arb honly :)
  generalize hw : ackTaken f.cmd.ring f.cmd.desc.w1 f v = w at hexec
  have hfields : w.rng = s.rng ∧ w.arb = s.arb ∧ w.gft.waitAck = s.gft.waitAck.erase f ∧ w.gft.evt = s.gft.evt := by
    rw [← hw]
    exact ⟨hrng, harb, congrArg (·.erase f) (eq_of_still hstill Gft.waitAck fun _ => rfl),
      eq_of_still hstill Gft.evt fun _ => rfl⟩
  obtain ⟨hwrng, hwarb, hwait, hevt⟩ := hfields
  have hwgen : genOf f.cmd.ring w = genOf f.cmd.ring s := genOf_congr (congrArg Rng.rings hwrng) _
  have hended : endedAs f.cmd.ring f.cmd.desc.w1 f.status f.result (endFwd f w) := by
    refine endedAs_endFwd hring ?_ (hgen.trans hwgen.symm) hlive hfresh
    rw [hwgen, findEntry, hwrng]
    exact hfind
  by_cases hsame : f.status = a.body
  · rw [if_pos hsame] at hexec
    refine ⟨_, hexec, hended, ?_, fun _ => ⟨?_, ?_⟩, fun hne => absurd hsame hne⟩
    · rw [endFwd_gft]; exact hwait
    · rw [endFwd_gft]; exact hevt
    · rw [endFwd_arb hring]; exact hwarb
  · rw [if_neg hsame] at hexec
    obtain ⟨hdrng, hdwait, hdevt, hdok⟩ := cmdDiffers_spec (endFwd f w)
    refine ⟨_, hexec, endedAs_congr hdrng hended, ?_, fun heq => absurd heq hsame, fun _ => ⟨hdevt, hdok⟩⟩
    rw [hdwait, endFwd_gft]
    exact hwait

/-! ### LOG on the standby (R462, R474) -/

theorem logKnown_congr {g : Gft} (h : g.still = s.gft.still) (l : LogInfo) :
    logKnown l { s with gft := g } = logKnown l s := by
  unfold logKnown
  dsimp only
  rw [eq_of_still h Gft.logs fun _ => rfl, eq_of_still h Gft.held fun _ => rfl]

/-- The held operations of the LOG's ring and sequence. -/
def heldFor (l : LogInfo) (s : State) : List HeldOp := s.gft.held.filter fun h => h.ring == l.ring && h.seq == l.seq

/-- A LOG on a standby that is not known waits, and meets the operations that are held for it. -/
theorem log_of_live {l : OnLink LogInfo} (h : linkReady l.link s) (hlive : standbyLive s = true) : ∃ g : Gft,
    g.still = s.gft.still ∧ exec (.log l) s = .next (if logKnown l.body s then { s with gft := g }
      else matchLogs (heldFor l.body s)
        { s with gft := { g with logs := s.gft.logs ++ [(fullMark l.link.mark s, l.body)] } }) := by
  obtain ⟨g, htook, hstill, -⟩ := tookFrame_is l.link.lane s
  refine ⟨g, hstill, ?_⟩
  show execLog l s = _
  rw [execLog, onLane_of_ready h, htook]
  dsimp only
  rw [standbyLive_congr hstill, hlive, logKnown_congr hstill, eq_of_still hstill Gft.held fun _ => rfl,
    eq_of_still hstill Gft.logs fun _ => rfl]
  rfl

/-- The held operation and its LOG are off their lists. -/
def metLog (h : HeldOp) (l : LogInfo) (s : State) : State :=
  { s with gft := { s.gft with held := s.gft.held.erase h, logs := s.gft.logs.filter fun e => e.2 != l } }

/-- A held SEND completes with the status and the result of its LOG, as its frame leaves by the active alone (R474). -/
theorem meetLog_of_send {h : HeldOp} {l : LogInfo} {e : JRec} (hentry : entryOf h.ring h.seq s = some e)
    (hcrc : opCrc e.desc (some h.payload) = l.crc) (hbind : bindingOf h.ring s = 1) :
    meetLog h l s = countGft 8 1 (finishNow h.ring h.seq l.status (some l.result) (metLog h l s)) := by
  have hentry' : entryOf h.ring h.seq (metLog h l s) = some e := (entryOf_congr (s := s) rfl _ _).trans hentry
  have hmet : meetLog h l s = applyLog h l e.desc (metLog h l s) := by
    show (match entryOf h.ring h.seq (metLog h l s) with
      | none => metLog h l s
      | some e => if opCrc e.desc (some h.payload) == l.crc || (l.status != stOk && opCrc e.desc none == l.crc) then
          applyLog h l e.desc (metLog h l s) else markStale (h.ring / 8) (metLog h l s)) = _
    rw [hentry']
    dsimp only
    rw [hcrc, beq_self_eq_true, Bool.true_or, if_pos rfl]
  have hbind' : bindingOf h.ring (metLog h l s) = 1 := hbind
  rw [hmet, applyLog]
  dsimp only
  rw [hbind']
  split <;> rfl

/-- A LOG that no waiting one precedes is the one that its held operation meets. -/
theorem matchLogs_of_last {h : HeldOp} {m : Nat} {l : LogInfo} {logs : List (Nat × LogInfo)}
    (hnone : logs.find? (fun x => x.2.ring == h.ring && x.2.seq == h.seq) = none) (hring : h.ring = l.ring)
    (hseq : h.seq = l.seq) (hlogs : s.gft.logs = logs ++ [(m, l)]) : matchLogs [h] s = meetLog h l s := by
  have hfind : s.gft.logs.find? (fun x => x.2.ring == h.ring && x.2.seq == h.seq) = some (m, l) := by
    rw [hlogs, List.find?_append, hnone, hring, hseq]
    simp
  rw [matchLogs, hfind]
  rfl

/-- A LOG of an operation that is held completes it (R474). -/
theorem log_of_held {l : OnLink LogInfo} {h : HeldOp} {e : JRec} (hready : linkReady l.link s) (hlive : standbyLive s = true)
    (hheld : heldFor l.body s = [h])
    (hnolog : (s.gft.logs.find? fun x => x.2.ring == h.ring && x.2.seq == h.seq) = none)
    (hruns : Runs h.ring h.seq e s) (hcrc : opCrc e.desc (some h.payload) = l.body.crc) (hbind : bindingOf h.ring s = 1) :
    ∃ u, exec (.log l) s = .next u ∧ endedAs h.ring h.seq l.body.status (some l.body.result) u ∧
    u.gft.held = s.gft.held.erase h ∧ lookD u.gft.cnt 8 0 = (lookD s.gft.cnt 8 0 + 1) % 2 ^ 64 := by
  obtain ⟨g, hstill, hexec⟩ := log_of_live hready hlive
  have hmem : h ∈ heldFor l.body s := by rw [hheld]; exact List.mem_singleton.mpr rfl
  obtain ⟨hin, hof⟩ := List.mem_filter.mp hmem
  simp only [Bool.and_eq_true, beq_iff_eq] at hof
  obtain ⟨hring, hseq⟩ := hof
  have hheard : (s.gft.held.any fun h => h.ring == l.body.ring && h.seq == l.body.seq) = true :=
    List.any_eq_true.mpr ⟨h, hin, by rw [hring, hseq, beq_self_eq_true, beq_self_eq_true]; rfl⟩
  have hunknown : logKnown l.body s = false := by
    have hnone : (s.gft.logs.any fun e => e.2.ring == l.body.ring && e.2.seq == l.body.seq) = false := by
      refine List.any_eq_false.mpr fun x hx => ?_
      rw [← hring, ← hseq]
      exact List.find?_eq_none.mp hnolog x hx
    rw [logKnown, hnone, hheard, Bool.not_true, Bool.and_false]
    rfl
  rw [hunknown, hheld, if_neg Bool.false_ne_true, matchLogs_of_last hnolog hring hseq rfl,
    meetLog_of_send (s := { s with gft := { g with logs := s.gft.logs ++ [(fullMark l.link.mark s, l.body)] } })
      ((entryOf_congr (s := s) rfl _ _).trans hruns.entry) hcrc hbind] at hexec
  refine ⟨_, hexec, ?_, ?_, ?_⟩
  · have hlater := hruns.congr (t := metLog h l.body
      { s with gft := { g with logs := s.gft.logs ++ [(fullMark l.link.mark s, l.body)] } }) rfl
    have hfin := hlater.finish l.body.status (some l.body.result) false
    rw [hlater.gen] at hfin
    exact endedAs_congr rfl hfin
  · exact congrArg (·.erase h) (eq_of_still hstill Gft.held fun _ => rfl)
  · refine (lookD_bumpBy_self g.cnt 8 1).trans ?_
    rw [eq_of_still hstill Gft.cnt fun _ => rfl]

/-! ### Mirror and SYNC frames (R468, R483) -/

theorem tryCommits_of_none (h : s.gft.commits = []) : tryCommits s = s := by
  rw [tryCommits, h]
  rfl

/-- A frame of a tick that has not committed is staged once. -/
theorem mirrorFrame_of_live {f : MirrorFrame} (h : linkReady l s) (hlive : standbyLive s = true)
    (hmark : notCommitted l.mark s = true) (hcommits : s.gft.commits = []) : ∃ g : Gft, g.still = s.gft.still ∧
    g.lastRx = s.clk.now ∧ exec (.mirrorFrame l f) s = .next { s with gft := { g with
      staged := if (l.mark % 2 ^ 48, f) ∈ s.gft.staged then s.gft.staged else s.gft.staged ++ [(l.mark % 2 ^ 48, f)] } } := by
  obtain ⟨g, htook, hstill, hlast⟩ := tookFrame_is l.lane s
  refine ⟨g, hstill, hlast, ?_⟩
  show execMirrorFrame l f s = _
  rw [execMirrorFrame, onLane_of_ready h, htook]
  dsimp only
  have hstaged : g.staged = s.gft.staged := eq_of_still hstill Gft.staged fun _ => rfl
  rw [standbyLive_congr hstill, hlive, notCommitted_congr hstill, hmark, hstaged]
  by_cases hin : (l.mark % 2 ^ 48, f) ∈ s.gft.staged
  · rw [List.contains_iff_mem.mpr hin, if_pos hin, ← hstaged]
    rfl
  · rw [if_neg hin, Bool.eq_false_iff.mpr fun h => hin (List.contains_iff_mem.mp h)]
    refine congrArg Host.Outcome.next (tryCommits_of_none ?_)
    exact (eq_of_still hstill Gft.commits fun _ => rfl).trans hcommits

theorem syncKnown_congr {g : Gft} (h : g.still = s.gft.still) (key mark : Nat) :
    syncKnown key mark { s with gft := g } = syncKnown key mark s := by
  unfold syncKnown
  rw [notCommitted_congr h]
  dsimp only
  rw [eq_of_still h Gft.fresh fun _ => rfl, eq_of_still h Gft.phase fun _ => rfl]
  rfl

/-- A page of the background copy enters the image, and memory and rings stay (R468). -/
theorem imagePage_spec (p page : Nat) (data : Bytes) (s : State) : (imagePage p page data s).mem = s.mem ∧
    (imagePage p page data s).rng = s.rng ∧ (imagePage p page data s).gft =
      { s.gft with mirror := put s.gft.mirror (pageKey p page) (Memory.write [] 0 (data.take 4096)) } := by
  unfold imagePage
  dsimp only
  split <;> exact ⟨rfl, rfl, rfl⟩

/-- The page that the standby holds says that the copy begins anew. -/
def copyAgain (key : Nat) (s : State) : State :=
  if s.gft.phase != .syncing && (look s.gft.mirror key).isSome then syncAgain s else s

theorem sync_of_live {p iova : Nat} {data : Bytes} (h : linkReady l s) (hlive : standbyLive s = true)
    (hnew : syncKnown (pageKey p (iova / 4096)) l.mark s = false) : ∃ g : Gft, g.still = s.gft.still ∧ ∃ v,
    v = imagePage p (iova / 4096) data (copyAgain (pageKey p (iova / 4096)) { s with gft := g }) ∧
    exec (.sync p iova data l) s =
      .next { v with gft := { v.gft with fresh := put v.gft.fresh (pageKey p (iova / 4096)) (l.mark % 2 ^ 48) } } := by
  obtain ⟨g, htook, hstill, -⟩ := tookFrame_is l.lane s
  refine ⟨g, hstill, _, rfl, ?_⟩
  show execSync p iova data l s = _
  rw [execSync, onLane_of_ready h, htook]
  dsimp only
  rw [standbyLive_congr hstill, hlive, syncKnown_congr hstill, hnew]
  rfl

theorem copyAgain_spec (key : Nat) (s : State) : (copyAgain key s).mem = s.mem ∧ (copyAgain key s).rng = s.rng ∧
    (s.gft.phase ≠ .syncing → (look s.gft.mirror key).isSome = true →
      (copyAgain key s).gft.phase = .syncing ∧ (copyAgain key s).gft.staged = []) ∧
    ((s.gft.phase = .syncing ∨ look s.gft.mirror key = none) → (copyAgain key s).gft.phase = s.gft.phase) := by
  unfold copyAgain
  split
  · rename_i hagain
    simp only [Bool.and_eq_true, bne_iff_ne] at hagain
    obtain ⟨hphase, hheld⟩ := hagain
    refine ⟨rfl, rfl, fun _ _ => ⟨rfl, rfl⟩, fun hor => ?_⟩
    rcases hor with hsync | hnone
    · exact absurd hsync hphase
    · rw [hnone] at hheld
      exact nomatch hheld
  · rename_i hstays
    refine ⟨rfl, rfl, fun hphase hheld => absurd ?_ hstays, fun _ => rfl⟩
    rw [hheld, bne_iff_ne.mpr hphase]
    rfl

/-! ### COMMIT on the standby (R468, R476, R477) -/

theorem commit_of_live {c : CommitInfo} (h : linkReady l s) (hlive : standbyLive s = true) (hcommits : s.gft.commits = [])
    (hmark : notCommitted c.mark s = true) : ∃ g : Gft, g.still = s.gft.still ∧
    exec (.commit l c) s = .next (tryCommits { s with gft := { g with commits := [c] } }) := by
  obtain ⟨g, htook, hstill, -⟩ := tookFrame_is l.lane s
  refine ⟨g, hstill, ?_⟩
  show execCommit l c s = _
  rw [execCommit, onLane_of_ready h, htook]
  dsimp only
  rw [standbyLive_congr hstill, hlive, notCommitted_congr hstill, hmark,
    (eq_of_still hstill Gft.commits fun _ => rfl).trans hcommits, List.any_nil, List.nil_append, Bool.not_true,
    Bool.or_false, Bool.or_false, if_neg Bool.false_ne_true]

theorem tryCommits_of_one {c : CommitInfo} (h : s.gft.commits = [c]) :
    tryCommits s = if standbyLive s && recordWhole c s then commitTick c s else s := by
  have hfirst : firstCommit s = some c := by
    rw [firstCommit, h]
    simp
  rw [tryCommits, h, List.length_singleton, commitWhole, hfirst]
  rfl

theorem recordWhole_of_count {c : CommitInfo} (h : (stagedOf c.mark s).length ≠ c.count) : recordWhole c s = false := by
  rw [recordWhole, beq_eq_false_iff_ne.mpr h]
  rfl

theorem idles_of_mirrored (h : ∀ e ∈ mirrored s, e.2.current = false) : Idles s := by
  intro e he
  by_cases hnil : e.2.mirror = []
  · exact .inl hnil
  · refine .inr (h e (List.mem_filter.mpr ⟨he, ?_⟩))
    rw [List.isEmpty_eq_false_iff.mpr hnil]
    rfl

theorem idles_congr (g : Gft) (h : Idles s) : Idles { s with gft := g } := h

theorem current_of_idles (h : Idles s) : ((mirrored s).filter fun e => e.2.current) = [] := by
  refine List.filter_eq_nil_iff.mpr fun e he hcurrent => ?_
  obtain ⟨hin, hmirror⟩ := List.mem_filter.mp he
  rcases h e hin with hnil | hidle
  · rw [hnil] at hmirror
    exact nomatch hmirror
  · rw [hidle] at hcurrent
    exact nomatch hcurrent

theorem phaseAfter_spec (clean : Bool) (g : Gft) : ∃ p n, phaseAfter clean g = { g with phase := p, goodCommits := n } ∧
    (g.phase = .syncing → p = .shadowing) := by
  unfold phaseAfter
  split
  · exact ⟨_, _, rfl, fun _ => rfl⟩
  · rename_i hsync
    have hne : g.phase ≠ .syncing := fun h => hsync (beq_iff_eq.mpr h)
    split
    · split
      · exact ⟨_, _, rfl, fun h => absurd h hne⟩
      · exact ⟨_, _, rfl, fun h => absurd h hne⟩
    · exact ⟨_, _, rfl, fun h => absurd h hne⟩

/-- Where no partition is in shadow execution, nothing is compared: the phase after the commit depends on the phase before. -/
theorem commitShadows_of_idle (c : CommitInfo) (hidle : Idles s) : ∃ t clean, Steady false s t ∧
    (commitShadows c [] s).gft = phaseAfter clean t.gft := by
  unfold commitShadows
  extract_lets start late s1 cur clean s2 s3 s4
  have h1 : Steady false s s1 := steady_matchLogs _ (Steady.refl false s)
  have hcur : cur = [] := current_of_idles ((steady_matchLogs _ (Steady.refl true s)).idles rfl hidle)
  have h2 : Steady false s s2 := by
    simp only [s2]
    rw [hcur]
    exact .ite h1.updParts (.ite h1 h1)
  have h3 : Steady false s s3 := steady_dropUnmatched h2
  have h4 : Steady false s s4 := .ite h3 (steady_reseeds _ h3)
  exact ⟨s4, clean, h4, rfl⟩

/-- The Graft engine after a tick record with no line and no state of its own, at its new mark. -/
def recorded (mark pages bytes : Nat) (c : CommitInfo) (s : State) : Gft :=
  { s.gft with
    staged := s.gft.staged.filter fun e => e.1 != c.mark % 2 ^ 48
    commits := s.gft.commits.filter fun x => x.mark % 2 ^ 48 != c.mark % 2 ^ 48
    cnt := bumpBy (bumpBy (bumpBy s.gft.cnt 2 bytes) 1 pages) 0 1, mark := mark, markOsn := c.osn, bytes := bytes
    synced := true, fresh := s.gft.fresh.filter fun e => decide (fullMark c.mark s < fullMark e.2 s) }

/-- A tick record with no frame moves the mark on and counts the commit (R468, R488). -/
theorem commitRecord_of_none (c : CommitInfo) (s : State) : ∃ pages bytes, commitRecord c [] s =
    { s with gft := recorded (markAfter (fullMark c.mark s) s % 2 ^ 48) pages bytes c s } := by
  unfold commitRecord countGft recorded
  dsimp only [List.foldl_nil]
  exact ⟨_, _, rfl⟩

theorem recorded_spec (mark pages bytes : Nat) (c : CommitInfo) (s : State) :
    (recorded mark pages bytes c s).phase = s.gft.phase ∧
    (recorded mark pages bytes c s).mark = mark ∧ (recorded mark pages bytes c s).markOsn = c.osn ∧
    (recorded mark pages bytes c s).commits = (s.gft.commits.filter fun x => x.mark % 2 ^ 48 != c.mark % 2 ^ 48) ∧
    (recorded mark pages bytes c s).cnt = bumpBy (bumpBy (bumpBy s.gft.cnt 2 bytes) 1 pages) 0 1 :=
  ⟨rfl, rfl, rfl, rfl, rfl⟩

/-- The tick with no frame commits while no partition is in shadow execution. -/
theorem commitTick_of_none {c : CommitInfo} (hstaged : stagedOf c.mark s = []) (hidle : Idles s) :
    (commitTick c s).gft.mark = markAfter (fullMark c.mark s) s % 2 ^ 48 ∧ (commitTick c s).gft.markOsn = c.osn ∧
    (commitTick c s).gft.commits = (s.gft.commits.filter fun x => x.mark % 2 ^ 48 != c.mark % 2 ^ 48) ∧
    (s.gft.phase = .syncing → (commitTick c s).gft.phase = .shadowing) ∧
    lookD (commitTick c s).gft.cnt 0 0 = (lookD s.gft.cnt 0 0 + 1) % 2 ^ 64 := by
  obtain ⟨pages, bytes, hrecord⟩ := commitRecord_of_none c s
  obtain ⟨hphase, hmark, hosn, hcommits, hcnt⟩ :=
    recorded_spec (markAfter (fullMark c.mark s) s % 2 ^ 48) pages bytes c s
  generalize recorded _ pages bytes c s = g at hrecord hphase hmark hosn hcommits hcnt
  have htick : commitTick c s = sendAck (some (commitShadows c [] (commitRecord c [] s)).gft.mark)
      (commitShadows c [] (commitRecord c [] s)) := by rw [commitTick, hstaged]
  obtain ⟨t, clean, hsteady, hgft⟩ := commitShadows_of_idle (s := { s with gft := g }) c (idles_congr g hidle)
  rw [hrecord] at htick
  generalize hw : ({ s with gft := g } : State) = w at htick hsteady hgft
  have hwgft : g = w.gft := by rw [← hw]
  rw [hwgft] at hphase hmark hosn hcommits hcnt
  obtain ⟨p, n, hafter, hsync⟩ := phaseAfter_spec clean t.gft
  rw [htick]
  have hcore := core_sendAck (some (commitShadows c [] w).gft.mark) (commitShadows c [] w)
  generalize sendAck _ _ = u at hcore
  rw [hgft, hafter] at hcore
  have hfixed := hsteady.fixed
  refine ⟨?_, ?_, ?_, fun hbefore => ?_, ?_⟩
  · exact (eq_of_core hcore Gft.mark fun _ => rfl).trans ((eq_of_fixed hfixed Gft.mark fun _ => rfl).trans hmark)
  · exact (eq_of_core hcore Gft.markOsn fun _ => rfl).trans ((eq_of_fixed hfixed Gft.markOsn fun _ => rfl).trans hosn)
  · exact (eq_of_core hcore Gft.commits fun _ => rfl).trans ((eq_of_fixed hfixed Gft.commits fun _ => rfl).trans hcommits)
  · refine (eq_of_core hcore Gft.phase fun _ => rfl).trans (hsync ?_)
    exact (eq_of_fixed hfixed Gft.phase fun _ => rfl).trans (hphase.trans hbefore)
  · have hkept : lookD u.gft.cnt 0 0 = lookD t.gft.cnt 0 0 := congrArg (lookD · 0 0) (eq_of_core hcore Gft.cnt fun _ => rfl)
    rw [hkept, hsteady.commits, hcnt, lookD_bumpBy_self, lookD_bumpBy_other _ pages (by decide),
      lookD_bumpBy_other _ bytes (by decide)]

/-- Settles O53: each row through the state in which its frame acts, and a COMMIT with no frame through `commitTick_of_none`. -/
theorem graftFrames : Obligations.GraftFrames := by
  unfold Obligations.GraftFrames
  refine ⟨fun l l0 l1 a w ring st seq g f c p q iova data s hup hnext => ?_,
    fun l w s h hrole hphase hfwd => ?_,
    fun ring seq a f e s h hfound hring hfind hgen hlive hfresh => ?_,
    fun l s h hlive => ⟨fun hnew hnone => ?_, fun hknown => ?_,
      fun h e hheld hnolog hfind halone hlive' hfresh hcrc hbind => ?_⟩,
    fun l f s h hlive hmark hcommits => ?_,
    fun p iova data l s h hlive => ?_, fun l c s h hlive hcommits hmark hcount hstaged hcrc hidle => ?_,
    fun l c s h hlive hcommits hmark hcount => ?_, fun p s h hpaired hrole => ?_, fun s hlanes hcold hpaired => ?_⟩
  · intro t
    refine ⟨?_, ?_, ?_, ?_, ?_, ?_, ?_, ?_⟩
    · show execAck l0 l1 ⟨l, a⟩ s = _
      rw [execAck, onLane_of_other hup hnext]
    · show execCmd ⟨l, w⟩ s = _
      rw [execCmd, onLane_of_other hup hnext]
    · show execCmdack ring seq ⟨l, st⟩ s = _
      rw [execCmdack, onLane_of_other hup hnext]
    · show execLog ⟨l, g⟩ s = _
      rw [execLog, onLane_of_other hup hnext]
    · show execMirrorFrame l f s = _
      rw [execMirrorFrame, onLane_of_other hup hnext]
    · show execCommit l c s = _
      rw [execCommit, onLane_of_other hup hnext]
    · show execPair ⟨l, p⟩ s = _
      rw [execPair, onLane_of_other hup hnext]
    · show execSync q iova data l s = _
      rw [execSync, onLane_of_other hup hnext]
  · obtain ⟨honly, -⟩ := tookFrame_spec l.lane s
    have hstill := still_tookFrame l.lane s
    refine ⟨fun a hknown => ?_, fun st hnew hjudge hfail => cmd_of_failed h hrole hphase hfwd hnew hjudge hfail,
      fun hnew hjudge hop hok => cmd_of_fltCoeff h hrole hphase hfwd hnew hjudge hop hok⟩
    have hexec := cmd_of_shadowing h hrole hphase hfwd
    rw [show s.gft.acks.find? (kept w.cmd) = some a from hknown] at hexec
    dsimp only at hexec
    generalize tookFrame l.lane s = v at hexec honly hstill
    have hall := honly.trans (LinkOnly.gftSendOne (.cmdack w.cmd.ring w.cmd.desc.w1 a.2.2.2) v)
    have hcore := core_gftSendOne v (.cmdack w.cmd.ring w.cmd.desc.w1 a.2.2.2)
    exact ⟨_, hexec, (eq_of_core hcore Gft.acks fun _ => rfl).trans (eq_of_still hstill Gft.acks fun _ => rfl),
      (congrArg State.rng hall :), (congrArg State.flt hall :), (congrArg State.cnp hall :), (congrArg State.mem hall :)⟩
  · exact cmdack_spec h hfound hring hfind hgen hlive hfresh
  · obtain ⟨g, hstill, hexec⟩ := log_of_live h hlive
    rw [hnew, show heldFor l.body s = [] from hnone] at hexec
    exact ⟨_, hexec, rfl, eq_of_still hstill Gft.held fun _ => rfl, rfl⟩
  · obtain ⟨g, hstill, hexec⟩ := log_of_live h hlive
    rw [if_pos hknown] at hexec
    exact ⟨_, hexec, eq_of_still hstill Gft.logs fun _ => rfl, eq_of_still hstill Gft.held fun _ => rfl⟩
  · rename_i hready
    exact log_of_held hready hlive hheld hnolog ⟨hfind, halone, hlive', hfresh⟩ hcrc hbind
  · obtain ⟨g, hstill, hlast, hexec⟩ := mirrorFrame_of_live (f := f) h hlive hmark hcommits
    exact ⟨_, hexec, hlast, fun hout => if_neg hout, fun hin => if_pos hin, rfl, rfl⟩
  · intro key hnew
    obtain ⟨g, hstill, v, hv, hexec⟩ := sync_of_live (data := data) h hlive hnew
    obtain ⟨hmem, hrng, hgft⟩ := imagePage_spec p (iova / 4096) data (copyAgain key { s with gft := g })
    obtain ⟨hcmem, hcrng, hagain, hstays⟩ := copyAgain_spec key { s with gft := g }
    rw [← hv] at hmem hrng hgft
    have hphase : g.phase = s.gft.phase := eq_of_still hstill Gft.phase fun _ => rfl
    have himage : g.mirror = s.gft.mirror := eq_of_still hstill Gft.mirror fun _ => rfl
    dsimp only at hagain hstays
    rw [hphase, himage] at hagain hstays
    have hvphase : v.gft.phase = (copyAgain key { s with gft := g }).gft.phase := (congrArg Gft.phase hgft :)
    refine ⟨_, hexec, hmem.trans hcmem, hrng.trans hcrng, ?_, look_put_self _ _ _, fun hne hheld => ?_, fun hor => ?_⟩
    · exact (congrArg (look · key) (congrArg Gft.mirror hgft :)).trans (look_put_self _ _ _)
    · obtain ⟨hsync, hnone⟩ := hagain hne hheld
      exact ⟨hvphase.trans hsync, (congrArg Gft.staged hgft :).trans hnone⟩
    · exact hvphase.trans (hstays hor)
  · obtain ⟨g, hstill, hexec⟩ := commit_of_live h hlive hcommits hmark
    have hstaged' : stagedOf c.mark { s with gft := { g with commits := [c] } } = [] := by
      rw [← hstaged]
      unfold stagedOf
      dsimp only
      rw [eq_of_still hstill Gft.staged fun _ => rfl]
    have hwhole : recordWhole c { s with gft := { g with commits := [c] } } = true := by
      rw [recordWhole, hstaged', hcount, hcrc, beq_self_eq_true]
      rfl
    have hstand : standbyLive { s with gft := { g with commits := [c] } } = true := (standbyLive_congr hstill).trans hlive
    rw [tryCommits_of_one rfl, hwhole, hstand, Bool.and_true, if_pos rfl] at hexec
    obtain ⟨hm, hosn, hleft, hsync, hcnt⟩ := commitTick_of_none hstaged'
      (s := { s with gft := { g with commits := [c] } }) (idles_congr _ (idles_of_mirrored hidle))
    refine ⟨_, hexec, hm, hosn, hleft.trans ?_, fun hbefore => hsync ?_, hcnt.trans ?_⟩
    · simp
    · exact (eq_of_still hstill Gft.phase fun _ => rfl).trans hbefore
    · dsimp only
      rw [eq_of_still hstill Gft.cnt fun _ => rfl]
  · obtain ⟨g, hstill, hexec⟩ := commit_of_live h hlive hcommits hmark
    have hstaged : stagedOf c.mark { s with gft := { g with commits := [c] } } = stagedOf c.mark s := by
      unfold stagedOf
      dsimp only
      rw [eq_of_still hstill Gft.staged fun _ => rfl]
    rw [tryCommits_of_one rfl, recordWhole_of_count (by rw [hstaged]; exact hcount), Bool.and_false,
      if_neg Bool.false_ne_true] at hexec
    exact ⟨_, hexec, rfl, eq_of_still hstill Gft.staged fun _ => rfl, eq_of_still hstill Gft.mark fun _ => rfl,
      eq_of_still hstill Gft.phase fun _ => rfl⟩
  · obtain ⟨g, htook, hstill, hlast⟩ := tookFrame_is p.link.lane s
    have hexec : exec (.pair p) s = execPair p s := rfl
    rw [execPair, onLane_of_ready h, htook] at hexec
    dsimp only at hexec
    rw [isPaired_congr hstill, hpaired, eq_of_still hstill Gft.role fun _ => rfl, beq_eq_false_iff_ne.mpr hrole,
      eq_of_still hstill Gft.line fun _ => rfl] at hexec
    exact ⟨_, hexec, rfl, rfl, hlast, eq_of_still hstill Gft.phase fun _ => rfl, rfl⟩
  · obtain ⟨v, -, hstill, hexec⟩ := onLanes_of_up hlanes hcold fun t => if isPaired t then unpairNow t else t
    have hpaired' : isPaired v = true := by
      unfold isPaired at hpaired ⊢
      rw [eq_of_still hstill Gft.phase fun _ => rfl]
      exact hpaired
    rw [hpaired'] at hexec
    obtain ⟨hphase, -, -, hwait, hrole⟩ := unpairNow_spec v
    rw [eq_of_still hstill Gft.role fun _ => rfl] at hrole
    exact ⟨_, congrArg Host.Outcome.next hexec, hphase, hwait, hrole⟩

end Sys2Proof.Machine
end
